-- ==== Sys2Proof/Word.lean ====
section
/-! DEFINITION. The word types of the SX880 and their plainest arithmetic. -/

namespace Sys2Proof

/-- One byte of a packet, a frame or a memory. -/
abbrev Byte := BitVec 8

/-- One 32-bit register or memory word (R12). -/
abbrev Word := BitVec 32

/-- One half word, a 16-bit field of a packet (R10). -/
abbrev Half := BitVec 16

/-- The number of a reader port P0-P7, and of the engine that serves it. -/
abbrev PortNum := Fin 8

/-- The number of a host port HP0-HP3. -/
abbrev HostNum := Fin 4

/-- The number of an engine general register G0-G15. -/
abbrev RegNum := Fin 16

end Sys2Proof
end

