-- ==== Sys2Proof/Syntax.lean ====
section
/-! DEFINITION. The commands of the SX880: one constructor of Instr per row of spec/opcode_table.json,
and the operand types they carry. A host command's operand is its packet (R303-R307); an event's operand
is what the event measures or names. -/

namespace Sys2Proof

/-- A host command packet as its receiver hands it over: the host port it arrived on, SEQ, FLAGS, TARGET
and the payload (R303-R306). The opcode is the row's own. -/
structure HostCmd where
  hp : HostNum
  seq : Byte
  flags : Byte
  target : Byte
  payload : List Byte
  deriving DecidableEq, Repr

/-- The two SPI host ports, HP0 and HP1 (R36). -/
inductive SpiPort where
  | hp0 | hp1
  deriving DecidableEq, Repr

/-- A frame as the receive chain hands it to the framer at its end (R95-R100, R106, R107, R183).
`bytes` holds every received byte, CRC bytes among them; `lastBits` the valid bits of the last byte (0: 8);
`dur` the time from the reply's start to its end in fc cycles; `codingErr` an illegal symbol, SOF, EOF or
character time (R122, R123); `parityErr` a 14443-A parity error; `collided` the positions of collided bits
counted from bit 0; `est` the AFC estimate before its limit and `ppm` the residual error, in ppm (R88, R97);
`spread` the transition spread in 1/256 output sample (R96); `evm` in 0.1 % (R98); `power` the mean power of
the body at the RX pins in 0.25 dBFS (R99); `points` the complex points of the collided bits that are not
parity bits, one unit being 2^-15 of a full-scale amplitude (R183). -/
structure RxFrame where
  bytes : List Byte
  lastBits : Fin 8
  dur : Nat
  codingErr : Bool
  parityErr : Bool
  collided : List Nat
  est : Int
  ppm : Int
  spread : Nat
  evm : Nat
  power : Int
  points : List (Int × Int)
  deriving DecidableEq, Repr

/-- A burst that the timing unit times in a challenge slot: ONSET in 1/64 fc cycle, PHASE and the burst's
SNR in dB (R231-R233). -/
structure Burst where
  onset : BitVec 11
  phase : Bool
  snr : Nat
  deriving DecidableEq, Repr

/-- The answer to DB_END as the engine passes it on (R165, R244): a tag status, and with OK the challenge
bits CRX and the MAC; or no reply. -/
inductive DbReply where
  | answered (status : Byte) (crx : List Byte) (mac : List Byte)
  | silent
  deriving DecidableEq, Repr

/-- Which of the two bus masters of a port's registers makes an access (R24, R403). -/
inductive Side where
  | engine | hearth
  deriving DecidableEq, Repr

/-- The two FIFOs of a reader port (R399). -/
inductive Dir where
  | rx | tx
  deriving DecidableEq, Repr

/-- The count operand of an engine shift: a register or an immediate (R429, R435). -/
inductive ShiftCount where
  | reg (r : RegNum)
  | imm (v : BitVec 8)
  deriving DecidableEq, Repr

/-- The count operand of REP: a register or an immediate (R429, R436). -/
inductive RepCount where
  | reg (r : RegNum)
  | imm (v : Half)
  deriving DecidableEq, Repr

/-- A timer channel: one of the four of a reader port or of the eight global ones (R458). -/
inductive Channel where
  | port (p : PortNum) (c : Fin 4)
  | global (c : Fin 8)
  deriving DecidableEq, Repr

/-- What a Kiln nonce is issued for (R527). -/
inductive Purpose where
  | xpdrUnlock | debugUnlock
  deriving DecidableEq, Repr

/-- The two link protocols port T speaks (R145, R167). -/
inductive LinkProto where
  | aelyr | osgil
  deriving DecidableEq, Repr

/-- A timed measurement of CAL_RUN (R287, R293-R295): the cross-check's deviation in 0.01 dB; a tuning
step's drive phase in 0.1 degree; the mean carrier magnitude of a mapped antenna at the ADC in 2^-20 of
full scale. -/
inductive CalMeasure where
  | crossCheck (dev : Int)
  | tuneStep (phase : Int)
  | antenna (magnitude : Nat)
  deriving DecidableEq, Repr

/-- A timed interval of CAL_COUPLING (R214-R216): the freeze point; a source's time with each receiver's raw
coupling m[i][j] as a pair in 2^-20 and, per receiver, the ADC sample of the half height of its step; or a
half-cycle disturbed by a port outside the set. -/
inductive CouplingMeasure where
  | freeze
  | source (m : List (Int × Int)) (edge : List Nat)
  | disturbed
  deriving DecidableEq, Repr

/-- One command of the SX880 per row of spec/opcode_table.json; each docstring names the row and its rule. -/
inductive Instr where
  /-- INFO (R351). -/
  | info (h : HostCmd)
  /-- IDENT (R525). -/
  | ident (h : HostCmd)
  /-- DEV_RESET (R352). -/
  | devReset (h : HostCmd)
  /-- DEV_RESET_FIRE (R352). -/
  | devResetFire
  /-- GET_LOG (R353). -/
  | getLog (h : HostCmd)
  /-- HOST_CONFIG (R354). -/
  | hostConfig (h : HostCmd)
  /-- HOST_STATUS (R339). -/
  | hostStatus (h : HostCmd)
  /-- OWN_CLAIM (R335). -/
  | ownClaim (h : HostCmd)
  /-- OWN_RELEASE (R335). -/
  | ownRelease (h : HostCmd)
  /-- OWN_QUERY (R351). -/
  | ownQuery (h : HostCmd)
  /-- KINDLING_SCAN (R209). -/
  | kindlingScan (h : HostCmd)
  /-- PORT_OPEN (R356). -/
  | portOpen (h : HostCmd)
  /-- PORT_CLOSE (R356). -/
  | portClose (h : HostCmd)
  /-- PORT_SET (R357). -/
  | portSet (h : HostCmd)
  /-- FIELD_ON (R358). -/
  | fieldOn (h : HostCmd)
  /-- FIELD_OFF (R358). -/
  | fieldOff (h : HostCmd)
  /-- GRATE_SELECT (R359). -/
  | grateSelect (h : HostCmd)
  /-- PORT_RESET (R360). -/
  | portReset (h : HostCmd)
  /-- PORT_GET (R361). -/
  | portGet (h : HostCmd)
  /-- PORT_STATUS (R355). -/
  | portStatus (h : HostCmd)
  /-- GROUP_SET (R361). -/
  | groupSet (h : HostCmd)
  /-- GROUP_QUERY (R355). -/
  | groupQuery (h : HostCmd)
  /-- TRANSCEIVE (R363). -/
  | transceive (h : HostCmd)
  /-- A_ACTIVATE (R364). -/
  | aActivate (h : HostCmd)
  /-- B_ACTIVATE (R364). -/
  | bActivate (h : HostCmd)
  /-- APDU (R364). -/
  | apdu (h : HostCmd)
  /-- DESELECT (R364). -/
  | deselect (h : HostCmd)
  /-- VHBR_PARAMS (R362). -/
  | vhbrParams (h : HostCmd)
  /-- V_CMD (R365). -/
  | vCmd (h : HostCmd)
  /-- INV_CONFIG (R367). -/
  | invConfig (h : HostCmd)
  /-- INV_START (R175). -/
  | invStart (h : HostCmd)
  /-- INV_STOP (R368). -/
  | invStop (h : HostCmd)
  /-- INV_QUERY (R366). -/
  | invQuery (h : HostCmd)
  /-- TT_READ (R369). -/
  | ttRead (h : HostCmd)
  /-- TT_FIND (R197). -/
  | ttFind (h : HostCmd)
  /-- TT_DELETE (R202). -/
  | ttDelete (h : HostCmd)
  /-- TT_CLEAR (R370). -/
  | ttClear (h : HostCmd)
  /-- TT_SET_FLAGS (R370). -/
  | ttSetFlags (h : HostCmd)
  /-- TT_CONFIG (R366). -/
  | ttConfig (h : HostCmd)
  /-- AL_SCAN (R374). -/
  | alScan (h : HostCmd)
  /-- AL_SELECT (R372). -/
  | alSelect (h : HostCmd)
  /-- AL_HALT (R152). -/
  | alHalt (h : HostCmd)
  /-- AL_READ (R156). -/
  | alRead (h : HostCmd)
  /-- AL_WRITE (R156). -/
  | alWrite (h : HostCmd)
  /-- AL_LOCK_BLOCK (R156). -/
  | alLockBlock (h : HostCmd)
  /-- AL_AREA_INFO (R155). -/
  | alAreaInfo (h : HostCmd)
  /-- AL_AUTH_PWD (R157). -/
  | alAuthPwd (h : HostCmd)
  /-- AL_SET_PWD (R158). -/
  | alSetPwd (h : HostCmd)
  /-- AL_UNLOCK (R375). -/
  | alUnlock (h : HostCmd)
  /-- AL_READ_CNT (R161). -/
  | alReadCnt (h : HostCmd)
  /-- AL_INC_CNT (R161). -/
  | alIncCnt (h : HostCmd)
  /-- OS_GET_ID (R168). -/
  | osGetId (h : HostCmd)
  /-- OS_READ_PAGE (R168). -/
  | osReadPage (h : HostCmd)
  /-- OS_WRITE_PAGE (R168). -/
  | osWritePage (h : HostCmd)
  /-- OS_LOGIN (R170). -/
  | osLogin (h : HostCmd)
  /-- OS_LOGOUT (R168). -/
  | osLogout (h : HostCmd)
  /-- OS_SET_PASSWORD (R168). -/
  | osSetPassword (h : HostCmd)
  /-- OS_LOCK_PAGE (R168). -/
  | osLockPage (h : HostCmd)
  /-- DB_RUN (R246). -/
  | dbRun (h : HostCmd)
  /-- DB_CAL (R237). -/
  | dbCal (h : HostCmd)
  /-- DB_CONFIG (R378). -/
  | dbConfig (h : HostCmd)
  /-- XPDR_CONFIG (R380). -/
  | xpdrConfig (h : HostCmd)
  /-- XPDR_AREA_SET (R259). -/
  | xpdrAreaSet (h : HostCmd)
  /-- XPDR_READ (R266). -/
  | xpdrRead (h : HostCmd)
  /-- XPDR_WRITE (R381). -/
  | xpdrWrite (h : HostCmd)
  /-- XPDR_CNT_READ (R266). -/
  | xpdrCntRead (h : HostCmd)
  /-- XPDR_CNT_INC (R261). -/
  | xpdrCntInc (h : HostCmd)
  /-- XPDR_AREA_INFO (R379). -/
  | xpdrAreaInfo (h : HostCmd)
  /-- XPDR_UNLOCK (R382). -/
  | xpdrUnlock (h : HostCmd)
  /-- XPDR_STATUS (R379). -/
  | xpdrStatus (h : HostCmd)
  /-- CAL_RUN (R293). -/
  | calRun (h : HostCmd)
  /-- CAL_EXPORT (R298). -/
  | calExport (h : HostCmd)
  /-- CAL_IMPORT (R301). -/
  | calImport (h : HostCmd)
  /-- CAL_COUPLING (R214). -/
  | calCoupling (h : HostCmd)
  /-- CAL_CONFIG (R383). -/
  | calConfig (h : HostCmd)
  /-- CAL_STATUS (R383). -/
  | calStatus (h : HostCmd)
  /-- PWR_ENTER (R386). -/
  | pwrEnter (h : HostCmd)
  /-- WAKE_CONFIG (R484). -/
  | wakeConfig (h : HostCmd)
  /-- EMBER_CONFIG (R489). -/
  | emberConfig (h : HostCmd)
  /-- PWR_STATUS (R385). -/
  | pwrStatus (h : HostCmd)
  /-- KEY_INFO (R597). -/
  | keyInfo (h : HostCmd)
  /-- KEY_GEN (R597). -/
  | keyGen (h : HostCmd)
  /-- KEY_IMPORT (R512). -/
  | keyImport (h : HostCmd)
  /-- KEY_EXPORT (R513). -/
  | keyExport (h : HostCmd)
  /-- KEY_DELETE (R509). -/
  | keyDelete (h : HostCmd)
  /-- KILN_RANDOM (R516). -/
  | kilnRandom (h : HostCmd)
  /-- KILN_SIGN (R526). -/
  | kilnSign (h : HostCmd)
  /-- KILN_CHALLENGE (R527). -/
  | kilnChallenge (h : HostCmd)
  /-- DEBUG_UNLOCK (R528). -/
  | debugUnlock (h : HostCmd)
  /-- IMAGE_LOAD (R390). -/
  | imageLoad (h : HostCmd)
  /-- IMAGE_INFO (R389). -/
  | imageInfo (h : HostCmd)
  /-- IMAGE_ACTIVATE (R524). -/
  | imageActivate (h : HostCmd)
  /-- ENGINE_RELOAD (R391). -/
  | engineReload (h : HostCmd)
  /-- DIAG_COUNTERS (R392). -/
  | diagCounters (h : HostCmd)
  /-- PORT_ISOLATE (R544). -/
  | portIsolate (h : HostCmd)
  /-- TMR_CONFIG (R471). -/
  | tmrConfig (h : HostCmd)
  /-- TMR_ARM (R471). -/
  | tmrArm (h : HostCmd)
  /-- TMR_READ (R471). -/
  | tmrRead (h : HostCmd)
  /-- TIMEBASE_READ (R468). -/
  | timebaseRead (h : HostCmd)
  /-- GPIO_CONFIG (R559). -/
  | gpioConfig (h : HostCmd)
  /-- GPIO_WRITE (R560). -/
  | gpioWrite (h : HostCmd)
  /-- GPIO_READ (R560). -/
  | gpioRead (h : HostCmd)
  /-- DBG_READ (R396). -/
  | dbgRead (h : HostCmd)
  /-- DBG_WRITE (R396). -/
  | dbgWrite (h : HostCmd)
  /-- DBG_ENGINE (R396). -/
  | dbgEngine (h : HostCmd)
  /-- SPI_CS_FALL (R309). -/
  | spiCsFall (hp : SpiPort)
  /-- SPI_WRITE (R312). -/
  | spiWrite (hp : SpiPort) (bytes : List Byte)
  /-- SPI_READ (R310). -/
  | spiRead (hp : SpiPort) (count : Nat)
  /-- SPI_STATUS (R311). -/
  | spiStatus (hp : SpiPort)
  /-- SPI_INVALID_TRANSFER (R309). -/
  | spiInvalidTransfer (hp : SpiPort) (transfer : Byte) (count : Nat)
  /-- SPI_CS_RISE (R312). -/
  | spiCsRise (hp : SpiPort)
  /-- UART_BYTE_RECEIVED (R319). -/
  | uartByteReceived (b : Byte)
  /-- UART_GAP_TIMEOUT (R315). -/
  | uartGapTimeout
  /-- UART_BREAK (R315). -/
  | uartBreak
  /-- UART_BYTE_SENT (R314). -/
  | uartByteSent
  /-- I2C_ADDRESS_MATCH (R316). -/
  | i2cAddressMatch (isRead : Bool)
  /-- I2C_WRITE_BYTE (R316). -/
  | i2cWriteByte (b : Byte)
  /-- I2C_READ_BYTE (R316). -/
  | i2cReadByte
  /-- I2C_STOP (R316). -/
  | i2cStop
  /-- TICK_DECIDE (R321). -/
  | tickDecide
  /-- CHAIN_SEGMENT (R326). -/
  | chainSegment (h : HostCmd) (opcode : Half)
  /-- CHAIN_ABORT (R327). -/
  | chainAbort (h : HostCmd) (opcode : Half)
  /-- CHAIN_EXPIRY (R327). -/
  | chainExpiry (hp : HostNum) (target : Byte)
  /-- HOST_TAKES_PACKET (R323). -/
  | hostTakesPacket (hp : HostNum)
  /-- RESPONSE_NEXT_PACKET (R329). -/
  | responseNextPacket (hp : HostNum)
  /-- GPIO_PIN_CHANGE (R482). -/
  | gpioPinChange (pin : Fin 24) (level : Bool)
  /-- TXCTL_FIELD_EN_WRITE (R41). -/
  | txctlFieldEnWrite (p : PortNum) (value : Bool)
  /-- FIELD_RAMP_START (R41). -/
  | fieldRampStart (p : PortNum)
  /-- FIELD_RAMP_UP_DONE (R41). -/
  | fieldRampUpDone (p : PortNum)
  /-- FIELD_RAMP_DOWN_DONE (R43). -/
  | fieldRampDownDone (p : PortNum)
  /-- TXPHASE_WRITE (R39). -/
  | txphaseWrite (p : PortNum) (phase : Byte)
  /-- PHASE_APPLY (R39). -/
  | phaseApply (p : PortNum)
  /-- AMP_APPLY (R47). -/
  | ampApply (p : PortNum)
  /-- AMP_RAMP_DONE (R84). -/
  | ampRampDone (p : PortNum)
  /-- TXAMP_LOCK (R45). -/
  | txampLock (p : PortNum)
  /-- SHORT_FAULT (R66). -/
  | shortFault (p : PortNum)
  /-- VTX_UV_FAULT (R66). -/
  | vtxUvFault (rail : Fin 4)
  /-- VTX_UV_CLEAR (R69). -/
  | vtxUvClear (rail : Fin 4)
  /-- OPEN_FAULT (R66). -/
  | openFault (p : PortNum)
  /-- THERMAL_TRIP (R65). -/
  | thermalTrip (dom : Fin 4)
  /-- THERMAL_LOCKOUT_END (R65). -/
  | thermalLockoutEnd (dom : Fin 4)
  /-- PLL_UNLOCK (R30). -/
  | pllUnlock
  /-- PLL_LOCK (R485). -/
  | pllLock
  /-- XTAL_OK (R580). -/
  | xtalOk
  /-- XTAL_FAIL (R487). -/
  | xtalFail
  /-- CLKCTL_WRITE (R486). -/
  | clkctlWrite (value : Word)
  /-- THERM_SAMPLE (R63): the reading coded as TXMON.TJ and the rail in 10 mV; domain 4 is D8. -/
  | thermSample (dom : Fin 5) (tj : BitVec 9) (vtx : BitVec 10)
  /-- DUTY_WINDOW (R64): the field-on time of the window that ends, in fc cycles. -/
  | dutyWindow (p : PortNum) (onTime : Nat)
  /-- GRATE_WRITE (R59). -/
  | grateWrite (p : PortNum) (value : Word)
  /-- GRATE_SHIFT_FRAME (R58). -/
  | grateShiftFrame
  /-- GRATE_SETTLE_END (R61). -/
  | grateSettleEnd (p : PortNum)
  /-- FRMCTL_APPLY (R103). -/
  | frmctlApply (p : PortNum)
  /-- RX_CONFIG_APPLY (R74). -/
  | rxConfigApply (p : PortNum)
  /-- AGC_WINDOW_END (R76): the window's peak in 0.25 dBFS. -/
  | agcWindowEnd (p : PortNum) (peak : Int)
  /-- ADC_OVERLOAD (R78). -/
  | adcOverload (p : PortNum)
  /-- DC_ACQ_END (R84). -/
  | dcAcqEnd (p : PortNum)
  /-- NOISE_WINDOW_END (R93): the mean power referred to the RX pins in 0.25 dBFS; whether every sample met R92. -/
  | noiseWindowEnd (p : PortNum) (result : Int) (quiet : Bool)
  /-- NOISE_RESTART (R94). -/
  | noiseRestart (p : PortNum)
  /-- FRAME_GRANT (R225). -/
  | frameGrant (p : PortNum)
  /-- HOLD_OVERRIDE (R226). -/
  | holdOverride (p : PortNum)
  /-- FRAME_SEND_END (R109). -/
  | frameSendEnd (p : PortNum)
  /-- REPLY_START (R109): the start in fc cycles after the end of the frame that opened the window. -/
  | replyStart (p : PortNum) (t : Nat)
  /-- FRAME_RECEIVE_END (R123). -/
  | frameReceiveEnd (p : PortNum) (rx : RxFrame)
  /-- RESPONSE_TIMEOUT (R109). -/
  | responseTimeout (p : PortNum)
  /-- WAIT_LIMIT_EXPIRY (R115). -/
  | waitLimitExpiry (p : PortNum)
  /-- GUARD_END (R112). -/
  | guardEnd (p : PortNum)
  /-- SECOND_WINDOW_OPEN (R152). -/
  | secondWindowOpen (p : PortNum)
  /-- FRMSTAT_XSTART (R115). -/
  | frmstatXstart (p : PortNum)
  /-- FRMSTAT_VREP_P (R129). -/
  | frmstatVrepP (p : PortNum)
  /-- FRMSTAT_VREP_X (R129). -/
  | frmstatVrepX (p : PortNum)
  /-- VIOLCNT_READ (R131). -/
  | violcntRead (p : PortNum)
  /-- SCHCNT_READ (R220). -/
  | schcntRead (p : PortNum)
  /-- RAPID_PHASE_START (R163). -/
  | rapidPhaseStart (p : PortNum)
  /-- DB_CHALLENGE_SLOT (R231). -/
  | dbChallengeSlot (p : PortNum) (sent : Bool) (burst : Option Burst)
  /-- RAPID_PHASE_END (R229). -/
  | rapidPhaseEnd (p : PortNum)
  /-- DB_VERDICT (R244). -/
  | dbVerdict (p : PortNum) (reply : DbReply)
  /-- DBCTL_LOCK (R240). -/
  | dbctlLock (p : PortNum)
  /-- CPL_COMMIT (R210). -/
  | cplCommit
  /-- CPL_APPLY (R211). -/
  | cplApply (p : PortNum)
  /-- CPL_CHECK (R212). -/
  | cplCheck
  /-- LK_DEPTH_BLOCK (R219): the sums of |L|² and |r|² over the block, the trims it left, the clamped ones. -/
  | lkDepthBlock (p : PortNum) (sumL sumR : Nat) (trims : List Word) (clamped : Byte)
  /-- ADAPT_RESUME (R296). -/
  | adaptResume (p : PortNum)
  /-- GROUP_BOUNDARY (R221). -/
  | groupBoundary (g : Fin 4)
  /-- INV_PASS_START (R175). -/
  | invPassStart (p : PortNum)
  /-- INV_SLOT_START (R176). -/
  | invSlotStart (p : PortNum)
  /-- INV_PASS_END (R177). -/
  | invPassEnd (p : PortNum)
  /-- SIGHTING (R203). -/
  | sighting (p : PortNum)
  /-- SLOT_END (R204). -/
  | slotEnd (p : PortNum)
  /-- ENGINE_RESPONSE (R452). -/
  | engineResponse (p : PortNum)
  /-- ENGINE_READY (R456). -/
  | engineReady (p : PortNum)
  /-- ENGINE_START_TIMEOUT (R456). -/
  | engineStartTimeout (p : PortNum)
  /-- ENGINE_RESPONSE_TIMEOUT (R453). -/
  | engineResponseTimeout (p : PortNum)
  /-- ENGINE_IMAGE_VERDICT (R543). -/
  | engineImageVerdict
  /-- DBE_RING (R449). -/
  | dbeRing (p : PortNum) (m0 m1 m2 m3 : Word)
  /-- DBH_RING_CLEAR (R449). -/
  | dbhRingClear (p : PortNum)
  /-- ENG_CTL_HALT (R446). -/
  | engCtlHalt (p : PortNum) (halt : Bool)
  /-- ENG_CTL_STEP (R439). -/
  | engCtlStep (p : PortNum)
  /-- TX_DATA_PUSH (R409). -/
  | txDataPush (p : PortNum) (side : Side) (b : Byte)
  /-- TX_DATA_COMMIT (R400). -/
  | txDataCommit (p : PortNum) (side : Side) (b : Byte)
  /-- TX_DATA_ABORT (R416). -/
  | txDataAbort (p : PortNum) (side : Side)
  /-- RX_DATA_READ (R403). -/
  | rxDataRead (p : PortNum) (side : Side)
  /-- FIFO_FLUSH (R418). -/
  | fifoFlush (p : PortNum) (d : Dir)
  /-- FIFO_CLRCNT (R413). -/
  | fifoClrcnt (p : PortNum) (d : Dir)
  /-- FIFO_SPILL_SET (R407). -/
  | fifoSpillSet (p : PortNum) (d : Dir) (spill : Fin 8)
  /-- FIFO_STALL_RELEASE (R403). -/
  | fifoStallRelease (p : PortNum)
  /-- FLUE_MOVE (R401). -/
  | flueMove (p : PortNum) (d : Dir)
  /-- NOP (R429). -/
  | nop (e : PortNum)
  /-- ADD (R431). -/
  | add (e : PortNum) (rd ra rb : RegNum)
  /-- ADC (R431). -/
  | adc (e : PortNum) (rd ra rb : RegNum)
  /-- SUB (R431). -/
  | sub (e : PortNum) (rd ra rb : RegNum)
  /-- SBC (R431). -/
  | sbc (e : PortNum) (rd ra rb : RegNum)
  /-- AND (R429). -/
  | and (e : PortNum) (rd ra rb : RegNum)
  /-- OR (R429). -/
  | or (e : PortNum) (rd ra rb : RegNum)
  /-- XOR (R429). -/
  | xor (e : PortNum) (rd ra rb : RegNum)
  /-- CMP (R431). -/
  | cmp (e : PortNum) (ra rb : RegNum)
  /-- TST (R429). -/
  | tst (e : PortNum) (ra rb : RegNum)
  /-- NEG (R433). -/
  | neg (e : PortNum) (rd ra : RegNum)
  /-- NOT (R429). -/
  | not (e : PortNum) (rd ra : RegNum)
  /-- MOV (R429). -/
  | mov (e : PortNum) (rd ra : RegNum)
  /-- LSL (R435). -/
  | lsl (e : PortNum) (rd ra : RegNum) (cnt : ShiftCount)
  /-- LSR (R435). -/
  | lsr (e : PortNum) (rd ra : RegNum) (cnt : ShiftCount)
  /-- ASR (R435). -/
  | asr (e : PortNum) (rd ra : RegNum) (cnt : ShiftCount)
  /-- ROR (R435). -/
  | ror (e : PortNum) (rd ra : RegNum) (cnt : ShiftCount)
  /-- ADDI (R431). -/
  | addi (e : PortNum) (rd ra : RegNum) (imm : BitVec 18)
  /-- SUBI (R431). -/
  | subi (e : PortNum) (rd ra : RegNum) (imm : BitVec 18)
  /-- ANDI (R429). -/
  | andi (e : PortNum) (rd ra : RegNum) (imm : BitVec 18)
  /-- ORI (R429). -/
  | ori (e : PortNum) (rd ra : RegNum) (imm : BitVec 18)
  /-- XORI (R429). -/
  | xori (e : PortNum) (rd ra : RegNum) (imm : BitVec 18)
  /-- CMPI (R431). -/
  | cmpi (e : PortNum) (ra : RegNum) (imm : BitVec 18)
  /-- MOVI (R429). -/
  | movi (e : PortNum) (rd : RegNum) (imm : BitVec 18)
  /-- MOVHI (R429). -/
  | movhi (e : PortNum) (rd : RegNum) (imm : Half)
  /-- MUL (R429). -/
  | mul (e : PortNum) (rd ra rb : RegNum)
  /-- MULH (R429). -/
  | mulh (e : PortNum) (rd ra rb : RegNum) (signed : Bool)
  /-- DIVU (R434). -/
  | divu (e : PortNum) (rq rr ra rb : RegNum)
  /-- DIVS (R434). -/
  | divs (e : PortNum) (rq rr ra rb : RegNum)
  /-- LDW (R430). -/
  | ldw (e : PortNum) (rd ra : RegNum) (post : Bool) (off : BitVec 17)
  /-- LDH (R430). -/
  | ldh (e : PortNum) (rd ra : RegNum) (post : Bool) (off : BitVec 17)
  /-- LDB (R430). -/
  | ldb (e : PortNum) (rd ra : RegNum) (post : Bool) (off : BitVec 17)
  /-- STW (R430). -/
  | stw (e : PortNum) (rd ra : RegNum) (post : Bool) (off : BitVec 17)
  /-- STH (R430). -/
  | sth (e : PortNum) (rd ra : RegNum) (post : Bool) (off : BitVec 17)
  /-- STB (R430). -/
  | stb (e : PortNum) (rd ra : RegNum) (post : Bool) (off : BitVec 17)
  /-- LDC (R429). -/
  | ldc (e : PortNum) (rd ra : RegNum) (post : Bool) (off : BitVec 17)
  /-- B (R432). -/
  | b (e : PortNum) (cond : Fin 16) (off : BitVec 22)
  /-- CALL (R429). -/
  | call (e : PortNum) (off : BitVec 22)
  /-- JMP (R429). -/
  | jmp (e : PortNum) (ra : RegNum)
  /-- CALLR (R429). -/
  | callr (e : PortNum) (ra : RegNum)
  /-- BSET (R425). -/
  | bset (e : PortNum) (b : BitVec 10)
  /-- BCLR (R425). -/
  | bclr (e : PortNum) (b : BitVec 10)
  /-- BNOT (R425). -/
  | bnot (e : PortNum) (b : BitVec 10)
  /-- BMOV (R425). -/
  | bmov (e : PortNum) (d : BitVec 10) (ns : Bool) (src : BitVec 10)
  /-- BAND (R425). -/
  | band (e : PortNum) (d : BitVec 10) (ns : Bool) (src : BitVec 10)
  /-- BOR (R425). -/
  | bor (e : PortNum) (d : BitVec 10) (ns : Bool) (src : BitVec 10)
  /-- BXOR (R425). -/
  | bxor (e : PortNum) (d : BitVec 10) (ns : Bool) (src : BitVec 10)
  /-- BTST (R429). -/
  | btst (e : PortNum) (b : BitVec 10) (pol : Bool) (off : BitVec 15)
  /-- BGET (R429). -/
  | bget (e : PortNum) (rd : RegNum) (b : BitVec 10)
  /-- BPUT (R429). -/
  | bput (e : PortNum) (b : BitVec 10) (ra : RegNum)
  /-- REP (R436). -/
  | rep (e : PortNum) (cnt : RepCount)
  /-- CRCI (R440). -/
  | crci (e : PortNum) (rd : RegNum) (sel : Fin 8)
  /-- CRC (R440). -/
  | crc (e : PortNum) (rd ra : RegNum) (sel : Fin 8) (n : Fin 4)
  /-- CRCF (R440). -/
  | crcf (e : PortNum) (rd : RegNum) (sel : Fin 8)
  /-- FPUSH (R441). -/
  | fpush (e : PortNum) (ra : RegNum) (eop : Bool)
  /-- FPUSHM (R441). -/
  | fpushm (e : PortNum) (ra : RegNum) (eop : Bool)
  /-- FPOP (R441). -/
  | fpop (e : PortNum) (rd : RegNum)
  /-- FPOPM (R441). -/
  | fpopm (e : PortNum) (ra : RegNum)
  /-- FABORT (R441). -/
  | fabort (e : PortNum)
  /-- FSEND (R442). -/
  | fsend (e : PortNum) (clear : Bool)
  /-- FRES (R443). -/
  | fres (e : PortNum) (rd : RegNum)
  /-- FRAPID (R444). -/
  | frapid (e : PortNum) (ra : RegNum)
  /-- WAIT (R445). -/
  | wait (e : PortNum) (b : BitVec 10) (pol : Bool)
  /-- WAIT_END (R446). -/
  | waitEnd (e : PortNum)
  /-- TRAP (R447). -/
  | trap (e : PortNum) (code : Byte)
  /-- RETT (R445). -/
  | rett (e : PortNum)
  /-- HALT (R445). -/
  | halt (e : PortNum)
  /-- GETS (R445). -/
  | gets (e : PortNum) (rd : RegNum) (k : Fin 8)
  /-- TMR_ARM_BIT (R460). -/
  | tmrArmBit (ch : Channel)
  /-- TMR_STOP_BIT (R460). -/
  | tmrStopBit (ch : Channel)
  /-- TMR_CMPV_WRITE (R461). -/
  | tmrCmpvWrite (ch : Channel) (value : Word)
  /-- TMR_PRESC_WRITE (R462). -/
  | tmrPrescWrite (ch : Channel) (value : Word)
  /-- TMR_COMPARE (R461). -/
  | tmrCompare (ch : Channel)
  /-- TMR_CAPTURE (R464). -/
  | tmrCapture (ch : Channel) (rising : Bool)
  /-- TMR_CAP_READ (R464). -/
  | tmrCapRead (ch : Channel)
  /-- TIMER_SOURCE_STOP (R465). -/
  | timerSourceStop (ch : Channel)
  /-- TIMER_MAKEUP (R466). -/
  | timerMakeup (ch : Channel) (periods : Nat)
  /-- WKCMP_HI_WRITE (R470). -/
  | wkcmpHiWrite (value : Word)
  /-- WAKE_COMPARE (R470). -/
  | wakeCompare
  /-- WDT_KICK (R496). -/
  | wdtKick (key : Byte)
  /-- WDTCTL_LOCK (R496). -/
  | wdtctlLock
  /-- WDT_EXPIRY (R496). -/
  | wdtExpiry
  /-- POWER_ON_RESET (R492). -/
  | powerOnReset
  /-- BROWN_OUT (R492). -/
  | brownOut (supplies : BitVec 3)
  /-- RST_N_RESET (R492). -/
  | rstNReset (width : Nat)
  /-- SYS_RESET_RELEASE (R498). -/
  | sysResetRelease (boot0 boot1 : Bool)
  /-- KILN_SELF_TEST_DONE (R518). -/
  | kilnSelfTestDone (pass : Bool)
  /-- KILN_IMAGE_VERDICT (R521). -/
  | kilnImageVerdict
  /-- FULL_SERVICE_START (R501). -/
  | fullServiceStart
  /-- TRNG_START_DONE (R516). -/
  | trngStartDone (pass : Bool)
  /-- TRNG_HEALTH_FAIL (R517). -/
  | trngHealthFail
  /-- NONCE_EXPIRY (R527). -/
  | nonceExpiry (purpose : Purpose)
  /-- TAMPER_INPUT (R531). -/
  | tamperInput (input : Fin 2) (active : Bool)
  /-- TAMPER_RESPONSE_DEFERRED (R531). -/
  | tamperResponseDeferred
  /-- GLITCH_DETECT (R531). -/
  | glitchDetect (clock : Bool)
  /-- KILN_TEMP_RANGE (R531). -/
  | kilnTempRange (out : Bool)
  /-- ASH_COMMIT (R535). -/
  | ashCommit
  /-- SUPPRESSED_COMMIT (R536). -/
  | suppressedCommit
  /-- BANKING_START (R481). -/
  | bankingStart
  /-- BANKING_DONE (R481). -/
  | bankingDone
  /-- BANKING_ABANDONED (R481). -/
  | bankingAbandoned (sources : BitVec 10)
  /-- ENTRY_TIMEOUT (R478). -/
  | entryTimeout
  /-- WAKE_EVENT (R485). -/
  | wakeEvent (sources : BitVec 10)
  /-- OFF_WAKE (R492). -/
  | offWake (sources : BitVec 10)
  /-- SLOWCLK_SWITCH (R488). -/
  | slowclkSwitch (toCrystal : Bool)
  /-- EMBER_PROBE (R490). -/
  | emberProbe (p : PortNum) (amp phase : Int)
  /-- EMBER_REPEAT_PROBE (R491). -/
  | emberRepeatProbe (p : PortNum) (amp phase : Int)
  /-- XCHK_RUN (R287): the deviation in 0.01 dB. -/
  | xchkRun (p : PortNum) (dev : Int)
  /-- RECAL_APPLY (R284). -/
  | recalApply (port : Option PortNum)
  /-- XPDR_FIELD_APPEAR (R145). -/
  | xpdrFieldAppear (strength : Byte) (battery : Bool)
  /-- XPDR_FIELD_LOST (R143). -/
  | xpdrFieldLost (gap : Nat)
  /-- XPDR_SESSION_IDLE_END (R250). -/
  | xpdrSessionIdleEnd
  /-- XPDR_SUPPLY_DROP (R252). -/
  | xpdrSupplyDrop
  /-- XPDR_FRAME_DISCARD (R135). -/
  | xpdrFrameDiscard
  /-- SCAN (R150). -/
  | scan (body : List Byte)
  /-- SELECT (R145). -/
  | select (body : List Byte)
  /-- AELYR_HALT (R152). -/
  | aelyrHalt (body : List Byte)
  /-- READ (R156). -/
  | read (body : List Byte)
  /-- WRITE (R156). -/
  | write (body : List Byte)
  /-- LOCK_BLOCK (R156). -/
  | lockBlock (body : List Byte)
  /-- AREA_INFO (R155). -/
  | areaInfo (body : List Byte)
  /-- AUTH_PWD (R157). -/
  | authPwd (body : List Byte)
  /-- SET_PWD (R158). -/
  | setPwd (body : List Byte)
  /-- GET_NONCE (R160). -/
  | getNonce (body : List Byte)
  /-- UNLOCK (R274). -/
  | unlock (body : List Byte)
  /-- READ_CNT (R161). -/
  | readCnt (body : List Byte)
  /-- INC_CNT (R161). -/
  | incCnt (body : List Byte)
  /-- DB_BEGIN (R162). -/
  | dbBegin (body : List Byte)
  /-- DB_END (R165). -/
  | dbEnd (body : List Byte)
  /-- RAPID_SYNC (R164). -/
  | rapidSync (pilot : Bool)
  /-- RAPID_ANSWER (R164). -/
  | rapidAnswer (challenge : Bool)
  /-- DB_ARMED_TIMEOUT (R166). -/
  | dbArmedTimeout
  /-- GET_ID (R168). -/
  | getId (body : List Byte)
  /-- READ_PAGE (R168). -/
  | readPage (body : List Byte)
  /-- WRITE_PAGE (R168). -/
  | writePage (body : List Byte)
  /-- LOGIN (R262). -/
  | login (body : List Byte)
  /-- LOGOUT (R167). -/
  | logout (body : List Byte)
  /-- SET_PASSWORD (R168). -/
  | setPassword (body : List Byte)
  /-- LOCK_PAGE (R168). -/
  | lockPage (body : List Byte)
  /-- XPDR_DEFERRED_COMMIT (R267). -/
  | xpdrDeferredCommit
  /-- JOURNAL_CHECK (R272). -/
  | journalCheck
  /-- EO_VTH_REACHED (R275). -/
  | eoVthReached (vstore : BitVec 10)
  /-- EO_ARM_EXPIRY (R277). -/
  | eoArmExpiry
  /-- EMOPEN_PULSE_END (R276). -/
  | emopenPulseEnd (vstore : BitVec 10)
  /-- REGISTER_WRITE (R15). -/
  | registerWrite (addr value : Word) (side : Side)
  /-- UNKNOWN_CODE (R147). -/
  | unknownCode (proto : LinkProto) (code : Byte) (body : List Byte)
  /-- COMMIT_RESERVE_MET (R272). -/
  | commitReserveMet
  /-- KILN_OPERATION_DONE (R514). -/
  | kilnOperationDone
  /-- CAL_MEASUREMENT_END (R294). -/
  | calMeasurementEnd (p : PortNum) (m : CalMeasure)
  /-- COUPLING_SOURCE_END (R214). -/
  | couplingSourceEnd (m : CouplingMeasure)
  /-- VSYS_REMOVED (R555). -/
  | vsysRemoved
  /-- VIO_LOSS (R556). -/
  | vioLoss
  /-- VIO_RETURN (R556). -/
  | vioReturn
  /-- HEARTH_JTAG_HALT (R467). -/
  | hearthJtagHalt (halt : Bool)
  deriving DecidableEq, Repr

end Sys2Proof
end

