-- ==== Sys2Proof/Config.lean ====
section
/-! DEFINITION. What the spec leaves open (free values, log entries 3 and 17) and what it names but does not
contain: cryptographic functions of outside standards, the contents of ROM, OTP and test-floor records (log entry
18). Every constant here is opaque: nothing can be proved of its value. -/

namespace Sys2Proof.Config

/-- A free number. It is applied to State.free, which advances at every use. -/
opaque freeNat : Nat → Nat

/-- A free truth value. -/
opaque freeBool : Nat → Bool

/-- A random byte of Kiln's TRNG (R516). -/
opaque randomByte : Nat → Byte

/-- SHA-256 (FIPS 180-4), which the spec names and does not contain. -/
opaque sha256 : List Byte → List Byte

/-- HMAC-SHA-256 of a message under a key. -/
opaque hmacSha256 : List Byte → List Byte → List Byte

/-- AES-128 of one block under a key (R162). -/
opaque aes128 : List Byte → List Byte → List Byte

/-- AES-CMAC of a message under a key (R160, R165). -/
opaque aesCmac : List Byte → List Byte → List Byte

/-- AES-GCM encryption: key, IV, additional data, plain text; cipher text and tag (R511). -/
opaque gcmSeal : List Byte → List Byte → List Byte → List Byte → List Byte × List Byte

/-- AES-GCM decryption: key, IV, additional data, cipher text, tag; the plain text when the tag verifies (R511). -/
opaque gcmOpen : List Byte → List Byte → List Byte → List Byte → List Byte → Option (List Byte)

/-- ECDSA P-256 signature of a digest under a private key; the last argument is the random value drawn. -/
opaque ecdsaSign : List Byte → List Byte → List Byte → List Byte

/-- ECDSA P-256 verification: public key, digest, signature. -/
opaque ecdsaVerify : List Byte → List Byte → List Byte → Bool

/-- The public key of a P-256 private key. -/
opaque p256Public : List Byte → List Byte

/-- The x-coordinate of the ECDH point of a private and a public key (R511). -/
opaque ecdh : List Byte → List Byte → List Byte

/-- Whether 64 bytes are a point of P-256 (R512). -/
opaque onP256 : List Byte → Bool

/-- Whether 32 bytes lie in [1, n - 1] of P-256 (R512). -/
opaque p256Scalar : List Byte → Bool

/-- The device private key of slot 0 (R507). -/
opaque deviceKey : List Byte

/-- The Kyotric image key of slot 1 (R507). -/
opaque imageKey : List Byte

/-- The Kyotric debug key of slot 2 (R507). -/
opaque debugKey : List Byte

/-- Identity of the OTP: lot, wafer, die X, die Y, test date in days (R525). -/
opaque otpLot : List Byte
opaque otpWafer : Byte
opaque otpDieX : Byte
opaque otpDieY : Byte
opaque otpTestDate : BitVec 32

/-- The device certificate (R525). -/
opaque certificate : List Byte

/-- The version of the boot ROM (INFO's ROMVER). -/
opaque romVersion : BitVec 32

/-- A byte of the boot ROM. -/
opaque romByte : Nat → Byte

/-- Whether the lifecycle word of the OTP marks the test as complete ("OTP and the NVM array"). -/
opaque lifecycleDone : Bool

/-- The standard engine image of a port in the active firmware image (R456). -/
opaque standardImage : Nat → List Byte

/-- Whether a page of the firmware image that a standard image lies in passes its page check (R523). -/
opaque pageOk : Nat → Bool

/-- The factory temperature sets: item number, port, set number (R279). -/
opaque factoryItem : Nat → Nat → Nat → Int

/-- The factory sets whose two copies both fail their CRC, bit 0 the set of -40 °C (R281). -/
opaque badSets : BitVec 5

/-- The default trims of the OTP: item number, port (R282). -/
opaque otpTrim : Nat → Nat → Int

/-- The descriptor word of a packet in a spill window: its length in words, whether it is complete, whether it
marks a Cinder (R406). -/
opaque descriptor : Nat → Bool → Bool → Word

/-- Whether the board's external flash holds at least 4 MB, so that image slot 1 exists (R390). -/
opaque twoSlots : Bool

/-- The bytes of an open journal record (R270, R593). -/
opaque journalByte : Nat → Nat → Nat → Byte

/-- A byte of a record copy whose write did not verify (R270): key, copy, offset. -/
opaque tornByte : Nat → Nat → Nat → Byte

/-- A byte of the test floor's NVM areas (R505). -/
opaque testFloorByte : Nat → Byte

end Sys2Proof.Config
end

