-- ==== Sys2Proof/Machine/Bits.lean ====
section
/-! DEFINITION. Bit fields, byte orders, saturation, CRCs and the exact arithmetic that stands in for the
decibel formulas of the spec. -/

namespace Sys2Proof.Machine

/-- Bits `lo` to `lo + len - 1` of a word, as a number. -/
def wget (w : Word) (lo len : Nat) : Nat := (w.toNat >>> lo) % 2 ^ len

/-- The word with ones in bits `lo` to `lo + len - 1`. -/
def wmask (lo len : Nat) : Word := BitVec.ofNat 32 ((2 ^ len - 1) <<< lo)

/-- The word with bits `lo` to `lo + len - 1` replaced by a number. -/
def wset (w : Word) (lo len v : Nat) : Word :=
  (w &&& ~~~(wmask lo len)) ||| (BitVec.ofNat 32 ((v % 2 ^ len) <<< lo))

/-- A Boolean as a bit. -/
def bit (b : Bool) : Nat := if b then 1 else 0

/-- A `len`-bit field read as a signed number. -/
def signed (len v : Nat) : Int := if v < 2 ^ (len - 1) then (v : Int) else (v : Int) - 2 ^ len

/-- A signed number as a `len`-bit field. -/
def unsigned (len : Nat) (v : Int) : Nat := (v % 2 ^ len).toNat

/-- A number held within bounds. -/
def clampInt (lo hi v : Int) : Int := if v < lo then lo else if hi < v then hi else v

/-- Saturating addition. -/
def satAdd (top a b : Nat) : Nat := min top (a + b)

/-- A number as `k` bytes, low byte first (R10). -/
def leBytes : Nat → Nat → List Byte
  | 0, _ => []
  | k + 1, n => BitVec.ofNat 8 n :: leBytes k (n / 256)

/-- Bytes read as a number, low byte first (R10). -/
def fromLe : List Byte → Nat
  | [] => 0
  | b :: r => b.toNat + 256 * fromLe r

/-- The number in `k` bytes of a list from position `i`, low byte first; missing bytes count as 0. -/
def leAt (l : List Byte) (i k : Nat) : Nat := fromLe ((l.drop i).take k)

/-- One byte of a list as a number; 0 past the end. -/
def byteAt (l : List Byte) (i : Nat) : Nat := (l.getD i 0).toNat

/-- Signed 16-bit field of a payload. -/
def le16s (l : List Byte) (i : Nat) : Int := signed 16 (leAt l i 2)

/-- A word as four bytes, low byte first. -/
def wordBytes (w : Word) : List Byte := leBytes 4 w.toNat

/-- Words as bytes. -/
def wordsBytes (l : List Word) : List Byte := l.flatMap wordBytes

/-- The word in four bytes of a list from position `i`. -/
def wordAt (l : List Byte) (i : Nat) : Word := BitVec.ofNat 32 (leAt l i 4)

/-- A list padded with zero bytes, or cut, to a length. -/
def padTo (n : Nat) (l : List Byte) : List Byte := l.take n ++ List.replicate (n - l.length) 0

/-- One bit of a reflected CRC with the polynomial 0x1021 (0x8408 reflected; R105, R144). -/
def crcStepR (c : Half) : Half := if c.getLsbD 0 then (c >>> 1) ^^^ 0x8408#16 else c >>> 1

/-- One bit of a non-reflected CRC with the polynomial 0x1021 (R105). -/
def crcStepN (c : Half) : Half := if c.getLsbD 15 then (c <<< 1) ^^^ 0x1021#16 else c <<< 1

/-- A step taken a number of times. -/
def iter {α : Type} (f : α → α) : Nat → α → α
  | 0, a => a
  | k + 1, a => iter f k (f a)

/-- One byte fed into a reflected CRC. -/
def crcByteR (c : Half) (b : Byte) : Half := iter crcStepR 8 (c ^^^ b.setWidth 16)

/-- One byte fed into a non-reflected CRC. -/
def crcByteN (c : Half) (b : Byte) : Half := iter crcStepN 8 (c ^^^ (b.setWidth 16 <<< 8))

/-- The CRCs that the framer and the engines compute (R105, R144). -/
inductive CrcKind where
  | crcA | crcB | crc15693 | crcO | crcAelyr
  deriving DecidableEq, Repr

/-- Initial value (R105, R144). -/
def CrcKind.init : CrcKind → Half
  | .crcA => 0x6363 | .crcB => 0xFFFF | .crc15693 => 0xFFFF | .crcO => 0xFFFF | .crcAelyr => 0xC6C6

/-- Final XOR (R105, R144). -/
def CrcKind.xorOut : CrcKind → Half
  | .crcA => 0 | .crcB => 0xFFFF | .crc15693 => 0xFFFF | .crcO => 0 | .crcAelyr => 0

/-- One byte fed into a running CRC (R105, R144). -/
def CrcKind.feed (k : CrcKind) (c : Half) (b : Byte) : Half :=
  match k with
  | .crcO => crcByteN c b
  | .crcA | .crcB | .crc15693 | .crcAelyr => crcByteR c b

/-- The CRC of a run of bytes (R105, R144). -/
def CrcKind.of (k : CrcKind) (l : List Byte) : Half := l.foldl k.feed k.init ^^^ k.xorOut

/-- The two CRC bytes as sent, low byte first (R105). -/
def CrcKind.bytes (k : CrcKind) (l : List Byte) : List Byte := leBytes 2 (k.of l).toNat

/-- Whether the last two bytes of a frame are the CRC of those before it. -/
def CrcKind.ok (k : CrcKind) (l : List Byte) : Bool :=
  2 ≤ l.length && l.drop (l.length - 2) == k.bytes (l.take (l.length - 2))

/-- The greatest number below `2 ^ (n + 1)` that meets a downward-closed test, built bit by bit from bit `n`. -/
def bitSearch (ok : Nat → Bool) : Nat → Nat → Nat
  | 0, acc => if ok (acc + 1) then acc + 1 else acc
  | n + 1, acc => bitSearch ok n (if ok (acc + 2 ^ (n + 1)) then acc + 2 ^ (n + 1) else acc)

/-- Square root, rounded down. -/
def isqrt (n : Nat) : Nat := bitSearch (fun m => m * m ≤ n) (n.log2 / 2 + 1) 0

/-- `k`-th root, rounded down. -/
def rootOf (k n : Nat) : Nat := bitSearch (fun m => m ^ k ≤ n) (n.log2 / k + 1) 0

/-- The linear power of a level in units of 0.25 dB, on a scale in which -256 dB is 10^10: the level's
power is 10^(level/40). Exact to ten decimal digits at the foot of the scale (R93, R99). -/
def linPow (q : Int) : Nat := rootOf 40 (10 ^ ((q + 1024).toNat + 400))

/-- The level in 0.25 dB nearest to a linear power on the scale of `linPow`, and -1024 at or below its foot. -/
def qdbOf (p : Nat) : Int :=
  let n := bitSearch (fun m => 10 ^ (2 * (m + 400) - 1) ≤ p ^ 80) 11 0
  (n : Int) - 1024

/-- Ten times the decimal logarithm of `a/b`, rounded down and not below 0, up to 63 (R219). -/
def floorDb (a b : Nat) : Nat := bitSearch (fun m => b ^ 10 * 10 ^ m ≤ a ^ 10) 5 0

/-- Division rounded to the nearest whole number, halves up. -/
def divRound (a b : Int) : Int := (2 * a + b) / (2 * b)

/-- The middle of three orders: insertion of a number into a rising list. -/
def insertAsc (x : Int) : List Int → List Int
  | [] => [x]
  | y :: r => if x ≤ y then x :: y :: r else y :: insertAsc x r

/-- A list in rising order. -/
def sortAsc : List Int → List Int
  | [] => []
  | x :: r => insertAsc x (sortAsc r)

/-- The median of a list: its middle value, and for an even count the lower of the two middle values. -/
def median (l : List Int) : Int := (sortAsc l).getD ((l.length - 1) / 2) 0

/-- A list with its `i`-th entry replaced. -/
def setAt {α : Type} (l : List α) (i : Nat) (a : α) : List α := l.set i a

/-- Bit `i` of a number. -/
def nbit (n i : Nat) : Bool := (n >>> i) % 2 == 1

/-- How many of the low `k` bits of a number are 1. -/
def popCount : Nat → Nat → Nat
  | 0, _ => 0
  | k + 1, n => n % 2 + popCount k (n / 2)

/-- A UID with bit 63 inverted: the sibling (R151, R188). -/
def siblingUid (u : List Byte) : List Byte := u.take 7 ++ [u.getD 7 0 ^^^ 0x80]

end Sys2Proof.Machine
end

