-- ==== Sys2Proof/Machine/EngInstr.lean ====
section
/-! DEFINITION. The engine instruction set as data (R429) and the decoder of its 32-bit words (R427). The engine
rows of Instr carry an instruction already read; ENG_CTL.STEP and DBG_ENGINE read one from code memory. -/

namespace Sys2Proof.Machine

/-- The three-register operations. -/
inductive AluOp where
  | add | adc | sub | sbc | and | or | xor | mul | mulhu | mulhs
  deriving DecidableEq, Repr

/-- The two-operand compare and test operations. -/
inductive CmpOp where
  | cmp | tst
  deriving DecidableEq, Repr

/-- The one-operand operations. -/
inductive UnOp where
  | neg | not | mov
  deriving DecidableEq, Repr

/-- The shifts (R435). -/
inductive ShOp where
  | lsl | lsr | asr | ror
  deriving DecidableEq, Repr

/-- The operations with an 18-bit immediate. -/
inductive ImmOp where
  | addi | subi | andi | ori | xori
  deriving DecidableEq, Repr

/-- Access widths of loads and stores. -/
inductive MemW where
  | word | half | byte
  deriving DecidableEq, Repr

/-- The bit instructions with a source bit. -/
inductive BitOp where
  | bmov | band | bor | bxor
  deriving DecidableEq, Repr

/-- The bit instructions without one. -/
inductive Bit1Op where
  | bset | bclr | bnot
  deriving DecidableEq, Repr

/-- One engine instruction (R429, R436, R440-R445). -/
inductive EngInstr where
  | nop
  | alu (op : AluOp) (rd ra rb : RegNum)
  | cmp (op : CmpOp) (ra rb : RegNum)
  | un (op : UnOp) (rd ra : RegNum)
  | shift (op : ShOp) (rd ra : RegNum) (cnt : ShiftCount)
  | imm (op : ImmOp) (rd ra : RegNum) (v : BitVec 18)
  | cmpi (ra : RegNum) (v : BitVec 18)
  | movi (rd : RegNum) (v : BitVec 18)
  | movhi (rd : RegNum) (v : Half)
  | div (isSigned : Bool) (rq rr ra rb : RegNum)
  | load (w : MemW) (rd ra : RegNum) (post : Bool) (off : BitVec 17)
  | store (w : MemW) (rd ra : RegNum) (post : Bool) (off : BitVec 17)
  | ldc (rd ra : RegNum) (post : Bool) (off : BitVec 17)
  | branch (cond : Fin 16) (off : BitVec 22)
  | call (off : BitVec 22)
  | jmp (ra : RegNum)
  | callr (ra : RegNum)
  | bit1 (op : Bit1Op) (b : BitVec 10)
  | bit2 (op : BitOp) (d : BitVec 10) (ns : Bool) (src : BitVec 10)
  | btst (b : BitVec 10) (pol : Bool) (off : BitVec 15)
  | bget (rd : RegNum) (b : BitVec 10)
  | bput (b : BitVec 10) (ra : RegNum)
  | rep (cnt : RepCount)
  | crci (rd : RegNum) (sel : Fin 8)
  | crc (rd ra : RegNum) (sel : Fin 8) (n : Fin 4)
  | crcf (rd : RegNum) (sel : Fin 8)
  | fpush (ra : RegNum) (eop : Bool)
  | fpushm (ra : RegNum) (eop : Bool)
  | fpop (rd : RegNum)
  | fpopm (ra : RegNum)
  | fabort
  | fsend (clear : Bool)
  | fres (rd : RegNum)
  | frapid (ra : RegNum)
  | wait (b : BitVec 10) (pol : Bool)
  | trap (code : Byte)
  | rett
  | halt
  | gets (rd : RegNum) (s : Fin 8)
  deriving DecidableEq, Repr

/-- A field of an instruction word. -/
def iw (w : Word) (lo len : Nat) : Nat := (w.toNat >>> lo) % 2 ^ len

/-- A register number in an instruction word. -/
def ireg (w : Word) (lo : Nat) : RegNum := Fin.ofNat 16 (iw w lo 4)

/-- The shift forms: the count is a register with fn 0, or fn[7:0] with fn[13] set (R435). -/
def decShift (op : ShOp) (w : Word) : Option EngInstr :=
  if iw w 13 1 = 1 then
    if iw w 8 5 = 0 ∧ iw w 14 4 = 0 then
      some (.shift op (ireg w 22) (ireg w 18) (.imm (BitVec.ofNat 8 (iw w 0 8)))) else none
  else if iw w 0 13 = 0 then some (.shift op (ireg w 22) (ireg w 18) (.reg (ireg w 14))) else none

/-- Three registers, fn 0. -/
def decA (w : Word) (k : RegNum → RegNum → RegNum → EngInstr) : Option EngInstr :=
  if iw w 0 14 = 0 then some (k (ireg w 22) (ireg w 18) (ireg w 14)) else none

/-- The decoder of an engine instruction word (R427, R429). `none` is an ILLEGAL word: an opcode that is not
listed, or a reserved field that is not 0; a field that the instruction leaves unused is taken as reserved
(DEDUCED, log entry 16). -/
def decodeEng (w : Word) : Option EngInstr :=
  let rd := ireg w 22
  let ra := ireg w 18
  let rb := ireg w 14
  let im := BitVec.ofNat 18 (iw w 0 18)
  let off := BitVec.ofNat 17 (iw w 0 17)
  let post := iw w 17 1 == 1
  let b := BitVec.ofNat 10 (iw w 16 10)
  let src := BitVec.ofNat 10 (iw w 6 10)
  match iw w 26 6 with
  | 0x00 => if iw w 0 26 = 0 then some .nop else none
  | 0x01 => decA w (.alu .add)
  | 0x02 => decA w (.alu .adc)
  | 0x03 => decA w (.alu .sub)
  | 0x04 => decA w (.alu .sbc)
  | 0x05 => decA w (.alu .and)
  | 0x06 => decA w (.alu .or)
  | 0x07 => decA w (.alu .xor)
  | 0x08 => if iw w 22 4 = 0 ∧ iw w 0 14 = 0 then some (.cmp .cmp ra rb) else none
  | 0x09 => if iw w 22 4 = 0 ∧ iw w 0 14 = 0 then some (.cmp .tst ra rb) else none
  | 0x0A => if iw w 0 18 = 0 then some (.un .neg rd ra) else none
  | 0x0B => if iw w 0 18 = 0 then some (.un .not rd ra) else none
  | 0x0C => if iw w 0 18 = 0 then some (.un .mov rd ra) else none
  | 0x0D => decShift .lsl w
  | 0x0E => decShift .lsr w
  | 0x0F => decShift .asr w
  | 0x10 => decShift .ror w
  | 0x11 => some (.imm .addi rd ra im)
  | 0x12 => some (.imm .subi rd ra im)
  | 0x13 => some (.imm .andi rd ra im)
  | 0x14 => some (.imm .ori rd ra im)
  | 0x15 => some (.imm .xori rd ra im)
  | 0x16 => if iw w 22 4 = 0 then some (.cmpi ra im) else none
  | 0x17 => if iw w 18 4 = 0 then some (.movi rd im) else none
  | 0x18 => if iw w 16 6 = 0 then some (.movhi rd (BitVec.ofNat 16 (iw w 0 16))) else none
  | 0x19 => decA w (.alu .mul)
  | 0x1A =>
    if iw w 1 13 = 0 then
      some (.alu (if iw w 0 1 = 1 then .mulhs else .mulhu) rd ra rb) else none
  | 0x1B => if iw w 0 10 = 0 then some (.div false rd (ireg w 10) ra rb) else none
  | 0x1C => if iw w 0 10 = 0 then some (.div true rd (ireg w 10) ra rb) else none
  | 0x20 => some (.load .word rd ra post off)
  | 0x21 => some (.load .half rd ra post off)
  | 0x22 => some (.load .byte rd ra post off)
  | 0x23 => some (.store .word rd ra post off)
  | 0x24 => some (.store .half rd ra post off)
  | 0x25 => some (.store .byte rd ra post off)
  | 0x26 => some (.ldc rd ra post off)
  | 0x28 => some (.branch (Fin.ofNat 16 (iw w 22 4)) (BitVec.ofNat 22 (iw w 0 22)))
  | 0x29 => if iw w 22 4 = 0 then some (.call (BitVec.ofNat 22 (iw w 0 22))) else none
  | 0x2A => if iw w 22 4 = 0 ∧ iw w 0 18 = 0 then some (.jmp ra) else none
  | 0x2B => if iw w 22 4 = 0 ∧ iw w 0 18 = 0 then some (.callr ra) else none
  | 0x30 => if iw w 0 16 = 0 then some (.bit1 .bset b) else none
  | 0x31 => if iw w 0 16 = 0 then some (.bit1 .bclr b) else none
  | 0x32 => if iw w 0 16 = 0 then some (.bit1 .bnot b) else none
  | 0x33 => if iw w 0 5 = 0 then some (.bit2 .bmov b (iw w 5 1 == 1) src) else none
  | 0x34 => if iw w 0 5 = 0 then some (.bit2 .band b (iw w 5 1 == 1) src) else none
  | 0x35 => if iw w 0 5 = 0 then some (.bit2 .bor b (iw w 5 1 == 1) src) else none
  | 0x36 => if iw w 0 5 = 0 then some (.bit2 .bxor b (iw w 5 1 == 1) src) else none
  | 0x37 => some (.btst b (iw w 15 1 == 1) (BitVec.ofNat 15 (iw w 0 15)))
  | 0x38 => if iw w 0 12 = 0 then some (.bget (ireg w 12) b) else none
  | 0x39 => if iw w 0 12 = 0 then some (.bput b (ireg w 12)) else none
  | 0x3A =>
    if iw w 16 5 = 0 then
      if iw w 25 1 = 1 then
        if iw w 0 16 = 0 then some (.rep (.reg (ireg w 21))) else none
      else if iw w 21 4 = 0 then some (.rep (.imm (BitVec.ofNat 16 (iw w 0 16)))) else none
    else none
  | 0x3B =>
    let sel : Fin 8 := Fin.ofNat 8 (iw w 11 3)
    match iw w 22 4 with
    | 0 => if iw w 14 4 = 0 ∧ iw w 0 11 = 0 then some (.crci (ireg w 18) sel) else none
    | 1 =>
      if iw w 2 9 = 0 then
        some (.crc (ireg w 18) (ireg w 14) sel (Fin.ofNat 4 (iw w 0 2))) else none
    | 2 => if iw w 14 4 = 0 ∧ iw w 0 11 = 0 then some (.crcf (ireg w 18) sel) else none
    | _ => none
  | 0x3C =>
    match iw w 22 4 with
    | 0 => if iw w 18 4 = 0 ∧ iw w 1 13 = 0 then some (.fpush (ireg w 14) (iw w 0 1 == 1)) else none
    | 1 => if iw w 18 4 = 0 ∧ iw w 1 13 = 0 then some (.fpushm (ireg w 14) (iw w 0 1 == 1)) else none
    | 2 => if iw w 0 18 = 0 then some (.fpop (ireg w 18)) else none
    | 3 => if iw w 18 4 = 0 ∧ iw w 0 14 = 0 then some (.fpopm (ireg w 14)) else none
    | 4 => if iw w 0 22 = 0 then some .fabort else none
    | _ => none
  | 0x3D =>
    match iw w 22 4 with
    | 0 => if iw w 1 21 = 0 then some (.fsend (iw w 0 1 == 1)) else none
    | 1 => if iw w 0 18 = 0 then some (.fres (ireg w 18)) else none
    | 2 => if iw w 18 4 = 0 ∧ iw w 0 14 = 0 then some (.frapid (ireg w 14)) else none
    | _ => none
  | 0x3E =>
    match iw w 22 4 with
    | 0 =>
      if iw w 11 11 = 0 then some (.wait (BitVec.ofNat 10 (iw w 0 10)) (iw w 10 1 == 1)) else none
    | 1 => if iw w 8 14 = 0 then some (.trap (BitVec.ofNat 8 (iw w 0 8))) else none
    | 2 => if iw w 0 22 = 0 then some .rett else none
    | 3 => if iw w 0 22 = 0 then some .halt else none
    | 4 =>
      if iw w 14 4 = 0 ∧ iw w 3 11 = 0 then some (.gets (ireg w 18) (Fin.ofNat 8 (iw w 0 3))) else none
    | _ => none
  | _ => none

/-- Whether an instruction may follow REP: opcodes 0x01-0x26, 0x30-0x36, 0x38, 0x39, 0x3B and 0x3C (R438). -/
def repeatable (w : Word) : Bool :=
  let op := iw w 26 6
  (1 ≤ op && op ≤ 0x26) || (0x30 ≤ op && op ≤ 0x36) || op == 0x38 || op == 0x39 || op == 0x3B || op == 0x3C

end Sys2Proof.Machine
end

