-- ==== Sys2Proof/Machine/RegMap.lean ====
section
/-! DEFINITION. The register map: every register of the spec's register tables with its offset, its reset word
and the access codes of its fields (R11-R16), and one named constant per field. Written from the header line
and the field table of each register; the section file is named beside it. -/

namespace Sys2Proof.Machine

/-- The register blocks of the supervisor address map; `tmr` is one timer channel (R458). -/
inductive Block where
  | port | xpdr | coord | host | pcr | aon | cal | tmr | kiln
  deriving DecidableEq, Repr

/-- One register, or one array of registers: its offset in its block, how many there are and how far apart,
the word it resets to, and the bits of each access code (R15). Bits in no mask are RO or reserved. -/
structure RegRow where
  name : String
  off : Nat
  count : Nat
  stride : Nat
  reset : Word
  rw : Word
  rwl : Word
  w1c : Word
  w1s : Word
  rc : Word
  deriving DecidableEq, Repr

/-- A field: the offset of its register, its lowest bit and its width. -/
structure Fld where
  off : Nat
  lo : Nat
  len : Nat
  deriving DecidableEq, Repr

/-- The field of the `i`-th register of an array whose registers lie `stride` bytes apart. -/
def Fld.nth (f : Fld) (i : Nat) (stride : Nat := 4) : Fld := { f with off := f.off + i * stride }

/-- Registers of block `port`, part 0. -/
def rows_port_0 : List RegRow := [
  ⟨"TXCTL", 0x000, 1, 4, 0xA, 0x1F, 0x0, 0x0, 0x0, 0x0⟩,
  ⟨"TXAMP", 0x004, 1, 4, 0x3FF016A, 0x3FF, 0x3FF0000, 0x0, 0x80000000, 0x0⟩,
  ⟨"TXPHASE", 0x008, 1, 4, 0x0, 0xFF, 0x0, 0x0, 0x0, 0x0⟩,
  ⟨"MODCTL", 0x00C, 1, 4, 0x1100C14, 0x1FF3FFF, 0x0, 0x0, 0x0, 0x0⟩,
  ⟨"GRATE", 0x010, 1, 4, 0x0, 0xFFFF, 0x0, 0x0, 0x0, 0x0⟩,
  ⟨"TXSTAT", 0x014, 1, 4, 0x64000000, 0x0, 0x0, 0x1000, 0x0, 0x0⟩,
  ⟨"THERM", 0x018, 1, 4, 0x1528C, 0x3F3FF, 0x0, 0x0, 0x0, 0x0⟩,
  ⟨"GRSETTLE", 0x01C, 1, 4, 0x14, 0xFF, 0x0, 0x0, 0x0, 0x0⟩,
  ⟨"TXMON", 0x020, 1, 4, 0x0, 0x0, 0x0, 0x0, 0x0, 0x0⟩,
  ⟨"RXCTL", 0x100, 1, 4, 0xA07, 0x1F07, 0x0, 0x10000, 0x0, 0x0⟩,
  ⟨"DAMPER", 0x104, 1, 4, 0x10041F, 0x1F1F1F, 0x0, 0x0, 0x0, 0x0⟩,
  ⟨"DECIM", 0x108, 1, 4, 0x3, 0x7, 0x0, 0x0, 0x0, 0x0⟩,
  ⟨"MEDIAN", 0x10C, 1, 4, 0xA, 0x1F, 0x0, 0x0, 0x0, 0x0⟩,
  ⟨"DCBLK", 0x110, 1, 4, 0xA, 0xF, 0x0, 0x0, 0x0, 0x0⟩,
  ⟨"AFC", 0x114, 1, 4, 0x3, 0x3, 0x0, 0x0, 0x0, 0x0⟩,
  ⟨"NOISE", 0x118, 1, 4, 0x6E8, 0x0, 0x0, 0x0, 0x2000, 0x0⟩,
  ⟨"QUAL", 0x11C, 1, 4, 0x0, 0x0, 0x0, 0x0, 0x0, 0x0⟩,
  ⟨"CSEP", 0x120, 1, 4, 0x118, 0x1FF, 0x0, 0x0, 0x0, 0x0⟩,
  ⟨"FERR", 0x124, 1, 4, 0x0, 0x0, 0x0, 0x0, 0x0, 0x0⟩,
  ⟨"RSSI", 0x128, 1, 4, 0x400, 0x0, 0x0, 0x0, 0x0, 0x0⟩,
  ⟨"FIRCTL", 0x12C, 1, 4, 0x2, 0x7, 0x0, 0x0, 0x0, 0x0⟩,
  ⟨"FIRCOEF", 0x180, 16, 4, 0x0, 0xFFFF, 0x0, 0x0, 0x0, 0x0⟩,
  ⟨"FRMCTL", 0x200, 1, 4, 0x202400, 0x3FFFFF, 0x0, 0x0, 0x0, 0x0⟩,
  ⟨"FRMSTAT", 0x204, 1, 4, 0x0, 0x0, 0x0, 0x2F0, 0x1C00, 0x0⟩]

/-- Registers of block `port`, part 1. -/
def rows_port_1 : List RegRow := [
  ⟨"FDT", 0x208, 1, 4, 0xC0494, 0xFFFFF, 0x0, 0x0, 0x0, 0x0⟩,
  ⟨"BITTOL", 0x20C, 1, 4, 0x12, 0x1F, 0x0, 0x0, 0x0, 0x0⟩,
  ⟨"VIOLCNT", 0x210, 1, 4, 0x0, 0x0, 0x0, 0x0, 0x0, 0xFFFFFFFF⟩,
  ⟨"VIOLCNT1", 0x214, 1, 4, 0x0, 0x0, 0x0, 0x0, 0x0, 0xFFFFFFFF⟩,
  ⟨"FWT", 0x218, 1, 4, 0x100004DC, 0x1FFFFFFF, 0x0, 0x0, 0x0, 0x0⟩,
  ⟨"WAITLIM", 0x21C, 1, 4, 0x3E8, 0xFFF, 0x0, 0x0, 0x0, 0x0⟩,
  ⟨"RETRY", 0x220, 1, 4, 0x2, 0xF, 0x0, 0x0, 0x0, 0x0⟩,
  ⟨"RX_CTL", 0x300, 1, 4, 0x3, 0xF, 0x0, 0x0, 0x300, 0x0⟩,
  ⟨"RX_STAT", 0x304, 1, 4, 0x1, 0x0, 0x0, 0x38, 0x0, 0x0⟩,
  ⟨"RX_DATA", 0x308, 1, 4, 0x0, 0x0, 0x0, 0x0, 0x0, 0x0⟩,
  ⟨"RX_PKTCNT", 0x30C, 1, 4, 0x0, 0x0, 0x0, 0x0, 0x0, 0x0⟩,
  ⟨"RX_LOST", 0x310, 1, 4, 0x0, 0x0, 0x0, 0x0, 0x0, 0x0⟩,
  ⟨"TX_CTL", 0x340, 1, 4, 0x3, 0xF, 0x0, 0x0, 0x300, 0x0⟩,
  ⟨"TX_STAT", 0x344, 1, 4, 0x1, 0x0, 0x0, 0x38, 0x0, 0x0⟩,
  ⟨"TX_DATA", 0x348, 1, 4, 0x0, 0x3FF, 0x0, 0x0, 0x0, 0x0⟩,
  ⟨"TX_PKTCNT", 0x34C, 1, 4, 0x0, 0x0, 0x0, 0x0, 0x0, 0x0⟩,
  ⟨"TX_LOST", 0x350, 1, 4, 0x0, 0x0, 0x0, 0x0, 0x0, 0x0⟩,
  ⟨"DBCTL", 0x600, 1, 4, 0x2050, 0x0, 0xF1FF, 0x0, 0x80000000, 0x0⟩,
  ⟨"DBDLY", 0x604, 1, 4, 0x70, 0x0, 0xFFFF01FF, 0x0, 0x0, 0x0⟩,
  ⟨"DBINT", 0x608, 1, 4, 0x0, 0x0, 0x0, 0x0, 0x0, 0x0⟩,
  ⟨"DBRES", 0x60C, 1, 4, 0x0, 0x0, 0x0, 0x0, 0x0, 0x0⟩,
  ⟨"DBEXC", 0x610, 1, 4, 0x80008000, 0x0, 0x0, 0x0, 0x0, 0x0⟩,
  ⟨"DBSNR", 0x614, 1, 4, 0x0, 0x0, 0x0, 0x0, 0x0, 0x0⟩,
  ⟨"DBCHAL0", 0x618, 1, 4, 0x0, 0xFFFFFFFF, 0x0, 0x0, 0x0, 0x0⟩]

/-- Registers of block `port`, part 2. -/
def rows_port_2 : List RegRow := [
  ⟨"DBCHAL1", 0x61C, 1, 4, 0x0, 0xFFFFFFFF, 0x0, 0x0, 0x0, 0x0⟩,
  ⟨"DBREC", 0x680, 32, 4, 0x0, 0x0, 0x0, 0x0, 0x0, 0x0⟩,
  ⟨"ENG_CTL", 0x800, 1, 4, 0x1, 0x5, 0x0, 0x0, 0x2, 0x0⟩,
  ⟨"ENG_PC", 0x804, 1, 4, 0x0, 0x0, 0x0, 0x0, 0x0, 0x0⟩,
  ⟨"ENG_STAT", 0x808, 1, 4, 0x6, 0x0, 0x0, 0x0, 0x0, 0x0⟩,
  ⟨"ENG_TPC", 0x80C, 1, 4, 0x0, 0x0, 0x0, 0x0, 0x0, 0x0⟩,
  ⟨"ENG_RCNT", 0x810, 1, 4, 0x0, 0x0, 0x0, 0x0, 0x0, 0x0⟩,
  ⟨"ENG_CYCLE", 0x814, 1, 4, 0x0, 0x0, 0x0, 0x0, 0x0, 0x0⟩,
  ⟨"DBE_RING", 0x818, 1, 4, 0x0, 0x0, 0x0, 0x0, 0x1, 0x0⟩,
  ⟨"DBH_RING", 0x81C, 1, 4, 0x0, 0x0, 0x0, 0x1, 0x0, 0x0⟩,
  ⟨"DBE_MSG", 0x820, 4, 4, 0x0, 0xFFFFFFFF, 0x0, 0x0, 0x0, 0x0⟩,
  ⟨"DBH_MSG", 0x840, 8, 4, 0x0, 0xFFFFFFFF, 0x0, 0x0, 0x0, 0x0⟩,
  ⟨"LKCTL", 0x900, 1, 4, 0x611, 0x1F1F, 0x0, 0x0, 0x0, 0x0⟩,
  ⟨"LKSTAT", 0x904, 1, 4, 0x0, 0x0, 0x0, 0xFF00, 0x0, 0x0⟩,
  ⟨"LKCOEF", 0x910, 8, 4, 0x4000, 0xFFFFFFFF, 0x0, 0x0, 0x0, 0x0⟩]

/-- The registers of block `port`. -/
def rows_port : List RegRow := rows_port_0 ++ rows_port_1 ++ rows_port_2

/-- Registers of block `xpdr`. -/
def rows_xpdr : List RegRow := [
  ⟨"XCFG", 0x000, 1, 4, 0x0, 0x0, 0x0, 0x0, 0x0, 0x0⟩,
  ⟨"XSTAT", 0x004, 1, 4, 0x0, 0x0, 0x0, 0x4000, 0x0, 0x0⟩,
  ⟨"XTX", 0x008, 1, 4, 0x0, 0x0, 0x0, 0x0, 0x0, 0x0⟩,
  ⟨"XDB", 0x00C, 1, 4, 0x70, 0x0, 0x0, 0x0, 0x0, 0x0⟩,
  ⟨"XEO", 0x010, 1, 4, 0x0, 0x0, 0x0, 0x0, 0x0, 0x0⟩,
  ⟨"XEOSTAT", 0x014, 1, 4, 0x0, 0x0, 0x0, 0x2000, 0x0, 0x0⟩]

/-- Registers of block `coord`. -/
def rows_coord : List RegRow := [
  ⟨"GRPCFG", 0x000, 4, 16, 0x400100, 0xFFFF01FF, 0x0, 0x0, 0x0, 0x0⟩,
  ⟨"GRPTIME", 0x004, 4, 16, 0x6400000, 0xFFFFFFFF, 0x0, 0x0, 0x0, 0x0⟩,
  ⟨"GRPSTAT", 0x00C, 4, 16, 0x0, 0x0, 0x0, 0x0, 0x0, 0x0⟩,
  ⟨"SCHCNT", 0x080, 8, 4, 0x0, 0x0, 0x0, 0x0, 0x0, 0xFFFFFFFF⟩,
  ⟨"CPLCTL", 0x100, 1, 4, 0x0, 0xFFFF0000, 0x0, 0x4, 0x2, 0x0⟩,
  ⟨"CPLM", 0x400, 64, 4, 0x0, 0xFFFFFFFF, 0x0, 0x0, 0x0, 0x0⟩]

/-- Registers of block `host`. -/
def rows_host : List RegRow := [
  ⟨"HPCFG", 0x000, 1, 4, 0x4803, 0xFFDFFFF3, 0x0, 0x0, 0x0, 0x0⟩,
  ⟨"HPSTAT", 0x004, 1, 4, 0x2000, 0x0, 0x0, 0x0, 0x0, 0x0⟩,
  ⟨"HPERR", 0x008, 1, 4, 0x0, 0x0, 0x0, 0x0, 0x0, 0xFFFFFFFF⟩]

/-- Registers of block `pcr`. -/
def rows_pcr : List RegRow := [
  ⟨"WDTCTL", 0x010, 1, 4, 0x400, 0x0, 0x1FF1, 0x0, 0x80000000, 0x0⟩,
  ⟨"WDTKICK", 0x014, 1, 4, 0x0, 0xFF, 0x0, 0x0, 0x0, 0x0⟩,
  ⟨"CLKCTL", 0x020, 1, 4, 0x0, 0xB, 0x0, 0x20, 0x0, 0x0⟩]

/-- Registers of block `aon`. -/
def rows_aon : List RegRow := [
  ⟨"WKCMP_LO", 0x008, 1, 4, 0xFFFFFFFF, 0xFFFFFFFF, 0x0, 0x0, 0x0, 0x0⟩,
  ⟨"WKCMP_HI", 0x00C, 1, 4, 0xFFFFFFFF, 0xFFFFFFFF, 0x0, 0x0, 0x0, 0x0⟩,
  ⟨"WKCTL", 0x010, 1, 4, 0x0, 0x1, 0x0, 0x2, 0x0, 0x0⟩,
  ⟨"WKEN", 0x020, 1, 4, 0x0, 0x3FF, 0x0, 0x0, 0x0, 0x0⟩,
  ⟨"WKGPEN", 0x024, 1, 4, 0x0, 0xFFFFFF, 0x0, 0x0, 0x0, 0x0⟩,
  ⟨"WKGPEDGE", 0x028, 1, 4, 0x0, 0xFFFFFF, 0x0, 0x0, 0x0, 0x0⟩,
  ⟨"WKGPPOL", 0x02C, 1, 4, 0x0, 0xFFFFFF, 0x0, 0x0, 0x0, 0x0⟩,
  ⟨"WKCAUSE", 0x030, 1, 4, 0x0, 0x0, 0x0, 0x103FF, 0x0, 0x0⟩,
  ⟨"RSTCAUSE", 0x034, 1, 4, 0x100, 0x0, 0x0, 0x3F00, 0x0, 0x0⟩,
  ⟨"SLOWCLK", 0x038, 1, 4, 0x0, 0x8, 0x0, 0x4, 0x0, 0x0⟩,
  ⟨"EMBCTL", 0x040, 1, 4, 0xFA0000, 0x7FF00FF, 0x0, 0x0, 0x0, 0x0⟩,
  ⟨"EMBTH", 0x044, 1, 4, 0x408, 0xFFFF, 0x0, 0x0, 0x0, 0x0⟩,
  ⟨"EMBANT0", 0x048, 1, 4, 0x0, 0xFFFFFFFF, 0x0, 0x0, 0x0, 0x0⟩,
  ⟨"EMBANT1", 0x04C, 1, 4, 0x0, 0xFFFFFFFF, 0x0, 0x0, 0x0, 0x0⟩,
  ⟨"EMBSTAT", 0x050, 1, 4, 0x0, 0x0, 0x0, 0xFF, 0x0, 0x0⟩,
  ⟨"TAMPSTAT", 0x060, 1, 4, 0x0, 0x0, 0x0, 0x0, 0x0, 0x0⟩]

/-- Registers of block `cal`. -/
def rows_cal : List RegRow := [
  ⟨"CALCFG", 0x000, 1, 4, 0x68, 0x7F, 0x0, 0x0, 0x0, 0x0⟩,
  ⟨"CALSTAT", 0x004, 1, 4, 0x0, 0x0, 0x0, 0x0, 0x0, 0x0⟩,
  ⟨"CALTEMP", 0x010, 5, 4, 0x0, 0x0, 0x0, 0x0, 0x0, 0x0⟩,
  ⟨"ADCX", 0x040, 8, 4, 0x0, 0x0, 0x0, 0x10000, 0x0, 0x0⟩,
  ⟨"TUNE", 0x080, 8, 4, 0x2020, 0x3F, 0x0, 0x0, 0x0, 0x0⟩,
  ⟨"AMPMAP", 0x400, 256, 4, 0x4000400, 0x7FF07FF, 0x0, 0x0, 0x0, 0x0⟩]

/-- Registers of block `tmr`. -/
def rows_tmr : List RegRow := [
  ⟨"TMR_CTL", 0x000, 1, 4, 0x0, 0x3FF, 0x0, 0x0, 0x30000, 0x0⟩,
  ⟨"TMR_STAT", 0x004, 1, 4, 0x0, 0x0, 0x0, 0xE, 0x0, 0x0⟩,
  ⟨"TMR_PRESC", 0x008, 1, 4, 0x10000, 0xFFFFFFFF, 0x0, 0x0, 0x0, 0x0⟩,
  ⟨"TMR_CMPV", 0x00C, 1, 4, 0x0, 0xFFFFFFFF, 0x0, 0x0, 0x0, 0x0⟩,
  ⟨"TMR_COUNT", 0x010, 1, 4, 0x0, 0x0, 0x0, 0x0, 0x0, 0x0⟩,
  ⟨"TMR_PACC", 0x014, 1, 4, 0x0, 0x0, 0x0, 0x0, 0x0, 0x0⟩,
  ⟨"TMR_CAP", 0x018, 1, 4, 0x0, 0x0, 0x0, 0x0, 0x0, 0x0⟩,
  ⟨"TMR_MAKEUP", 0x01C, 1, 4, 0x0, 0x0, 0x0, 0x0, 0x0, 0x0⟩]

/-- Registers of block `kiln`. -/
def rows_kiln : List RegRow := [
  ⟨"KWSTAT", 0x000, 1, 4, 0x0, 0x0, 0x0, 0x0, 0x0, 0x0⟩]

/-- The registers of a block. -/
def regRows : Block → List RegRow
  | .port => rows_port
  | .xpdr => rows_xpdr
  | .coord => rows_coord
  | .host => rows_host
  | .pcr => rows_pcr
  | .aon => rows_aon
  | .cal => rows_cal
  | .tmr => rows_tmr
  | .kiln => rows_kiln

/-- Whether a row holds the register at an offset. -/
def RegRow.holds (r : RegRow) (off : Nat) : Bool :=
  decide (r.off ≤ off) && decide (off < r.off + r.count * r.stride) && (off - r.off) % r.stride == 0

/-- The register at an offset of a block, if the block has one there (R13). -/
def rowAt (b : Block) (off : Nat) : Option RegRow := (regRows b).find? (·.holds off)

/-- The word a register returns to at its reset (R16); 0 where there is no register. -/
def resetWord (b : Block) (off : Nat) : Word :=
  match rowAt b off with
  | some r => r.reset
  | none => 0

/-! TXCTL: 02_field_generation.md. -/
namespace TXCTL
/-- Offset of TXCTL. -/
def reg : Nat := 0x000
/-- TXCTL.FIELD_EN, bits 0 to 0, RW. -/
def FIELD_EN : Fld := ⟨0x000, 0, 1⟩
/-- TXCTL.RAMP, bits 2 to 1, RW. -/
def RAMP : Fld := ⟨0x000, 1, 2⟩
/-- TXCTL.ANT_CHECK, bits 3 to 3, RW. -/
def ANT_CHECK : Fld := ⟨0x000, 3, 1⟩
/-- TXCTL.RAPID_EN, bits 4 to 4, RW. -/
def RAPID_EN : Fld := ⟨0x000, 4, 1⟩
end TXCTL

/-! TXAMP: 02_field_generation.md. -/
namespace TXAMP
/-- Offset of TXAMP. -/
def reg : Nat := 0x004
/-- TXAMP.LEVEL, bits 9 to 0, RW. -/
def LEVEL : Fld := ⟨0x004, 0, 10⟩
/-- TXAMP.PMAX_LEVEL, bits 25 to 16, RWL. -/
def PMAX_LEVEL : Fld := ⟨0x004, 16, 10⟩
/-- TXAMP.LOCK, bits 31 to 31, W1S. -/
def LOCK : Fld := ⟨0x004, 31, 1⟩
end TXAMP

/-! TXPHASE: 02_field_generation.md. -/
namespace TXPHASE
/-- Offset of TXPHASE. -/
def reg : Nat := 0x008
/-- TXPHASE.PHASE, bits 7 to 0, RW. -/
def PHASE : Fld := ⟨0x008, 0, 8⟩
/-- TXPHASE.APPLIED, bits 15 to 8, RO. -/
def APPLIED : Fld := ⟨0x008, 8, 8⟩
/-- TXPHASE.COORD, bits 16 to 16, RO. -/
def COORD : Fld := ⟨0x008, 16, 1⟩
/-- TXPHASE.PENDING, bits 17 to 17, RO. -/
def PENDING : Fld := ⟨0x008, 17, 1⟩
end TXPHASE

/-! MODCTL: 02_field_generation.md. -/
namespace MODCTL
/-- Offset of MODCTL. -/
def reg : Nat := 0x00C
/-- MODCTL.DEPTH, bits 7 to 0, RW. -/
def DEPTH : Fld := ⟨0x00C, 0, 8⟩
/-- MODCTL.FALL, bits 13 to 8, RW. -/
def FALL : Fld := ⟨0x00C, 8, 6⟩
/-- MODCTL.RISE, bits 21 to 16, RW. -/
def RISE : Fld := ⟨0x00C, 16, 6⟩
/-- MODCTL.SHAPE, bits 23 to 22, RW. -/
def SHAPE : Fld := ⟨0x00C, 22, 2⟩
/-- MODCTL.AUTO, bits 24 to 24, RW. -/
def AUTO : Fld := ⟨0x00C, 24, 1⟩
/-- MODCTL.CLAMP, bits 25 to 25, RO. -/
def CLAMP : Fld := ⟨0x00C, 25, 1⟩
end MODCTL

/-! GRATE: 02_field_generation.md. -/
namespace GRATE
/-- Offset of GRATE. -/
def reg : Nat := 0x010
/-- GRATE.ANT, bits 5 to 0, RW. -/
def ANT : Fld := ⟨0x010, 0, 6⟩
/-- GRATE.USER, bits 15 to 6, RW. -/
def USER : Fld := ⟨0x010, 6, 10⟩
/-- GRATE.BUSY, bits 31 to 31, RO. -/
def BUSY : Fld := ⟨0x010, 31, 1⟩
end GRATE

/-! TXSTAT: 02_field_generation.md. -/
namespace TXSTAT
/-- Offset of TXSTAT. -/
def reg : Nat := 0x014
/-- TXSTAT.STATE, bits 1 to 0, RO. -/
def STATE : Fld := ⟨0x014, 0, 2⟩
/-- TXSTAT.HELD, bits 2 to 2, RO. -/
def HELD : Fld := ⟨0x014, 2, 1⟩
/-- TXSTAT.HEADROOM, bits 3 to 3, RO. -/
def HEADROOM : Fld := ⟨0x014, 3, 1⟩
/-- TXSTAT.GOV, bits 4 to 4, RO. -/
def GOV : Fld := ⟨0x014, 4, 1⟩
/-- TXSTAT.CAUSE, bits 11 to 8, RO. -/
def CAUSE : Fld := ⟨0x014, 8, 4⟩
/-- TXSTAT.FAULT, bits 12 to 12, W1C. -/
def FAULT : Fld := ⟨0x014, 12, 1⟩
/-- TXSTAT.ANT_AT_FAULT, bits 21 to 16, RO. -/
def ANT_AT_FAULT : Fld := ⟨0x014, 16, 6⟩
/-- TXSTAT.GOV_FACTOR, bits 30 to 24, RO. -/
def GOV_FACTOR : Fld := ⟨0x014, 24, 7⟩
end TXSTAT

/-! THERM: 02_field_generation.md. -/
namespace THERM
/-- Offset of THERM. -/
def reg : Nat := 0x018
/-- THERM.START, bits 7 to 0, RW. -/
def START : Fld := ⟨0x018, 0, 8⟩
/-- THERM.SLOPE, bits 9 to 8, RW. -/
def SLOPE : Fld := ⟨0x018, 8, 2⟩
/-- THERM.DUTY_AT, bits 15 to 12, RW. -/
def DUTY_AT : Fld := ⟨0x018, 12, 4⟩
/-- THERM.DUTY, bits 17 to 16, RW. -/
def DUTY : Fld := ⟨0x018, 16, 2⟩
end THERM

/-! GRSETTLE: 02_field_generation.md. -/
namespace GRSETTLE
/-- Offset of GRSETTLE. -/
def reg : Nat := 0x01C
/-- GRSETTLE.SETTLE, bits 7 to 0, RW. -/
def SETTLE : Fld := ⟨0x01C, 0, 8⟩
end GRSETTLE

/-! TXMON: 02_field_generation.md. -/
namespace TXMON
/-- Offset of TXMON. -/
def reg : Nat := 0x020
/-- TXMON.VTX, bits 9 to 0, RO. -/
def VTX : Fld := ⟨0x020, 0, 10⟩
/-- TXMON.TJ, bits 24 to 16, RO. -/
def TJ : Fld := ⟨0x020, 16, 9⟩
end TXMON

/-! RXCTL: 03_receive_chain.md. -/
namespace RXCTL
/-- Offset of RXCTL. -/
def reg : Nat := 0x100
/-- RXCTL.RX_EN, bits 0 to 0, RW. -/
def RX_EN : Fld := ⟨0x100, 0, 1⟩
/-- RXCTL.RXAUTO, bits 1 to 1, RW. -/
def RXAUTO : Fld := ⟨0x100, 1, 1⟩
/-- RXCTL.LKEN, bits 2 to 2, RW. -/
def LKEN : Fld := ⟨0x100, 2, 1⟩
/-- RXCTL.DET_MARGIN, bits 12 to 8, RW. -/
def DET_MARGIN : Fld := ⟨0x100, 8, 5⟩
/-- RXCTL.OVL, bits 16 to 16, W1C. -/
def OVL : Fld := ⟨0x100, 16, 1⟩
/-- RXCTL.RAWTAP, bits 17 to 17, RO. -/
def RAWTAP : Fld := ⟨0x100, 17, 1⟩
/-- RXCTL.CFG_PENDING, bits 18 to 18, RO. -/
def CFG_PENDING : Fld := ⟨0x100, 18, 1⟩
end RXCTL

/-! DAMPER: 03_receive_chain.md. -/
namespace DAMPER
/-- Offset of DAMPER. -/
def reg : Nat := 0x104
/-- DAMPER.ATTEN, bits 3 to 0, RW. -/
def ATTEN : Fld := ⟨0x104, 0, 4⟩
/-- DAMPER.AGC, bits 4 to 4, RW. -/
def AGC : Fld := ⟨0x104, 4, 1⟩
/-- DAMPER.HI, bits 12 to 8, RW. -/
def HI : Fld := ⟨0x104, 8, 5⟩
/-- DAMPER.LO, bits 20 to 16, RW. -/
def LO : Fld := ⟨0x104, 16, 5⟩
end DAMPER

/-! DECIM: 03_receive_chain.md. -/
namespace DECIM
/-- Offset of DECIM. -/
def reg : Nat := 0x108
/-- DECIM.K, bits 2 to 0, RW. -/
def K : Fld := ⟨0x108, 0, 3⟩
end DECIM

/-! MEDIAN: 03_receive_chain.md. -/
namespace MEDIAN
/-- Offset of MEDIAN. -/
def reg : Nat := 0x10C
/-- MEDIAN.TAPS, bits 1 to 0, RW. -/
def TAPS : Fld := ⟨0x10C, 0, 2⟩
/-- MEDIAN.RANK, bits 4 to 2, RW. -/
def RANK : Fld := ⟨0x10C, 2, 3⟩
end MEDIAN

/-! DCBLK: 03_receive_chain.md. -/
namespace DCBLK
/-- Offset of DCBLK. -/
def reg : Nat := 0x110
/-- DCBLK.CORNER, bits 1 to 0, RW. -/
def CORNER : Fld := ⟨0x110, 0, 2⟩
/-- DCBLK.FREEZE, bits 2 to 2, RW. -/
def FREEZE : Fld := ⟨0x110, 2, 1⟩
/-- DCBLK.AUTO, bits 3 to 3, RW. -/
def AUTO : Fld := ⟨0x110, 3, 1⟩
/-- DCBLK.FROZEN, bits 4 to 4, RO. -/
def FROZEN : Fld := ⟨0x110, 4, 1⟩
/-- DCBLK.ACQ, bits 5 to 5, RO. -/
def ACQ : Fld := ⟨0x110, 5, 1⟩
end DCBLK

/-! AFC: 03_receive_chain.md. -/
namespace AFC
/-- Offset of AFC. -/
def reg : Nat := 0x114
/-- AFC.EN, bits 0 to 0, RW. -/
def EN : Fld := ⟨0x114, 0, 1⟩
/-- AFC.HOLD, bits 1 to 1, RW. -/
def HOLD : Fld := ⟨0x114, 1, 1⟩
/-- AFC.SEEDVALID, bits 2 to 2, RO. -/
def SEEDVALID : Fld := ⟨0x114, 2, 1⟩
/-- AFC.ACTIVE, bits 3 to 3, RO. -/
def ACTIVE : Fld := ⟨0x114, 3, 1⟩
/-- AFC.LIMIT, bits 4 to 4, RO. -/
def LIMIT : Fld := ⟨0x114, 4, 1⟩
/-- AFC.EST, bits 31 to 16, RO. -/
def EST : Fld := ⟨0x114, 16, 16⟩
end AFC

/-! NOISE: 03_receive_chain.md. -/
namespace NOISE
/-- Offset of NOISE. -/
def reg : Nat := 0x118
/-- NOISE.LEVEL, bits 10 to 0, RO. -/
def LEVEL : Fld := ⟨0x118, 0, 11⟩
/-- NOISE.VALID, bits 12 to 12, RO. -/
def VALID : Fld := ⟨0x118, 12, 1⟩
/-- NOISE.RESTART, bits 13 to 13, W1S. -/
def RESTART : Fld := ⟨0x118, 13, 1⟩
/-- NOISE.WINDOWS, bits 31 to 16, RO. -/
def WINDOWS : Fld := ⟨0x118, 16, 16⟩
end NOISE

/-! QUAL: 03_receive_chain.md. -/
namespace QUAL
/-- Offset of QUAL. -/
def reg : Nat := 0x11C
/-- QUAL.EYE, bits 7 to 0, RO. -/
def EYE : Fld := ⟨0x11C, 0, 8⟩
/-- QUAL.EVM, bits 17 to 8, RO. -/
def EVM : Fld := ⟨0x11C, 8, 10⟩
/-- QUAL.EVM_VALID, bits 18 to 18, RO. -/
def EVM_VALID : Fld := ⟨0x11C, 18, 1⟩
/-- QUAL.CLIPPED, bits 19 to 19, RO. -/
def CLIPPED : Fld := ⟨0x11C, 19, 1⟩
/-- QUAL.DCU, bits 20 to 20, RO. -/
def DCU : Fld := ⟨0x11C, 20, 1⟩
/-- QUAL.AFCLIM, bits 21 to 21, RO. -/
def AFCLIM : Fld := ⟨0x11C, 21, 1⟩
/-- QUAL.FSEQ, bits 27 to 24, RO. -/
def FSEQ : Fld := ⟨0x11C, 24, 4⟩
end QUAL

/-! CSEP: 03_receive_chain.md. -/
namespace CSEP
/-- Offset of CSEP. -/
def reg : Nat := 0x120
/-- CSEP.THRESH, bits 7 to 0, RW. -/
def THRESH : Fld := ⟨0x120, 0, 8⟩
/-- CSEP.EN, bits 8 to 8, RW. -/
def EN : Fld := ⟨0x120, 8, 1⟩
/-- CSEP.LAST, bits 31 to 16, RO. -/
def LAST : Fld := ⟨0x120, 16, 16⟩
end CSEP

/-! FERR: 03_receive_chain.md. -/
namespace FERR
/-- Offset of FERR. -/
def reg : Nat := 0x124
/-- FERR.PPM, bits 15 to 0, RO. -/
def PPM : Fld := ⟨0x124, 0, 16⟩
/-- FERR.FSEQ, bits 27 to 24, RO. -/
def FSEQ : Fld := ⟨0x124, 24, 4⟩
end FERR

/-! RSSI: 03_receive_chain.md. -/
namespace RSSI
/-- Offset of RSSI. -/
def reg : Nat := 0x128
/-- RSSI.LEVEL, bits 10 to 0, RO. -/
def LEVEL : Fld := ⟨0x128, 0, 11⟩
/-- RSSI.FSEQ, bits 27 to 24, RO. -/
def FSEQ : Fld := ⟨0x128, 24, 4⟩
end RSSI

/-! FIRCTL: 03_receive_chain.md. -/
namespace FIRCTL
/-- Offset of FIRCTL. -/
def reg : Nat := 0x12C
/-- FIRCTL.SET, bits 2 to 0, RW. -/
def SET : Fld := ⟨0x12C, 0, 3⟩
end FIRCTL

/-! FIRCOEF: 03_receive_chain.md. -/
namespace FIRCOEF
/-- Offset of FIRCOEF. -/
def reg : Nat := 0x180
/-- FIRCOEF.COEF, bits 15 to 0, RW. -/
def COEF : Fld := ⟨0x180, 0, 16⟩
end FIRCOEF

/-! FRMCTL: 04_framing_and_timing.md. -/
namespace FRMCTL
/-- Offset of FRMCTL. -/
def reg : Nat := 0x200
/-- FRMCTL.CODING, bits 3 to 0, RW. -/
def CODING : Fld := ⟨0x200, 0, 4⟩
/-- FRMCTL.TXRATE, bits 6 to 4, RW. -/
def TXRATE : Fld := ⟨0x200, 4, 3⟩
/-- FRMCTL.RXRATE, bits 9 to 7, RW. -/
def RXRATE : Fld := ⟨0x200, 7, 3⟩
/-- FRMCTL.ASK100, bits 10 to 10, RW. -/
def ASK100 : Fld := ⟨0x200, 10, 1⟩
/-- FRMCTL.TXCRC, bits 11 to 11, RW. -/
def TXCRC : Fld := ⟨0x200, 11, 1⟩
/-- FRMCTL.RXCRC, bits 12 to 12, RW. -/
def RXCRC : Fld := ⟨0x200, 12, 1⟩
/-- FRMCTL.PARITY, bits 13 to 13, RW. -/
def PARITY : Fld := ⟨0x200, 13, 1⟩
/-- FRMCTL.TXLASTBITS, bits 16 to 14, RW. -/
def TXLASTBITS : Fld := ⟨0x200, 14, 3⟩
/-- FRMCTL.RXALIGN, bits 19 to 17, RW. -/
def RXALIGN : Fld := ⟨0x200, 17, 3⟩
/-- FRMCTL.EMDSUP, bits 20 to 20, RW. -/
def EMDSUP : Fld := ⟨0x200, 20, 1⟩
/-- FRMCTL.ANTICOLL, bits 21 to 21, RW. -/
def ANTICOLL : Fld := ⟨0x200, 21, 1⟩
end FRMCTL

/-! FRMSTAT: 04_framing_and_timing.md. -/
namespace FRMSTAT
/-- Offset of FRMSTAT. -/
def reg : Nat := 0x204
/-- FRMSTAT.TXBUSY, bits 0 to 0, RO. -/
def TXBUSY : Fld := ⟨0x204, 0, 1⟩
/-- FRMSTAT.GUARD, bits 1 to 1, RO. -/
def GUARD : Fld := ⟨0x204, 1, 1⟩
/-- FRMSTAT.WINDOW, bits 2 to 2, RO. -/
def WINDOW : Fld := ⟨0x204, 2, 1⟩
/-- FRMSTAT.RXBUSY, bits 3 to 3, RO. -/
def RXBUSY : Fld := ⟨0x204, 3, 1⟩
/-- FRMSTAT.RXDONE, bits 4 to 4, W1C. -/
def RXDONE : Fld := ⟨0x204, 4, 1⟩
/-- FRMSTAT.TIMEOUT, bits 5 to 5, W1C. -/
def TIMEOUT : Fld := ⟨0x204, 5, 1⟩
/-- FRMSTAT.DISCARD, bits 6 to 6, W1C. -/
def DISCARD : Fld := ⟨0x204, 6, 1⟩
/-- FRMSTAT.TXCUT, bits 7 to 7, W1C. -/
def TXCUT : Fld := ⟨0x204, 7, 1⟩
/-- FRMSTAT.COLL, bits 8 to 8, RO. -/
def COLL : Fld := ⟨0x204, 8, 1⟩
/-- FRMSTAT.WLIM, bits 9 to 9, W1C. -/
def WLIM : Fld := ⟨0x204, 9, 1⟩
/-- FRMSTAT.XSTART, bits 10 to 10, W1S. -/
def XSTART : Fld := ⟨0x204, 10, 1⟩
/-- FRMSTAT.VREP_P, bits 11 to 11, W1S. -/
def VREP_P : Fld := ⟨0x204, 11, 1⟩
/-- FRMSTAT.VREP_X, bits 12 to 12, W1S. -/
def VREP_X : Fld := ⟨0x204, 12, 1⟩
/-- FRMSTAT.RXBITS, bits 15 to 13, RO. -/
def RXBITS : Fld := ⟨0x204, 13, 3⟩
/-- FRMSTAT.VCLASS, bits 18 to 16, RO. -/
def VCLASS : Fld := ⟨0x204, 16, 3⟩
/-- FRMSTAT.COLLPOS, bits 31 to 24, RO. -/
def COLLPOS : Fld := ⟨0x204, 24, 8⟩
end FRMSTAT

/-! FDT: 04_framing_and_timing.md. -/
namespace FDT
/-- Offset of FDT. -/
def reg : Nat := 0x208
/-- FDT.MIN, bits 17 to 0, RW. -/
def MIN : Fld := ⟨0x208, 0, 18⟩
/-- FDT.GRID, bits 18 to 18, RW. -/
def GRID : Fld := ⟨0x208, 18, 1⟩
/-- FDT.AUTO, bits 19 to 19, RW. -/
def AUTO : Fld := ⟨0x208, 19, 1⟩
end FDT

/-! BITTOL: 04_framing_and_timing.md. -/
namespace BITTOL
/-- Offset of BITTOL. -/
def reg : Nat := 0x20C
/-- BITTOL.TOL, bits 3 to 0, RW. -/
def TOL : Fld := ⟨0x20C, 0, 4⟩
/-- BITTOL.AUTO, bits 4 to 4, RW. -/
def AUTO : Fld := ⟨0x20C, 4, 1⟩
end BITTOL

/-! VIOLCNT: 04_framing_and_timing.md. -/
namespace VIOLCNT
/-- Offset of VIOLCNT. -/
def reg : Nat := 0x210
/-- VIOLCNT.TIMING, bits 7 to 0, RC. -/
def TIMING : Fld := ⟨0x210, 0, 8⟩
/-- VIOLCNT.CODING, bits 15 to 8, RC. -/
def CODING : Fld := ⟨0x210, 8, 8⟩
/-- VIOLCNT.PARITY, bits 23 to 16, RC. -/
def PARITY : Fld := ⟨0x210, 16, 8⟩
/-- VIOLCNT.CRC, bits 31 to 24, RC. -/
def CRC : Fld := ⟨0x210, 24, 8⟩
end VIOLCNT

/-! VIOLCNT1: 04_framing_and_timing.md. -/
namespace VIOLCNT1
/-- Offset of VIOLCNT1. -/
def reg : Nat := 0x214
/-- VIOLCNT1.LENGTH, bits 7 to 0, RC. -/
def LENGTH : Fld := ⟨0x214, 0, 8⟩
/-- VIOLCNT1.RATE, bits 15 to 8, RC. -/
def RATE : Fld := ⟨0x214, 8, 8⟩
/-- VIOLCNT1.PROTOCOL, bits 23 to 16, RC. -/
def PROTOCOL : Fld := ⟨0x214, 16, 8⟩
/-- VIOLCNT1.EXTEND, bits 31 to 24, RC. -/
def EXTEND : Fld := ⟨0x214, 24, 8⟩
end VIOLCNT1

/-! FWT: 04_framing_and_timing.md. -/
namespace FWT
/-- Offset of FWT. -/
def reg : Nat := 0x218
/-- FWT.WAIT, bits 27 to 0, RW. -/
def WAIT : Fld := ⟨0x218, 0, 28⟩
/-- FWT.AUTO, bits 28 to 28, RW. -/
def AUTO : Fld := ⟨0x218, 28, 1⟩
end FWT

/-! WAITLIM: 04_framing_and_timing.md. -/
namespace WAITLIM
/-- Offset of WAITLIM. -/
def reg : Nat := 0x21C
/-- WAITLIM.LIMIT, bits 11 to 0, RW. -/
def LIMIT : Fld := ⟨0x21C, 0, 12⟩
end WAITLIM

/-! RETRY: 04_framing_and_timing.md. -/
namespace RETRY
/-- Offset of RETRY. -/
def reg : Nat := 0x220
/-- RETRY.LIMIT, bits 3 to 0, RW. -/
def LIMIT : Fld := ⟨0x220, 0, 4⟩
end RETRY

/-! RX_CTL: 13_fifos.md. -/
namespace RX_CTL
/-- Offset of RX_CTL. -/
def reg : Nat := 0x300
/-- RX_CTL.SPILL, bits 2 to 0, RW. -/
def SPILL : Fld := ⟨0x300, 0, 3⟩
/-- RX_CTL.SIDE, bits 3 to 3, RW. -/
def SIDE : Fld := ⟨0x300, 3, 1⟩
/-- RX_CTL.FLUSH, bits 8 to 8, W1S. -/
def FLUSH : Fld := ⟨0x300, 8, 1⟩
/-- RX_CTL.CLRCNT, bits 9 to 9, W1S. -/
def CLRCNT : Fld := ⟨0x300, 9, 1⟩
end RX_CTL

/-! RX_STAT: 13_fifos.md. -/
namespace RX_STAT
/-- Offset of RX_STAT. -/
def reg : Nat := 0x304
/-- RX_STAT.EMPTY, bits 0 to 0, RO. -/
def EMPTY : Fld := ⟨0x304, 0, 1⟩
/-- RX_STAT.FULL, bits 1 to 1, RO. -/
def FULL : Fld := ⟨0x304, 1, 1⟩
/-- RX_STAT.DROP, bits 2 to 2, RO. -/
def DROP : Fld := ⟨0x304, 2, 1⟩
/-- RX_STAT.UNDER, bits 3 to 3, W1C. -/
def UNDER : Fld := ⟨0x304, 3, 1⟩
/-- RX_STAT.FIFO_PTR_FAULT, bits 4 to 4, W1C. -/
def FIFO_PTR_FAULT : Fld := ⟨0x304, 4, 1⟩
/-- RX_STAT.CFGERR, bits 5 to 5, W1C. -/
def CFGERR : Fld := ⟨0x304, 5, 1⟩
/-- RX_STAT.HEAD_VB, bits 10 to 8, RO. -/
def HEAD_VB : Fld := ⟨0x304, 8, 3⟩
/-- RX_STAT.HEAD_EOP, bits 11 to 11, RO. -/
def HEAD_EOP : Fld := ⟨0x304, 11, 1⟩
/-- RX_STAT.HEAD_CIN, bits 12 to 12, RO. -/
def HEAD_CIN : Fld := ⟨0x304, 12, 1⟩
/-- RX_STAT.LAST_VB, bits 15 to 13, RO. -/
def LAST_VB : Fld := ⟨0x304, 13, 3⟩
/-- RX_STAT.LAST_EOP, bits 16 to 16, RO. -/
def LAST_EOP : Fld := ⟨0x304, 16, 1⟩
/-- RX_STAT.LAST_CIN, bits 17 to 17, RO. -/
def LAST_CIN : Fld := ⟨0x304, 17, 1⟩
/-- RX_STAT.FAULTS, bits 23 to 20, RO. -/
def FAULTS : Fld := ⟨0x304, 20, 4⟩
end RX_STAT

/-! RX_DATA: 13_fifos.md. -/
namespace RX_DATA
/-- Offset of RX_DATA. -/
def reg : Nat := 0x308
/-- RX_DATA.WORD, bits 31 to 0, RO. -/
def WORD : Fld := ⟨0x308, 0, 32⟩
end RX_DATA

/-! RX_PKTCNT: 13_fifos.md. -/
namespace RX_PKTCNT
/-- Offset of RX_PKTCNT. -/
def reg : Nat := 0x30C
/-- RX_PKTCNT.PKTS, bits 13 to 0, RO. -/
def PKTS : Fld := ⟨0x30C, 0, 14⟩
/-- RX_PKTCNT.WORDS, bits 29 to 16, RO. -/
def WORDS : Fld := ⟨0x30C, 16, 14⟩
end RX_PKTCNT

/-! RX_LOST: 13_fifos.md. -/
namespace RX_LOST
/-- Offset of RX_LOST. -/
def reg : Nat := 0x310
/-- RX_LOST.BYTES, bits 15 to 0, RO. -/
def BYTES : Fld := ⟨0x310, 0, 16⟩
/-- RX_LOST.PKTS, bits 23 to 16, RO. -/
def PKTS : Fld := ⟨0x310, 16, 8⟩
/-- RX_LOST.CINDERS, bits 31 to 24, RO. -/
def CINDERS : Fld := ⟨0x310, 24, 8⟩
end RX_LOST

/-! TX_CTL: 13_fifos.md. -/
namespace TX_CTL
/-- Offset of TX_CTL. -/
def reg : Nat := 0x340
/-- TX_CTL.SPILL, bits 2 to 0, RW. -/
def SPILL : Fld := ⟨0x340, 0, 3⟩
/-- TX_CTL.SIDE, bits 3 to 3, RW. -/
def SIDE : Fld := ⟨0x340, 3, 1⟩
/-- TX_CTL.FLUSH, bits 8 to 8, W1S. -/
def FLUSH : Fld := ⟨0x340, 8, 1⟩
/-- TX_CTL.CLRCNT, bits 9 to 9, W1S. -/
def CLRCNT : Fld := ⟨0x340, 9, 1⟩
end TX_CTL

/-! TX_STAT: 13_fifos.md. -/
namespace TX_STAT
/-- Offset of TX_STAT. -/
def reg : Nat := 0x344
/-- TX_STAT.EMPTY, bits 0 to 0, RO. -/
def EMPTY : Fld := ⟨0x344, 0, 1⟩
/-- TX_STAT.FULL, bits 1 to 1, RO. -/
def FULL : Fld := ⟨0x344, 1, 1⟩
/-- TX_STAT.DROP, bits 2 to 2, RO. -/
def DROP : Fld := ⟨0x344, 2, 1⟩
/-- TX_STAT.UNDER, bits 3 to 3, W1C. -/
def UNDER : Fld := ⟨0x344, 3, 1⟩
/-- TX_STAT.FIFO_PTR_FAULT, bits 4 to 4, W1C. -/
def FIFO_PTR_FAULT : Fld := ⟨0x344, 4, 1⟩
/-- TX_STAT.CFGERR, bits 5 to 5, W1C. -/
def CFGERR : Fld := ⟨0x344, 5, 1⟩
/-- TX_STAT.HEAD_VB, bits 10 to 8, RO. -/
def HEAD_VB : Fld := ⟨0x344, 8, 3⟩
/-- TX_STAT.HEAD_EOP, bits 11 to 11, RO. -/
def HEAD_EOP : Fld := ⟨0x344, 11, 1⟩
/-- TX_STAT.HEAD_CIN, bits 12 to 12, RO. -/
def HEAD_CIN : Fld := ⟨0x344, 12, 1⟩
/-- TX_STAT.LAST_VB, bits 15 to 13, RO. -/
def LAST_VB : Fld := ⟨0x344, 13, 3⟩
/-- TX_STAT.LAST_EOP, bits 16 to 16, RO. -/
def LAST_EOP : Fld := ⟨0x344, 16, 1⟩
/-- TX_STAT.LAST_CIN, bits 17 to 17, RO. -/
def LAST_CIN : Fld := ⟨0x344, 17, 1⟩
/-- TX_STAT.FAULTS, bits 23 to 20, RO. -/
def FAULTS : Fld := ⟨0x344, 20, 4⟩
end TX_STAT

/-! TX_DATA: 13_fifos.md. -/
namespace TX_DATA
/-- Offset of TX_DATA. -/
def reg : Nat := 0x348
/-- TX_DATA.BYTE, bits 7 to 0, RW. -/
def BYTE : Fld := ⟨0x348, 0, 8⟩
/-- TX_DATA.EOP, bits 8 to 8, RW. -/
def EOP : Fld := ⟨0x348, 8, 1⟩
/-- TX_DATA.ABORT, bits 9 to 9, RW. -/
def ABORT : Fld := ⟨0x348, 9, 1⟩
end TX_DATA

/-! TX_PKTCNT: 13_fifos.md. -/
namespace TX_PKTCNT
/-- Offset of TX_PKTCNT. -/
def reg : Nat := 0x34C
/-- TX_PKTCNT.PKTS, bits 13 to 0, RO. -/
def PKTS : Fld := ⟨0x34C, 0, 14⟩
/-- TX_PKTCNT.WORDS, bits 29 to 16, RO. -/
def WORDS : Fld := ⟨0x34C, 16, 14⟩
end TX_PKTCNT

/-! TX_LOST: 13_fifos.md. -/
namespace TX_LOST
/-- Offset of TX_LOST. -/
def reg : Nat := 0x350
/-- TX_LOST.BYTES, bits 15 to 0, RO. -/
def BYTES : Fld := ⟨0x350, 0, 16⟩
/-- TX_LOST.PKTS, bits 23 to 16, RO. -/
def PKTS : Fld := ⟨0x350, 16, 8⟩
/-- TX_LOST.CINDERS, bits 31 to 24, RO. -/
def CINDERS : Fld := ⟨0x350, 24, 8⟩
end TX_LOST

/-! DBCTL: 08_distance_bounding.md. -/
namespace DBCTL
/-- Offset of DBCTL. -/
def reg : Nat := 0x600
/-- DBCTL.THRESH, bits 8 to 0, RWL. -/
def THRESH : Fld := ⟨0x600, 0, 9⟩
/-- DBCTL.K, bits 15 to 12, RWL. -/
def K : Fld := ⟨0x600, 12, 4⟩
/-- DBCTL.LOCK, bits 31 to 31, W1S. -/
def LOCK : Fld := ⟨0x600, 31, 1⟩
end DBCTL

/-! DBDLY: 08_distance_bounding.md. -/
namespace DBDLY
/-- Offset of DBDLY. -/
def reg : Nat := 0x604
/-- DBDLY.TAGDLY, bits 8 to 0, RWL. -/
def TAGDLY : Fld := ⟨0x604, 0, 9⟩
/-- DBDLY.OFS, bits 31 to 16, RWL. -/
def OFS : Fld := ⟨0x604, 16, 16⟩
end DBDLY

/-! DBINT: 08_distance_bounding.md. -/
namespace DBINT
/-- Offset of DBINT. -/
def reg : Nat := 0x608
/-- DBINT.DINT, bits 15 to 0, RO. -/
def DINT : Fld := ⟨0x608, 0, 16⟩
/-- DBINT.TJ, bits 24 to 16, RO. -/
def TJ : Fld := ⟨0x608, 16, 9⟩
end DBINT

/-! DBRES: 08_distance_bounding.md. -/
namespace DBRES
/-- Offset of DBRES. -/
def reg : Nat := 0x60C
/-- DBRES.NSLOTS, bits 6 to 0, RO. -/
def NSLOTS : Fld := ⟨0x60C, 0, 7⟩
/-- DBRES.DONE, bits 7 to 7, RO. -/
def DONE : Fld := ⟨0x60C, 7, 1⟩
/-- DBRES.ABSENT, bits 14 to 8, RO. -/
def ABSENT : Fld := ⟨0x60C, 8, 7⟩
/-- DBRES.LATE, bits 22 to 16, RO. -/
def LATE : Fld := ⟨0x60C, 16, 7⟩
end DBRES

/-! DBEXC: 08_distance_bounding.md. -/
namespace DBEXC
/-- Offset of DBEXC. -/
def reg : Nat := 0x610
/-- DBEXC.MEDIAN, bits 15 to 0, RO. -/
def MEDIAN : Fld := ⟨0x610, 0, 16⟩
/-- DBEXC.MAX, bits 31 to 16, RO. -/
def MAX : Fld := ⟨0x610, 16, 16⟩
end DBEXC

/-! DBSNR: 08_distance_bounding.md. -/
namespace DBSNR
/-- Offset of DBSNR. -/
def reg : Nat := 0x614
/-- DBSNR.SNR, bits 7 to 0, RO. -/
def SNR : Fld := ⟨0x614, 0, 8⟩
end DBSNR

/-! DBCHAL0: 08_distance_bounding.md. -/
namespace DBCHAL0
/-- Offset of DBCHAL0. -/
def reg : Nat := 0x618
/-- DBCHAL0.CHAL, bits 31 to 0, RW. -/
def CHAL : Fld := ⟨0x618, 0, 32⟩
end DBCHAL0

/-! DBCHAL1: 08_distance_bounding.md. -/
namespace DBCHAL1
/-- Offset of DBCHAL1. -/
def reg : Nat := 0x61C
/-- DBCHAL1.CHAL, bits 31 to 0, RW. -/
def CHAL : Fld := ⟨0x61C, 0, 32⟩
end DBCHAL1

/-! DBREC: 08_distance_bounding.md. -/
namespace DBREC
/-- Offset of DBREC. -/
def reg : Nat := 0x680
/-- DBREC.ONSET, bits 10 to 0, RO. -/
def ONSET : Fld := ⟨0x680, 0, 11⟩
/-- DBREC.PRES, bits 11 to 11, RO. -/
def PRES : Fld := ⟨0x680, 11, 1⟩
/-- DBREC.PHASE, bits 12 to 12, RO. -/
def PHASE : Fld := ⟨0x680, 12, 1⟩
/-- DBREC.SENT, bits 13 to 13, RO. -/
def SENT : Fld := ⟨0x680, 13, 1⟩
end DBREC

/-! ENG_CTL: 14_stoker_engines.md. -/
namespace ENG_CTL
/-- Offset of ENG_CTL. -/
def reg : Nat := 0x800
/-- ENG_CTL.HALT, bits 0 to 0, RW. -/
def HALT : Fld := ⟨0x800, 0, 1⟩
/-- ENG_CTL.STEP, bits 1 to 1, W1S. -/
def STEP : Fld := ⟨0x800, 1, 1⟩
/-- ENG_CTL.DZTRAP, bits 2 to 2, RW. -/
def DZTRAP : Fld := ⟨0x800, 2, 1⟩
end ENG_CTL

/-! ENG_PC: 14_stoker_engines.md. -/
namespace ENG_PC
/-- Offset of ENG_PC. -/
def reg : Nat := 0x804
/-- ENG_PC.PC, bits 14 to 0, RO. -/
def PC : Fld := ⟨0x804, 0, 15⟩
end ENG_PC

/-! ENG_STAT: 14_stoker_engines.md. -/
namespace ENG_STAT
/-- Offset of ENG_STAT. -/
def reg : Nat := 0x808
/-- ENG_STAT.STATE, bits 2 to 0, RO. -/
def STATE : Fld := ⟨0x808, 0, 3⟩
/-- ENG_STAT.CAUSE, bits 11 to 8, RO. -/
def CAUSE : Fld := ⟨0x808, 8, 4⟩
/-- ENG_STAT.CODE, bits 23 to 16, RO. -/
def CODE : Fld := ⟨0x808, 16, 8⟩
end ENG_STAT

/-! ENG_TPC: 14_stoker_engines.md. -/
namespace ENG_TPC
/-- Offset of ENG_TPC. -/
def reg : Nat := 0x80C
/-- ENG_TPC.V, bits 31 to 0, RO. -/
def V : Fld := ⟨0x80C, 0, 32⟩
end ENG_TPC

/-! ENG_RCNT: 14_stoker_engines.md. -/
namespace ENG_RCNT
/-- Offset of ENG_RCNT. -/
def reg : Nat := 0x810
/-- ENG_RCNT.V, bits 31 to 0, RO. -/
def V : Fld := ⟨0x810, 0, 32⟩
end ENG_RCNT

/-! ENG_CYCLE: 14_stoker_engines.md. -/
namespace ENG_CYCLE
/-- Offset of ENG_CYCLE. -/
def reg : Nat := 0x814
/-- ENG_CYCLE.V, bits 31 to 0, RO. -/
def V : Fld := ⟨0x814, 0, 32⟩
end ENG_CYCLE

/-! DBE_RING: 14_stoker_engines.md. -/
namespace DBE_RING
/-- Offset of DBE_RING. -/
def reg : Nat := 0x818
/-- DBE_RING.RING, bits 0 to 0, W1S. -/
def RING : Fld := ⟨0x818, 0, 1⟩
end DBE_RING

/-! DBH_RING: 14_stoker_engines.md. -/
namespace DBH_RING
/-- Offset of DBH_RING. -/
def reg : Nat := 0x81C
/-- DBH_RING.RING, bits 0 to 0, W1C. -/
def RING : Fld := ⟨0x81C, 0, 1⟩
end DBH_RING

/-! DBE_MSG: 14_stoker_engines.md. -/
namespace DBE_MSG
/-- Offset of DBE_MSG. -/
def reg : Nat := 0x820
/-- DBE_MSG.WORD, bits 31 to 0, RW. -/
def WORD : Fld := ⟨0x820, 0, 32⟩
end DBE_MSG

/-! DBH_MSG: 14_stoker_engines.md. -/
namespace DBH_MSG
/-- Offset of DBH_MSG. -/
def reg : Nat := 0x840
/-- DBH_MSG.WORD, bits 31 to 0, RW. -/
def WORD : Fld := ⟨0x840, 0, 32⟩
end DBH_MSG

/-! LKCTL: 07_port_coordination.md. -/
namespace LKCTL
/-- Offset of LKCTL. -/
def reg : Nat := 0x900
/-- LKCTL.ADAPT, bits 0 to 0, RW. -/
def ADAPT : Fld := ⟨0x900, 0, 1⟩
/-- LKCTL.MU, bits 4 to 1, RW. -/
def MU : Fld := ⟨0x900, 1, 4⟩
/-- LKCTL.DELAY, bits 12 to 8, RW. -/
def DELAY : Fld := ⟨0x900, 8, 5⟩
end LKCTL

/-! LKSTAT: 07_port_coordination.md. -/
namespace LKSTAT
/-- Offset of LKSTAT. -/
def reg : Nat := 0x904
/-- LKSTAT.DEPTH, bits 5 to 0, RO. -/
def DEPTH : Fld := ⟨0x904, 0, 6⟩
/-- LKSTAT.LIMIT, bits 15 to 8, W1C. -/
def LIMIT : Fld := ⟨0x904, 8, 8⟩
end LKSTAT

/-! LKCOEF: 07_port_coordination.md. -/
namespace LKCOEF
/-- Offset of LKCOEF. -/
def reg : Nat := 0x910
/-- LKCOEF.I, bits 15 to 0, RW. -/
def I : Fld := ⟨0x910, 0, 16⟩
/-- LKCOEF.Q, bits 31 to 16, RW. -/
def Q : Fld := ⟨0x910, 16, 16⟩
end LKCOEF

/-! XCFG: 09_transponder_side.md. -/
namespace XCFG
/-- Offset of XCFG. -/
def reg : Nat := 0x000
/-- XCFG.EN, bits 0 to 0, RO. -/
def EN : Fld := ⟨0x000, 0, 1⟩
/-- XCFG.AELYR, bits 1 to 1, RO. -/
def AELYR : Fld := ⟨0x000, 1, 1⟩
/-- XCFG.OSGIL, bits 2 to 2, RO. -/
def OSGIL : Fld := ⟨0x000, 2, 1⟩
/-- XCFG.DB_EN, bits 3 to 3, RO. -/
def DB_EN : Fld := ⟨0x000, 3, 1⟩
/-- XCFG.DB_SLOT, bits 10 to 4, RO. -/
def DB_SLOT : Fld := ⟨0x000, 4, 7⟩
/-- XCFG.ADMIN_SLOT, bits 17 to 11, RO. -/
def ADMIN_SLOT : Fld := ⟨0x000, 11, 7⟩
/-- XCFG.SVC_SLOT, bits 24 to 18, RO. -/
def SVC_SLOT : Fld := ⟨0x000, 18, 7⟩
/-- XCFG.CFG_PENDING, bits 25 to 25, RO. -/
def CFG_PENDING : Fld := ⟨0x000, 25, 1⟩
end XCFG

/-! XSTAT: 09_transponder_side.md. -/
namespace XSTAT
/-- Offset of XSTAT. -/
def reg : Nat := 0x004
/-- XSTAT.FIELD, bits 0 to 0, RO. -/
def FIELD : Fld := ⟨0x004, 0, 1⟩
/-- XSTAT.SUPPLY, bits 2 to 1, RO. -/
def SUPPLY : Fld := ⟨0x004, 1, 2⟩
/-- XSTAT.SESSION, bits 3 to 3, RO. -/
def SESSION : Fld := ⟨0x004, 3, 1⟩
/-- XSTAT.PROTO, bits 5 to 4, RO. -/
def PROTO : Fld := ⟨0x004, 4, 2⟩
/-- XSTAT.STATE, bits 8 to 6, RO. -/
def STATE : Fld := ⟨0x004, 6, 3⟩
/-- XSTAT.PENDING, bits 12 to 9, RO. -/
def PENDING : Fld := ⟨0x004, 9, 4⟩
/-- XSTAT.COMMIT, bits 13 to 13, RO. -/
def COMMIT : Fld := ⟨0x004, 13, 1⟩
/-- XSTAT.RECFAULT, bits 14 to 14, W1C. -/
def RECFAULT : Fld := ⟨0x004, 14, 1⟩
/-- XSTAT.H, bits 31 to 24, RO. -/
def H : Fld := ⟨0x004, 24, 8⟩
end XSTAT

/-! XTX: 09_transponder_side.md. -/
namespace XTX
/-- Offset of XTX. -/
def reg : Nat := 0x008
/-- XTX.LEVEL, bits 7 to 0, RO. -/
def LEVEL : Fld := ⟨0x008, 0, 8⟩
/-- XTX.HLEVEL, bits 15 to 8, RO. -/
def HLEVEL : Fld := ⟨0x008, 8, 8⟩
end XTX

/-! XDB: 09_transponder_side.md. -/
namespace XDB
/-- Offset of XDB. -/
def reg : Nat := 0x00C
/-- XDB.TDLY, bits 8 to 0, RO. -/
def TDLY : Fld := ⟨0x00C, 0, 9⟩
/-- XDB.TJ, bits 17 to 9, RO. -/
def TJ : Fld := ⟨0x00C, 9, 9⟩
end XDB

/-! XEO: 09_transponder_side.md. -/
namespace XEO
/-- Offset of XEO. -/
def reg : Nat := 0x010
/-- XEO.EN, bits 0 to 0, RO. -/
def EN : Fld := ⟨0x010, 0, 1⟩
/-- XEO.AREA, bits 4 to 1, RO. -/
def AREA : Fld := ⟨0x010, 1, 4⟩
/-- XEO.CNT_EN, bits 5 to 5, RO. -/
def CNT_EN : Fld := ⟨0x010, 5, 1⟩
/-- XEO.CNT, bits 9 to 6, RO. -/
def CNT : Fld := ⟨0x010, 6, 4⟩
/-- XEO.VTH, bits 15 to 10, RO. -/
def VTH : Fld := ⟨0x010, 10, 6⟩
/-- XEO.PULSE, bits 23 to 16, RO. -/
def PULSE : Fld := ⟨0x010, 16, 8⟩
end XEO

/-! XEOSTAT: 09_transponder_side.md. -/
namespace XEOSTAT
/-- Offset of XEOSTAT. -/
def reg : Nat := 0x014
/-- XEOSTAT.VSTORE, bits 9 to 0, RO. -/
def VSTORE : Fld := ⟨0x014, 0, 10⟩
/-- XEOSTAT.ARMED, bits 10 to 10, RO. -/
def ARMED : Fld := ⟨0x014, 10, 1⟩
/-- XEOSTAT.CHARGING, bits 11 to 11, RO. -/
def CHARGING : Fld := ⟨0x014, 11, 1⟩
/-- XEOSTAT.FIRING, bits 12 to 12, RO. -/
def FIRING : Fld := ⟨0x014, 12, 1⟩
/-- XEOSTAT.FIRED, bits 13 to 13, W1C. -/
def FIRED : Fld := ⟨0x014, 13, 1⟩
end XEOSTAT

/-! GRPCFG: 07_port_coordination.md. -/
namespace GRPCFG
/-- Offset of GRPCFG. -/
def reg : Nat := 0x000
/-- GRPCFG.MEMBERS, bits 7 to 0, RW. -/
def MEMBERS : Fld := ⟨0x000, 0, 8⟩
/-- GRPCFG.STAGGER, bits 8 to 8, RW. -/
def STAGGER : Fld := ⟨0x000, 8, 1⟩
/-- GRPCFG.STEP, bits 23 to 16, RW. -/
def STEP : Fld := ⟨0x000, 16, 8⟩
/-- GRPCFG.BASE, bits 31 to 24, RW. -/
def BASE : Fld := ⟨0x000, 24, 8⟩
end GRPCFG

/-! GRPTIME: 07_port_coordination.md. -/
namespace GRPTIME
/-- Offset of GRPTIME. -/
def reg : Nat := 0x004
/-- GRPTIME.ROUND, bits 19 to 0, RW. -/
def ROUND : Fld := ⟨0x004, 0, 20⟩
/-- GRPTIME.HOLDMAX, bits 31 to 20, RW. -/
def HOLDMAX : Fld := ⟨0x004, 20, 12⟩
end GRPTIME

/-! GRPSTAT: 07_port_coordination.md. -/
namespace GRPSTAT
/-- Offset of GRPSTAT. -/
def reg : Nat := 0x00C
/-- GRPSTAT.ACTIVE, bits 7 to 0, RO. -/
def ACTIVE : Fld := ⟨0x00C, 0, 8⟩
/-- GRPSTAT.HOLD, bits 15 to 8, RO. -/
def HOLD : Fld := ⟨0x00C, 8, 8⟩
/-- GRPSTAT.PENDING, bits 16 to 16, RO. -/
def PENDING : Fld := ⟨0x00C, 16, 1⟩
end GRPSTAT

/-! SCHCNT: 07_port_coordination.md. -/
namespace SCHCNT
/-- Offset of SCHCNT. -/
def reg : Nat := 0x080
/-- SCHCNT.HOLDS, bits 15 to 0, RC. -/
def HOLDS : Fld := ⟨0x080, 0, 16⟩
/-- SCHCNT.OVERRIDES, bits 31 to 16, RC. -/
def OVERRIDES : Fld := ⟨0x080, 16, 16⟩
end SCHCNT

/-! CPLCTL: 07_port_coordination.md. -/
namespace CPLCTL
/-- Offset of CPLCTL. -/
def reg : Nat := 0x100
/-- CPLCTL.VALID, bits 0 to 0, RO. -/
def VALID : Fld := ⟨0x100, 0, 1⟩
/-- CPLCTL.COMMIT, bits 1 to 1, W1S. -/
def COMMIT : Fld := ⟨0x100, 1, 1⟩
/-- CPLCTL.CHECKFAIL, bits 2 to 2, W1C. -/
def CHECKFAIL : Fld := ⟨0x100, 2, 1⟩
/-- CPLCTL.SAT, bits 15 to 8, RO. -/
def SAT : Fld := ⟨0x100, 8, 8⟩
/-- CPLCTL.CRC, bits 31 to 16, RW. -/
def CRC : Fld := ⟨0x100, 16, 16⟩
end CPLCTL

/-! CPLM: 07_port_coordination.md. -/
namespace CPLM
/-- Offset of CPLM. -/
def reg : Nat := 0x400
/-- CPLM.I, bits 15 to 0, RW. -/
def I : Fld := ⟨0x400, 0, 16⟩
/-- CPLM.Q, bits 31 to 16, RW. -/
def Q : Fld := ⟨0x400, 16, 16⟩
end CPLM

/-! HPCFG: 11_host_ports_and_mailboxes.md. -/
namespace HPCFG
/-- Offset of HPCFG. -/
def reg : Nat := 0x000
/-- HPCFG.IRQ_RESP, bits 0 to 0, RW. -/
def IRQ_RESP : Fld := ⟨0x000, 0, 1⟩
/-- HPCFG.IRQ_EVT, bits 1 to 1, RW. -/
def IRQ_EVT : Fld := ⟨0x000, 1, 1⟩
/-- HPCFG.BAUD, bits 20 to 4, RW. -/
def BAUD : Fld := ⟨0x000, 4, 17⟩
/-- HPCFG.EVMASK, bits 31 to 22, RW. -/
def EVMASK : Fld := ⟨0x000, 22, 10⟩
end HPCFG

/-! HPSTAT: 11_host_ports_and_mailboxes.md. -/
namespace HPSTAT
/-- Offset of HPSTAT. -/
def reg : Nat := 0x004
/-- HPSTAT.INFREE, bits 13 to 0, RO. -/
def INFREE : Fld := ⟨0x004, 0, 14⟩
/-- HPSTAT.EVQ, bits 18 to 14, RO. -/
def EVQ : Fld := ⟨0x004, 14, 5⟩
/-- HPSTAT.RESPQ, bits 19 to 19, RO. -/
def RESPQ : Fld := ⟨0x004, 19, 1⟩
/-- HPSTAT.CHAIN, bits 20 to 20, RO. -/
def CHAIN : Fld := ⟨0x004, 20, 1⟩
/-- HPSTAT.AWAKE, bits 21 to 21, RO. -/
def AWAKE : Fld := ⟨0x004, 21, 1⟩
/-- HPSTAT.IRQ, bits 22 to 22, RO. -/
def IRQ : Fld := ⟨0x004, 22, 1⟩
end HPSTAT

/-! HPERR: 11_host_ports_and_mailboxes.md. -/
namespace HPERR
/-- Offset of HPERR. -/
def reg : Nat := 0x008
/-- HPERR.JUNK, bits 7 to 0, RC. -/
def JUNK : Fld := ⟨0x008, 0, 8⟩
/-- HPERR.TRUNC, bits 15 to 8, RC. -/
def TRUNC : Fld := ⟨0x008, 8, 8⟩
/-- HPERR.CRC, bits 23 to 16, RC. -/
def CRC : Fld := ⟨0x008, 16, 8⟩
/-- HPERR.OVERRUN, bits 31 to 24, RC. -/
def OVERRUN : Fld := ⟨0x008, 24, 8⟩
end HPERR

/-! WDTCTL: 16_power_clocks_reset.md. -/
namespace WDTCTL
/-- Offset of WDTCTL. -/
def reg : Nat := 0x010
/-- WDTCTL.EN, bits 0 to 0, RWL. -/
def EN : Fld := ⟨0x010, 0, 1⟩
/-- WDTCTL.TIMEOUT, bits 12 to 4, RWL. -/
def TIMEOUT : Fld := ⟨0x010, 4, 9⟩
/-- WDTCTL.LOCK, bits 31 to 31, W1S. -/
def LOCK : Fld := ⟨0x010, 31, 1⟩
end WDTCTL

/-! WDTKICK: 16_power_clocks_reset.md. -/
namespace WDTKICK
/-- Offset of WDTKICK. -/
def reg : Nat := 0x014
/-- WDTKICK.KEY, bits 7 to 0, RW. -/
def KEY : Fld := ⟨0x014, 0, 8⟩
end WDTKICK

/-! CLKCTL: 16_power_clocks_reset.md. -/
namespace CLKCTL
/-- Offset of CLKCTL. -/
def reg : Nat := 0x020
/-- CLKCTL.HSRC, bits 0 to 0, RW. -/
def HSRC : Fld := ⟨0x020, 0, 1⟩
/-- CLKCTL.PLL_EN, bits 1 to 1, RW. -/
def PLL_EN : Fld := ⟨0x020, 1, 1⟩
/-- CLKCTL.PLL_LOCK, bits 2 to 2, RO. -/
def PLL_LOCK : Fld := ⟨0x020, 2, 1⟩
/-- CLKCTL.XTAL_EN, bits 3 to 3, RW. -/
def XTAL_EN : Fld := ⟨0x020, 3, 1⟩
/-- CLKCTL.XTAL_OK, bits 4 to 4, RO. -/
def XTAL_OK : Fld := ⟨0x020, 4, 1⟩
/-- CLKCTL.UNLOCK, bits 5 to 5, W1C. -/
def UNLOCK : Fld := ⟨0x020, 5, 1⟩
end CLKCTL

/-! WKCMP_LO: 15_timers.md. -/
namespace WKCMP_LO
/-- Offset of WKCMP_LO. -/
def reg : Nat := 0x008
/-- WKCMP_LO.V, bits 31 to 0, RW. -/
def V : Fld := ⟨0x008, 0, 32⟩
end WKCMP_LO

/-! WKCMP_HI: 15_timers.md. -/
namespace WKCMP_HI
/-- Offset of WKCMP_HI. -/
def reg : Nat := 0x00C
/-- WKCMP_HI.V, bits 31 to 0, RW. -/
def V : Fld := ⟨0x00C, 0, 32⟩
end WKCMP_HI

/-! WKCTL: 15_timers.md. -/
namespace WKCTL
/-- Offset of WKCTL. -/
def reg : Nat := 0x010
/-- WKCTL.EN, bits 0 to 0, RW. -/
def EN : Fld := ⟨0x010, 0, 1⟩
/-- WKCTL.WKF, bits 1 to 1, W1C. -/
def WKF : Fld := ⟨0x010, 1, 1⟩
end WKCTL

/-! WKEN: 16_power_clocks_reset.md. -/
namespace WKEN
/-- Offset of WKEN. -/
def reg : Nat := 0x020
/-- WKEN.SOURCES, bits 9 to 0, RW. -/
def SOURCES : Fld := ⟨0x020, 0, 10⟩
end WKEN

/-! WKGPEN: 16_power_clocks_reset.md. -/
namespace WKGPEN
/-- Offset of WKGPEN. -/
def reg : Nat := 0x024
/-- WKGPEN.V, bits 23 to 0, RW. -/
def V : Fld := ⟨0x024, 0, 24⟩
end WKGPEN

/-! WKGPEDGE: 16_power_clocks_reset.md. -/
namespace WKGPEDGE
/-- Offset of WKGPEDGE. -/
def reg : Nat := 0x028
/-- WKGPEDGE.V, bits 23 to 0, RW. -/
def V : Fld := ⟨0x028, 0, 24⟩
end WKGPEDGE

/-! WKGPPOL: 16_power_clocks_reset.md. -/
namespace WKGPPOL
/-- Offset of WKGPPOL. -/
def reg : Nat := 0x02C
/-- WKGPPOL.V, bits 23 to 0, RW. -/
def V : Fld := ⟨0x02C, 0, 24⟩
end WKGPPOL

/-! WKCAUSE: 16_power_clocks_reset.md. -/
namespace WKCAUSE
/-- Offset of WKCAUSE. -/
def reg : Nat := 0x030
/-- WKCAUSE.SOURCES, bits 9 to 0, W1C. -/
def SOURCES : Fld := ⟨0x030, 0, 10⟩
/-- WKCAUSE.BANKAB, bits 16 to 16, W1C. -/
def BANKAB : Fld := ⟨0x030, 16, 1⟩
end WKCAUSE

/-! RSTCAUSE: 16_power_clocks_reset.md. -/
namespace RSTCAUSE
/-- Offset of RSTCAUSE. -/
def reg : Nat := 0x034
/-- RSTCAUSE.LAST, bits 2 to 0, RO. -/
def LAST : Fld := ⟨0x034, 0, 3⟩
/-- RSTCAUSE.FLAGS, bits 13 to 8, W1C. -/
def FLAGS : Fld := ⟨0x034, 8, 6⟩
/-- RSTCAUSE.BOR, bits 18 to 16, RO. -/
def BOR : Fld := ⟨0x034, 16, 3⟩
end RSTCAUSE

/-! SLOWCLK: 16_power_clocks_reset.md. -/
namespace SLOWCLK
/-- Offset of SLOWCLK. -/
def reg : Nat := 0x038
/-- SLOWCLK.SRC, bits 0 to 0, RO. -/
def SRC : Fld := ⟨0x038, 0, 1⟩
/-- SLOWCLK.XDET, bits 1 to 1, RO. -/
def XDET : Fld := ⟨0x038, 1, 1⟩
/-- SLOWCLK.FAIL, bits 2 to 2, W1C. -/
def FAIL : Fld := ⟨0x038, 2, 1⟩
/-- SLOWCLK.FORCE_RC, bits 3 to 3, RW. -/
def FORCE_RC : Fld := ⟨0x038, 3, 1⟩
end SLOWCLK

/-! EMBCTL: 16_power_clocks_reset.md. -/
namespace EMBCTL
/-- Offset of EMBCTL. -/
def reg : Nat := 0x040
/-- EMBCTL.PORTS, bits 7 to 0, RW. -/
def PORTS : Fld := ⟨0x040, 0, 8⟩
/-- EMBCTL.INTERVAL, bits 26 to 16, RW. -/
def INTERVAL : Fld := ⟨0x040, 16, 11⟩
end EMBCTL

/-! EMBTH: 16_power_clocks_reset.md. -/
namespace EMBTH
/-- Offset of EMBTH. -/
def reg : Nat := 0x044
/-- EMBTH.AMP_TH, bits 7 to 0, RW. -/
def AMP_TH : Fld := ⟨0x044, 0, 8⟩
/-- EMBTH.PHASE_TH, bits 15 to 8, RW. -/
def PHASE_TH : Fld := ⟨0x044, 8, 8⟩
end EMBTH

/-! EMBANT0: 16_power_clocks_reset.md. -/
namespace EMBANT0
/-- Offset of EMBANT0. -/
def reg : Nat := 0x048
/-- EMBANT0.V, bits 31 to 0, RW. -/
def V : Fld := ⟨0x048, 0, 32⟩
end EMBANT0

/-! EMBANT1: 16_power_clocks_reset.md. -/
namespace EMBANT1
/-- Offset of EMBANT1. -/
def reg : Nat := 0x04C
/-- EMBANT1.V, bits 31 to 0, RW. -/
def V : Fld := ⟨0x04C, 0, 32⟩
end EMBANT1

/-! EMBSTAT: 16_power_clocks_reset.md. -/
namespace EMBSTAT
/-- Offset of EMBSTAT. -/
def reg : Nat := 0x050
/-- EMBSTAT.TRIG, bits 7 to 0, W1C. -/
def TRIG : Fld := ⟨0x050, 0, 8⟩
/-- EMBSTAT.UNCONF, bits 15 to 8, RO. -/
def UNCONF : Fld := ⟨0x050, 8, 8⟩
/-- EMBSTAT.PROBES, bits 31 to 16, RO. -/
def PROBES : Fld := ⟨0x050, 16, 16⟩
end EMBSTAT

/-! TAMPSTAT: 17_kiln_security.md. -/
namespace TAMPSTAT
/-- Offset of TAMPSTAT. -/
def reg : Nat := 0x060
/-- TAMPSTAT.LEVEL0, bits 0 to 0, RO. -/
def LEVEL0 : Fld := ⟨0x060, 0, 1⟩
/-- TAMPSTAT.LEVEL1, bits 1 to 1, RO. -/
def LEVEL1 : Fld := ⟨0x060, 1, 1⟩
/-- TAMPSTAT.LATCH0, bits 2 to 2, RO. -/
def LATCH0 : Fld := ⟨0x060, 2, 1⟩
/-- TAMPSTAT.LATCH1, bits 3 to 3, RO. -/
def LATCH1 : Fld := ⟨0x060, 3, 1⟩
end TAMPSTAT

/-! CALCFG: 10_calibration.md. -/
namespace CALCFG
/-- Offset of CALCFG. -/
def reg : Nat := 0x000
/-- CALCFG.DT, bits 4 to 0, RW. -/
def DT : Fld := ⟨0x000, 0, 5⟩
/-- CALCFG.AUTO, bits 5 to 5, RW. -/
def AUTO : Fld := ⟨0x000, 5, 1⟩
/-- CALCFG.XCHK, bits 6 to 6, RW. -/
def XCHK : Fld := ⟨0x000, 6, 1⟩
end CALCFG

/-! CALSTAT: 10_calibration.md. -/
namespace CALSTAT
/-- Offset of CALSTAT. -/
def reg : Nat := 0x004
/-- CALSTAT.PEND, bits 4 to 0, RO. -/
def PEND : Fld := ⟨0x004, 0, 5⟩
/-- CALSTAT.SETBAD, bits 9 to 5, RO. -/
def SETBAD : Fld := ⟨0x004, 5, 5⟩
/-- CALSTAT.NOSET, bits 10 to 10, RO. -/
def NOSET : Fld := ⟨0x004, 10, 1⟩
/-- CALSTAT.RUN, bits 11 to 11, RO. -/
def RUN : Fld := ⟨0x004, 11, 1⟩
/-- CALSTAT.RUNPORT, bits 14 to 12, RO. -/
def RUNPORT : Fld := ⟨0x004, 12, 3⟩
end CALSTAT

/-! CALTEMP: 10_calibration.md. -/
namespace CALTEMP
/-- Offset of CALTEMP. -/
def reg : Nat := 0x010
/-- CALTEMP.LAST, bits 8 to 0, RO. -/
def LAST : Fld := ⟨0x010, 0, 9⟩
/-- CALTEMP.VALID, bits 9 to 9, RO. -/
def VALID : Fld := ⟨0x010, 9, 1⟩
/-- CALTEMP.COUNT, bits 31 to 16, RO. -/
def COUNT : Fld := ⟨0x010, 16, 16⟩
end CALTEMP

/-! ADCX: 10_calibration.md. -/
namespace ADCX
/-- Offset of ADCX. -/
def reg : Nat := 0x040
/-- ADCX.DEV, bits 15 to 0, RO. -/
def DEV : Fld := ⟨0x040, 0, 16⟩
/-- ADCX.FAIL, bits 16 to 16, W1C. -/
def FAIL : Fld := ⟨0x040, 16, 1⟩
/-- ADCX.VALID, bits 17 to 17, RO. -/
def VALID : Fld := ⟨0x040, 17, 1⟩
/-- ADCX.CHECKS, bits 31 to 24, RO. -/
def CHECKS : Fld := ⟨0x040, 24, 8⟩
end ADCX

/-! TUNE: 10_calibration.md. -/
namespace TUNE
/-- Offset of TUNE. -/
def reg : Nat := 0x080
/-- TUNE.CAP, bits 5 to 0, RW. -/
def CAP : Fld := ⟨0x080, 0, 6⟩
/-- TUNE.APPLIED, bits 13 to 8, RO. -/
def APPLIED : Fld := ⟨0x080, 8, 6⟩
/-- TUNE.ATCPL, bits 21 to 16, RO. -/
def ATCPL : Fld := ⟨0x080, 16, 6⟩
/-- TUNE.ATCPL_VALID, bits 22 to 22, RO. -/
def ATCPL_VALID : Fld := ⟨0x080, 22, 1⟩
end TUNE

/-! AMPMAP: 10_calibration.md. -/
namespace AMPMAP
/-- Offset of AMPMAP. -/
def reg : Nat := 0x400
/-- AMPMAP.MAPA, bits 10 to 0, RW. -/
def MAPA : Fld := ⟨0x400, 0, 11⟩
/-- AMPMAP.MAPB, bits 26 to 16, RW. -/
def MAPB : Fld := ⟨0x400, 16, 11⟩
end AMPMAP

/-! TMR_CTL: 15_timers.md. -/
namespace TMR_CTL
/-- Offset of TMR_CTL. -/
def reg : Nat := 0x000
/-- TMR_CTL.SRC, bits 2 to 0, RW. -/
def SRC : Fld := ⟨0x000, 0, 3⟩
/-- TMR_CTL.FREEZE, bits 3 to 3, RW. -/
def FREEZE : Fld := ⟨0x000, 3, 1⟩
/-- TMR_CTL.EVT, bits 4 to 4, RW. -/
def EVT : Fld := ⟨0x000, 4, 1⟩
/-- TMR_CTL.CAPSEL, bits 7 to 5, RW. -/
def CAPSEL : Fld := ⟨0x000, 5, 3⟩
/-- TMR_CTL.CAPEDGE, bits 9 to 8, RW. -/
def CAPEDGE : Fld := ⟨0x000, 8, 2⟩
/-- TMR_CTL.ARM, bits 16 to 16, W1S. -/
def ARM : Fld := ⟨0x000, 16, 1⟩
/-- TMR_CTL.STOP, bits 17 to 17, W1S. -/
def STOP : Fld := ⟨0x000, 17, 1⟩
end TMR_CTL

/-! TMR_STAT: 15_timers.md. -/
namespace TMR_STAT
/-- Offset of TMR_STAT. -/
def reg : Nat := 0x004
/-- TMR_STAT.ARMED, bits 0 to 0, RO. -/
def ARMED : Fld := ⟨0x004, 0, 1⟩
/-- TMR_STAT.CMP, bits 1 to 1, W1C. -/
def CMP : Fld := ⟨0x004, 1, 1⟩
/-- TMR_STAT.OVR, bits 2 to 2, W1C. -/
def OVR : Fld := ⟨0x004, 2, 1⟩
/-- TMR_STAT.MISSED, bits 3 to 3, W1C. -/
def MISSED : Fld := ⟨0x004, 3, 1⟩
/-- TMR_STAT.CAPV, bits 4 to 4, RO. -/
def CAPV : Fld := ⟨0x004, 4, 1⟩
/-- TMR_STAT.SRCSTOP, bits 5 to 5, RO. -/
def SRCSTOP : Fld := ⟨0x004, 5, 1⟩
end TMR_STAT

/-! TMR_PRESC: 15_timers.md. -/
namespace TMR_PRESC
/-- Offset of TMR_PRESC. -/
def reg : Nat := 0x008
/-- TMR_PRESC.V, bits 31 to 0, RW. -/
def V : Fld := ⟨0x008, 0, 32⟩
end TMR_PRESC

/-! TMR_CMPV: 15_timers.md. -/
namespace TMR_CMPV
/-- Offset of TMR_CMPV. -/
def reg : Nat := 0x00C
/-- TMR_CMPV.V, bits 31 to 0, RW. -/
def V : Fld := ⟨0x00C, 0, 32⟩
end TMR_CMPV

/-! TMR_COUNT: 15_timers.md. -/
namespace TMR_COUNT
/-- Offset of TMR_COUNT. -/
def reg : Nat := 0x010
/-- TMR_COUNT.V, bits 31 to 0, RO. -/
def V : Fld := ⟨0x010, 0, 32⟩
end TMR_COUNT

/-! TMR_PACC: 15_timers.md. -/
namespace TMR_PACC
/-- Offset of TMR_PACC. -/
def reg : Nat := 0x014
/-- TMR_PACC.V, bits 31 to 0, RO. -/
def V : Fld := ⟨0x014, 0, 32⟩
end TMR_PACC

/-! TMR_CAP: 15_timers.md. -/
namespace TMR_CAP
/-- Offset of TMR_CAP. -/
def reg : Nat := 0x018
/-- TMR_CAP.V, bits 31 to 0, RO. -/
def V : Fld := ⟨0x018, 0, 32⟩
end TMR_CAP

/-! TMR_MAKEUP: 15_timers.md. -/
namespace TMR_MAKEUP
/-- Offset of TMR_MAKEUP. -/
def reg : Nat := 0x01C
/-- TMR_MAKEUP.V, bits 31 to 0, RO. -/
def V : Fld := ⟨0x01C, 0, 32⟩
end TMR_MAKEUP

/-! KWSTAT: 17_kiln_security.md. -/
namespace KWSTAT
/-- Offset of KWSTAT. -/
def reg : Nat := 0x000
/-- KWSTAT.STATE, bits 1 to 0, RO. -/
def STATE : Fld := ⟨0x000, 0, 2⟩
/-- KWSTAT.HARVEST, bits 2 to 2, RO. -/
def HARVEST : Fld := ⟨0x000, 2, 1⟩
/-- KWSTAT.KEYLOCK, bits 3 to 3, RO. -/
def KEYLOCK : Fld := ⟨0x000, 3, 1⟩
/-- KWSTAT.TRNG, bits 5 to 4, RO. -/
def TRNG : Fld := ⟨0x000, 4, 2⟩
/-- KWSTAT.DEBUG, bits 7 to 6, RO. -/
def DEBUG : Fld := ⟨0x000, 6, 2⟩
/-- KWSTAT.GLITCHES, bits 11 to 8, RO. -/
def GLITCHES : Fld := ⟨0x000, 8, 4⟩
/-- KWSTAT.DBGFAILS, bits 15 to 12, RO. -/
def DBGFAILS : Fld := ⟨0x000, 12, 4⟩
/-- KWSTAT.LOGQ, bits 20 to 16, RO. -/
def LOGQ : Fld := ⟨0x000, 16, 5⟩
end KWSTAT

end Sys2Proof.Machine
end

