-- ==== Sys2Proof/Machine/Sparse.lean ====
section
/-! DEFINITION. Memories and register files as plain data: a list of key and value pairs with rising keys, in
which no key holds what an unlisted key reads as. `d` gives what an unlisted key reads as. -/

namespace Sys2Proof.Machine

/-- A byte memory: address and byte pairs in canonical form. An unlisted address reads 0 (log entry 9). -/
abbrev Mem := List Host.Cell

/-- A register file: offset and word pairs in canonical form. An unlisted offset reads its reset word. -/
abbrev Cells := List (Nat × Word)

/-- The value listed for a key. -/
def Sparse.find {α : Type} : List (Nat × α) → Nat → Option α
  | [], _ => none
  | (a, v) :: r, k => if a = k then some v else Sparse.find r k

/-- The list with a key's value put in, at its place in the order. -/
def Sparse.put {α : Type} : List (Nat × α) → Nat → α → List (Nat × α)
  | [], k, v => [(k, v)]
  | (a, w) :: r, k, v =>
    if k < a then (k, v) :: (a, w) :: r
    else if k = a then (k, v) :: r
    else (a, w) :: Sparse.put r k v

/-- The list without a key. -/
def Sparse.del {α : Type} : List (Nat × α) → Nat → List (Nat × α)
  | [], _ => []
  | (a, w) :: r, k => if a = k then Sparse.del r k else (a, w) :: Sparse.del r k

/-- What a key reads as: its listed value, else what `d` gives. -/
def Sparse.get {α : Type} (d : Nat → α) (c : List (Nat × α)) (k : Nat) : α :=
  (Sparse.find c k).getD (d k)

/-- Writing a key. Writing what an unlisted key reads as removes the entry, so equal contents are equal lists. -/
def Sparse.set {α : Type} [DecidableEq α] (d : Nat → α) (c : List (Nat × α)) (k : Nat) (v : α) : List (Nat × α) :=
  if v = d k then Sparse.del c k else Sparse.put c k v

/-- The canonical form: keys rise strictly and no entry equals what its key reads as when unlisted. -/
def Sparse.wf {α : Type} [DecidableEq α] (d : Nat → α) : List (Nat × α) → Bool
  | [] => true
  | [(a, v)] => decide (v ≠ d a)
  | (a, v) :: (b, w) :: r => decide (v ≠ d a) && decide (a < b) && Sparse.wf d ((b, w) :: r)

/-- What an unlisted byte of a memory reads as (log entry 9). -/
def Mem.dflt (_ : Nat) : Byte := 0

/-- The byte at an address. -/
def Mem.read (m : Mem) (a : Nat) : Byte := Sparse.get Mem.dflt m a

/-- The memory with one byte written. -/
def Mem.write (m : Mem) (a : Nat) (b : Byte) : Mem := Sparse.set Mem.dflt m a b

/-- The memory's canonical form. -/
def Mem.wf (m : Mem) : Bool := Sparse.wf Mem.dflt m

end Sys2Proof.Machine
end

