-- ==== Sys2Proof/Machine/State.lean ====
section
/-! DEFINITION. The state of the SX880: its registers, FIFOs, engines, host ports, tag table, Kiln, port T and the
queue of commands that wait. Plain data throughout. INVENTORY.md lists each item with the rule that names it. -/

namespace Sys2Proof.Machine

/-- Why a step could stop with a fault. -/
inductive Fault where
  /-- Raised by no meaning: the spec names no event that leaves the SX880 without a next state (safe). -/
  | notRaised
  deriving DecidableEq, Repr

/-- Why a step could be refused. -/
inductive Refusal where
  /-- Raised by a dispatch arm whose command has no meaning yet (safe). -/
  | notModelled (mnemonic : String)
  deriving DecidableEq, Repr

/-- A packet of an outbound stream: its bytes, whether it is an event, whether it ends a response, the target of
the response, and the UART rate that its last byte puts in force (R310, R313, R323). -/
structure OutPkt where
  bytes : List Byte
  isEvent : Bool
  isFinal : Bool
  target : Byte
  baud : Option Nat
  deriving DecidableEq, Repr

/-- What a step makes ready for a host port, in the order it is made ready (R332). It is emptied at the end of
every step. -/
inductive OutItem where
  | event (hp : HostNum) (target : Byte) (code : Half) (payload : List Byte)
  | response (hp : HostNum) (pkts : List OutPkt)
  deriving DecidableEq, Repr

/-- One word of a FIFO with its tags (R410), the number of its packet, and its place in the spill window, counted
in words, while it lies there (R404). -/
structure FWord where
  data : Word
  vb : Nat
  eop : Bool
  cin : Bool
  pkt : Nat
  slot : Nat
  deriving DecidableEq, Repr

/-- A position of a FIFO, held as its value and as its complement (R417). -/
structure FPos where
  v : Half
  c : Half
  deriving DecidableEq, Repr

/-- A FIFO beside its registers (R401, R406, R409-R418): the three stores, the bytes of the word being packed,
whether a packet is in progress and its number, the count of its Cinder, whether it is lost whole, committed
packets, the descriptor of the packet that enters the window (its place and the words entered), and the seven
positions: write, read and commit of the tail, write and read of the window, write and read of the head. -/
structure Fifo where
  head : List FWord
  win : List FWord
  tail : List FWord
  part : List Byte
  open_ : Bool
  pktNo : Nat
  cinder : Option Nat
  lostWhole : Bool
  pkts : Nat
  desc : Option (Nat × Nat)
  pos : List FPos
  deriving DecidableEq, Repr

/-- A frame that the framer is sending (R103, R109): its bytes with the CRC, the FRMCTL in force for it, whether its
last bit on the air is 1, whether it is HALT with NEXT = 1, whether it is SCAN or HALT, whether it is DB_BEGIN. -/
structure TxFrame where
  bytes : List Byte
  frm : Word
  lastOne : Bool
  haltNext : Bool
  scanHalt : Bool
  dbBegin : Bool
  deriving DecidableEq, Repr

/-- A response window (R109, R110, R152, R153): MIN, WAIT and GRID in force; the frame it answers; the base window;
whether it is the second window of R152 and has opened; whether the first reply arrived; extensions granted and their
sum; a violation counted in it; the start of the reply in progress. -/
structure Window where
  min : Nat
  wait : Nat
  grid : Bool
  lastOne : Bool
  frm : Word
  base : Nat
  scanHalt : Bool
  haltNext : Bool
  dbBegin : Bool
  second : Bool
  opened : Bool
  firstOk : Bool
  exts : Nat
  extSum : Nat
  viol : Bool
  start : Option Nat
  deriving DecidableEq, Repr

/-- The framer beside its registers (R103, R109-R115, R225-R227, R442-R444): the settings in force and whether a
write waits; packets requested; the frame being sent; the window; a reply that started outside its time; the guard
running; a frame held by the group and counted; a distance-bounding reservation; the waiting sum in fc cycles; the
results queued; the challenges asked for, the slot reached and whether the phase runs. -/
structure Framer where
  frm : Word
  frmPend : Bool
  reqs : Nat
  tx : Option TxFrame
  win : Option Window
  stray : Bool
  guard : Bool
  held : Bool
  holdCounted : Bool
  reserved : Bool
  waitSum : Nat
  results : List Word
  rapidN : Nat
  rapidSlot : Nat
  rapidOn : Bool
  deriving DecidableEq, Repr

/-- The receive chain beside its registers (R74, R78, R89): settings in force by register offset, whether a written
setting waits, the overload mark of the frame in progress, and the antenna and coding that EST belongs to. -/
structure RxChain where
  inForce : Cells
  pend : Bool
  clipped : Bool
  seedAnt : Nat
  seedCod : Nat
  deriving DecidableEq, Repr

/-- The Bellows driver beside its registers (R45, R47, R64, R65, R69, R70): the level in force, an amplitude ramp
in progress, thermal lockout, undervoltage not cleared, the duty time used in the present window with its debt,
the duty limit in force, the first readings taken, and the level of a CAL_RUN that drives the port with its map
at 1,024 (R293). -/
structure Field where
  leff : Nat
  ramping : Bool
  lockout : Bool
  vtxUv : Bool
  debt : Nat
  dutyUsed : Nat
  hot : Bool
  sampled : Bool
  calLevel : Option Nat
  deriving DecidableEq, Repr

/-- The Grate word of a port, held in D1 SUP (R57-R62). -/
structure Grate where
  reg : Word
  settleReg : Word
  kept : Half
  request : Bool
  held : Bool
  settling : Bool
  deriving DecidableEq, Repr

/-- An engine beside its registers (R421-R426, R430, R436, R445). -/
structure Engine where
  g : Vector Word 16
  esw : Word
  bits : BitVec 512
  code : Mem
  data : Mem
  codeLen : Nat
  repLeft : Nat
  lastLoad : Option RegNum
  waitOn : Option (BitVec 10 × Bool)
  stall : Option EngInstr
  deriving DecidableEq, Repr

/-- The timing unit and the challenge capture of a port (R229, R235). -/
structure Timing where
  chal : BitVec 64
  dint : Nat
  snrSum : Nat
  excess : List Int
  onsets : List Nat
  deriving DecidableEq, Repr

/-- A port's service as Hearth keeps it (R355, R544). -/
inductive Svc where
  | closed | opened | isolated | reloading
  deriving DecidableEq, Repr

/-- The Aelyr link session of a port (R372). -/
structure Session where
  uid : List Byte
  info : List Byte
  deriving DecidableEq, Repr

/-- A pass in progress (R175-R177): its number, the antennas still to visit, the antenna of the slot in progress,
the slot counts by status, the untracked sightings, whether it is a census, whether INV_STOP was sent, the status of
a fault that ends it, the antennas and statuses visited so far, and the keys of the tags that the slot in progress
leaves halted. -/
structure Pass where
  num : Nat
  left : List Nat
  slot : Option Nat
  counts : List Nat
  untracked : Nat
  census : Bool
  stop : Bool
  fault : Option Nat
  visited : List (Nat × Nat)
  halted : List (List Byte)
  deriving DecidableEq, Repr

/-- A DB_RUN or DB_CAL in progress (R237, R245, R246): N, the key slot, whether the response carries the record,
REFDLY, NR, the challenges of the run or phase, NT of the reply that arrived, phases completed, whether one is, DINT
of the first phase, the onsets gathered, the slots timed, whether the engine has answered. -/
structure DbRun where
  cal : Bool
  n : Nat
  slot : Nat
  record : Bool
  refdly : Nat
  nr : List Byte
  chal : List Byte
  nt : List Byte
  phases : Nat
  phaseDone : Bool
  dint0 : Nat
  onsets : List Nat
  slots : Nat
  answered : Bool
  deriving DecidableEq, Repr

/-- What Hearth keeps for a port beside its registers: service, whether its engine has sent its ready message,
whether the domain is powered, the kept image, the Aelyr link session, the key of
the activated PICC and of the Osgil tag that last answered GET_ID, inventory and the diagnostic sums (R127, R173,
R355, R372, R392, R456). -/
structure PortSvc where
  svc : Svc
  ready : Bool
  powered : Bool
  imgKept : Bool
  customer : Bool
  session : Option Session
  picc : Option (List Byte)
  osgil : Option (List Byte)
  inv : List Byte
  invNext : Option (List Byte)
  pass : Option Pass
  series : Bool
  passNum : Nat
  censusDue : Bool
  prevSlots : List (Nat × Nat)
  faultRuns : List (Nat × Nat)
  db : Option DbRun
  viol : List Nat
  holds : Nat
  overrides : Nat
  faults : Nat
  untracked : Nat
  deriving DecidableEq, Repr

/-- A reader port. `regs` holds its PORT-domain registers, `tmr` its four timer channels. -/
structure Port where
  regs : Cells
  tmr : Vector Cells 4
  grate : Grate
  field : Field
  chain : RxChain
  framer : Framer
  rxf : Fifo
  txf : Fifo
  eng : Engine
  tim : Timing
  svc : PortSvc
  deriving DecidableEq, Repr

/-- A command as Hearth decides it: who sent it, its packet's fields, its whole payload and the packet as it
landed. -/
structure Cmd where
  hp : HostNum
  seq : Byte
  flags : Byte
  target : Byte
  opcode : Half
  payload : List Byte
  raw : List Byte
  deriving DecidableEq, Repr

/-- How far a CAL_RUN has come (R293-R295): the steps not yet finished, REF_ANT, LEVEL, the antennas to map and
those not yet measured, the CAP of the sweep, the best CAP and its phase, the level keys measured. -/
structure CalRun where
  steps : Nat
  refAnt : Nat
  level : Nat
  ants : List Nat
  todo : List Nat
  capNow : Nat
  bestCap : Nat
  bestPhase : Int
  levels : List (Nat × Nat)
  deriving DecidableEq, Repr

/-- How far a CAL_COUPLING has come (R214-R216). -/
structure CalCpl where
  set : List Nat
  left : List Nat
  repeats : Nat
  frozen : Bool
  entries : List (Nat × Word)
  sat : Nat
  edges : List (Nat × Nat × Nat)
  deriving DecidableEq, Repr

/-- What a command in progress waits for; `due` is the TIMEBASE value at which FIELD_ON ends with TIMEOUT. -/
inductive Job where
  | fieldOn (p : PortNum) (due : Nat)
  | fieldOff (p : PortNum)
  | grate (p : PortNum)
  | engineStart (p : PortNum)
  | shipped (p : PortNum)
  | reload (p : PortNum) (image : List Byte)
  | calRun (p : PortNum) (c : CalRun)
  | coupling (c : CalCpl)
  | db (p : PortNum)
  | kiln
  | lock
  | devReset
  deriving DecidableEq, Repr

/-- A command in progress and what it waits for. -/
structure Running where
  cmd : Cmd
  job : Job
  deriving DecidableEq, Repr

/-- A command outstanding at a host port (R323). -/
structure Outstanding where
  target : Byte
  raw : List Byte
  answered : Bool
  deriving DecidableEq, Repr

/-- A kept exchange (R324). -/
structure Kept where
  target : Byte
  raw : List Byte
  pkts : List OutPkt
  deriving DecidableEq, Repr

/-- An open chain (R326, R327). -/
structure Chain where
  target : Byte
  opcode : Half
  data : List Byte
  expired : Bool
  deriving DecidableEq, Repr

/-- The transaction of an SPI host port (R309). -/
inductive SpiState where
  | idle | first | write | read | ignored
  deriving DecidableEq, Repr

/-- A host port (R303-R331). `part` holds the bytes of the packet being received, `refused` that one of its bytes
was refused, `count` how many of its bytes have passed. -/
structure HostPort where
  regs : Cells
  part : List Byte
  refused : Bool
  count : Nat
  landed : List (List Byte)
  out : List OutPkt
  taken : Nat
  more : List OutPkt
  lost : Nat
  lostFirst : Half
  lostLast : Half
  eseq : Byte
  open_ : List Outstanding
  kept : List Kept
  chains : List Chain
  spi : SpiState
  i2c : Option Bool
  i2cFirst : Bool
  baud : Nat
  awake : Bool
  rst : Bool
  ready : Bool
  deriving DecidableEq, Repr

/-- The coordination block beside its registers: the matrix in force with its CRC, and per receiver whether the
matrix has been taken (R210-R212); groups in force (R221); ports whose schedule change waits (R228); receivers
whose adaptation is suspended for a source (R296). -/
structure Coord where
  regs : Cells
  matrix : Cells
  crc : Half
  cplPend : List Nat
  active : List Nat
  change : List Bool
  suspended : List Nat
  deriving DecidableEq, Repr

/-- A key in a user slot (R508). -/
structure KeySlot where
  type : Nat
  usage : Nat
  key : List Byte
  deriving DecidableEq, Repr

/-- A committed Ash log record (R533, R537). -/
structure AshRec where
  body : List Byte
  chain : List Byte
  deriving DecidableEq, Repr

/-- An Ash log record that waits for its commit (R535): type, source, flags, data and time stamp. -/
structure AshItem where
  type : Nat
  source : Nat
  flags : Nat
  data : List Byte
  time : Nat
  deriving DecidableEq, Repr

/-- Kiln (R503-R538) beside KWSTAT: user slots, nonces with the second of issue, the DEBUG_UNLOCK counter, the
sources of key lock, glitch times, tamper inputs whose response waits with the power state at the event, TRNG
failures, the committed log with its next SEQ and anchor, the record queue, what the next SUPPRESSED record reports,
the times of the last fault records, the active image slot, the SECVER floor and the factory sets read as bad. -/
structure Kiln where
  regs : Cells
  slots : List (Nat × KeySlot)
  nonceX : Option (List Byte × Nat)
  nonceD : Option (List Byte × Nat)
  dbgFails : Nat
  dbgLast : Nat
  lockTamper : Bool
  lockHot : Bool
  lockGlitch : Bool
  glitchTimes : List Nat
  deferred : List (Nat × Nat)
  trngFails : Nat
  log : List AshRec
  logSeq : Nat
  anchor : List Byte
  queue : List AshItem
  supCount : Nat
  supFirst : Nat
  supLast : Nat
  faultTimes : List Nat
  active : Nat
  secver : Nat
  sets : BitVec 5
  deriving DecidableEq, Repr

/-- One copy of an NVM record of port T (R269-R271). -/
structure NvCopy where
  data : List Byte
  seq : Nat
  locked : Bool
  ok : Bool
  deriving DecidableEq, Repr

/-- The primary and the backup copy of an NVM record. -/
structure NvRec where
  primary : NvCopy
  backup : NvCopy
  deriving DecidableEq, Repr

/-- A protocol state of port T (XSTAT.STATE). -/
inductive TState where
  | off | idle | ready | active | halted | opened | secured
  deriving DecidableEq, Repr

/-- A deferred host write of port T (R267): the command, whether the field has since written what it writes. -/
structure Deferred where
  cmd : Cmd
  overtaken : Bool
  deriving DecidableEq, Repr

/-- Port T (R145-R171, R250-R277) beside XSTAT, XDB and XEOSTAT. `recs` holds the NVM records that differ from the
factory state, by key; `cfg` the configuration in force (R256); `spoke` the protocol of the first valid frame since
the field appeared (R171); `opens` the open areas; the kept repeat-safe frame and its reply; the nonce of GET_NONCE;
what DB_BEGIN left; the last reply with the M of an extension frame before it (0: none), and the last burst; the
latched VTH, PULSE and CNT of an armed opening; whether HARV meets the commit reserve; whether a repair waits for it;
whether VSYS lies below 3.0 V. -/
structure Xpdr where
  regs : Cells
  recs : List (Nat × NvRec)
  journal : Option (Nat × Nat)
  cfg : List Byte
  cfgNext : Bool
  st : TState
  spoke : Option LinkProto
  sibarm : Bool
  opens : List Nat
  keptReq : List Byte
  keptRsp : List Byte
  nonce : Option (List Byte)
  dbArmed : Bool
  dbSync : Bool
  nr : List Byte
  nt : List Byte
  a : List Byte
  dbN : Nat
  crx : List Bool
  reply : List Byte
  replyExt : Nat
  burst : Option Bool
  deferred : List Deferred
  eoVth : Nat
  eoPulse : Nat
  eoCnt : Option Nat
  reserve : Bool
  repairDue : Bool
  vsysLow : Bool
  deriving DecidableEq, Repr

/-- The power states (R476), and the wait and the banking that lead to one (R478, R481). -/
inductive Power where
  | run | idle | doze | sleep | off
  deriving DecidableEq, Repr

/-- What the device as a whole holds beside its register blocks. -/
structure Device where
  power : Power
  entry : Option Nat
  banking : Bool
  inReset : Bool
  boot : Bool
  full : Bool
  imgStat : Nat
  readyCount : Nat
  vsysOk : Bool
  vioOk : Bool
  hold : Bool
  resetCauses : List Nat
  timebase : Nat
  wkcmp : Nat
  wdtCount : Nat
  boot0Pin : Bool
  boot1Pin : Bool
  boot0 : Bool
  boot1 : Bool
  jtagHalt : Bool
  gpioFunc : List Nat
  gpioOut : BitVec 24
  gpioDir : BitVec 24
  gpioPull : List Nat
  gpioIn : BitVec 24
  embBase : List (Nat × (Int × Int))
  embRepeat : List Nat
  wokeAt : Option Nat
  deriving DecidableEq, Repr

/-- The whole state. `trims` holds the factory values in force by port (8 is port T), `staged` those that wait
(R278, R284), `calDue` the domains whose recalibration is held (R286), `xchkPend` the ports whose cross-check
waits (R287), `imports` the imported PORT-domain words that wait for an idle point, by port (R301). -/
structure State where
  pending : List Instr
  raised : List OutItem
  free : Nat
  ports : Vector Port 8
  gtmr : Vector Cells 8
  hosts : Vector HostPort 4
  owner : Vector (Option HostNum) 9
  devOwn : BitVec 4
  running : List Running
  coord : Coord
  table : List (Nat × List Byte)
  ttGen : Nat
  ttFullPolicy : Bool
  ttCensusEvents : Bool
  cal : Cells
  xchkPend : List Nat
  calDue : List Nat
  trims : List (Nat × List Int)
  staged : List (Nat × List Int)
  imports : List (Nat × List (Nat × Word))
  pcr : Cells
  aon : Cells
  kiln : Kiln
  xpdr : Xpdr
  dev : Device
  flash : Mem
  flashState : List Nat
  sram : Mem
  spill : Mem
  deriving DecidableEq, Repr

/-! ## The state after reset

State.reset is the machine right after a power-on reset of D0 (R492): every field at its reset value, the system
reset still held (R498). INVENTORY.md names each value's rule or log entry. -/

/-- A position with its complement (R417). -/
def FPos.of (n : Nat) : FPos := ⟨BitVec.ofNat 16 n, ~~~(BitVec.ofNat 16 n)⟩

/-- An empty FIFO. -/
def Fifo.reset : Fifo :=
  { head := [], win := [], tail := [], part := [], open_ := false, pktNo := 0, cinder := none,
    lostWhole := false, pkts := 0, desc := none, pos := List.replicate 7 (FPos.of 0) }

/-- The framer at reset; the settings in force are FRMCTL's reset word (log entry 10). -/
def Framer.reset : Framer :=
  { frm := 0x00202400, frmPend := false, reqs := 0, tx := none, win := none, stray := false, guard := false, held := false,
    holdCounted := false, reserved := false, waitSum := 0, results := [], rapidN := 0, rapidSlot := 0,
    rapidOn := false }

/-- The receive chain at reset: the settings in force are the registers' reset words. -/
def RxChain.reset : RxChain :=
  { inForce := [], pend := false, clipped := false, seedAnt := 0, seedCod := 0 }

/-- The driver at reset: field off (log entry 11). -/
def Field.reset : Field :=
  { leff := 0, ramping := false, lockout := false, vtxUv := false, debt := 0, dutyUsed := 0, hot := false, sampled := false,
    calLevel := none }

/-- The Grate word at reset (R62). -/
def Grate.reset : Grate :=
  { reg := 0, settleReg := 0x14, kept := 0, request := false, held := false, settling := false }

/-- An engine at reset, its memories listing nothing (log entry 9). -/
def Engine.reset : Engine :=
  { g := Vector.replicate 16 0, esw := 0, bits := 0, code := [], data := [], codeLen := 0, repLeft := 0,
    lastLoad := none, waitOn := none, stall := none }

/-- The timing unit at reset. -/
def Timing.reset : Timing := { chal := 0, dint := 0, snrSum := 0, excess := [], onsets := [] }

/-- The inventory parameters after a SYS reset, in the layout of R367 (R173). -/
def defaultInv : List Byte :=
  [1, 0, 0, 0, 0, 0, 0, 0, 0, 0, 1, 0, 0xFF, 0xFF, 0xFF, 0xFF, 50, 0, 4, 1, 1, 16, 0, 2, 3, 10, 3, 0, 0, 0]

/-- Hearth's record of a port at reset: closed, its domain off. -/
def PortSvc.reset : PortSvc :=
  { svc := .closed, ready := false, powered := false, imgKept := false, customer := false, session := none, picc := none, osgil := none,
    inv := defaultInv, invNext := none, pass := none, series := false, passNum := 0, censusDue := true,
    prevSlots := [], faultRuns := [], db := none, viol := List.replicate 8 0, holds := 0, overrides := 0,
    faults := 0, untracked := 0 }

/-- A port at reset. -/
def Port.reset : Port :=
  { regs := [], tmr := Vector.replicate 4 [], grate := .reset, field := .reset, chain := .reset,
    framer := .reset, rxf := .reset, txf := .reset, eng := .reset, tim := .reset, svc := .reset }

/-- A host port at reset: BAUD's reset value is in force (R313). -/
def HostPort.reset : HostPort :=
  { regs := [], part := [], refused := false, count := 0, landed := [], out := [], taken := 0, more := [],
    lost := 0, lostFirst := 0, lostLast := 0, eseq := 0, open_ := [], kept := [], chains := [], spi := .idle,
    i2c := none, i2cFirst := false, baud := 1152, awake := false, rst := true, ready := false }

/-- The coordination block at reset. -/
def Coord.reset : Coord :=
  { regs := [], matrix := [], crc := 0, cplPend := [], active := [0, 0, 0, 0],
    change := [false, false, false, false], suspended := [] }

/-- Kiln at reset: no key, no nonce, an empty log (log entry 14). -/
def Kiln.reset : Kiln :=
  { regs := [], slots := [], nonceX := none, nonceD := none, dbgFails := 0, dbgLast := 0, lockTamper := false,
    lockHot := false, lockGlitch := false, glitchTimes := [], deferred := [], trngFails := 0, log := [],
    logSeq := 0, anchor := [], queue := [], supCount := 0, supFirst := 0, supLast := 0, faultTimes := [], active := 0, secver := 0, sets := 0 }

/-- T's factory configuration in the layout of R380: EN and AELYR, no key slots, the UID from the device public key,
LEVEL 181, HLEVEL 255, emergency opening off with VTH 40 and PULSE 10, every GUARD 0xFF ("Configuration and
registers"). -/
def factoryCfg : List Byte :=
  [0x03, 0x7F, 0x7F, 0x7F]
    ++ (List.range 8).map (fun i => (Config.sha256 (Config.p256Public Config.deviceKey)).getD i 0)
    ++ [181, 255, 0, 0, 0, 40, 10, 0] ++ List.replicate 16 0xFF

/-- Port T at reset: factory records and configuration, no field. -/
def Xpdr.reset : Xpdr :=
  { regs := [], recs := [], journal := none, cfg := factoryCfg, cfgNext := false, st := .off, spoke := none,
    sibarm := false, opens := [], keptReq := [], keptRsp := [], nonce := none, dbArmed := false, dbSync := false,
    nr := [], nt := [], a := [], dbN := 0, crx := [], reply := [], replyExt := 0, burst := none, deferred := [],
    eoVth := 0, eoPulse := 0, eoCnt := none, reserve := false, repairDue := false, vsysLow := false }

/-- The device at reset: in RUN, VSYS and VIO present, the system reset held (R498). -/
def Device.reset : Device :=
  { power := .run, entry := none, banking := false, inReset := true, boot := false,
    full := false, imgStat := 0, readyCount := 0, vsysOk := true, vioOk := true, hold := false, resetCauses := [0],
    timebase := 0, wkcmp := 2 ^ 64 - 1, wdtCount := 0, boot0Pin := false, boot1Pin := false, boot0 := false,
    boot1 := false, jtagHalt := false, gpioFunc := List.replicate 24 0, gpioOut := 0, gpioDir := 0,
    gpioPull := List.replicate 24 1, gpioIn := 0, embBase := [], embRepeat := [], wokeAt := none }

/-- The machine right after reset. -/
def State.reset : State :=
  { pending := [], raised := [], free := 0, ports := Vector.replicate 8 .reset, gtmr := Vector.replicate 8 [],
    hosts := Vector.replicate 4 .reset, owner := Vector.replicate 9 (some 0), devOwn := 1, running := [],
    coord := .reset, table := [], ttGen := 0, ttFullPolicy := true, ttCensusEvents := false, cal := [],
    xchkPend := [], calDue := [], trims := [], staged := [], imports := [], pcr := [], aon := [], kiln := .reset, xpdr := .reset,
    dev := .reset, flash := [], flashState := [0, 0], sram := [], spill := [] }

end Sys2Proof.Machine
end

