-- ==== Sys2Proof/Machine/Ops.lean ====
section
/-! DEFINITION. The named operations on the state: registers by block, ports, free values, events and responses. -/

namespace Sys2Proof.Machine

/-! ## Registers of a block -/

/-- The word of a register of a block. -/
def Cells.word (b : Block) (c : Cells) (off : Nat) : Word := Sparse.get (resetWord b) c off

/-- A block with a register's word replaced. -/
def Cells.put (b : Block) (c : Cells) (off : Nat) (w : Word) : Cells := Sparse.set (resetWord b) c off w

/-- A field of a block. -/
def Cells.get (b : Block) (c : Cells) (f : Fld) : Nat := wget (Cells.word b c f.off) f.lo f.len

/-- A block with a field replaced. -/
def Cells.set (b : Block) (c : Cells) (f : Fld) (v : Nat) : Cells :=
  Cells.put b c f.off (wset (Cells.word b c f.off) f.lo f.len v)

/-! ## Ports -/

/-- A reader port. -/
def State.port (s : State) (p : PortNum) : Port := s.ports.get p

/-- The state with a port replaced. -/
def State.setPort (s : State) (p : PortNum) (q : Port) : State := { s with ports := s.ports.set p q }

/-- The state with a port changed. -/
def State.modPort (s : State) (p : PortNum) (f : Port → Port) : State := s.setPort p (f (s.port p))

/-- A register of a port. -/
def Port.word (q : Port) (off : Nat) : Word := Cells.word .port q.regs off

/-- A port with a register's word replaced. -/
def Port.putWord (q : Port) (off : Nat) (w : Word) : Port := { q with regs := Cells.put .port q.regs off w }

/-- A field of a port's registers. -/
def Port.get (q : Port) (f : Fld) : Nat := Cells.get .port q.regs f

/-- Whether a one-bit field reads 1. -/
def Port.on (q : Port) (f : Fld) : Bool := q.get f == 1

/-- A port with a field replaced. -/
def Port.set (q : Port) (f : Fld) (v : Nat) : Port := { q with regs := Cells.set .port q.regs f v }

/-- A field of a port, from the state. -/
def State.pget (s : State) (p : PortNum) (f : Fld) : Nat := (s.port p).get f

/-- Whether a one-bit field of a port reads 1. -/
def State.pon (s : State) (p : PortNum) (f : Fld) : Bool := (s.port p).on f

/-- The state with a field of a port replaced. -/
def State.pset (s : State) (p : PortNum) (f : Fld) (v : Nat) : State := s.modPort p fun q => q.set f v

/-- The state with Hearth's record of a port changed. -/
def State.modSvc (s : State) (p : PortNum) (f : PortSvc → PortSvc) : State :=
  s.modPort p fun q => { q with svc := f q.svc }

/-- The state with a port's framer changed. -/
def State.modFramer (s : State) (p : PortNum) (f : Framer → Framer) : State :=
  s.modPort p fun q => { q with framer := f q.framer }

/-- The state with a port's engine changed. -/
def State.modEng (s : State) (p : PortNum) (f : Engine → Engine) : State :=
  s.modPort p fun q => { q with eng := f q.eng }

/-! ## The other register blocks -/

def State.coordGet (s : State) (f : Fld) : Nat := Cells.get .coord s.coord.regs f
def State.coordSet (s : State) (f : Fld) (v : Nat) : State :=
  { s with coord := { s.coord with regs := Cells.set .coord s.coord.regs f v } }
def State.pcrGet (s : State) (f : Fld) : Nat := Cells.get .pcr s.pcr f
def State.pcrSet (s : State) (f : Fld) (v : Nat) : State := { s with pcr := Cells.set .pcr s.pcr f v }
def State.aonGet (s : State) (f : Fld) : Nat := Cells.get .aon s.aon f
def State.aonSet (s : State) (f : Fld) (v : Nat) : State := { s with aon := Cells.set .aon s.aon f v }
def State.calGet (s : State) (f : Fld) : Nat := Cells.get .cal s.cal f
def State.calSet (s : State) (f : Fld) (v : Nat) : State := { s with cal := Cells.set .cal s.cal f v }
def State.kilnGet (s : State) (f : Fld) : Nat := Cells.get .kiln s.kiln.regs f
def State.kilnSet (s : State) (f : Fld) (v : Nat) : State :=
  { s with kiln := { s.kiln with regs := Cells.set .kiln s.kiln.regs f v } }
def State.xget (s : State) (f : Fld) : Nat := Cells.get .xpdr s.xpdr.regs f
def State.xset (s : State) (f : Fld) (v : Nat) : State :=
  { s with xpdr := { s.xpdr with regs := Cells.set .xpdr s.xpdr.regs f v } }

/-- A host port. -/
def State.host (s : State) (h : HostNum) : HostPort := s.hosts.get h

/-- The state with a host port changed. -/
def State.modHost (s : State) (h : HostNum) (f : HostPort → HostPort) : State :=
  { s with hosts := s.hosts.set h (f (s.host h)) }

def HostPort.get (h : HostPort) (f : Fld) : Nat := Cells.get .host h.regs f
def HostPort.set (h : HostPort) (f : Fld) (v : Nat) : HostPort := { h with regs := Cells.set .host h.regs f v }

/-! ## Byte memories -/

/-- `n` bytes of a memory from an address. -/
def Mem.bytes (m : Mem) (a : Nat) : Nat → List Byte
  | 0 => []
  | n + 1 => Mem.read m a :: Mem.bytes m (a + 1) n

/-- Bytes written from an address upward. -/
def Mem.putBytes (m : Mem) (a : Nat) : List Byte → Mem
  | [] => m
  | b :: r => Mem.putBytes (Mem.write m a b) (a + 1) r

/-- The word at an address, low byte first (R10). -/
def Mem.word (m : Mem) (a : Nat) : Word := BitVec.ofNat 32 (fromLe (Mem.bytes m a 4))

/-- A word written at an address. -/
def Mem.putWord (m : Mem) (a : Nat) (w : Word) : Mem := Mem.putBytes m a (wordBytes w)

/-! ## Free values (log entries 3 and 17) -/

/-- A free number below a bound, and the state with the counter advanced. -/
def State.drawNat (s : State) (bound : Nat) : Nat × State :=
  (Config.freeNat s.free % bound, { s with free := s.free + 1 })

/-- A free truth value. -/
def State.drawBool (s : State) : Bool × State := (Config.freeBool s.free, { s with free := s.free + 1 })

/-- `n` random bytes, the first from counter value `k`. -/
def randomFrom (k : Nat) : Nat → List Byte
  | 0 => []
  | n + 1 => Config.randomByte k :: randomFrom (k + 1) n

/-- `n` random bytes of Kiln (R516). -/
def State.drawBytes (s : State) (n : Nat) : List Byte × State :=
  (randomFrom s.free n, { s with free := s.free + n })

/-! ## Events and responses (R330-R332) -/

/-- An event for one host port. -/
def State.raiseTo (s : State) (h : HostNum) (target code : Nat) (payload : List Byte) : State :=
  { s with raised := s.raised ++
      [OutItem.event h (BitVec.ofNat 8 target) (BitVec.ofNat 16 code) payload] }

/-- The four host ports in ascending order. -/
def allHosts : List HostNum := [0, 1, 2, 3]

/-- The eight reader ports in ascending order. -/
def allPorts : List PortNum := [0, 1, 2, 3, 4, 5, 6, 7]

/-- An event for every host port that meets a test. -/
def State.raiseAll (s : State) (sel : HostNum → Bool) (target code : Nat) (payload : List Byte) : State :=
  (allHosts.filter sel).foldl (fun t h => t.raiseTo h target code payload) s

/-- An event for the owner of the device, which is every co-owner (R330). -/
def State.raiseDev (s : State) (code : Nat) (payload : List Byte) (target : Nat := 0x0F) : State :=
  s.raiseAll (fun h => s.devOwn.getLsbD h.val) target code payload

/-- The owner of a reader port or of port T (target 8). -/
def State.ownerOf (s : State) (t : Nat) : Option HostNum := s.owner.toList.getD t none

/-- An event for the owner of a reader port or of T; none when the target is unowned. -/
def State.raiseOwner (s : State) (t : Nat) (code : Nat) (payload : List Byte) : State :=
  match s.ownerOf t with
  | some h => s.raiseTo h t code payload
  | none => s

/-- Bytes of a header with SYNC, FLAGS, LEN, a sequence byte, TARGET and a code, the payload, and the CRC
(R303, R304). -/
def packetBytes (sync flags : Nat) (seq target : Byte) (code : Nat) (payload : List Byte) : List Byte :=
  let body := [BitVec.ofNat 8 sync, BitVec.ofNat 8 flags] ++ leBytes 2 payload.length ++ [seq, target]
    ++ leBytes 2 code ++ payload
  body ++ CrcKind.crcO.bytes body

/-- TIMEBASE seconds (R194). -/
def State.seconds (s : State) : Nat := (s.dev.timebase >>> 15) % 2 ^ 32

/-! ## Statuses (R350) -/

namespace St
def OK := 0x0000
def PENDING := 0x0001
def BAD_CRC := 0x0010
def BAD_LENGTH := 0x0011
def UNKNOWN_OPCODE := 0x0012
def BAD_PARAM := 0x0013
def NOT_OWNER := 0x0020
def CONFLICT := 0x0021
def BUSY := 0x0022
def NO_TAG := 0x0030
def COLLISION := 0x0031
def TIMEOUT := 0x0032
def PROTOCOL_ERROR := 0x0033
def AUTH_FAIL := 0x0034
def LOCKED_OUT := 0x0035
def RELAY_SUSPECT := 0x0036
def FIELD_FAULT := 0x0040
def THERMAL_LIMIT := 0x0041
def SECURITY_DENIED := 0x0050
def IMAGE_INVALID := 0x0051
def INTERNAL_ERROR := 0x00FF
end St

/-! ## Ash log queue (R534-R536) -/

/-- Whether a record type is a fault record (R536). -/
def isFaultRecord (t : Nat) : Bool := t == 0x0002 || t == 0x0054 || (0x0060 ≤ t && t ≤ 0x0071)

/-- The time a record carries: TIMEBASE seconds, or none in harvest mode (R251). -/
def State.ashTime (s : State) : Nat := if s.kilnGet KWSTAT.HARVEST = 1 then 0xFFFFFFFF else s.seconds

/-- The FLAGS of a record: no time and harvest mode, in harvest mode (R533). -/
def State.ashFlags (s : State) : Nat := if s.kilnGet KWSTAT.HARVEST = 1 then 0b110 else 0

/-- One item for the record queue, lost to the next SUPPRESSED record when the queue of 16 is full (R535). -/
def State.ashPut (s : State) (i : AshItem) : State :=
  if s.kiln.queue.length < 16 then { s with kiln := { s.kiln with queue := s.kiln.queue ++ [i] } }
  else
    { s with kiln := { s.kiln with
        supCount := min 65535 (s.kiln.supCount + 1)
        supFirst := if s.kiln.supCount = 0 then i.type else s.kiln.supFirst
        supLast := i.type } }

/-- A record for the Ash log: data beyond 18 bytes goes into a continuation record (R533-R535). -/
def State.ash (s : State) (type source : Nat) (data : List Byte) : State :=
  let f := s.ashFlags
  let t := s.ashTime
  let s := s.ashPut { type, source, flags := f, data := data.take 18, time := t }
  if data.length ≤ 18 then s
  else s.ashPut { type, source, flags := f ||| 1, data := data.drop 18, time := t }

end Sys2Proof.Machine
end

