-- ==== Sys2Proof/Machine/Respond.lean ====
section
/-! DEFINITION. What Hearth makes ready for the host: responses, kept exchanges, events in the outbound streams, and
the end of commands in progress (R306-R308, R323, R324, R329-R332). -/

namespace Sys2Proof.Machine

/-- A response packet of a command: STATUS, payload, whether a further packet follows (R303, R306, R329). -/
def respPkt (c : Cmd) (status : Nat) (payload : List Byte) (flags : Nat) (final : Bool) (baud : Option Nat) : OutPkt :=
  { bytes := packetBytes 0xC5 flags c.seq c.target status payload, isEvent := false, isFinal := final,
    target := c.target, baud }

/-- The packets of one response, MORE set in all but the last (R329). -/
def respPkts (c : Cmd) (status : Nat) (baud : Option Nat) : List (List Byte) → List OutPkt
  | [] => []
  | [pl] => [respPkt c status pl 0 true baud]
  | pl :: r => respPkt c status pl 1 false none :: respPkts c status baud r

/-- The first unanswered outstanding command with these bytes, marked as answered. -/
def markAnswered (raw : List Byte) : List Outstanding → List Outstanding
  | [] => []
  | o :: r => if o.raw = raw ∧ o.answered = false then { o with answered := true } :: r else o :: markAnswered raw r

/-- A command's response of one or more packets, made ready for its sender and kept for a repeat when it is one
packet long or the command is APDU (R324). -/
def State.respondPkts (s : State) (c : Cmd) (status : Nat) (pls : List (List Byte)) (baud : Option Nat := none) : State :=
  let pkts := respPkts c status baud pls
  let keep := pls.length ≤ 1 || c.opcode = 0x0203
  let s := { s with raised := s.raised ++ [OutItem.response c.hp pkts] }
  s.modHost c.hp fun h =>
    { h with
      open_ := markAnswered c.raw h.open_
      kept := if keep then { target := c.target, raw := c.raw, pkts } :: h.kept.filter (·.target ≠ c.target)
              else h.kept }

/-- A command's response of one packet. -/
def State.respond (s : State) (c : Cmd) (status : Nat) (payload : List Byte := []) : State :=
  s.respondPkts c status [payload]

/-- The EVTPEND bit set in a packet, its CRC formed again (R306). -/
def withEvtpend (b : List Byte) : List Byte :=
  let body := (b.take (b.length - 2)).set 1 ((b.getD 1 0) ||| 4)
  body ++ CrcKind.crcO.bytes body

/-- A packet with EVTPEND as it applies when the packet is added to the stream. -/
def OutPkt.pend (p : OutPkt) (e : Bool) : OutPkt := if e then { p with bytes := withEvtpend p.bytes } else p

/-- Whether an event code is discarded under HPCFG.EVMASK (R332, R398). -/
def HostPort.masks (h : HostPort) (code : Half) : Bool :=
  let g := code.toNat / 256
  1 ≤ g && g ≤ 10 && nbit (h.get HPCFG.EVMASK) (g - 1)

/-- Events in the outbound stream (R330). -/
def HostPort.eventCount (h : HostPort) : Nat := (h.out.filter (·.isEvent)).length

/-- An event added to the stream with the next ESEQ, lost when 16 are queued (R308, R331). -/
def HostPort.postEvent (h : HostPort) (target : Byte) (code : Half) (payload : List Byte) (pend : Bool) : HostPort :=
  if h.masks code then h
  else if 16 ≤ h.eventCount then
    { h with
      lost := min 65535 (h.lost + 1)
      lostFirst := if h.lost = 0 then code else h.lostFirst
      lostLast := code }
  else
    { h with
      out := h.out ++ [({ bytes := packetBytes 0xE5 0 h.eseq target code.toNat payload, isEvent := true,
                          isFinal := false, target, baud := none } : OutPkt).pend pend]
      eseq := h.eseq + 1 }

/-- Response packets added to the stream; while packets of a longer response wait, they wait behind it (R329). -/
def HostPort.postResponse (h : HostPort) (pkts : List OutPkt) (pend : Bool) : HostPort :=
  match h.more, pkts with
  | [], p :: r => { h with out := h.out ++ [p.pend pend], more := r }
  | _, _ => { h with more := h.more ++ pkts }

/-- Whether a list of raised items holds an event of a host port that its mask does not discard. -/
def pendsFor (s : State) (hp : HostNum) (l : List OutItem) : Bool :=
  l.any fun i => match i with
    | .event h _ code _ => h = hp && !(s.host hp).masks code
    | .response _ _ => false

/-- The responses of a step, added before its events (R332). -/
def postResponses (all : List OutItem) : List OutItem → State → State
  | [], s => s
  | .response hp pkts :: r, s =>
    postResponses all r (s.modHost hp fun h => h.postResponse pkts (pendsFor s hp all))
  | .event _ _ _ _ :: r, s => postResponses all r s

/-- The events of a step, in the order raised. -/
def postEvents : List OutItem → State → State
  | [], s => s
  | .event hp target code payload :: r, s =>
    postEvents r (s.modHost hp fun h => h.postEvent target code payload (pendsFor s hp r))
  | .response _ _ :: r, s => postEvents r s

/-- Everything a step made ready, added to the outbound streams: responses first, then events (R306, R332). -/
def State.flush (s : State) : State :=
  postEvents s.raised (postResponses s.raised s.raised { s with raised := [] })

/-- A meaning as an outcome: the effect on everything but the queue, then what it made ready. -/
def run (f : State → State) (s : State) : Host.Outcome State Fault Refusal := .next { (f s).flush with pending := s.pending }

/-! ## Commands in progress -/

/-- The reader port that a job keeps busy. -/
def Job.port : Job → Option PortNum
  | .fieldOn p _ | .fieldOff p | .grate p | .engineStart p | .shipped p | .reload p _ | .calRun p _ | .db p => some p
  | .coupling _ | .kiln | .lock | .devReset => none

/-- The state with a command in progress added. -/
def State.begin (s : State) (c : Cmd) (j : Job) : State := { s with running := s.running ++ [⟨c, j⟩] }

/-- Whether a command in progress keeps a reader port busy: by its job, or by its target while it waits for Kiln or
the PLL. -/
def Running.onPort (r : Running) (p : PortNum) : Bool :=
  match r.job.port with
  | some q => q == p
  | none => r.cmd.target.toNat == p.val

/-- Whether a command is in progress on a port. -/
def State.portBusy (s : State) (p : PortNum) : Bool := s.running.any fun r => r.onPort p

/-- Every command in progress that meets a test ends with a status. -/
def State.endWhere (s : State) (sel : Running → Bool) (status : Nat) : State :=
  let ended := s.running.filter sel
  ended.foldl (fun t r => t.respond r.cmd status) { s with running := s.running.filter fun r => !sel r }

/-- Every command in progress on a port ends with a status. -/
def State.endPort (s : State) (p : PortNum) (status : Nat) : State :=
  s.endWhere (fun r => r.onPort p) status

/-- The first command in progress that meets a test. -/
def State.findJob (s : State) (sel : Running → Bool) : Option Running := s.running.find? sel

/-- The list without its first entry that meets a test. -/
def dropFirst {α : Type} (sel : α → Bool) : List α → List α
  | [] => []
  | a :: r => if sel a then r else a :: dropFirst sel r

/-- The first command in progress that meets a test ends with a status and a payload. -/
def State.endJob (s : State) (sel : Running → Bool) (status : Nat) (payload : List Byte := []) : State :=
  match s.findJob sel with
  | some r => { s with running := dropFirst sel s.running }.respond r.cmd status payload
  | none => s

/-- The first command in progress that meets a test goes on with another job. -/
def replaceJob (sel : Running → Bool) (j : Job) : List Running → List Running
  | [] => []
  | r :: l => if sel r then { r with job := j } :: l else r :: replaceJob sel j l

end Sys2Proof.Machine
end

