-- ==== Sys2Proof/Machine/Timers.lean ====
section
/-! DEFINITION. Timer channels, TIMEBASE's wake compare and their rows (R459-R473). -/

namespace Sys2Proof.Machine

/-- A channel's registers. -/
def State.chan (s : State) : Channel → Cells
  | .port p c => (s.port p).tmr.get c
  | .global c => s.gtmr.get c

/-- The state with a channel's registers replaced. -/
def State.setChan (s : State) (ch : Channel) (t : Cells) : State :=
  match ch with
  | .port p c => s.modPort p fun q => { q with tmr := q.tmr.set c t }
  | .global c => { s with gtmr := s.gtmr.set c t }

def tget (t : Cells) (f : Fld) : Nat := Cells.get .tmr t f
def tset (t : Cells) (f : Fld) (v : Nat) : Cells := Cells.set .tmr t f v

/-- Whether the channel's domain is powered (R20); global channels are in D1. -/
def State.chanOn (s : State) : Channel → Bool
  | .port p _ => (s.port p).svc.powered
  | .global _ => true

/-- The prescaler in force: values below 1.0 are treated as 1.0 (TMR_PRESC). -/
def tmrPresc (t : Cells) : Nat := max 65536 (tget t TMR_PRESC.V)

/-- The PLL is locked. -/
def State.pllLocked (s : State) : Bool := s.pcrGet CLKCTL.PLL_LOCK == 1

/-- Whether FREEZE holds the channel now (R467). -/
def State.chanFrozen (s : State) (ch : Channel) : Bool :=
  tget (s.chan ch) TMR_CTL.FREEZE == 1 &&
    match ch with
    | .port p _ => s.pget p ENG_STAT.STATE == 3
    | .global _ => s.dev.jtagHalt

/-- TMR_EXPIRED for a channel with EVT = 1 (R472). -/
def State.tmrExpired (s : State) (ch : Channel) : State :=
  let t := s.chan ch
  if tget t TMR_CTL.EVT = 1 then
    let fl := 4 * tget t TMR_STAT.MISSED
    match ch with
    | .port p c => s.raiseOwner p.val 0x0B80 [BitVec.ofNat 8 c.val, BitVec.ofNat 8 fl]
    | .global c => s.raiseDev 0x0B80 [BitVec.ofNat 8 c.val, BitVec.ofNat 8 fl]
  else s

/-- The compare fires: ARMED is cleared, CMP set, the event raised (R461, R472). -/
def State.tmrFire (s : State) (ch : Channel) : State :=
  (s.setChan ch (tset (tset (s.chan ch) TMR_STAT.ARMED 0) TMR_STAT.CMP 1)).tmrExpired ch

/-- The compare as it is evaluated after a tick, an ARM or a write of TMR_CMPV (R461). -/
def State.tmrEval (s : State) (ch : Channel) : State :=
  let t := s.chan ch
  if tget t TMR_STAT.ARMED = 1 ∧ tget t TMR_CMPV.V ≤ tget t TMR_COUNT.V then s.tmrFire ch else s

/-- ARM (R460). -/
def State.tmrArm (s : State) (ch : Channel) : State :=
  let t := s.chan ch
  let t := tset (tset t TMR_COUNT.V 0) TMR_PACC.V 0
  let t := tset (tset (tset t TMR_STAT.CMP 0) TMR_STAT.MISSED 0) TMR_STAT.ARMED 1
  (s.setChan ch t).tmrEval ch

/-- STOP: ARMED is cleared, the counts are kept (R460). -/
def State.tmrStop (s : State) (ch : Channel) : State :=
  s.setChan ch (tset (s.chan ch) TMR_STAT.ARMED 0)

/-- Time added to an armed channel that counts, in 1/65536 source periods: ticks follow until the accumulator is
below the prescaler or the compare is reached; a channel that reaches it stops there (R459, R461). -/
def State.tmrAdvance (s : State) (ch : Channel) (x : Nat) : State :=
  let t := s.chan ch
  if tget t TMR_STAT.ARMED = 1 then
    let presc := tmrPresc t
    let total := tget t TMR_PACC.V + x
    let count := tget t TMR_COUNT.V
    let need := tget t TMR_CMPV.V - count
    let ticks := min need (total / presc)
    let t := tset t TMR_COUNT.V (count + ticks)
    let t := tset t TMR_PACC.V ((total - ticks * presc) % presc)
    (s.setChan ch t).tmrEval ch
  else s

/-- The make-up factor of a source, source periods per slow-clock period as 16.16 (R466). -/
def tmrFactor (src : Nat) : Nat :=
  match src with
  | 0 => 0x019DD180
  | 1 => 0x102A2F00
  | 2 => 0x00010000
  | 3 => 0x0019DD18
  | _ => 0

/-- The make-up of a stop interval of `e` slow-clock periods (R466). -/
def State.tmrMakeup (s : State) (ch : Channel) (e : Nat) : State :=
  let t := tset (s.chan ch) TMR_STAT.SRCSTOP 0
  if tget t TMR_STAT.ARMED = 1 ∧ s.chanFrozen ch = false then
    let presc := tmrPresc t
    let total := tget t TMR_PACC.V + e * tmrFactor (tget t TMR_CTL.SRC)
    let ticks := total / presc
    let count := tget t TMR_COUNT.V
    let cmp := tget t TMR_CMPV.V
    let t := tset t TMR_PACC.V (total % presc)
    let t := tset t TMR_MAKEUP.V (min 0xFFFFFFFF ticks)
    let t := tset t TMR_COUNT.V (min cmp (count + ticks))
    if cmp ≤ count + ticks then (s.setChan ch (tset t TMR_STAT.MISSED 1)).tmrFire ch
    else s.setChan ch t
  else s.setChan ch t

/-- Whether a source is derived from the PLL (R463). -/
def srcPll (src : Nat) : Bool := src ≠ 2

/-- Every channel of the device, port channels in port order, then global ones. -/
def allChannels : List Channel :=
  allPorts.flatMap (fun p => [.port p 0, .port p 1, .port p 2, .port p 3]) ++
    [.global 0, .global 1, .global 2, .global 3, .global 4, .global 5, .global 6, .global 7]

/-- The sources that a test picks stop: their channels' stop intervals begin (R465). -/
def State.stopSources (s : State) (sel : Nat → Bool) : State :=
  allChannels.foldl (fun t ch =>
    if sel (tget (t.chan ch) TMR_CTL.SRC) then t.setChan ch (tset (t.chan ch) TMR_STAT.SRCSTOP 1) else t) s

/-- The wake compare of R470 as evaluated at a slow-clock edge: WKF is set and EN cleared. -/
def State.wakeEval (s : State) : State :=
  if s.aonGet WKCTL.EN = 1 ∧ s.dev.wkcmp ≤ s.dev.timebase then (s.aonSet WKCTL.WKF 1).aonSet WKCTL.EN 0 else s

/-- A write of a word to a channel's register, by its access codes, with the write's effect (R460-R462). -/
def State.tmrWrite (s : State) (ch : Channel) (off : Nat) (w : Word) : State :=
  if off = TMR_CTL.reg then
    let t := s.chan ch
    let keep := w &&& 0x3FF
    let s := s.setChan ch (Cells.put .tmr t TMR_CTL.reg keep)
    if wget w 16 1 = 1 then s.tmrArm ch
    else if wget w 17 1 = 1 then s.tmrStop ch
    else s
  else if off = TMR_STAT.reg then
    let t := s.chan ch
    s.setChan ch (Cells.put .tmr t TMR_STAT.reg (Cells.word .tmr t TMR_STAT.reg &&& ~~~(w &&& 0xE)))
  else if off = TMR_PRESC.reg then s.setChan ch (Cells.put .tmr (s.chan ch) TMR_PRESC.reg w)
  else if off = TMR_CMPV.reg then (s.setChan ch (Cells.put .tmr (s.chan ch) TMR_CMPV.reg w)).tmrEval ch
  else s

/-- A read of a channel's register: TMR_CAP clears CAPV (R464). -/
def State.tmrRead (s : State) (ch : Channel) (off : Nat) : Word × State :=
  let t := s.chan ch
  let v := Cells.word .tmr t off
  if off = TMR_CAP.reg then (v, s.setChan ch (tset t TMR_STAT.CAPV 0)) else (v, s)

/-! ## Rows -/

/-- TMR_ARM_BIT (R460). -/
def execTmrArmBit (ch : Channel) : State → Host.Outcome State Fault Refusal :=
  run fun s => if s.chanOn ch then s.tmrArm ch else s

/-- TMR_STOP_BIT (R460). -/
def execTmrStopBit (ch : Channel) : State → Host.Outcome State Fault Refusal :=
  run fun s => if s.chanOn ch then s.tmrStop ch else s

/-- TMR_CMPV_WRITE (R461). -/
def execTmrCmpvWrite (ch : Channel) (value : Word) : State → Host.Outcome State Fault Refusal :=
  run fun s => if s.chanOn ch then s.tmrWrite ch TMR_CMPV.reg value else s

/-- TMR_PRESC_WRITE (R462): TMR_PACC is kept. -/
def execTmrPrescWrite (ch : Channel) (value : Word) : State → Host.Outcome State Fault Refusal :=
  run fun s => if s.chanOn ch then s.tmrWrite ch TMR_PRESC.reg value else s

/-- TMR_COMPARE: an armed channel that counts has reached its compare (R459, R461). -/
def execTmrCompare (ch : Channel) : State → Host.Outcome State Fault Refusal :=
  run fun s =>
    let t := s.chan ch
    if tget t TMR_STAT.ARMED = 1 ∧ tget t TMR_STAT.SRCSTOP = 0 ∧ s.chanFrozen ch = false then
      let presc := tmrPresc t
      let span := (tget t TMR_CMPV.V - tget t TMR_COUNT.V) * presc - tget t TMR_PACC.V
      s.tmrAdvance ch ((span + 65535) / 65536 * 65536)
    else s

/-- TMR_CAPTURE: an edge on the input that CAPSEL selects (R464). -/
def execTmrCapture (ch : Channel) (rising : Bool) : State → Host.Outcome State Fault Refusal :=
  run fun s =>
    let t := s.chan ch
    let sel := tget t TMR_CTL.CAPSEL
    let edge := tget t TMR_CTL.CAPEDGE
    let wanted := if edge = 0 then rising else if edge = 1 then !rising else true
    if s.chanOn ch && s.pllLocked && 1 ≤ sel && sel ≤ 4 && wanted then
      let t := if tget t TMR_STAT.CAPV = 1 then tset t TMR_STAT.OVR 1 else t
      s.setChan ch (tset (tset t TMR_CAP.V (tget t TMR_COUNT.V)) TMR_STAT.CAPV 1)
    else s

/-- TMR_CAP_READ (R464). -/
def execTmrCapRead (ch : Channel) : State → Host.Outcome State Fault Refusal :=
  run fun s => (s.tmrRead ch TMR_CAP.reg).2

/-- TIMER_SOURCE_STOP (R465). -/
def execTimerSourceStop (ch : Channel) : State → Host.Outcome State Fault Refusal :=
  run fun s => s.setChan ch (tset (s.chan ch) TMR_STAT.SRCSTOP 1)

/-- TIMER_MAKEUP (R465, R466). -/
def execTimerMakeup (ch : Channel) (periods : Nat) : State → Host.Outcome State Fault Refusal :=
  run fun s => if tget (s.chan ch) TMR_STAT.SRCSTOP = 1 then s.tmrMakeup ch periods else s

/-- WKCMP_HI_WRITE: both halves of the compare are loaded at once (R470). -/
def execWkcmpHiWrite (value : Word) : State → Host.Outcome State Fault Refusal :=
  run fun s =>
    let s := s.aonSet WKCMP_HI.V value.toNat
    { s with dev := { s.dev with wkcmp := value.toNat * 2 ^ 32 + s.aonGet WKCMP_LO.V } }

end Sys2Proof.Machine
end

