-- ==== Sys2Proof/Machine/Fifo.lean ====
section
/-! DEFINITION. The port FIFOs and the Flue (R399-R420) and their rows. -/

namespace Sys2Proof.Machine

/-- A field of the RX registers, or the same field of the TX registers 0x40 above. -/
def Fld.dir (f : Fld) (d : Dir) : Fld :=
  match d with
  | .rx => f
  | .tx => { f with off := f.off + 0x40 }

/-- A FIFO of a port. -/
def Port.fifo (q : Port) (d : Dir) : Fifo :=
  match d with
  | .rx => q.rxf
  | .tx => q.txf

/-- A port with a FIFO replaced. -/
def Port.setFifo (q : Port) (d : Dir) (f : Fifo) : Port :=
  match d with
  | .rx => { q with rxf := f }
  | .tx => { q with txf := f }

def State.fifo (s : State) (p : PortNum) (d : Dir) : Fifo := (s.port p).fifo d
def State.setFifo (s : State) (p : PortNum) (d : Dir) (f : Fifo) : State := s.modPort p fun q => q.setFifo d f

/-- A one-bit or wider field of the FIFO's registers set. -/
def State.fset (s : State) (p : PortNum) (d : Dir) (f : Fld) (v : Nat) : State := s.pset p (f.dir d) v
def State.fget (s : State) (p : PortNum) (d : Dir) (f : Fld) : Nat := s.pget p (f.dir d)

/-- Words of the spill window in use: SPILL is 512 B x 2^code, code 7 as 6 (R404). -/
def State.spillWords (s : State) (p : PortNum) (d : Dir) : Nat := 128 * 2 ^ min 6 (s.fget p d RX_CTL.SPILL)

/-- W, the words that the FIFO holds (R408). -/
def State.fifoWords (s : State) (p : PortNum) (d : Dir) : Nat := 32 + s.spillWords p d

/-- The start of the FIFO's window in the spill SRAM (R404). -/
def spillBase (p : PortNum) (d : Dir) : Nat :=
  0x24000000 + (2 * p.val + (match d with | .rx => 0 | .tx => 1)) * 0x8000

/-- How many packets have data words in a run of words; each holds one descriptor there (R406). -/
def descCount : Option Nat → List FWord → Nat
  | _, [] => 0
  | last, w :: r =>
    if w.cin || last = some w.pkt then descCount last r else 1 + descCount (some w.pkt) r

/-- Words in use: the stores, the word being packed, the Cinder in the reserve, the descriptors (R406, R408, R412). -/
def Fifo.used (f : Fifo) : Nat :=
  f.head.length + f.win.length + f.tail.length + (if f.part = [] then 0 else 1) + (if f.cinder.isSome then 1 else 0)
    + descCount none f.win

/-- Free words (R408). -/
def State.fifoFree (s : State) (p : PortNum) (d : Dir) : Nat := s.fifoWords p d - (s.fifo p d).used

/-- Whether a word belongs to a committed packet (R400). -/
def Fifo.visible (f : Fifo) (w : FWord) : Bool := w.pkt != f.pktNo

/-- Committed words that wait. -/
def Fifo.words (f : Fifo) : Nat := ((f.head ++ f.win ++ f.tail).filter f.visible).length

/-- Whether the FIFO holds no word, committed or provisional (R407). -/
def Fifo.holdsNone (f : Fifo) : Bool :=
  f.head.isEmpty && f.win.isEmpty && f.tail.isEmpty && f.part.isEmpty && f.cinder.isNone

/-- The packet in progress drops (R412, R414). -/
def Fifo.dropping (f : Fifo) : Bool := f.cinder.isSome || f.lostWhole

/-! ## Positions (R417) -/

/-- The two copies of a position agree. -/
def FPos.ok (x : FPos) : Bool := x.c == ~~~x.v

/-- The first of some positions whose copies differ. -/
def Fifo.badPos (f : Fifo) : List Nat → Option Nat
  | [] => none
  | i :: r => if (f.pos.getD i (FPos.of 0)).ok then f.badPos r else some i

/-- A position moved on. -/
def Fifo.adv (f : Fifo) (i n : Nat) : Fifo :=
  { f with pos := f.pos.set i (FPos.of ((f.pos.getD i (FPos.of 0)).v.toNat + n)) }

/-- A position moved back. -/
def Fifo.back (f : Fifo) (i n : Nat) : Fifo :=
  { f with pos := f.pos.set i (FPos.of ((f.pos.getD i (FPos.of 0)).v.toNat + 65536 - n % 65536)) }

/-! ## What a FIFO reset does to the air (R418) -/

/-- A framer result word (R443). -/
def resultWord (outcome : Nat) (coll : Bool) (rxbits : Nat) (clipped : Bool) (collpos vclass : Nat)
    (viol wlim win2 : Bool) : Word :=
  BitVec.ofNat 32 (outcome + 8 * bit coll + 16 * (rxbits % 8) + 128 * bit clipped + 256 * (collpos % 256)
    + 65536 * (vclass % 8) + 0x80000 * bit viol + 0x100000 * bit wlim + 0x200000 * bit win2)

/-- A result word queued; a full queue of 4 loses its oldest and sets ESW.RQOVF (R443). -/
def State.putResult (s : State) (p : PortNum) (w : Word) : State :=
  let f := (s.port p).framer
  if f.results.length < 4 then s.modFramer p fun f => { f with results := f.results ++ [w] }
  else
    (s.modFramer p fun f => { f with results := f.results.drop 1 ++ [w] }).modEng p fun e =>
      { e with esw := e.esw ||| 0x80 }

/-- The result of a packet that ends without a window (R443). -/
def State.putBare (s : State) (p : PortNum) (outcome : Nat) : State :=
  s.putResult p (resultWord outcome false 0 false 0 0 false false false)

/-- The frame being sent is cut: TXCUT, nothing further, no window (R108, R418). -/
def State.cutSend (s : State) (p : PortNum) : State :=
  match (s.port p).framer.tx with
  | some _ => ((s.modFramer p fun f => { f with tx := none, reserved := false }).pset p FRMSTAT.TXCUT 1).putBare p 4
  | none => s

/-- The frame being received is discarded; it counts in no class and the window closes (R108, R418). -/
def State.cutReceive (s : State) (p : PortNum) : State :=
  match (s.port p).framer.win with
  | some w =>
    if w.start.isSome then
      (s.modFramer p fun f => { f with win := none }).putResult p
        (resultWord 4 false 0 false 0 (s.pget p FRMSTAT.VCLASS) w.viol false w.second)
    else s
  | none => s

/-- A FIFO reset (R418): every word is discarded and the frame on the air is cut or discarded. -/
def State.fifoReset (s : State) (p : PortNum) (d : Dir) : State :=
  let s := s.setFifo p d .reset
  match d with
  | .rx => s.cutReceive p
  | .tx => (s.modFramer p fun f => { f with reqs := 0, held := false, holdCounted := false }).cutSend p

/-- A pointer mismatch (R417): the FIFO is reset, the fault recorded and logged, the command in progress ended. -/
def State.fifoFault (s : State) (p : PortNum) (d : Dir) (i : Nat) : State :=
  let s := (s.fifoReset p d).fset p d RX_STAT.FIFO_PTR_FAULT 1
  let s := s.fset p d RX_STAT.FAULTS (min 15 (s.fget p d RX_STAT.FAULTS + 1))
  let s := s.ash 0x0060 p.val [BitVec.ofNat 8 (match d with | .rx => 0 | .tx => 1), BitVec.ofNat 8 i]
  s.endPort p St.INTERNAL_ERROR

/-! ## Moves between the stores (R401) -/

/-- Words that go straight from the tail to the head: the window holds none and the head has room. -/
def Fifo.settleN : Nat → Fifo → Fifo
  | 0, f => f
  | n + 1, f =>
    match f.tail with
    | [] => f
    | w :: r =>
      if f.win.isEmpty && f.head.length < 16 then
        Fifo.settleN n ((({ f with tail := r, head := f.head ++ [w] } : Fifo).adv 1 1).adv 5 1)
      else f

/-- Every word that can go straight to the head goes. -/
def Fifo.settle (f : Fifo) : Fifo := Fifo.settleN 16 f

/-- A word that leaves the window is read back from the spill SRAM, so a write there alters it (R405). -/
def State.windowWord (s : State) (p : PortNum) (d : Dir) (w : FWord) : FWord :=
  if w.cin then w else { w with data := s.spill.word (spillBase p d + 4 * w.slot) }

/-- The Flue moves the first word of the window to the head. -/
def State.flueOut (s : State) (p : PortNum) (d : Dir) : State :=
  let f := s.fifo p d
  match f.win with
  | [] => s
  | w :: r =>
    let f := { f with win := r, head := f.head ++ [s.windowWord p d w], desc := if r.isEmpty then none else f.desc }
    s.setFifo p d ((f.adv 4 1).adv 5 1).settle

/-- The Flue moves the first word of the tail to the window; the first data word of a packet takes a descriptor
before it, and the last one completes it (R406). -/
def State.flueIn (s : State) (p : PortNum) (d : Dir) : State :=
  let f := s.fifo p d
  match f.tail with
  | [] => s
  | w :: r =>
    let size := s.spillWords p d
    let wp := (f.pos.getD 3 (FPos.of 0)).v.toNat
    let fresh := !w.cin && !(f.win.any fun x => x.pkt == w.pkt && !x.cin)
    let slot := (if fresh then wp + 1 else wp) % size
    let dsl := if fresh then wp % size else (f.desc.map (·.1)).getD 0
    let cnt := if fresh then 1 else (f.desc.map (·.2)).getD 0 + 1
    let at_ := fun k => spillBase p d + 4 * k
    let m := s.spill
    let m := if w.cin then m.putWord (at_ slot) (Config.descriptor 1 true true) else m.putWord (at_ slot) w.data
    let m := if w.cin then m else m.putWord (at_ dsl) (Config.descriptor cnt w.eop false)
    let f := { f with
      tail := r, win := f.win ++ [{ w with slot }]
      desc := if w.cin || w.eop then none else some (dsl, cnt) }
    ({ s with spill := m }).setFifo p d ((f.adv 1 1).adv 3 (if fresh then 2 else 1))

/-- Words that the window holds, descriptors among them. -/
def Fifo.windowUse (f : Fifo) : Nat := f.win.length + descCount none f.win

/-- One move of the Flue for one FIFO (R401, R402): to the head when the head is empty; else out of a full tail;
else to the head as room appears; else out of the tail. The order among them is a DESIGN CHOICE (log entry 19). -/
def State.flueMove (s : State) (p : PortNum) (d : Dir) : State :=
  let f := s.fifo p d
  match f.badPos [1, 3, 4, 5] with
  | some i => s.fifoFault p d i
  | none =>
    let out := !f.win.isEmpty && f.head.length < 16
    let into := !f.tail.isEmpty && f.windowUse + 2 ≤ s.spillWords p d && !(f.win.isEmpty && f.head.length < 16)
    if out && f.head.isEmpty then s.flueOut p d
    else if into && 16 ≤ f.tail.length then s.flueIn p d
    else if out then s.flueOut p d
    else if into then s.flueIn p d
    else s

/-! ## Pushing (R403, R408-R414) -/

/-- Whether a byte has to wait for a tail word (R403). -/
def State.pushStalls (s : State) (p : PortNum) (d : Dir) (eop : Bool) : Bool :=
  let f := s.fifo p d
  f.part.isEmpty && 16 ≤ f.tail.length && !f.lostWhole && (eop || (f.cinder.isNone && 2 ≤ s.fifoFree p d))

/-- Bytes lost, saturating (R414). -/
def State.loseByte (s : State) (p : PortNum) (d : Dir) : State :=
  s.fset p d RX_LOST.BYTES (min 65535 (s.fget p d RX_LOST.BYTES + 1))

/-- A word of the packet in progress placed in the tail. -/
def Fifo.putTail (f : Fifo) (data : Word) (vb : Nat) (eop cin : Bool) : Fifo :=
  ({ f with tail := f.tail ++ [{ data, vb, eop, cin, pkt := f.pktNo, slot := 0 }] } : Fifo).adv 0 1

/-- The word that four or fewer bytes pack to: the first byte in bits [7:0] (R409). -/
def packWord (l : List Byte) : Word := BitVec.ofNat 32 (fromLe l)

/-- A Cinder word (R413). -/
def cinderWord (n : Nat) : Word := BitVec.ofNat 32 (0xC1DE0000 + min 65535 n)

/-- A byte takes its place in the packet in progress: in the word being packed, in a new word, in the Cinder's
count, or nowhere (R408, R412, R414). -/
def State.placeByte (s : State) (p : PortNum) (d : Dir) (b : Byte) : State :=
  let free := s.fifoFree p d
  let f := s.fifo p d
  let s :=
    if f.open_ then s
    else if free = 0 then
      (s.setFifo p d { f with open_ := true, lostWhole := true }).fset p d RX_LOST.PKTS
        (min 255 (s.fget p d RX_LOST.PKTS + 1))
    else s.setFifo p d { f with open_ := true }
  let f := s.fifo p d
  if f.lostWhole then s.loseByte p d
  else
    match f.cinder with
    | some n => (s.setFifo p d { f with cinder := some (min 65535 (n + 1)) }).loseByte p d
    | none =>
      if f.part ≠ [] || 2 ≤ free then s.setFifo p d { f with part := f.part ++ [b] }
      else
        let s := (s.setFifo p d { f with cinder := some 1 }).loseByte p d
        s.fset p d RX_LOST.CINDERS (min 255 (s.fget p d RX_LOST.CINDERS + 1))

/-- The word being packed leaves for the tail when it is full or ends the packet (R401, R409). -/
def Fifo.closeWord (f : Fifo) (eop : Bool) : Fifo :=
  if f.part.length = 4 || (eop && f.part ≠ []) then
    ({ f with part := [] } : Fifo).putTail (packWord f.part) f.part.length (eop && f.cinder.isNone) false
  else f

/-- The commit of the packet in progress: the Cinder takes EOP; a packet lost whole leaves nothing (R400, R412). -/
def Fifo.commit (f : Fifo) : Fifo :=
  if f.lostWhole then { f with open_ := false, lostWhole := false }
  else
    let g := match f.cinder with
      | some n => ({ f with cinder := none } : Fifo).putTail (cinderWord n) 4 true true
      | none => f
    let g := { g with open_ := false, pkts := g.pkts + 1, pktNo := g.pktNo + 1 }
    { g with pos := g.pos.set 2 (g.pos.getD 0 (FPos.of 0)) }

/-- A byte pushed that does not stall (R408, R409, R412). -/
def State.pushNow (s : State) (p : PortNum) (d : Dir) (b : Byte) (eop : Bool) : State :=
  match (s.fifo p d).badPos (if eop then [0, 1, 2, 5] else [0, 1, 5]) with
  | some i => s.fifoFault p d i
  | none =>
    let s := s.placeByte p d b
    let f := (s.fifo p d).closeWord eop
    s.setFifo p d (if eop then f.commit else f).settle

/-- A byte pushed by a side that waits for the Flue where R403 makes it wait. -/
def State.pushByte (s : State) (p : PortNum) (d : Dir) (b : Byte) (eop : Bool) : State :=
  let s := if s.pushStalls p d eop then (s.flueMove p d).flueMove p d else s
  s.pushNow p d b eop

/-- A whole packet pushed and committed: its bytes in order, EOP with the last (R400, R409). -/
def State.pushPacket (p : PortNum) (d : Dir) : List Byte → State → State
  | [], s => s
  | [b], s => s.pushByte p d b true
  | b :: r, s => State.pushPacket p d r (s.pushByte p d b false)

/-- The packet in progress is withdrawn with its Cinder, its descriptor and its bytes (R414, R416). -/
def State.withdraw (s : State) (p : PortNum) (d : Dir) : State :=
  let f := s.fifo p d
  match f.badPos [0, 3, 5] with
  | some i => s.fifoFault p d i
  | none =>
    if f.open_ then
      let keep := f.visible
      let g := { f with
        head := f.head.filter keep, win := f.win.filter keep, tail := f.tail.filter keep
        part := [], open_ := false, cinder := none, lostWhole := false, desc := none }
      let g := ((g.back 0 (f.tail.length - g.tail.length)).back 3 (f.win.length - g.win.length)).back 5
        (f.head.length - g.head.length)
      s.setFifo p d g.settle
    else s

/-! ## Taking (R403, R410, R411) -/

/-- What a read of the head finds. -/
inductive Taken where
  | word (w : FWord)
  | waits
  | nothing
  deriving DecidableEq, Repr

/-- What a read would find now (R403): a committed word at the head, a stall while committed words wait in the
window, or nothing. -/
def Fifo.peek (f : Fifo) : Taken :=
  match f.head with
  | w :: _ => if f.visible w then .word w else .nothing
  | [] =>
    match f.win with
    | w :: _ => if f.visible w then .waits else .nothing
    | [] => .nothing

/-- The head word taken, and the LAST tags set (R410, R411). -/
def State.takeHead (s : State) (p : PortNum) (d : Dir) (w : FWord) : State :=
  let f := s.fifo p d
  let f := ({ f with head := f.head.drop 1, pkts := if w.eop then f.pkts - 1 else f.pkts } : Fifo).adv 6 1
  let s := s.setFifo p d f.settle
  ((s.fset p d RX_STAT.LAST_VB w.vb).fset p d RX_STAT.LAST_EOP (bit w.eop)).fset p d RX_STAT.LAST_CIN (bit w.cin)

/-- A read by the selected reader (R403): the word, or 0 with UNDER set. A stall is reported and changes nothing.
A pointer mismatch takes nothing. -/
def State.takeNow (s : State) (p : PortNum) (d : Dir) : Taken × State :=
  match (s.fifo p d).badPos [1, 5, 6] with
  | some i => (.nothing, s.fifoFault p d i)
  | none =>
    match (s.fifo p d).peek with
    | .word w => (.word w, s.takeHead p d w)
    | .waits => (.waits, s)
    | .nothing => (.nothing, s.fset p d RX_STAT.UNDER 1)

/-- A read that waits for the Flue where R403 makes it wait. -/
def State.takeWord (s : State) (p : PortNum) (d : Dir) : Taken × State :=
  match s.takeNow p d with
  | (.waits, t) => (t.flueMove p d).takeNow p d
  | r => r

/-- A packet taken through its EOP: its data bytes, and whether it held a Cinder. `n` bounds the words. -/
def State.takePacket (p : PortNum) (d : Dir) : Nat → List Byte → Bool → State → List Byte × Bool × State
  | 0, acc, cin, s => (acc, cin, s)
  | n + 1, acc, cin, s =>
    match s.takeWord p d with
    | (.word w, t) =>
      let acc := if w.cin then acc else acc ++ (wordBytes w.data).take w.vb
      let cin := cin || w.cin
      if w.eop then (acc, cin, t) else State.takePacket p d n acc cin t
    | (_, t) => (acc, cin, t)

/-! ## Registers -/

/-- RX_STAT or TX_STAT as read: the held bits with the computed ones (R410, R412, R417). -/
def State.fifoStat (s : State) (p : PortNum) (d : Dir) : Word :=
  let f := s.fifo p d
  let w := (s.port p).word ((RX_STAT.EMPTY.dir d).off)
  let hd := match f.peek with | .word x => some x | _ => none
  let w := wset w 0 1 (bit (f.words == 0))
  let w := wset w 1 1 (bit (s.fifoFree p d < 2))
  let w := wset w 2 1 (bit f.dropping)
  let w := wset w 8 3 (match hd with | some x => x.vb | none => 0)
  let w := wset w 11 1 (match hd with | some x => bit x.eop | none => 0)
  wset w 12 1 (match hd with | some x => bit x.cin | none => 0)

/-- RX_PKTCNT or TX_PKTCNT as read (R411). -/
def State.fifoCount (s : State) (p : PortNum) (d : Dir) : Word :=
  wset (wset 0 0 14 (s.fifo p d).pkts) 16 14 (s.fifo p d).words

/-- A new SPILL (R407): it takes effect only while the FIFO holds no word. -/
def State.setSpill (s : State) (p : PortNum) (d : Dir) (v : Nat) : State :=
  if (s.fifo p d).holdsNone then s.fset p d RX_CTL.SPILL v
  else if s.fget p d RX_CTL.SPILL = v then s
  else s.fset p d RX_STAT.CFGERR 1

/-- CLRCNT clears _LOST. -/
def State.fifoClear (s : State) (p : PortNum) (d : Dir) : State :=
  s.modPort p fun q => q.putWord (RX_LOST.BYTES.dir d).off 0

/-- A write of RX_CTL or TX_CTL: FLUSH first, then CLRCNT, SPILL and SIDE (R407, R418). -/
def State.fifoCtlWrite (s : State) (p : PortNum) (d : Dir) (w : Word) : State :=
  let s := if wget w 8 1 = 1 then s.fifoReset p d else s
  let s := if wget w 9 1 = 1 then s.fifoClear p d else s
  (s.setSpill p d (wget w 0 3)).fset p d RX_CTL.SIDE (wget w 3 1)

/-- Whether a side is the selected one of a FIFO (R399). -/
def State.sideOn (s : State) (p : PortNum) (d : Dir) (side : Side) : Bool :=
  match side with
  | .engine => s.fget p d RX_CTL.SIDE == 0
  | .hearth => s.fget p d RX_CTL.SIDE == 1

/-- A TX_DATA write by a side: ABORT, or a byte with EOP (R399, R409, R416). -/
def State.txDataWrite (s : State) (p : PortNum) (side : Side) (w : Word) : State :=
  if s.sideOn p .tx side then
    if wget w 9 1 = 1 then s.withdraw p .tx
    else s.pushByte p .tx (BitVec.ofNat 8 (wget w 0 8)) (wget w 8 1 == 1)
  else s

/-- An RX_DATA read by a side: 0 for the side not selected and where nothing is taken (R399, R403). -/
def State.rxDataRead (s : State) (p : PortNum) (side : Side) : Word × State :=
  if s.sideOn p .rx side then
    match s.takeWord p .rx with
    | (.word w, t) => (w.data, t)
    | (_, t) => (0, t)
  else (0, s)

/-- Whether a port's domain is powered and out of reset. -/
def State.portOn (s : State) (p : PortNum) : Bool := (s.port p).svc.powered

/-! ## Rows -/

/-- TX_DATA_PUSH (R409). -/
def execTxDataPush (p : PortNum) (side : Side) (b : Byte) : State → Host.Outcome State Fault Refusal :=
  run fun s => if s.portOn p then s.txDataWrite p side (b.setWidth 32) else s

/-- TX_DATA_COMMIT (R400). -/
def execTxDataCommit (p : PortNum) (side : Side) (b : Byte) : State → Host.Outcome State Fault Refusal :=
  run fun s => if s.portOn p then s.txDataWrite p side (b.setWidth 32 ||| 0x100) else s

/-- TX_DATA_ABORT (R416). -/
def execTxDataAbort (p : PortNum) (side : Side) : State → Host.Outcome State Fault Refusal :=
  run fun s => if s.portOn p then s.txDataWrite p side 0x200 else s

/-- RX_DATA_READ (R403). -/
def execRxDataRead (p : PortNum) (side : Side) : State → Host.Outcome State Fault Refusal :=
  run fun s => if s.portOn p then (s.rxDataRead p side).2 else s

/-- FIFO_FLUSH (R418). -/
def execFifoFlush (p : PortNum) (d : Dir) : State → Host.Outcome State Fault Refusal :=
  run fun s => if s.portOn p then s.fifoReset p d else s

/-- FIFO_CLRCNT (R413). -/
def execFifoClrcnt (p : PortNum) (d : Dir) : State → Host.Outcome State Fault Refusal :=
  run fun s => if s.portOn p then s.fifoClear p d else s

/-- FIFO_SPILL_SET (R407). -/
def execFifoSpillSet (p : PortNum) (d : Dir) (spill : Fin 8) : State → Host.Outcome State Fault Refusal :=
  run fun s => if s.portOn p then s.setSpill p d spill.val else s

/-- FLUE_MOVE (R401). -/
def execFlueMove (p : PortNum) (d : Dir) : State → Host.Outcome State Fault Refusal :=
  run fun s => if s.portOn p then s.flueMove p d else s

end Sys2Proof.Machine
end

