-- ==== Sys2Proof/Machine/Trims.lean ====
section
/-! DEFINITION. The factory temperature sets, their interpolation and the recalibration on temperature (R279-R287,
R235). -/

namespace Sys2Proof.Machine

/-- The junction temperatures of the five sets in half degrees (R279): -40, 0, 50, 100 and 150 °C. -/
def setTemp : Nat → Int
  | 0 => -80
  | 1 => 0
  | 2 => 100
  | 3 => 200
  | _ => 300

/-- A junction temperature in half degrees from its encoding as TXMON.TJ. -/
def tempOf (tj : Nat) : Int := (tj : Int) - 128

/-- The sets that are present (R281). -/
def State.goodSets (s : State) : List Nat := [0, 1, 2, 3, 4].filter fun i => !s.kiln.sets.getLsbD i

/-- The last present set at or below a temperature. -/
def lowerSet (t : Int) (l : List Nat) : Option Nat := (l.filter fun i => setTemp i ≤ t).getLast?

/-- The first present set above a temperature. -/
def upperSet (t : Int) (l : List Nat) : Option Nat := (l.filter fun i => t < setTemp i).head?

/-- An item interpolated for a port at a reading (R280): between the sets that bracket it, the nearest set outside
them; the default trim when no set is present (R282). -/
def State.trimAt (s : State) (item port tj : Nat) : Int :=
  let t := tempOf tj
  let g := s.goodSets
  match lowerSet t g, upperSet t g with
  | some a, some b =>
    let va := Config.factoryItem item port a
    let vb := Config.factoryItem item port b
    va + divRound ((vb - va) * (t - setTemp a)) (setTemp b - setTemp a)
  | some a, none => Config.factoryItem item port a
  | none, some b => Config.factoryItem item port b
  | none, none => Config.otpTrim item port

/-- The items of R279 in their order: ADCGAIN 0, ADCOFS 1, REFTRIM 2, TXSCALE 3, DINT 4, TDLY 5. -/
def itemsOf (port : Nat) : List Nat := if port = 8 then [2, 5] else [0, 1, 2, 3, 4]

/-- Every item of a port at a reading. -/
def State.trimsAt (s : State) (port tj : Nat) : List Int := (itemsOf port).map fun i => s.trimAt i port tj

/-- The factory values in force on a port (8: port T); the default trims until its first recalibration (R282). -/
def State.trimsOf (s : State) (port : Nat) : List Int :=
  match s.trims.find? (·.1 == port) with
  | some t => t.2
  | none => (itemsOf port).map fun i => Config.otpTrim i port

/-- An association list with a key's value replaced. -/
def assocPut {α : Type} (k : Nat) (v : α) (l : List (Nat × α)) : List (Nat × α) := (k, v) :: l.filter (·.1 ≠ k)

/-- The domain of a port: D4-D7 are 0-3, D8 is 4. -/
def domainOf (port : Nat) : Nat := port / 2

/-- The ports that a domain serves. -/
def domainPorts (d : Nat) : List Nat := if d = 4 then [8] else [2 * d, 2 * d + 1]

/-- A port number as a reader port. -/
def toPort (n : Nat) : PortNum := Fin.ofNat 8 n

/-- Staged values wait on a port. -/
def State.isStaged (s : State) (port : Nat) : Bool := s.staged.any (·.1 == port)

/-- PEND of a domain follows its staged values (R284). -/
def State.pendUpdate (s : State) (d : Nat) : State :=
  s.calSet CALSTAT.PEND
    (if (domainPorts d).any s.isStaged then s.calGet CALSTAT.PEND ||| 2 ^ d
     else s.calGet CALSTAT.PEND &&& (31 - 2 ^ d))

/-- Staged values take effect on a port (R284): T's processing delay shows in XDB; a reader port's cross-check
falls due while XCHK is 1 (R287). -/
def State.takeTrims (s : State) (port : Nat) : State :=
  match s.staged.find? (·.1 == port) with
  | none => s
  | some v =>
    let s := { s with trims := assocPut port v.2 s.trims, staged := s.staged.filter (·.1 ≠ port) }
    let s :=
      if port = 8 then
        (s.xset XDB.TDLY (v.2.getD 1 0).toNat).xset XDB.TJ (s.calGet (CALTEMP.LAST.nth 4))
      else if s.calGet CALCFG.XCHK = 1 then { s with xchkPend := port :: s.xchkPend.filter (· ≠ port) }
      else s
    s.pendUpdate (domainOf port)

/-- A port takes staged values at once: a reader port with its field off, T with no field session (R284). -/
def State.takesNow (s : State) (port : Nat) : Bool :=
  if port = 8 then s.xget XSTAT.SESSION == 0 else s.pget (toPort port) TXSTAT.STATE == 0

/-- The ports of a domain that have values to take: powered reader ports, and T. -/
def State.livePorts (s : State) (d : Nat) : List Nat :=
  (domainPorts d).filter fun n => n = 8 || s.portOn (toPort n)

/-- A recalibration of a domain at a reading (R280, R283, R284). -/
def State.recalibrate (s : State) (d tj : Nat) : State :=
  let ports := s.livePorts d
  let s := ports.foldl (fun (t : State) n => { t with staged := assocPut n (t.trimsAt n tj) t.staged }) s
  let s := (s.calSet (CALTEMP.LAST.nth d) tj).calSet (CALTEMP.VALID.nth d) 1
  let s := s.calSet (CALTEMP.COUNT.nth d) (min 65535 (s.calGet (CALTEMP.COUNT.nth d) + 1))
  ports.foldl (fun t n => if t.takesNow n then t.takeTrims n else t) (s.pendUpdate d)

/-- A run that holds the recalibration of a domain (R286). -/
def State.recalHeld (s : State) (d : Nat) : Bool :=
  d < 4 && (domainPorts d).any fun n =>
    (s.port (toPort n)).svc.db.isSome || s.running.any fun r => match r.job with
      | .calRun q _ => q.val = n
      | _ => false

/-- A recalibration that is due: performed, or held until the run on the domain ends (R286). -/
def State.recalDue (s : State) (d tj : Nat) : State :=
  if s.recalHeld d then { s with calDue := d :: s.calDue.filter (· ≠ d) }
  else { s with calDue := s.calDue.filter (· ≠ d) }.recalibrate d tj

/-- A run on a port has ended: a held recalibration is performed at the reading in force (R286). -/
def State.calRelease (s : State) (p : PortNum) : State :=
  if s.calDue.contains (domainOf p.val) then s.recalDue (domainOf p.val) (s.pget p TXMON.TJ) else s

/-- The trigger of R283 at a reading of a domain; the first reading after VALID was cleared triggers whatever its
value (R285). Nothing triggers under Kindling (R302). -/
def State.recalTrigger (s : State) (d tj : Nat) : State :=
  let last := s.calGet (CALTEMP.LAST.nth d)
  let far := 2 * max 1 (s.calGet CALCFG.DT) < ((tj : Int) - (last : Int)).natAbs
  if s.dev.full ∧ s.calGet CALCFG.AUTO = 1 ∧ (s.calGet (CALTEMP.VALID.nth d) = 0 ∨ far) then s.recalDue d tj else s

/-- DB_BEGIN is granted (R229, R235): the challenges are captured, the records cleared, DINT computed at the reading
then in force. -/
def State.dbGranted (s : State) (p : PortNum) : State :=
  let tj := s.pget p TXMON.TJ
  let dint := (s.trimAt 4 p.val tj % 65536).toNat
  let c0 := (s.port p).word DBCHAL0.reg
  let c1 := (s.port p).word DBCHAL1.reg
  s.modPort p fun q =>
    let regs := (List.range 32).foldl (fun c m => Cells.put .port c (DBREC.reg + 4 * m) 0) q.regs
    let regs := Cells.put .port regs DBRES.reg (resetWord .port DBRES.reg)
    let regs := Cells.put .port regs DBEXC.reg (resetWord .port DBEXC.reg)
    let regs := Cells.put .port regs DBSNR.reg (resetWord .port DBSNR.reg)
    let regs := Cells.set .port (Cells.set .port regs DBINT.DINT dint) DBINT.TJ tj
    { q with regs, tim := { chal := c1 ++ c0, dint, snrSum := 0, excess := [], onsets := [] } }

end Sys2Proof.Machine
end

