-- ==== Sys2Proof/Machine/Field.lean ====
section
/-! DEFINITION. The Bellows driver, the fault monitors, the governor and the Grate (R26-R30, R39-R70) and their rows. -/

namespace Sys2Proof.Machine

/-- State of the field: 0 off, 1 ramping up, 2 on at effective amplitude, 3 ramping down (TXSTAT.STATE). -/
def State.fieldState (s : State) (p : PortNum) : Nat := s.pget p TXSTAT.STATE

/-- Kindling: the boot ROM serves, full service has not begun (R498). -/
def State.kindling (s : State) : Bool := s.dev.boot && !s.dev.full

/-- The port has its carrier: the PLL, or the crystal for P0 under Kindling (R29). -/
def State.carrier (s : State) (p : PortNum) : Bool :=
  s.pllLocked || (s.kindling && p == 0 && s.pcrGet CLKCTL.XTAL_OK == 1)

/-- GRATE.BUSY (R60, R61). -/
def Grate.busy (g : Grate) : Bool := g.request || g.held || g.settling

/-- GRATE.ANT of a port. -/
def State.antenna (s : State) (p : PortNum) : Nat := wget (s.port p).grate.reg 0 6

/-! ## The framer's queue without a field (R415, R600) -/

/-- Whether the oldest committed TX packet holds a Cinder. -/
def cinderFirst : List FWord → Bool
  | [] => false
  | w :: r => w.cin || (!w.eop && cinderFirst r)

/-- The committed words of a FIFO in order. -/
def Fifo.committed (f : Fifo) : List FWord := (f.head ++ f.win ++ f.tail).filter f.visible

/-- One packet taken through its EOP without being sent, with its result (R415, R600). -/
def State.dropPacket (s : State) (p : PortNum) (outcome : Nat) : State :=
  let t := (State.takePacket p .tx 8300 [] false s).2.2
  (t.modFramer p fun f => { f with reqs := f.reqs - 1, held := false, holdCounted := false }).putBare p outcome

/-- Requested packets that cannot be sent are taken: those with a Cinder (R415), and all while FIELD_EN is 0 (R600). -/
def State.framerAdvanceN (p : PortNum) : Nat → State → State
  | 0, s => s
  | n + 1, s =>
    let f := (s.port p).framer
    if f.reqs = 0 || f.tx.isSome || f.win.isSome then s
    else if cinderFirst (s.fifo p .tx).committed then State.framerAdvanceN p n (s.dropPacket p 5)
    else if s.pget p TXCTL.FIELD_EN = 0 then State.framerAdvanceN p n (s.dropPacket p 4)
    else s

def State.framerAdvance (s : State) (p : PortNum) : State := State.framerAdvanceN p (s.port p).framer.reqs s

/-! ## Amplitude (R45) -/

/-- The amplitude map entry of an antenna, at most 1,024 (R289). -/
def State.mapEntry (s : State) (p : PortNum) (ant : Nat) : Nat :=
  min 1024 (s.calGet { off := AMPMAP.MAPA.off + 0x80 * p.val + 4 * (ant / 2),
                       lo := if ant % 2 = 0 then AMPMAP.MAPA.lo else AMPMAP.MAPB.lo, len := 11 })

/-- The effective amplitude before the headroom term (R45); CAL_RUN drives its own level with map 1,024 (R293). -/
def State.leffRaw (s : State) (p : PortNum) : Nat :=
  let lv := match (s.port p).field.calLevel with
    | some l => min l (s.pget p TXAMP.PMAX_LEVEL)
    | none => min (s.pget p TXAMP.LEVEL) (s.pget p TXAMP.PMAX_LEVEL) * s.mapEntry p (s.antenna p) / 1024
  lv * s.pget p TXSTAT.GOV_FACTOR / 100

/-- The headroom ceiling at the rail read last (R45, R70). -/
def State.headroom (s : State) (p : PortNum) : Nat :=
  if (s.port p).field.sampled then 1023 * (s.pget p TXMON.VTX * 10) / 4500 else 1023

/-- leff (R45). -/
def State.leff (s : State) (p : PortNum) : Nat := min (s.leffRaw p) (s.headroom p)

/-- leff put in force, with HEADROOM. -/
def State.takeLeff (s : State) (p : PortNum) : State :=
  let l := s.leff p
  (s.pset p TXSTAT.HEADROOM (bit (s.headroom p < s.leffRaw p))).modPort p fun q =>
    { q with field := { q.field with leff := l } }

/-! ## Idle points -/

/-- The framer neither sends nor listens and no rapid-exchange phase runs. -/
def State.quiet (s : State) (p : PortNum) : Bool :=
  let f := (s.port p).framer
  f.tx.isNone && f.win.isNone && !f.rapidOn

/-- An idle point of the port: the field at effective amplitude and the framer quiet ("Receive Chain"). -/
def State.idlePoint (s : State) (p : PortNum) : Bool :=
  s.fieldState p == 2 && !(s.port p).field.ramping && s.quiet p

/-- An idle point, or the field off (R74, R103, R284, R290). -/
def State.idleOrOff (s : State) (p : PortNum) : Bool := s.idlePoint p || s.fieldState p == 0

/-- An imported word written; of DBDLY only OFS, while LOCK is 0 (R240, R301). -/
def Port.importWord (q : Port) (w : Nat × Word) : Port :=
  if w.1 = DBDLY.reg then (if q.on DBCTL.LOCK then q else q.set DBDLY.OFS (wget w.2 16 16)) else q.putWord w.1 w.2

/-- What waits for an idle point of the port and belongs to no row of its own: the written CAP (R290) and imported
PORT-domain words (R301). -/
def State.idleWork (s : State) (p : PortNum) : State :=
  if s.idleOrOff p then
    let s := s.calSet (TUNE.APPLIED.nth p.val) (s.calGet (TUNE.CAP.nth p.val))
    let mine := s.imports.filter fun i => i.1 = p.val
    let s := { s with imports := s.imports.filter fun i => i.1 ≠ p.val }
    s.modPort p fun q => (mine.flatMap (·.2)).foldl Port.importWord q
  else s

/-- DC acquisition starts again (R84). -/
def State.acquire (s : State) (p : PortNum) : State := s.pset p DCBLK.ACQ 1

/-! ## Duty (R64) -/

/-- The window of R64 in fc cycles. -/
def dutyWindow : Nat := 135600

/-- The field-on time that a window allows. -/
def State.dutyCap (s : State) (p : PortNum) : Nat :=
  match s.pget p THERM.DUTY with
  | 0 => dutyWindow * 3 / 4
  | 1 => dutyWindow / 2
  | 2 => dutyWindow / 4
  | _ => dutyWindow

/-- The duty limit is in force. -/
def State.dutyOn (s : State) (p : PortNum) : Bool := (s.port p).field.hot && s.pget p THERM.DUTY != 3

/-- The duty budget of the present window is spent (R41, R64). -/
def State.dutySpent (s : State) (p : PortNum) : Bool := s.dutyOn p && s.dutyCap p ≤ (s.port p).field.dutyUsed

/-- The field has gone off inside a window: its on-time there, which no command measures, is a free number added
to the time used (R64, log entry 20). -/
def State.dutyAdd (s : State) (p : PortNum) : State :=
  let (n, s) := s.drawNat dutyWindow
  s.modPort p fun q => { q with field := { q.field with dutyUsed := q.field.dutyUsed + n } }

/-! ## Work in progress on a port that stops -/

/-- A distance-bounding run is over: RAPID_EN is cleared (R246). -/
def State.dropDb (s : State) (p : PortNum) : State :=
  if (s.port p).svc.db.isSome then
    ((s.modSvc p fun v => { v with db := none }).pset p TXCTL.RAPID_EN 0).calRelease p
  else s

/-- The ports with a CAL_RUN in progress, the latest begun first. -/
def State.calPorts (s : State) : List PortNum :=
  (s.running.filterMap fun r => match r.job with | .calRun q _ => some q | _ => none).reverse

/-- CALSTAT.RUN and RUNPORT follow the CAL_RUNs in progress; with several, RUNPORT names the latest begun (log entry
25). -/
def State.calStat (s : State) : State :=
  match s.calPorts with
  | [] => s.calSet CALSTAT.RUN 0
  | q :: _ => (s.calSet CALSTAT.RUN 1).calSet CALSTAT.RUNPORT q.val

/-- A CAL_RUN on the port is over: CALSTAT follows, the level it drove is cleared (R292, R297). -/
def State.calOver (s : State) (p : PortNum) : State :=
  (s.calStat.modPort p fun q => { q with field := { q.field with calLevel := none } }).calRelease p

/-- The staged matrix loaded again from the matrix in force (R216). -/
def State.reloadMatrix (s : State) : State :=
  { s with coord := { s.coord with
      regs := (List.range 64).foldl (fun c i =>
        Cells.put .coord c (CPLM.reg + 4 * i) (Cells.word .coord s.coord.matrix (CPLM.reg + 4 * i))) s.coord.regs } }

/-- The ports of a CAL_COUPLING in progress. -/
def State.couplingSet (s : State) : List Nat :=
  match s.running.find? fun r => match r.job with | .coupling _ => true | _ => false with
  | some r => match r.job with | .coupling c => c.set | _ => []
  | none => []

/-- ATTEN and the DC blocker of a port are frozen by CAL_COUPLING (R214). -/
def State.cplFrozen (s : State) (p : PortNum) : Bool :=
  s.running.any fun r => match r.job with | .coupling c => c.frozen && c.set.contains p.val | _ => false

/-! ## Stopping a field -/

/-- The field is off: a held Grate request may now be made (R60). -/
def State.fieldIsOff (s : State) (p : PortNum) : State :=
  let s := if s.fieldState p = 0 then s else s.dutyAdd p
  ((s.pset p TXSTAT.STATE 0).modPort p fun q =>
    { q with
      field := { q.field with leff := 0, ramping := false }
      grate := { q.grate with request := q.grate.request || q.grate.held, held := false } }).idleWork p

/-- Clearing FIELD_EN cuts a frame being sent and discards one being received (R108); requested frames are taken
without being sent (R600). -/
def State.cutAir (s : State) (p : PortNum) : State := ((s.cutSend p).cutReceive p).framerAdvance p

/-- FIELD_EN is cleared: a field that is up ramps down, the air is cut (R43, R108, R600). -/
def State.fieldDown (s : State) (p : PortNum) : State :=
  if s.pget p TXCTL.FIELD_EN = 1 then
    let s := (s.pset p TXCTL.FIELD_EN 0).pset p TXSTAT.HELD 0
    let s := if s.fieldState p = 1 ∨ s.fieldState p = 2 then s.pset p TXSTAT.STATE 3 else s
    s.cutAir p
  else s

/-- A CAL_COUPLING ends without its result: the staged matrix is loaded again and the fields of its set go off
(R216). -/
def State.stopCoupling (s : State) (status : Nat) : State :=
  match s.couplingSet with
  | [] => s
  | l => ((l.map toPort).foldl State.fieldDown (s.endWhere (fun r => match r.job with
      | .coupling _ => true | _ => false) status)).reloadMatrix

/-- Everything in progress on a port ends with a status (R66, R216, R247, R297). -/
def State.stopWork (s : State) (p : PortNum) (status : Nat) : State :=
  let had := s.calPorts.contains p
  let s := s.endPort p status
  let s := if s.couplingSet.contains p.val then s.stopCoupling status else s
  let s := s.dropDb p
  if had then s.calOver p else s

/-! ## The PORT domain (R16, R475) -/

/-- A port with its PORT domain reset; what the driver's sensors hold and GRATE stay. -/
def Port.domainReset (q : Port) : Port :=
  { Port.reset with
    grate := { q.grate with request := q.grate.request || q.grate.held, held := false }
    field := { Field.reset with
      lockout := q.field.lockout, vtxUv := q.field.vtxUv, debt := q.field.debt, dutyUsed := q.field.dutyUsed
      sampled := q.field.sampled }
    svc := q.svc }

/-- A port's PORT domain reset: its field is off at once, imported words that wait are lost. -/
def State.portDomainReset (s : State) (p : PortNum) : State :=
  let s := if s.fieldState p = 0 then s else s.dutyAdd p
  let s := { s with imports := s.imports.filter fun i => i.1 ≠ p.val }
  (s.modPort p Port.domainReset).idleWork p

/-- The other port of a domain. -/
def sibling (p : PortNum) : PortNum := Fin.ofNat 8 (if p.val % 2 = 0 then p.val + 1 else p.val - 1)

/-- Whether a port keeps its domain powered: open, being opened, listed by Ember and not isolated, or with a field
that still ramps down (R43, R356, R392, R475). -/
def State.holdsPower (s : State) (p : PortNum) : Bool :=
  let v := (s.port p).svc
  v.svc == .opened || v.svc == .reloading
    || (s.running.any fun r => match r.job with | .engineStart q => q = p | _ => false)
    || (nbit (s.aonGet EMBCTL.PORTS) p.val && v.svc != .isolated) || s.fieldState p != 0
    || (s.kindling && p.val == 0)

/-- The power of a port's domain follows its two ports; power-down resets the PORT domain of both (R475). -/
def State.powerSync (s : State) (p : PortNum) : State :=
  let l := [p, sibling p]
  if s.holdsPower p || s.holdsPower (sibling p) then
    l.foldl (fun t q => t.modSvc q fun v => { v with powered := true }) s
  else if (s.port p).svc.powered then
    l.foldl (fun t q => (t.portDomainReset q).modSvc q fun v => { v with powered := false, ready := false }) s
  else s

/-- The causes of R66 in TXSTAT.CAUSE. -/
inductive Cause where
  | opened | short | vtxUv | thermal | pll
  deriving DecidableEq, Repr

def Cause.code : Cause → Nat
  | .opened => 1 | .short => 2 | .vtxUv => 3 | .thermal => 4 | .pll => 5

/-- The command status of a cause (R66). -/
def Cause.status : Cause → Nat
  | .thermal => St.THERMAL_LIMIT
  | .opened | .short | .vtxUv | .pll => St.FIELD_FAULT

/-- Whether a cause ends an inventory pass (R191). -/
def Cause.endsPass : Cause → Bool
  | .vtxUv | .thermal | .pll => true
  | .opened | .short => false

/-- A fault stops the field as its row states and is recorded while FIELD_EN is 1 (R66). -/
def State.fieldFault (s : State) (p : PortNum) (c : Cause) : State :=
  let stop := fun t : State =>
    match c with
    | .opened => t.pset p TXSTAT.STATE 3
    | .short | .vtxUv | .thermal | .pll => t.fieldIsOff p
  if s.pget p TXCTL.FIELD_EN = 1 then
    let ant := s.antenna p
    let s := stop ((s.pset p TXCTL.FIELD_EN 0).pset p TXSTAT.HELD 0)
    let s := (s.pset p TXSTAT.FAULT 1).pset p TXSTAT.CAUSE c.code
    let s := (s.pset p TXSTAT.ANT_AT_FAULT ant).cutAir p
    let s := (s.stopWork p c.status).modSvc p fun v =>
      { v with
        session := none
        picc := none
        osgil := none
        faults := min 65535 (v.faults + 1)
        series := v.series && !c.endsPass
        pass := v.pass.map fun x => if c.endsPass then { x with fault := some c.status } else x }
    s.raiseOwner p.val 0x0180 ([BitVec.ofNat 8 c.code, BitVec.ofNat 8 ant] ++ leBytes 2 c.status)
  else if s.fieldState p = 0 then s
  else (stop s).powerSync p

/-! ## Starting a field (R41-R44) -/

/-- What holds a field request (R41). -/
def State.fieldBlocked (s : State) (p : PortNum) : Bool :=
  !s.carrier p || (s.port p).grate.busy || (s.port p).field.lockout || s.dutySpent p

/-- The ramp starts; a VTX rail that has not cleared faults at once (R41, R69). -/
def State.rampStart (s : State) (p : PortNum) : State :=
  let s := ((s.pset p TXSTAT.STATE 1).pset p TXSTAT.HELD 0).takeLeff p
  if (s.port p).field.vtxUv then s.fieldFault p .vtxUv else s

/-- A held request starts its ramp once nothing holds it (R41). -/
def State.tryRamp (s : State) (p : PortNum) : State :=
  if s.pget p TXSTAT.HELD = 1 ∧ s.fieldState p = 0 ∧ s.fieldBlocked p = false then s.rampStart p else s

/-- A write of FIELD_EN (R41-R44, R108): 1 is refused in thermal lockout; a request that is held waits with HELD. -/
def State.writeFieldEn (s : State) (p : PortNum) (v : Bool) : State :=
  let was := s.pget p TXCTL.FIELD_EN == 1
  if v && !was then
    if (s.port p).field.lockout then
      (s.modSvc p fun x => { x with
        series := x.series && x.pass.isNone
        pass := x.pass.map fun y => { y with fault := some St.THERMAL_LIMIT } })
    else
      let s := s.pset p TXCTL.FIELD_EN 1
      if s.fieldBlocked p then s.pset p TXSTAT.HELD 1
      else if s.fieldState p = 3 then s.pset p TXSTAT.STATE 1
      else if s.fieldState p = 0 then s.rampStart p
      else s
  else if !v then s.fieldDown p
  else s

/-- The ramp-up ends (R41, R84). -/
def State.rampUpDone (s : State) (p : PortNum) : State :=
  if s.fieldState p = 1 then
    ((((s.pset p TXSTAT.STATE 2).takeLeff p).acquire p).idleWork p).endJob (fun r => match r.job with
      | .fieldOn q _ => q = p | _ => false) St.OK [2, 0]
  else s

/-- The ramp-down ends (R43, R60). -/
def State.rampDownDone (s : State) (p : PortNum) : State :=
  if s.fieldState p = 3 then
    (((s.fieldIsOff p).endJob (fun r => r.job == .fieldOff p) St.OK).powerSync p).tryRamp p
  else s

/-! ## The governor (R63, R65) -/

/-- START in °C as the governor treats it. -/
def thermStart (v : Nat) : Nat := if v < 100 then 100 else if 145 < v then 145 else v

/-- GOV_FACTOR at a reading (R63): the reading is in 0.5 °C from -64 °C. -/
def govFactor (start slope tj : Nat) : Nat :=
  let above := (tj : Int) - 128 - 2 * (thermStart start : Int)
  if above ≤ 0 then 100
  else max 25 (100 - (slope + 1) * above.toNat)

/-- A sensor reading of a port (R63, R64, R70). -/
def State.thermPort (s : State) (p : PortNum) (tj vtx : Nat) : State :=
  let s := (s.pset p TXMON.TJ tj).pset p TXMON.VTX vtx
  let g := govFactor (s.pget p THERM.START) (s.pget p THERM.SLOPE) tj
  let hot := 2 * (thermStart (s.pget p THERM.START) + s.pget p THERM.DUTY_AT) + 128 ≤ tj
  let s := s.pset p TXSTAT.GOV_FACTOR g
  let s := s.modPort p fun q =>
    { q with field := { q.field with
        sampled := true, hot
        debt := if hot then q.field.debt else 0
        dutyUsed := if hot then q.field.dutyUsed else q.field.dutyUsed - q.field.debt } }
  s.pset p TXSTAT.GOV (bit (g < 100 || s.dutyOn p))

/-- The two ports of a domain D4-D7 and of a VTX rail. -/
def pairPorts (k : Fin 4) : List PortNum := [Fin.ofNat 8 (2 * k.val), Fin.ofNat 8 (2 * k.val + 1)]

/-! ## The Grate (R57-R62) -/

/-- A write of GRATE: the shift is requested, or held while the field is not off (R59, R60); a change of antenna
clears the AFC seed (R89). -/
def State.grateWrite (s : State) (p : PortNum) (w : Word) : State :=
  let off := s.fieldState p == 0
  let s := if wget w 0 6 = s.antenna p then s else s.pset p AFC.SEEDVALID 0
  s.modPort p fun q => { q with grate := { q.grate with
    reg := w &&& 0xFFFF, request := q.grate.request || off, held := q.grate.held || !off } }

/-- GRATE as read. -/
def Grate.word (g : Grate) : Word := wset g.reg 31 1 (bit g.busy)

/-- A shift frame: the ports that requested it latch their word and settle (R59, R61). -/
def State.grateShift (s : State) : State :=
  if (s.pllLocked || s.kindling) && allPorts.any (fun p => (s.port p).grate.request) then
    allPorts.foldl (fun t p =>
      if (t.port p).grate.request then
        (t.modPort p fun q => { q with grate := { q.grate with
          kept := q.grate.reg.setWidth 16, request := false, settling := true } })
      else t) s
  else s

/-- A settle time ends (R61): BUSY clears unless a further write waits, and a held field request is released. -/
def State.grateSettled (s : State) (p : PortNum) : State :=
  if (s.port p).grate.settling then
    let s := s.modPort p fun q => { q with grate := { q.grate with settling := false } }
    if (s.port p).grate.busy then s
    else (s.endJob (fun r => r.job == .grate p) St.OK [0]).tryRamp p
  else s

/-! ## Phase (R39, R40) -/

/-- A write of PHASE; without effect while COORD is 1. -/
def State.phaseWrite (s : State) (p : PortNum) (v : Nat) : State :=
  if s.pget p TXPHASE.COORD = 1 then s
  else
    let s := s.pset p TXPHASE.PHASE v
    s.pset p TXPHASE.PENDING (bit (s.pget p TXPHASE.PHASE != s.pget p TXPHASE.APPLIED))

/-! ## Rows -/

/-- TXCTL_FIELD_EN_WRITE (R41). -/
def execTxctlFieldEnWrite (p : PortNum) (value : Bool) : State → Host.Outcome State Fault Refusal :=
  run fun s => if s.portOn p then s.writeFieldEn p value else s

/-- FIELD_RAMP_START (R41). -/
def execFieldRampStart (p : PortNum) : State → Host.Outcome State Fault Refusal :=
  run fun s => s.tryRamp p

/-- FIELD_RAMP_UP_DONE (R41). -/
def execFieldRampUpDone (p : PortNum) : State → Host.Outcome State Fault Refusal :=
  run fun s => s.rampUpDone p

/-- FIELD_RAMP_DOWN_DONE (R43). -/
def execFieldRampDownDone (p : PortNum) : State → Host.Outcome State Fault Refusal :=
  run fun s => s.rampDownDone p

/-- TXPHASE_WRITE (R39). -/
def execTxphaseWrite (p : PortNum) (phase : Byte) : State → Host.Outcome State Fault Refusal :=
  run fun s => if s.portOn p then s.phaseWrite p phase.toNat else s

/-- PHASE_APPLY (R39). -/
def execPhaseApply (p : PortNum) : State → Host.Outcome State Fault Refusal :=
  run fun s =>
    if s.pget p TXPHASE.PENDING = 1 ∧ (s.fieldState p = 0 ∨ s.quiet p = true) then
      (s.pset p TXPHASE.APPLIED (s.pget p TXPHASE.PHASE)).pset p TXPHASE.PENDING 0
    else s

/-- AMP_APPLY (R47). -/
def execAmpApply (p : PortNum) : State → Host.Outcome State Fault Refusal :=
  run fun s =>
    if s.fieldState p = 2 ∧ s.quiet p = true ∧ s.leff p ≠ (s.port p).field.leff then
      (s.takeLeff p).modPort p fun q => { q with field := { q.field with ramping := true } }
    else s

/-- AMP_RAMP_DONE (R84). -/
def execAmpRampDone (p : PortNum) : State → Host.Outcome State Fault Refusal :=
  run fun s =>
    if (s.port p).field.ramping then
      ((s.modPort p fun q => { q with field := { q.field with ramping := false } }).acquire p).idleWork p
    else s

/-- TXAMP_LOCK (R45). -/
def execTxampLock (p : PortNum) : State → Host.Outcome State Fault Refusal :=
  run fun s => if s.portOn p then s.pset p TXAMP.LOCK 1 else s

/-- SHORT_FAULT (R66): armed always while the driver runs. -/
def execShortFault (p : PortNum) : State → Host.Outcome State Fault Refusal :=
  run fun s => if s.fieldState p = 0 then s else s.fieldFault p .short

/-- VTX_UV_FAULT (R66): armed while a field of the rail is not off, once a reading is valid (R70). -/
def execVtxUvFault (rail : Fin 4) : State → Host.Outcome State Fault Refusal :=
  run fun s => (pairPorts rail).foldl (fun t p =>
    if (t.port p).field.sampled then
      let t := t.modPort p fun q => { q with field := { q.field with vtxUv := true } }
      if t.fieldState p = 0 then t else t.fieldFault p .vtxUv
    else t) s

/-- VTX_UV_CLEAR (R69). -/
def execVtxUvClear (rail : Fin 4) : State → Host.Outcome State Fault Refusal :=
  run fun s => (pairPorts rail).foldl (fun t p =>
    t.modPort p fun q => { q with field := { q.field with vtxUv := false } }) s

/-- OPEN_FAULT (R66): armed by ANT_CHECK once the field is on. -/
def execOpenFault (p : PortNum) : State → Host.Outcome State Fault Refusal :=
  run fun s => if s.pget p TXCTL.ANT_CHECK = 1 ∧ s.fieldState p = 2 then s.fieldFault p .opened else s

/-- THERMAL_TRIP (R65): both ports of the domain enter thermal lockout. -/
def execThermalTrip (dom : Fin 4) : State → Host.Outcome State Fault Refusal :=
  run fun s => (pairPorts dom).foldl (fun t p =>
    if t.portOn p then
      (t.fieldFault p .thermal).modPort p fun q => { q with field := { q.field with lockout := true } }
    else t) s

/-- THERMAL_LOCKOUT_END (R65). -/
def execThermalLockoutEnd (dom : Fin 4) : State → Host.Outcome State Fault Refusal :=
  run fun s => (pairPorts dom).foldl (fun t p =>
    t.modPort p fun q => { q with field := { q.field with lockout := false } }) s

/-- DUTY_WINDOW (R64): `onTime` is the field-on time of the window that ends. Debt beyond the cap is carried on. -/
def execDutyWindow (p : PortNum) (onTime : Nat) : State → Host.Outcome State Fault Refusal :=
  run fun s =>
    if s.portOn p then
      let debt := if s.dutyOn p then ((s.port p).field.debt + onTime) - s.dutyCap p else 0
      (s.modPort p fun q => { q with field := { q.field with debt, dutyUsed := debt } }).tryRamp p
    else s

/-- GRATE_WRITE (R59). -/
def execGrateWrite (p : PortNum) (value : Word) : State → Host.Outcome State Fault Refusal :=
  run fun s => s.grateWrite p value

/-- GRATE_SHIFT_FRAME (R58). -/
def execGrateShiftFrame : State → Host.Outcome State Fault Refusal := run fun s => s.grateShift

/-- GRATE_SETTLE_END (R61). -/
def execGrateSettleEnd (p : PortNum) : State → Host.Outcome State Fault Refusal :=
  run fun s => s.grateSettled p

end Sys2Proof.Machine
end

