-- ==== Sys2Proof/Machine/Framer.lean ====
section
/-! DEFINITION. The framer, the receive chain and the scheduler's hold (R71-R131, R138-R142, R152-R154, R183, R184,
R220, R225-R227) and their rows. -/

namespace Sys2Proof.Machine

/-! ## Codings -/

/-- CODING in a FRMCTL word; 5 to 15 are treated as 0. -/
def codingOf (w : Word) : Nat := if 5 ≤ wget w 0 4 then 0 else wget w 0 4

/-- TXRATE; 7 is treated as 3. -/
def txRate (w : Word) : Nat := if wget w 4 3 = 7 then 3 else wget w 4 3

/-- RXRATE of the 14443 codings; 6 and 7 are treated as 3. -/
def rxRate (w : Word) : Nat := if 6 ≤ wget w 7 3 then 3 else wget w 7 3

/-- The receive defaults of R75: K, TAPS, RANK, FIR set. In bypass RANK is ignored and loads as 0. -/
def rxDefaults (w : Word) : Nat × Nat × Nat × Nat :=
  match codingOf w with
  | 2 => if nbit (wget w 7 3) 1 then (4, 3, 3, 1) else (5, 3, 3, 0)
  | 3 => (2, 1, 1, 3)
  | 4 => (3, 2, 2, 2)
  | _ =>
    match rxRate w with
    | 0 | 1 => (3, 2, 2, 2)
    | 2 => (2, 2, 2, 3)
    | 3 => (2, 1, 1, 3)
    | 4 => (1, 1, 1, 4)
    | _ => (1, 0, 0, 4)

/-- Output samples per bit (R75, R96). -/
def bitSamples (w : Word) : Nat :=
  match codingOf w with
  | 2 =>
    if nbit (wget w 7 3) 1 then (if nbit (wget w 7 3) 0 then 508 else 127)
    else if nbit (wget w 7 3) 0 then 256 else 64
  | 3 => 16
  | 4 => 64
  | _ =>
    match rxRate w with
    | 0 => 64
    | 1 | 2 => 32
    | 3 | 4 => 16
    | _ => 8

/-- VHBR BPSK reception, on which no AFC runs (R88). -/
def isVhbr (w : Word) : Bool := codingOf w ≤ 1 && 4 ≤ rxRate w

/-- The BPSK codings (R98). -/
def isBpsk (w : Word) : Bool := isVhbr w || codingOf w == 3

/-- The window defaults of R113 and R142: MIN, GRID, WAIT, TOL. -/
def windowDefaults (coding : Nat) : Nat × Nat × Nat × Nat :=
  match coding with
  | 0 => (1172, 1, 1244, 2)
  | 1 => (1024, 0, 7680, 2)
  | 2 => (4320, 0, 4384, 2)
  | 3 => (336, 0, 368, 6)
  | _ => (992, 0, 1056, 10)

/-- The modulation defaults of R52: DEPTH, FALL, RISE. -/
def modDefaults (w : Word) : Nat × Nat × Nat :=
  let vhbr := fun r => match r with
    | 4 => (0x14, 4, 4)
    | 5 => (0x14, 2, 2)
    | _ => (0x14, 1, 1)
  match codingOf w with
  | 0 =>
    match txRate w with
    | 0 => (0xFF, 12, 16)
    | 1 => (0xFF, 8, 8)
    | 2 => (0xFF, 4, 6)
    | 3 => (0xFF, 4, 4)
    | r => vhbr r
  | 1 =>
    match txRate w with
    | 0 => (0x14, 24, 24)
    | 1 => (0x14, 16, 16)
    | 2 => (0x14, 12, 12)
    | 3 => (0x14, 8, 8)
    | r => vhbr r
  | 2 => if wget w 10 1 = 1 then (0xFF, 12, 16) else (0x14, 24, 24)
  | 3 => (0x14, 4, 4)
  | _ => (0xFF, 8, 12)

/-- The CRC of a coding (R105, R144). -/
def crcOf (coding : Nat) : CrcKind :=
  match coding with
  | 0 => .crcA | 1 => .crcB | 2 => .crc15693 | 3 => .crcAelyr | _ => .crcO

/-! ## Settings (R74, R75, R103) -/

/-- The registers whose writes wait for an idle point (R74). -/
def stagedRegs : List Nat :=
  [DECIM.reg, MEDIAN.reg, DCBLK.reg, FIRCTL.reg, DAMPER.reg] ++ (List.range 16).map fun i => FIRCOEF.reg + 4 * i

/-- The receive settings take effect (R74). -/
def State.applyRx (s : State) (p : PortNum) : State :=
  s.modPort p fun q =>
    { q with chain := { q.chain with
        inForce := stagedRegs.foldl (fun c o => Cells.put .port c o (q.word o)) q.chain.inForce
        pend := false } }

/-- A receive setting has been written: it waits, or takes effect at once while the field is off (R74). -/
def State.stageRx (s : State) (p : PortNum) : State :=
  if s.fieldState p = 0 then s.applyRx p
  else s.modPort p fun q => { q with chain := { q.chain with pend := true } }

/-- The defaults loaded at a change of coding (R75, R89, R103, R113, R142). -/
def State.codingLoads (s : State) (p : PortNum) (w : Word) : State :=
  let (k, taps, rank, fir) := rxDefaults w
  let (mn, grid, wait, tol) := windowDefaults (codingOf w)
  let s := if s.pget p RXCTL.RXAUTO = 1 then
      ((((s.pset p DECIM.K k).pset p MEDIAN.TAPS taps).pset p MEDIAN.RANK rank).pset p FIRCTL.SET fir).stageRx p
    else s
  let s := if s.pget p FDT.AUTO = 1 then (s.pset p FDT.MIN mn).pset p FDT.GRID grid else s
  let s := if s.pget p FWT.AUTO = 1 then s.pset p FWT.WAIT wait else s
  let s := if s.pget p BITTOL.AUTO = 1 then s.pset p BITTOL.TOL tol else s
  s.pset p AFC.SEEDVALID 0

/-- The fields whose change is a change of coding (R103). -/
def codingKey (w : Word) : Nat × Nat × Nat × Nat := (wget w 0 4, wget w 4 3, wget w 7 3, wget w 10 1)

/-- A pending FRMCTL takes effect (R103). -/
def State.applyFrm (s : State) (p : PortNum) : State :=
  let w := (s.port p).word FRMCTL.reg
  let old := (s.port p).framer.frm
  let s := s.modFramer p fun f => { f with frm := w, frmPend := false }
  if codingKey w = codingKey old then s else s.codingLoads p w

/-- A write of FRMCTL: it takes effect at the next idle point, or at once while the field is off (R103). -/
def State.frmctlWrite (s : State) (p : PortNum) (w : Word) : State :=
  let s := s.modPort p fun q => q.putWord FRMCTL.reg w
  if s.fieldState p = 0 then s.applyFrm p else s.modFramer p fun f => { f with frmPend := true }

/-! ## DC blocker and chain -/

/-- The chain runs (R73). -/
def State.rxRuns (s : State) (p : PortNum) : Bool := s.pon p RXCTL.RX_EN && s.fieldState p != 0

/-- The DC blocker is frozen (R85, R86, R91, R214). -/
def State.dcFrozen (s : State) (p : PortNum) : Bool :=
  s.pon p DCBLK.FREEZE || s.cplFrozen p || (s.pon p DCBLK.AUTO && !s.quiet p) || (s.port p).framer.rapidOn

/-- NOISE.RESTART, or a PORT reset (R94). -/
def State.noiseReset (s : State) (p : PortNum) : State :=
  s.modPort p fun q => q.putWord NOISE.reg (resetWord .port NOISE.reg)

/-- NOISE.LEVEL in 0.25 dBFS. -/
def State.noiseLevel (s : State) (p : PortNum) : Int := signed 11 (s.pget p NOISE.LEVEL)

/-- A window's result moves LEVEL: the first sets it, each later one moves it one eighth of the way in linear
power (R93). -/
def State.noiseResult (s : State) (p : PortNum) (r : Int) : State :=
  let old := s.noiseLevel p
  let new := if s.pon p NOISE.VALID then qdbOf ((7 * linPow old + linPow r) / 8) else r
  let s := (s.pset p NOISE.LEVEL (unsigned 11 (clampInt (-1024) 1023 new))).pset p NOISE.VALID 1
  s.pset p NOISE.WINDOWS (min 65535 (s.pget p NOISE.WINDOWS + 1))

/-- An AGC window that ends at an idle point (R76, R77): above -HI dBFS one step up, below -LO dBFS one step down. -/
def State.agcWindow (s : State) (p : PortNum) (peak : Int) : State :=
  if s.pon p DAMPER.AGC && s.rxRuns p && s.idlePoint p && !s.cplFrozen p then
    let hi := s.pget p DAMPER.HI
    let lo := max (s.pget p DAMPER.LO) (hi + 6)
    let a := s.pget p DAMPER.ATTEN
    let a' := if -(4 * (hi : Int)) < peak then min 15 (a + 1) else if peak < -(4 * (lo : Int)) then a - 1 else a
    if a' = a then s
    else
      let s := (s.pset p DAMPER.ATTEN a').acquire p
      s.modPort p fun q => { q with chain := { q.chain with
        inForce := Cells.put .port q.chain.inForce DAMPER.reg (q.word DAMPER.reg) } }
  else s

/-! ## Violations (R123, R129) -/

/-- The counter of a violation class. -/
def violFld : Nat → Fld
  | 0 => VIOLCNT.TIMING | 1 => VIOLCNT.CODING | 2 => VIOLCNT.PARITY | 3 => VIOLCNT.CRC
  | 4 => VIOLCNT1.LENGTH | 5 => VIOLCNT1.RATE | 6 => VIOLCNT1.PROTOCOL | _ => VIOLCNT1.EXTEND

/-- A violation counted: DISCARD, VCLASS and the class's counter (R123). -/
def State.violation (s : State) (p : PortNum) (c : Nat) : State :=
  let s := (s.pset p FRMSTAT.DISCARD 1).pset p FRMSTAT.VCLASS c
  let s := s.pset p (violFld c) (min 255 (s.pget p (violFld c) + 1))
  s.modFramer p fun f => { f with win := f.win.map fun w => { w with viol := true } }

/-! ## Sending -/

/-- The lowest-numbered group that names a port among its members (R220). -/
def State.groupOf (s : State) (p : PortNum) : Option Nat :=
  [0, 1, 2, 3].find? fun g => nbit (s.coordGet (GRPCFG.MEMBERS.nth g 16)) p.val

/-- The other members in the port's schedule now (R221). -/
def State.mates (s : State) (p : PortNum) : List PortNum :=
  match [0, 1, 2, 3].find? fun g => nbit (s.coord.active.getD g 0) p.val with
  | some g => allPorts.filter fun o => o ≠ p && nbit (s.coord.active.getD g 0) o.val
  | none => []

/-- A port protects air time: its window, the pending second window among it, or its reservation (R225, R227). -/
def State.protects (s : State) (p : PortNum) : Bool :=
  let f := (s.port p).framer
  f.win.isSome || f.reserved

/-- The parity of the valid bits of a byte. -/
def oddOnes (n b : Nat) : Bool := popCount n b % 2 == 1

/-- Whether the last bit on the air is 1 (R104, R110): the parity bit after the last byte, or the last data bit. -/
def lastBitOne (w : Word) (data bytes : List Byte) : Bool :=
  let crc := wget w 11 1 = 1
  let lb := wget w 14 3
  let short := codingOf w = 0 && data.length = 1 && lb = 7 && !crc
  let n := if crc || lb = 0 then 8 else lb
  let b := (bytes.getLastD 0).toNat
  if codingOf w = 0 && wget w 13 1 = 1 && !short then !(oddOnes n b) else nbit b (n - 1)

/-- A packet as the framer sends it (R103, R104, R105). -/
def txFrame (w : Word) (data : List Byte) : TxFrame :=
  let bytes := if wget w 11 1 = 1 then data ++ (crcOf (codingOf w)).bytes data else data
  let al := codingOf w = 3
  let c := byteAt data 0
  { bytes, frm := w, lastOne := lastBitOne w data bytes
    haltNext := al && c = 0x03 && nbit (byteAt data 1) 0
    scanHalt := al && (c = 0x01 || c = 0x03)
    dbBegin := al && c = 0x30 }

/-- The modulation settings at a frame start (R51, R52): AUTO loads the coding's defaults; CLAMP shows a DEPTH of
101 to 254. -/
def State.modulation (s : State) (p : PortNum) (w : Word) : State :=
  let (d, f, r) := modDefaults w
  let s := if s.pon p MODCTL.AUTO then
      (((s.pset p MODCTL.DEPTH d).pset p MODCTL.FALL f).pset p MODCTL.RISE r).pset p MODCTL.SHAPE 0
    else s
  let d := s.pget p MODCTL.DEPTH
  s.pset p MODCTL.CLAMP (bit (101 ≤ d && d ≤ 254))

/-- The first byte of the oldest committed TX packet, for R227. -/
def State.dbWaiting (s : State) (p : PortNum) : Bool :=
  codingOf (s.port p).framer.frm = 3 &&
    match (s.fifo p .tx).committed with
    | w :: _ => wget w.data 0 8 = 0x30
    | [] => false

/-- The requested frame starts (R109, R225, R442): its packet leaves the FIFO whole; DB_BEGIN takes its reservation. -/
def State.sendStart (s : State) (p : PortNum) : State :=
  let (data, _, s) := State.takePacket p .tx 8300 [] false s
  let w := (s.port p).framer.frm
  let t := txFrame w data
  let s := s.modFramer p fun f =>
    { f with reqs := f.reqs - 1, tx := some t, held := false, holdCounted := false, reserved := t.dbBegin }
  let s := s.modulation p w
  if t.dbBegin then s.dbGranted p else s

/-- A frame waits that the framer itself could start now: requested, the guard ended, the field on (R112, R600). -/
def State.canSend (s : State) (p : PortNum) : Bool :=
  let f := (s.port p).framer
  0 < f.reqs && f.tx.isNone && f.win.isNone && !f.guard && !f.rapidOn && s.fieldState p == 2
    && 0 < (s.fifo p .tx).pkts

/-- A held frame counted once (R225). -/
def State.hold (s : State) (p : PortNum) : State :=
  let f := (s.port p).framer
  let s := if f.holdCounted then s
    else
      let fl := SCHCNT.HOLDS.nth p.val
      s.coordSet fl (min 65535 (s.coordGet fl + 1))
  s.modFramer p fun f => { f with held := true, holdCounted := true }

/-- A request decided (R225, R227). A mate that listens or holds a reservation holds the frame. While a mate is
sending, whether the frame ends before that mate's window opens depends on lengths on the air: a free truth value
(log entry 21). -/
def State.grant (s : State) (p : PortNum) : State :=
  let s := s.framerAdvance p
  if s.canSend p then
    let s := if (s.port p).framer.frmPend then s.applyFrm p else s
    let m := s.mates p
    if m.any fun o => s.protects o then s.hold p
    else if m.any fun o => (s.port o).framer.tx.isSome then
      let (fits, s) := s.drawBool
      if fits then s.sendStart p else s.hold p
    else s.sendStart p
  else s

/-- The override of a held frame (R226); a mate's reservation is not overridden, nor is a reservation granted this
way (R227). -/
def State.holdOver (s : State) (p : PortNum) : State :=
  if (s.port p).framer.held && s.canSend p && !(s.dbWaiting p) &&
      !(s.mates p).any (fun o => (s.port o).framer.reserved) then
    let fl := SCHCNT.OVERRIDES.nth p.val
    (s.coordSet fl (min 65535 (s.coordGet fl + 1))).sendStart p
  else s

/-- The window that opens at the end of a sent frame (R109). -/
def State.openWindow (s : State) (p : PortNum) (t : TxFrame) : State :=
  let wait := max 1 (s.pget p FWT.WAIT)
  s.modFramer p fun f =>
    { f with
      tx := none
      win := some { min := s.pget p FDT.MIN, wait, grid := s.pon p FDT.GRID, lastOne := t.lastOne, frm := t.frm,
                    base := wait, scanHalt := t.scanHalt, haltNext := t.haltNext, dbBegin := t.dbBegin,
                    second := false, opened := true, firstOk := false, exts := 0, extSum := 0, viol := false,
                    start := none } }

/-! ## Receiving -/

/-- A start is in time (R109, R110). -/
def Window.inTime (w : Window) (t : Nat) : Bool :=
  t ≤ w.wait &&
    if codingOf w.frm = 0 && w.grid then
      let base := if w.lastOne then 84 else 20
      9 * 128 + base ≤ t + 8 && (t + 8 - base) % 128 ≤ 16
    else w.min ≤ t

/-- A window closes (R109, R112, R115, R152): its time is added, the guard starts; the first window of HALT with
NEXT = 1 is followed by the second. -/
def State.closeWindow (s : State) (p : PortNum) (time : Nat) (ok : Bool) : State :=
  s.modFramer p fun f =>
    match f.win with
    | some w =>
      let f := { f with waitSum := f.waitSum + time }
      if w.haltNext && !w.second then
        { f with win := some { w with second := true, opened := false, firstOk := ok, viol := false, start := none,
                                       min := 1472, wait := 1504, grid := false } }
      else { f with win := none, guard := true, reserved := f.reserved && ok }
    | none => f

/-- What a reply's frame measures: EST, QUAL, FERR and RSSI (R88-R90, R95-R99). -/
def State.quality (s : State) (p : PortNum) (w : Word) (rx : RxFrame) : State :=
  let afc := s.pon p AFC.EN && !isVhbr w
  let est := clampInt (-20000) 20000 rx.est
  let lim := afc && (rx.est ≤ -20000 || 20000 ≤ rx.est)
  let s := if afc then
      let s := (((s.pset p AFC.EST (unsigned 16 est)).pset p AFC.SEEDVALID 1).pset p AFC.LIMIT (bit lim))
      let ant := s.antenna p
      s.modPort p fun q => { q with chain := { q.chain with seedAnt := ant, seedCod := codingOf w } }
    else s
  let n := bitSamples w
  let eye := min 255 ((256 * n - rx.spread) / n)
  let seq := (s.pget p QUAL.FSEQ + 1) % 16
  let floor := s.noiseLevel p
  let sig := qdbOf (linPow rx.power - linPow floor)
  let lvl := if rx.power ≤ floor || sig ≤ floor then floor - 120 else sig
  let s := ((s.pset p QUAL.EYE eye).pset p QUAL.EVM (if isBpsk w then min 1023 rx.evm else 0)).pset p
    QUAL.EVM_VALID (bit (isBpsk w))
  let s := ((s.pset p QUAL.CLIPPED (bit (s.port p).chain.clipped)).pset p QUAL.DCU (s.pget p DCBLK.ACQ)).pset p
    QUAL.AFCLIM (bit lim)
  let s := (s.pset p FERR.PPM (unsigned 16 rx.ppm)).pset p RSSI.LEVEL (unsigned 11 (clampInt (-1024) 1023 lvl))
  let s := ((s.pset p QUAL.FSEQ seq).pset p FERR.FSEQ seq).pset p RSSI.FSEQ seq
  s.modPort p fun q => { q with chain := { q.chain with clipped := false } }

/-- The tag's rate offset in ppm (R121). -/
def State.rateOffset (s : State) (p : PortNum) (w : Word) : Int :=
  let ppm := signed 16 (s.pget p FERR.PPM)
  if isVhbr w then ppm else signed 16 (s.pget p AFC.EST) + ppm

/-- A frame holds collided bits of a coding that has them (R107, R139). -/
def collides (w : Word) (rx : RxFrame) : Bool :=
  (codingOf w = 0 || codingOf w = 2 || codingOf w = 3) && rx.collided ≠ []

/-- Bits of a received frame. -/
def rxBitCount (w : Word) (rx : RxFrame) : Nat :=
  8 * rx.bytes.length - (if rx.lastBits = 0 then 0 else 8 - rx.lastBits.val) - wget w 17 3

/-- The LENGTH tests (class table, R138). A frame above FSD + 3 bytes is judged while EMDSUP marks 14443-4
(DEDUCED, log entry 22). -/
def badLength (w : Word) (rx : RxFrame) : Bool :=
  let n := rx.bytes.length
  rxBitCount w rx < 4 || (codingOf w = 2 && n < 3) || (codingOf w ≤ 1 && wget w 20 1 = 1 && 259 < n)
    || (wget w 12 1 = 1 && rx.lastBits ≠ 0)
    || (codingOf w = 3 && (rx.lastBits ≠ 0 || n < 3 || 80 < n))

/-- How a frame is judged. -/
inductive Verdict where
  | accept
  | discard (c : Nat)
  | disturbance
  deriving DecidableEq, Repr

/-- The first class that a frame meets (R121-R123, R130). -/
def State.judge (s : State) (p : PortNum) (w : Word) (rx : RxFrame) : Verdict :=
  let coll := collides w rx
  let emd := codingOf w ≤ 1 && wget w 20 1 = 1 && rx.bytes.length < 4
  let mild := fun c => if emd then Verdict.disturbance else .discard c
  if max 1 (s.pget p BITTOL.TOL) * 5000 < (s.rateOffset p w).natAbs then .discard 5
  else if rx.codingErr || (coll && wget w 21 1 = 0) then mild 1
  else if badLength w rx then .discard 4
  else if coll then .accept
  else if codingOf w = 0 && wget w 13 1 = 1 && rx.parityErr then mild 2
  else if wget w 12 1 = 1 && !(crcOf (codingOf w)).ok rx.bytes then mild 3
  else .accept

/-- The separation measured at the last collided bit, in 0.25 sigma (R100, R184). -/
def sepLast (pts : List (Int × Int)) (floorAdc : Int) : Option Nat :=
  match pts with
  | [] => none
  | p0 :: _ =>
    let dot := fun (a b : Int × Int) => a.1 * b.1 + a.2 * b.2
    let d := pts.foldl (fun (acc : Int × Int) q =>
      if 0 ≤ dot q p0 then (acc.1 + q.1, acc.2 + q.2) else (acc.1 - q.1, acc.2 - q.2)) (0, 0)
    let m := (dot d d).toNat
    let r := (dot (pts.getLastD p0) d).natAbs
    if m = 0 then none else some (min 65535 (isqrt (64 * r * r * linPow 0 * 2 / (m * 2 ^ 30 * linPow floorAdc))))

/-- A separation attempt writes CSEP.LAST (R100, R184). A mean of zero divides by zero: a free number. -/
def State.separate (s : State) (p : PortNum) (rx : RxFrame) : State :=
  if s.pon p CSEP.EN && rx.points ≠ [] then
    match sepLast rx.points (s.noiseLevel p - 8 * (s.pget p DAMPER.ATTEN : Int)) with
    | some v => s.pset p CSEP.LAST v
    | none =>
      let (v, s) := s.drawNat 65536
      s.pset p CSEP.LAST v
  else s

/-- An extension frame that the framer grants (R118, R153, R154): M. -/
def Window.extension (w : Window) (rx : RxFrame) : Option Nat :=
  let m := byteAt rx.bytes 1
  if codingOf w.frm = 3 && !w.scanHalt && !w.second && rx.bytes.length = 4 && byteAt rx.bytes 0 = 0xEE
      && CrcKind.crcAelyr.ok rx.bytes && rx.collided = [] && 1 ≤ m && m ≤ 8 && w.exts < 4
      && w.extSum + m * w.base ≤ 1084800 then some m
  else none

/-- The reply to DB_BEGIN has arrived: NT of the run (R146, R246). -/
def State.dbAccepted (s : State) (p : PortNum) (w : Window) (data : List Byte) : State :=
  if w.dbBegin && data.length == 9 && byteAt data 0 == 0 then
    s.modSvc p fun v => { v with db := v.db.map fun d => { d with nt := data.drop 1 } }
  else s

/-- The reply of a window ends (R106, R107, R109, R123, R130, R153, R443). -/
def State.replyEnd (s : State) (p : PortNum) (w : Window) (start : Nat) (rx : RxFrame) : State :=
  let clipped := (s.port p).chain.clipped
  let s := s.quality p w.frm rx
  let time := start + rx.dur
  let v := s.judge p w.frm rx
  let win := fun (t : State) => ((t.port p).framer.win.map (·.viol)).getD false
  match v with
  | .disturbance => s.modFramer p fun f => { f with win := some { w with start := none } }
  | .discard c =>
    let s := s.violation p c
    let r := resultWord 3 false 0 clipped 0 c true false w.second
    (s.closeWindow p time false).putResult p r
  | .accept =>
    match w.extension rx with
    | some m =>
      s.modFramer p fun f =>
        { f with
          waitSum := f.waitSum + time
          win := some { w with min := 336, wait := m * w.base, grid := false, exts := w.exts + 1,
                               extSum := w.extSum + m * w.base, start := none } }
    | none =>
      let coll := collides w.frm rx
      let data := if wget w.frm 12 1 = 1 then rx.bytes.take (rx.bytes.length - 2) else rx.bytes
      let pos := min 255 (rx.collided.headD 0)
      let s := State.pushPacket p .rx data s
      let s := (s.pset p FRMSTAT.RXDONE 1).pset p FRMSTAT.COLL (bit coll)
      let s := if coll then (s.pset p FRMSTAT.COLLPOS pos).separate p rx else s
      let s := s.pset p FRMSTAT.RXBITS rx.lastBits.val
      let s := s.dbAccepted p w data
      let r := resultWord 1 coll rx.lastBits.val clipped (s.pget p FRMSTAT.COLLPOS) (s.pget p FRMSTAT.VCLASS)
        (win s) false w.second
      (s.closeWindow p time true).putResult p r

/-- A reply start is detected (R109-R111): in time it is received; early or off the grid it is a TIMING violation
and the window stays open. -/
def State.replyStart (s : State) (p : PortNum) (t : Nat) : State :=
  let f := (s.port p).framer
  match f.win with
  | some w =>
    if w.opened && w.start.isNone && !f.stray && t ≤ w.wait && s.rxRuns p then
      if w.inTime t then s.modFramer p fun f => { f with win := some { w with start := some t } }
      else (s.violation p 0).modFramer p fun f => { f with stray := true }
    else s
  | none => s

/-- A received frame ends. -/
def State.receiveEnd (s : State) (p : PortNum) (rx : RxFrame) : State :=
  let f := (s.port p).framer
  if f.stray then
    let frm := match f.win with | some w => w.frm | none => f.frm
    (s.quality p frm rx).modFramer p fun f => { f with stray := false }
  else
    match f.win with
    | some w =>
      match w.start with
      | some t => s.replyEnd p w t rx
      | none => s
    | none => s

/-- WAIT expires with no start (R109). -/
def State.waitOver (s : State) (p : PortNum) : State :=
  match (s.port p).framer.win with
  | some w =>
    if w.opened && w.start.isNone then
      let s := s.pset p FRMSTAT.TIMEOUT 1
      let r := resultWord 2 false 0 false 0 (s.pget p FRMSTAT.VCLASS) w.viol false w.second
      (s.closeWindow p (w.wait - (if w.second then 1472 else 0)) false).putResult p r
    else s
  | none => s

/-- The waiting sum reaches LIMIT x 10 ms (R115, R120): the window closes as a timeout with WLIM and one EXTEND
violation is counted; no second window follows. -/
def State.waitLimit (s : State) (p : PortNum) : State :=
  match (s.port p).framer.win with
  | some w =>
    if w.opened && w.start.isNone then
      let s := ((s.pset p FRMSTAT.TIMEOUT 1).pset p FRMSTAT.WLIM 1).violation p 7
      let r := resultWord 2 false 0 false 0 7 true true w.second
      let s := s.modFramer p fun f => { f with win := f.win.map fun w => { w with second := true } }
      (s.closeWindow p 0 false).putResult p r
    else s
  | none => s

/-! ## Reads with effects (R131, R220) -/

/-- VIOLCNT and VIOLCNT1 read and cleared; Hearth keeps the sums for the host (R131, R392). -/
def State.violRead (s : State) (p : PortNum) (off : Nat) : Word × State :=
  ((s.port p).word off, s.modPort p fun q => q.putWord off 0)

/-- SCHCNT read and cleared. -/
def State.schRead (s : State) (p : PortNum) : Word × State :=
  let off := SCHCNT.reg + 4 * p.val
  (Cells.word .coord s.coord.regs off,
    { s with coord := { s.coord with regs := Cells.put .coord s.coord.regs off 0 } })

/-! ## Rows -/

/-- FRMCTL_APPLY (R103). -/
def execFrmctlApply (p : PortNum) : State → Host.Outcome State Fault Refusal :=
  run fun s => if (s.port p).framer.frmPend && s.idleOrOff p then s.applyFrm p else s

/-- RX_CONFIG_APPLY (R74). -/
def execRxConfigApply (p : PortNum) : State → Host.Outcome State Fault Refusal :=
  run fun s => if (s.port p).chain.pend && s.idleOrOff p then s.applyRx p else s

/-- AGC_WINDOW_END (R76): `peak` in 0.25 dBFS. -/
def execAgcWindowEnd (p : PortNum) (peak : Int) : State → Host.Outcome State Fault Refusal :=
  run fun s => s.agcWindow p peak

/-- ADC_OVERLOAD (R78). -/
def execAdcOverload (p : PortNum) : State → Host.Outcome State Fault Refusal :=
  run fun s =>
    if s.rxRuns p then
      let busy := ((s.port p).framer.win.map (·.start.isSome)).getD false || (s.port p).framer.stray
      (s.pset p RXCTL.OVL 1).modPort p fun q => { q with chain := { q.chain with clipped := q.chain.clipped || busy } }
    else s

/-- DC_ACQ_END (R84): a frozen blocker resumes its acquisition later. -/
def execDcAcqEnd (p : PortNum) : State → Host.Outcome State Fault Refusal :=
  run fun s => if s.dcFrozen p then s else s.pset p DCBLK.ACQ 0

/-- NOISE_WINDOW_END (R92, R93): `result` in 0.25 dBFS referred to the RX pins; `quiet` that every sample of the window
met R92. -/
def execNoiseWindowEnd (p : PortNum) (result : Int) (quiet : Bool) : State → Host.Outcome State Fault Refusal :=
  run fun s =>
    if quiet && s.rxRuns p && s.idlePoint p && !s.dcFrozen p && !(s.pon p DCBLK.ACQ) then s.noiseResult p result else s

/-- NOISE_RESTART (R94). -/
def execNoiseRestart (p : PortNum) : State → Host.Outcome State Fault Refusal :=
  run fun s => if s.portOn p then s.noiseReset p else s

/-- FRAME_GRANT (R225). -/
def execFrameGrant (p : PortNum) : State → Host.Outcome State Fault Refusal := run fun s => s.grant p

/-- HOLD_OVERRIDE (R226). -/
def execHoldOverride (p : PortNum) : State → Host.Outcome State Fault Refusal := run fun s => s.holdOver p

/-- FRAME_SEND_END (R109). -/
def execFrameSendEnd (p : PortNum) : State → Host.Outcome State Fault Refusal :=
  run fun s =>
    match (s.port p).framer.tx with
    | some t => s.openWindow p t
    | none => s

/-- REPLY_START (R109): `t` in fc cycles after the end of the sent frame, or of the extension frame. -/
def execReplyStart (p : PortNum) (t : Nat) : State → Host.Outcome State Fault Refusal := run fun s => s.replyStart p t

/-- FRAME_RECEIVE_END (R123). -/
def execFrameReceiveEnd (p : PortNum) (rx : RxFrame) : State → Host.Outcome State Fault Refusal :=
  run fun s => ((s.receiveEnd p rx).framerAdvance p).idleWork p

/-- RESPONSE_TIMEOUT (R109). -/
def execResponseTimeout (p : PortNum) : State → Host.Outcome State Fault Refusal :=
  run fun s => ((s.waitOver p).framerAdvance p).idleWork p

/-- WAIT_LIMIT_EXPIRY (R115). -/
def execWaitLimitExpiry (p : PortNum) : State → Host.Outcome State Fault Refusal :=
  run fun s => ((s.waitLimit p).framerAdvance p).idleWork p

/-- GUARD_END (R112): a reservation that no phase request follows ends with it. -/
def execGuardEnd (p : PortNum) : State → Host.Outcome State Fault Refusal :=
  run fun s =>
    if (s.port p).framer.guard then
      s.modFramer p fun f => { f with guard := false, reserved := f.reserved && 0 < f.rapidN }
    else s

/-- SECOND_WINDOW_OPEN (R152). -/
def execSecondWindowOpen (p : PortNum) : State → Host.Outcome State Fault Refusal :=
  run fun s => s.modFramer p fun f =>
    { f with win := f.win.map fun w => if w.second then { w with opened := true } else w }

/-- FRMSTAT_XSTART (R115). -/
def execFrmstatXstart (p : PortNum) : State → Host.Outcome State Fault Refusal :=
  run fun s => s.modFramer p fun f => { f with waitSum := 0 }

/-- FRMSTAT_VREP_P (R129). -/
def execFrmstatVrepP (p : PortNum) : State → Host.Outcome State Fault Refusal :=
  run fun s => if s.portOn p then s.violation p 6 else s

/-- FRMSTAT_VREP_X (R129). -/
def execFrmstatVrepX (p : PortNum) : State → Host.Outcome State Fault Refusal :=
  run fun s => if s.portOn p then s.violation p 7 else s

/-- VIOLCNT_READ (R131): a read of either register; the row reads both. -/
def execViolcntRead (p : PortNum) : State → Host.Outcome State Fault Refusal :=
  run fun s => ((s.violRead p VIOLCNT.reg).2.violRead p VIOLCNT1.reg).2

/-- SCHCNT_READ (R220). -/
def execSchcntRead (p : PortNum) : State → Host.Outcome State Fault Refusal := run fun s => (s.schRead p).2

end Sys2Proof.Machine
end

