-- ==== Sys2Proof/Machine/Coord.lean ====
section
/-! DEFINITION. The coordination block: the coupling matrix, the trims and the Hearth groups (R210-R228, R296) and
their rows. -/

namespace Sys2Proof.Machine

/-! ## The coupling matrix (R210-R212) -/

/-- The 64 entries of a register file that holds CPLM, in ascending offset order. -/
def matrixWords (c : Cells) : List Word := (List.range 64).map fun i => Cells.word .coord c (CPLM.reg + 4 * i)

/-- The CRC of R210 over the 256 bytes of 64 entries. -/
def matrixCrc (c : Cells) : Half := CrcKind.crcO.of (wordsBytes (matrixWords c))

/-- The registers that hold a matrix alone. -/
def matrixOnly (c : Cells) : Cells :=
  (List.range 64).foldl (fun m i =>
    Cells.put .coord m (CPLM.reg + 4 * i) (Cells.word .coord c (CPLM.reg + 4 * i))) []

/-- COMMIT (R210): the staged copy becomes the matrix in force when its CRC is right; each receiver takes it at its
next idle point (R211). -/
def State.cplCommit (s : State) : State :=
  if (matrixCrc s.coord.regs).toNat = s.coordGet CPLCTL.CRC then
    ({ s with coord := { s.coord with
        matrix := matrixOnly s.coord.regs, crc := matrixCrc s.coord.regs
        cplPend := [0, 1, 2, 3, 4, 5, 6, 7] } }).coordSet CPLCTL.VALID 1
  else s.coordSet CPLCTL.CHECKFAIL 1

/-- The background check (R212). -/
def State.cplCheck (s : State) : State :=
  let found := matrixCrc s.coord.matrix
  if s.coordGet CPLCTL.VALID = 1 ∧ found ≠ s.coord.crc then
    let d := leBytes 2 s.coord.crc.toNat ++ leBytes 2 found.toNat
    (((s.coordSet CPLCTL.VALID 0).coordSet CPLCTL.CHECKFAIL 1).ash 0x0062 0x0F d).raiseDev 0x0780 d
  else s

/-! ## Trims (R218, R219) -/

/-- The sources of a block whose adaptation runs: the port's own number has no trim, and a source under CAL_RUN is
suspended (R217, R296). -/
def State.adapts (s : State) (p : PortNum) (j : Nat) : Bool := j ≠ p.val && !s.coord.suspended.contains j

/-- A block of 4,096 qualifying samples ends (R218, R219): the trims it left, the clamped ones, DEPTH. -/
def State.depthBlock (s : State) (p : PortNum) (sumL sumR : Nat) (trims : List Word) (clamped : Nat) : State :=
  let live := [0, 1, 2, 3, 4, 5, 6, 7].filter fun j => s.adapts p j
  let depth := if sumR = 0 then 60 else min 60 (floorDb sumL sumR)
  let lim := live.foldl (fun a j => if nbit clamped j then a ||| 2 ^ j else a) (s.pget p LKSTAT.LIMIT)
  let s := s.modPort p fun q =>
    live.foldl (fun q j => q.putWord (LKCOEF.reg + 4 * j) (trims.getD j (q.word (LKCOEF.reg + 4 * j)))) q
  (s.pset p LKSTAT.DEPTH depth).pset p LKSTAT.LIMIT lim

/-! ## Groups (R220-R222, R228) -/

/-- The members of a group that its next schedule holds: counted there under R220 and in service (R228). -/
def State.wanted (s : State) (g : Nat) : List PortNum :=
  allPorts.filter fun p => s.groupOf p = some g && (s.port p).svc.svc == .opened && (s.port p).svc.ready

/-- A set of ports as a mask. -/
def portMask (l : List PortNum) : Nat := l.foldl (fun a p => a ||| 2 ^ p.val) 0

/-- A phase set by the coordination block (R222): applied later under R39. -/
def State.stagger (s : State) (p : PortNum) (v : Nat) : State :=
  let s := (s.pset p TXPHASE.COORD 1).pset p TXPHASE.PHASE v
  s.pset p TXPHASE.PENDING (bit (s.pget p TXPHASE.PHASE != s.pget p TXPHASE.APPLIED))

/-- The members' phases in ascending port order (R222). -/
def State.staggerFrom (base step : Nat) : Nat → List PortNum → State → State
  | _, [], s => s
  | m, p :: r, s => State.staggerFrom base step (m + 1) r (s.stagger p ((base + m * step) % 256))

/-- Whether another group's schedule holds a port. -/
def State.inOther (s : State) (g : Nat) (p : PortNum) : Bool :=
  [0, 1, 2, 3].any fun h => h ≠ g && nbit (s.coord.active.getD h 0) p.val

/-- A group boundary (R221, R222): changes take effect, members are renumbered and staggered; a port that leaves
has COORD cleared and keeps its PHASE. -/
def State.groupBoundary (s : State) (g : Nat) : State :=
  let old := allPorts.filter fun p => nbit (s.coord.active.getD g 0) p.val
  let new := s.wanted g
  let s : State := { s with coord := { s.coord with
    active := s.coord.active.set g (portMask new), change := s.coord.change.set g false } }
  let gone := (old.filter fun p => !new.contains p) ++
    (if s.coordGet (GRPCFG.STAGGER.nth g 16) = 1 then [] else new)
  let s := gone.foldl (fun t p => if t.inOther g p then t else t.pset p TXPHASE.COORD 0) s
  if s.coordGet (GRPCFG.STAGGER.nth g 16) = 1 then
    State.staggerFrom (s.coordGet (GRPCFG.BASE.nth g 16)) (s.coordGet (GRPCFG.STEP.nth g 16)) 0 new s
  else s

/-- A change of a group waits for its next boundary; a group with no active member takes it at once (R221). -/
def State.groupChange (s : State) (g : Nat) : State :=
  let s := { s with coord := { s.coord with change := s.coord.change.set g true } }
  if s.coord.active.getD g 0 = 0 then s.groupBoundary g else s

/-- A port has left service or come back to it: its group's schedule changes (R228). -/
def State.schedChange (s : State) (p : PortNum) : State :=
  match s.groupOf p with
  | some g => s.groupChange g
  | none => s

/-- GRPSTAT as read. -/
def State.grpStat (s : State) (g : Nat) : Word :=
  let act := s.coord.active.getD g 0
  let held := portMask (allPorts.filter fun p => nbit act p.val && (s.port p).framer.held)
  wset (wset (wset 0 0 8 act) 8 8 held) 16 1 (bit (s.coord.change.getD g false))

/-! ## Rows -/

/-- CPL_COMMIT (R210). -/
def execCplCommit : State → Host.Outcome State Fault Refusal := run fun s => s.cplCommit

/-- CPL_APPLY (R211). -/
def execCplApply (p : PortNum) : State → Host.Outcome State Fault Refusal :=
  run fun s =>
    if s.idleOrOff p then { s with coord := { s.coord with cplPend := s.coord.cplPend.filter (· ≠ p.val) } } else s

/-- CPL_CHECK (R212). -/
def execCplCheck : State → Host.Outcome State Fault Refusal := run fun s => s.cplCheck

/-- LK_DEPTH_BLOCK (R219): the two sums of the block, the trims as the adaptation left them, the clamped ones. -/
def execLkDepthBlock (p : PortNum) (sumL sumR : Nat) (trims : List Word) (clamped : Byte) :
    State → Host.Outcome State Fault Refusal :=
  run fun s => if s.pon p LKCTL.ADAPT then s.depthBlock p sumL sumR trims clamped.toNat else s

/-- ADAPT_RESUME (R296). -/
def execAdaptResume (p : PortNum) : State → Host.Outcome State Fault Refusal :=
  run fun s => { s with coord := { s.coord with suspended := s.coord.suspended.filter (· ≠ p.val) } }

/-- GROUP_BOUNDARY (R221). -/
def execGroupBoundary (g : Fin 4) : State → Host.Outcome State Fault Refusal := run fun s => s.groupBoundary g.val

end Sys2Proof.Machine
end

