-- ==== Sys2Proof/Machine/Calib.lean ====
section
/-! DEFINITION. The calibration controller: sensor samples, cross-checks, CAL_RUN and CAL_COUPLING (R213-R216,
R278-R297) and their rows. -/

namespace Sys2Proof.Machine

/-! ## Cross-check (R287) -/

/-- A cross-check's result; `dev` in 0.01 dB. -/
def State.crossCheck (s : State) (p : PortNum) (dev : Int) : State :=
  let d := unsigned 16 (clampInt (-32768) 32767 dev)
  let s := (s.calSet (ADCX.DEV.nth p.val) d).calSet (ADCX.VALID.nth p.val) 1
  let s := s.calSet (ADCX.CHECKS.nth p.val) (min 255 (s.calGet (ADCX.CHECKS.nth p.val) + 1))
  if dev < -50 ∨ 50 < dev then
    ((s.calSet (ADCX.FAIL.nth p.val) 1).ash 0x0071 p.val (leBytes 2 d)).raiseOwner p.val 0x0782
      ([BitVec.ofNat 8 p.val, 0] ++ leBytes 2 d)
  else s

/-! ## Levels of mapped antennas (R295) -/

/-- The tenth power of an antenna's level at the RX pins, on a scale in which full scale is 2^200: a mean magnitude
at the ADC in 2^-20 of full scale and the Damper's ATTEN, 2 dB a step. -/
def levelKey (mag atten : Nat) : Nat := mag ^ 10 * 10 ^ atten

/-- The level in 0.25 dB nearest to a key; -1,024 at or below the foot of the scale. -/
def levelQdb (key : Nat) : Int :=
  let n := bitSearch (fun m => 10 ^ (2 * m) * 2 ^ 3200 ≤ 10 ^ 2049 * key ^ 16) 11 0
  (n : Int) - 1024

/-- More than 6.0 dB below the median. -/
def levelWeak (key median : Nat) : Bool := key * 1000 < median

/-- floor(1024 x vmin / v), at most 1,024. -/
def mapOf (key keyMin : Nat) : Nat := min 1024 (bitSearch (fun m => m ^ 10 * key ≤ 1024 ^ 10 * keyMin) 10 0)

/-- The amplitude map entry of an antenna replaced (AMPMAP). -/
def State.setMap (s : State) (p : PortNum) (ant v : Nat) : State :=
  s.calSet { off := AMPMAP.MAPA.off + 0x80 * p.val + 4 * (ant / 2),
             lo := if ant % 2 = 0 then AMPMAP.MAPA.lo else AMPMAP.MAPB.lo, len := 11 } v

/-- The results of the map step: antenna, WEAK, key, new entry. An antenna without any level divides by zero: its
entry is a free number. -/
def mapResults (l : List (Nat × Nat)) (s : State) : List (Nat × Bool × Nat × Nat) × State :=
  let med := (median (l.map fun x => (x.2 : Int))).toNat
  let strong := (l.filter fun x => !levelWeak x.2 med).map (·.2)
  let low := strong.foldl min (strong.headD 0)
  l.foldr (fun x (acc : List (Nat × Bool × Nat × Nat) × State) =>
    if levelWeak x.2 med then ((x.1, true, x.2, 1024) :: acc.1, acc.2)
    else if x.2 = 0 then
      let (v, t) := acc.2.drawNat 1025
      ((x.1, false, x.2, v) :: acc.1, t)
    else ((x.1, false, x.2, mapOf x.2 low) :: acc.1, acc.2)) ([], s)

/-! ## CAL_RUN (R292-R297) -/

/-- The antennas of a mask in ascending order. -/
def maskAnts (m : Nat) : List Nat := (List.range 64).filter fun i => nbit m i

/-- The port selects an antenna with its USER bits kept, and asks for its field at the level of the run with its map
at 1,024 (R293). -/
def State.calDrive (s : State) (p : PortNum) (ant level : Nat) : State :=
  let s := (s.fieldDown p).grateWrite p (wset (s.port p).grate.reg 0 6 ant)
  (s.modPort p fun q => { q with field := { q.field with calLevel := some level } }).writeFieldEn p true

/-- STALE (R293). -/
def State.calStale (s : State) (p : PortNum) : Bool :=
  s.calGet (TUNE.ATCPL_VALID.nth p.val) = 1 &&
    2 < ((s.calGet (TUNE.APPLIED.nth p.val) : Int) - (s.calGet (TUNE.ATCPL.nth p.val) : Int)).natAbs

/-- The response of CAL_RUN (R293, R383). PHASE without a tune step is a free number. -/
def State.calFinish (s : State) (p : PortNum) (c : CalRun) : State :=
  let (ph, s) := if c.capNow = 64 then (unsigned 16 c.bestPhase, s) else s.drawNat 65536
  let (res, s) := mapResults (if c.todo.isEmpty then c.levels else []) s
  let ants := res.flatMap fun r =>
    [BitVec.ofNat 8 r.1, BitVec.ofNat 8 (bit r.2.1)] ++ leBytes 2 (unsigned 16 (levelQdb r.2.2.1)) ++ leBytes 2 r.2.2.2
  let pl := [BitVec.ofNat 8 (s.calGet (TUNE.CAP.nth p.val)), BitVec.ofNat 8 res.length] ++ leBytes 2 ph
    ++ leBytes 2 (s.calGet (ADCX.DEV.nth p.val))
    ++ [BitVec.ofNat 8 (bit (s.calStale p) + 2 * s.calGet (ADCX.FAIL.nth p.val)), 0] ++ ants
  let s := res.foldl (fun t r => t.setMap p r.1 r.2.2.2) s
  (s.endJob (fun r => match r.job with | .calRun q _ => q = p | _ => false) St.OK pl).calOver p

/-- The job of a CAL_RUN replaced. -/
def State.calGoOn (s : State) (p : PortNum) (c : CalRun) : State :=
  { s with running := replaceJob (fun r => match r.job with | .calRun q _ => q = p | _ => false) (.calRun p c) s.running }

/-- The next unfinished step begins: cross-check (bit 2), tune (bit 0), map (bit 1), noise restart (bit 3); with none
left the command ends (R293, R296). -/
def State.calNext (s : State) (p : PortNum) (c : CalRun) : State :=
  if nbit c.steps 2 then (s.fieldDown p).calGoOn p c
  else if nbit c.steps 0 then
    let s := { s with coord := { s.coord with
      suspended := p.val :: s.coord.suspended.filter (· ≠ p.val) } }
    (s.calDrive p c.refAnt c.level).calGoOn p c
  else if nbit c.steps 1 then
    match c.todo with
    | a :: _ => (s.calDrive p a c.level).calGoOn p c
    | [] => s.calGoOn p c
  else
    let s := if nbit c.steps 3 then s.noiseReset p else s
    (s.fieldDown p).calFinish p c

/-- A tuning step ends (R294): ties go to the lower CAP. -/
def CalRun.tuned (c : CalRun) (phase : Int) : CalRun :=
  let better := c.capNow = 0 || phase.natAbs < c.bestPhase.natAbs
  { c with
    capNow := c.capNow + 1
    bestCap := if better then c.capNow else c.bestCap
    bestPhase := if better then phase else c.bestPhase }

/-- A measurement of CAL_RUN ends (R293-R295). -/
def State.calMeasured (s : State) (p : PortNum) (c : CalRun) (m : CalMeasure) : State :=
  match m with
  | .crossCheck dev =>
    if nbit c.steps 2 ∧ s.fieldState p = 0 then (s.crossCheck p dev).calNext p { c with steps := c.steps &&& 0xB } else s
  | .tuneStep phase =>
    if nbit c.steps 2 = false ∧ nbit c.steps 0 ∧ s.idlePoint p then
      let c := c.tuned phase
      if c.capNow = 64 then
        let s := (s.calSet (TUNE.CAP.nth p.val) c.bestCap).calSet (TUNE.APPLIED.nth p.val) c.bestCap
        (s.fieldDown p).calNext p { c with steps := c.steps &&& 0xA }
      else s.calGoOn p c
    else s
  | .antenna mag =>
    if nbit c.steps 2 = false ∧ nbit c.steps 0 = false ∧ nbit c.steps 1 ∧ s.idlePoint p then
      match c.todo with
      | a :: r =>
        let c := { c with todo := r, levels := c.levels ++ [(a, levelKey mag (s.pget p DAMPER.ATTEN))] }
        let s := s.fieldDown p
        if r.isEmpty then s.calNext p { c with steps := c.steps &&& 0x8 } else s.calNext p c
      | [] => s
    else s

/-- CAL_RUN begins: its domain is recalibrated whatever DT (R293), then the first step. -/
def State.calBegin (s : State) (p : PortNum) (cmd : Cmd) (c : CalRun) : State :=
  let s := s.recalDue (domainOf p.val) (s.pget p TXMON.TJ)
  ((s.begin cmd (.calRun p c)).calStat).calNext p c

/-! ## CAL_COUPLING (R213-R216) -/

/-- cos(k x 1.40625 degrees) x 2^30 for k = 0 to 64. -/
def cosTable : List Int := [
   1073741824, 1073418433, 1072448455, 1070832474, 1068571464, 1065666786,
   1062120190, 1057933813, 1053110176, 1047652185, 1041563127, 1034846671,
   1027506862, 1019548121, 1010975242, 1001793390, 992008094, 981625251,
   970651112, 959092290, 946955747, 934248793, 920979082, 907154608,
   892783698, 877875009, 862437520, 846480531, 830013654, 813046808,
   795590213, 777654384, 759250125, 740388522, 721080937, 701339000,
   681174602, 660599890, 639627258, 618269338, 596538995, 574449320,
   552013618, 529245404, 506158392, 482766489, 459083786, 435124548,
   410903207, 386434353, 361732726, 336813204, 311690799, 286380643,
   260897982, 235258165, 209476638, 183568930, 157550647, 131437462,
   105245103, 78989349, 52686014, 26350943, 0]

/-- cos of an angle of `k` steps of 1.40625 degrees, x 2^30. -/
def cos256 (k : Nat) : Int :=
  let k := k % 256
  if k ≤ 64 then cosTable.getD k 0
  else if k ≤ 128 then -(cosTable.getD (128 - k) 0)
  else if k ≤ 192 then -(cosTable.getD (k - 128) 0)
  else cosTable.getD (256 - k) 0

/-- sin of an angle of `k` steps of 1.40625 degrees, x 2^30. -/
def sin256 (k : Nat) : Int := cos256 (k + 192)

/-- 10^(ATTEN/10) x 2^20: the Damper's 2 dB a step undone (R215). -/
def dampGain (atten : Nat) : Nat := rootOf 10 (10 ^ atten * 2 ^ 200)

/-- The stored entry of R215 from a raw coupling in 2^-20, and whether it saturated. A magnitude of 8.0 or more is
stored as 0 and counted, one below 2^-12 is stored as 0; both tests are exact. `phase` is phi_j - phi_i. -/
def couplingEntry (m : Int × Int) (atten leff phase : Nat) : Word × Bool :=
  let mag := (m.1 * m.1 + m.2 * m.2).toNat * 1023 ^ 2
  if (64 * leff ^ 2 * 2 ^ 40) ^ 5 ≤ mag ^ 5 * 10 ^ atten ∧ mag ≠ 0 then (0, true)
  else if mag ^ 5 * 10 ^ atten < (leff ^ 2 * 2 ^ 16) ^ 5 ∨ mag = 0 then (0, false)
  else
    let c := cos256 phase
    let s := sin256 phase
    let g := (dampGain atten : Int) * 1023
    let den := (leff : Int) * 2 ^ 58
    let re := clampInt (-32768) 32767 (divRound ((m.1 * c + m.2 * s) * g) den)
    let im := clampInt (-32768) 32767 (divRound ((m.2 * c - m.1 * s) * g) den)
    (BitVec.ofNat 32 (unsigned 16 re + 65536 * unsigned 16 im), false)

/-- The job of the CAL_COUPLING in progress replaced. -/
def State.cplGoOn (s : State) (c : CalCpl) : State :=
  { s with running := replaceJob (fun r => match r.job with | .coupling _ => true | _ => false) (.coupling c) s.running }

/-- The CAL_COUPLING in progress. -/
def State.cplRun (s : State) : Option CalCpl :=
  match s.findJob fun r => match r.job with | .coupling _ => true | _ => false with
  | some r => match r.job with | .coupling c => some c | _ => none
  | none => none

/-- CAL_COUPLING begins: every set port writes GRATE with its reference antenna and its USER bits, and asks for its
field, held under R41 (R214). -/
def State.cplBegin (s : State) (cmd : Cmd) (set : List Nat) (ants : List Nat) : State :=
  let s := set.foldl (fun (t : State) n =>
    let p := toPort n
    let t := (t.fieldDown p).grateWrite p (wset (t.port p).grate.reg 0 6 (ants.getD n 0))
    t.writeFieldEn p true) s
  s.begin cmd (.coupling { set, left := set, repeats := 0, frozen := false, entries := [], sat := 0, edges := [] })

/-- The strongest of the sources that a receiver measured, its own left out: (strength, edge). -/
def strongest (i : Nat) (l : List (Nat × Nat × Nat)) : Option (Nat × Nat) :=
  (l.filter (·.1 = i)).foldl (fun acc x =>
    match acc with
    | none => some x.2
    | some b => if b.1 < x.2.1 then some x.2 else acc) none

/-- LKCTL.DELAY of a receiver (R215); an edge beyond its 5 bits leaves a free number. -/
def State.setDelay (s : State) (i : Nat) (c : CalCpl) : State :=
  match strongest i c.edges with
  | none => s
  | some x =>
    if x.2 < 32 then s.pset (toPort i) LKCTL.DELAY x.2
    else
      let (v, s) := s.drawNat 32
      s.pset (toPort i) LKCTL.DELAY v

/-- The measurement is stored (R214, R215): fields off, the staged copy filled, its CRC written, COMMIT. -/
def State.cplStore (s : State) (c : CalCpl) : State :=
  let s := (c.set.map toPort).foldl State.fieldDown s
  let s := s.reloadMatrix
  let regs := c.entries.foldl (fun m e => Cells.put .coord m (CPLM.reg + 4 * e.1) e.2) s.coord.regs
  let s : State := { s with coord := { s.coord with regs } }
  let s := (s.coordSet CPLCTL.SAT c.sat).coordSet CPLCTL.CRC (matrixCrc s.coord.regs).toNat
  let s := s.cplCommit
  let s := c.set.foldl (fun (t : State) i => t.setDelay i c) s
  let s := c.set.foldl (fun (t : State) i =>
    let t := t.modPort (toPort i) fun q =>
      (List.range 8).foldl (fun q j => q.putWord (LKCOEF.reg + 4 * j) (resetWord .port (LKCOEF.reg + 4 * j))) q
    (t.calSet (TUNE.ATCPL.nth i) (t.calGet (TUNE.APPLIED.nth i))).calSet (TUNE.ATCPL_VALID.nth i) 1) s
  let delays := (List.range 8).map fun i =>
    BitVec.ofNat 8 (if c.set.contains i then s.pget (toPort i) LKCTL.DELAY else 0xFF)
  let pl := [BitVec.ofNat 8 (s.coordGet CPLCTL.VALID), BitVec.ofNat 8 (s.coordGet CPLCTL.SAT)]
    ++ leBytes 2 (s.coordGet CPLCTL.CRC) ++ delays
  s.endJob (fun r => match r.job with | .coupling _ => true | _ => false) St.OK pl

/-- A source's time ends with every set receiver's raw coupling and step edge (R214, R215). -/
def State.cplSource (s : State) (c : CalCpl) (m : List (Int × Int)) (edge : List Nat) : State :=
  match c.left with
  | [] => s
  | j :: r =>
    let got := c.set.map fun i =>
      let raw := m.getD i (0, 0)
      let e := couplingEntry raw (s.pget (toPort i) DAMPER.ATTEN) (s.port (toPort j)).field.leff
        ((s.pget (toPort j) TXPHASE.APPLIED + 256 - s.pget (toPort i) TXPHASE.APPLIED) % 256)
      (i, raw, e)
    let c := { c with
      left := r, repeats := 0
      entries := c.entries ++ got.map fun g => (8 * g.1 + j, g.2.2.1)
      sat := min 255 (c.sat + (got.filter fun g => g.2.2.2).length)
      edges := c.edges ++ (got.filter fun g => g.1 ≠ j).map fun g =>
        (g.1, (g.2.1.1 * g.2.1.1 + g.2.1.2 * g.2.1.2).toNat, edge.getD g.1 0) }
    if r.isEmpty then s.cplStore c else s.cplGoOn c

/-- A timed interval of CAL_COUPLING ends (R214, R216). -/
def State.cplInterval (s : State) (c : CalCpl) (m : CouplingMeasure) : State :=
  let up := c.set.all fun n => s.fieldState (toPort n) == 2
  match m with
  | .freeze => if up && !c.frozen then s.cplGoOn { c with frozen := true } else s
  | .source v e => if up && c.frozen then s.cplSource c v e else s
  | .disturbed =>
    if up && c.frozen then
      if c.repeats < 8 then s.cplGoOn { c with repeats := c.repeats + 1 } else s.stopCoupling St.TIMEOUT
    else s

/-! ## Rows -/

/-- THERM_SAMPLE (R63, R70, R283): `dom` 0-3 is D4-D7 with its VTX rail, 4 is D8. -/
def execThermSample (dom : Fin 5) (tj : BitVec 9) (vtx : BitVec 10) : State → Host.Outcome State Fault Refusal :=
  run fun s =>
    let on := s.livePorts dom.val
    if on.isEmpty then s
    else
      let s := if dom.val = 4 then s else on.foldl (fun (t : State) n => t.thermPort (toPort n) tj.toNat vtx.toNat) s
      s.recalTrigger dom.val tj.toNat

/-- XCHK_RUN (R287). -/
def execXchkRun (p : PortNum) (dev : Int) : State → Host.Outcome State Fault Refusal :=
  run fun s =>
    if s.xchkPend.contains p.val && s.fieldState p == 0 && s.portOn p then
      { s with xchkPend := s.xchkPend.filter (· ≠ p.val) }.crossCheck p dev
    else s

/-- RECAL_APPLY (R284): none is port T. -/
def execRecalApply (port : Option PortNum) : State → Host.Outcome State Fault Refusal :=
  run fun s =>
    match port with
    | some p => if s.idleOrOff p then s.takeTrims p.val else s
    | none => if s.takesNow 8 then s.takeTrims 8 else s

/-- CAL_MEASUREMENT_END (R294). -/
def execCalMeasurementEnd (p : PortNum) (m : CalMeasure) : State → Host.Outcome State Fault Refusal :=
  run fun s =>
    match s.findJob fun r => match r.job with | .calRun q _ => q = p | _ => false with
    | some r => match r.job with | .calRun _ c => s.calMeasured p c m | _ => s
    | none => s

/-- COUPLING_SOURCE_END (R214). -/
def execCouplingSourceEnd (m : CouplingMeasure) : State → Host.Outcome State Fault Refusal :=
  run fun s =>
    match s.cplRun with
    | some c => s.cplInterval c m
    | none => s

end Sys2Proof.Machine
end

