-- ==== Sys2Proof/Machine/Nvm.lean ====
section
/-! DEFINITION. Port T's NVM records: their keys, copies, selection and bytes, the areas, the counters and the
configuration, and T's registers as read (R155, R161, R256, R257, R270-R273, R380, R505, R506). -/

namespace Sys2Proof.Machine

/-! ## Records -/

/-- Keys of the records: blocks 0-1,023, then counters, areas and configuration items, 16 each. -/
def blockKey (b : Nat) : Nat := b
def counterKey (i : Nat) : Nat := 1024 + i
def areaKey (i : Nat) : Nat := 1040 + i
def itemKey (i : Nat) : Nat := 1056 + i

/-- KIND and INDEX of a record. -/
def kindOf (k : Nat) : Nat := if k < 1024 then 1 else if k < 1040 then 2 else if k < 1056 then 3 else 4
def indexOf (k : Nat) : Nat := if k < 1024 then k else (k - 1024) % 16

/-- The factory contents of a record (R257): blocks of zeros, counters at 0 with GUARD 0xFF, one area of 1,024
blocks with LIMIT 8, the factory configuration. -/
def nvFactory (k : Nat) : List Byte :=
  if k < 1024 then List.replicate 16 0
  else if k < 1040 then [0, 0, 0, 0, 0xFF] ++ List.replicate 11 0
  else if k = 1040 then [0, 0, 0, 4, 0, 8] ++ List.replicate 10 0
  else if k < 1056 then List.replicate 16 0
  else padTo 16 (factoryCfg.drop (16 * (k - 1056)))

/-- A record that has not been written since the factory; both copies carry SEQ 1 (log entry 24). -/
def nvDefault (k : Nat) : NvRec :=
  let c : NvCopy := { data := nvFactory k, seq := 1, locked := false, ok := true }
  ⟨c, c⟩

/-- A record. -/
def State.nvRec (s : State) (k : Nat) : NvRec := Sparse.get nvDefault s.xpdr.recs k

/-- The value of a counter's copy. -/
def NvCopy.value (c : NvCopy) : Nat := leAt c.data 0 4

/-- The copy that select() gives (R270): none where neither is valid. -/
def selectCopy (counter : Bool) (r : NvRec) : Option NvCopy :=
  if r.primary.ok && r.backup.ok then
    if counter && r.primary.value != r.backup.value then
      some (if r.backup.value < r.primary.value then r.primary else r.backup)
    else some (if r.backup.seq ≤ r.primary.seq then r.primary else r.backup)
  else if r.primary.ok then some r.primary
  else if r.backup.ok then some r.backup
  else none

/-- What a read of a record returns (R271); none for a record fault (R273). -/
def State.nvRead (s : State) (k : Nat) : Option NvCopy := selectCopy (kindOf k == 2) (s.nvRec k)

/-- What a record holds, and for a faulted one what was last written into its primary copy. -/
def State.nvData (s : State) (k : Nat) : List Byte :=
  match s.nvRead k with
  | some c => c.data
  | none => (s.nvRec k).primary.data

/-- The 32 bytes of a copy. -/
def NvCopy.bytes (c : NvCopy) (k copy : Nat) : List Byte :=
  if c.ok then
    let b := padTo 16 c.data ++ leBytes 4 c.seq ++ leBytes 2 (indexOf k) ++ [BitVec.ofNat 8 (kindOf k)]
      ++ leBytes 1 (bit c.locked) ++ List.replicate 6 0
    b ++ CrcKind.crcO.bytes b
  else (List.range 32).map (Config.tornByte k copy)

/-- A byte of T's NVM area from its start (R506). -/
def State.tAreaByte (s : State) (off : Nat) : Byte :=
  if off < 0x108C0 then
    let k := off / 64
    let r := s.nvRec k
    let copy := off % 64 / 32
    ((if copy = 0 then r.primary else r.backup).bytes k copy).getD (off % 32) 0
  else if 0x10C00 ≤ off ∧ off < 0x11400 then
    match s.xpdr.journal with
    | some (k, q) => Config.journalByte (k + 1) q (off - 0x10C00)
    | none => Config.journalByte 0 0 (off - 0x10C00)
  else 0

/-- A byte of the NVM array as Hearth reads it (R505). -/
def State.nvmByte (s : State) (off : Nat) : Byte :=
  if 0x3000 ≤ off ∧ off < 0x4000 then Config.testFloorByte off
  else if 0x4000 ≤ off ∧ off < 0x4800 then Config.certificate.getD (off - 0x4000) 0
  else if 0x5000 ≤ off ∧ off < 0x17000 then s.tAreaByte (off - 0x5000)
  else 0

/-! ## The configuration in force -/

/-- A byte of the configuration in force (R380). -/
def State.cfgByte (s : State) (i : Nat) : Nat := byteAt s.xpdr.cfg i

def State.tEn (s : State) : Bool := nbit (s.cfgByte 0) 0
def State.tAelyr (s : State) : Bool := nbit (s.cfgByte 0) 1
def State.tOsgil (s : State) : Bool := nbit (s.cfgByte 0) 2
def State.tDbEn (s : State) : Bool := nbit (s.cfgByte 0) 3
def State.tUid (s : State) : List Byte := padTo 8 (s.xpdr.cfg.drop 4)
def State.eoEn (s : State) : Bool := nbit (s.cfgByte 14) 0
def State.eoCntEn (s : State) : Bool := nbit (s.cfgByte 14) 1
def State.tGuard (s : State) (i : Nat) : Nat := s.cfgByte (20 + i)

/-- The configuration as committed, an item without a valid copy giving free bytes. -/
def State.readCfg (s : State) : List Byte :=
  ((List.range 3).flatMap fun i =>
    match s.nvRead (itemKey i) with
    | some c => padTo 16 c.data
    | none => (List.range 16).map (Config.tornByte (itemKey i) 2)).take 36

/-- The configuration record put in force (R256, R257). -/
def State.loadCfg (s : State) : State :=
  { s with xpdr := { s.xpdr with cfg := s.readCfg, cfgNext := false } }

/-! ## Areas -/

/-- The areas' records (R155): FIRST, BLOCKS, AFLAGS, LIMIT, FAILS, lockout, password. -/
def State.area (s : State) (i : Nat) : List Byte := s.nvData (areaKey i)
def areaFirst (d : List Byte) : Nat := leAt d 0 2
def areaBlocks (d : List Byte) : Nat := leAt d 2 2
def areaFlags (d : List Byte) : Nat := byteAt d 4
def areaLimit (d : List Byte) : Nat := byteAt d 5
def areaFails (d : List Byte) : Nat := byteAt d 6
def areaLocked (d : List Byte) : Bool := byteAt d 7 == 1
def areaPwd (d : List Byte) : List Byte := (d.drop 8).take 4

/-- An area's record written out. -/
def areaBytes (first blocks flags limit fails : Nat) (locked : Bool) (pwd : List Byte) : List Byte :=
  leBytes 2 first ++ leBytes 2 blocks ++ leBytes 1 flags ++ leBytes 1 limit ++ leBytes 1 fails
    ++ leBytes 1 (bit locked) ++ padTo 4 pwd ++ [0, 0, 0, 0]

/-- The number of areas: those before the first without blocks. -/
def State.areaCount (s : State) : Nat := ((List.range 16).takeWhile fun i => areaBlocks (s.area i) ≠ 0).length

/-- The area of a block. -/
def State.areaOf (s : State) (b : Nat) : Nat :=
  ((List.range s.areaCount).find? fun i => b < areaFirst (s.area i) + areaBlocks (s.area i)).getD 0

/-- Whether an area is open in this session. -/
def State.areaOpen (s : State) (i : Nat) : Bool := s.xpdr.opens.contains i

/-! ## T's registers as read (R257) -/

/-- The code of a state in XSTAT. -/
def TState.code : TState → Nat
  | .off => 0 | .idle => 1 | .ready => 2 | .active => 3 | .halted => 4 | .opened => 5 | .secured => 6

/-- A host commit of T in progress (XSTAT.COMMIT). -/
def State.tCommitting (s : State) : Bool := s.running.any fun r => r.job == .kiln && r.cmd.target == 8

/-- A register of T. The fields from the configuration, the protocol state and the waiting writes follow what T
holds. -/
def State.xWord (s : State) (off : Nat) : Word :=
  let w := Cells.word .xpdr s.xpdr.regs off
  let c := s.cfgByte
  if off = XCFG.reg then
    wset (wset (wset (wset (wset 0 0 4 (c 0)) 4 7 (c 1)) 11 7 (c 2)) 18 7 (c 3)) 25 1 (bit s.xpdr.cfgNext)
  else if off = XSTAT.reg then
    wset (wset (wset w 6 3 s.xpdr.st.code) 9 4 s.xpdr.deferred.length) 13 1 (bit s.tCommitting)
  else if off = XTX.reg then wset (wset 0 0 8 (c 12)) 8 8 (c 13)
  else if off = XEO.reg then
    wset (wset (wset (wset (wset (wset 0 0 1 (c 14)) 1 4 (c 15)) 5 1 (bit s.eoCntEn)) 6 4 (c 16)) 10 6 (c 17)) 16 8 (c 18)
  else w

end Sys2Proof.Machine
end

