-- ==== Sys2Proof/Machine/Access.lean ====
section
/-! DEFINITION. Register accesses of a reader port and of the supervisor's blocks by their access codes, with the
effects that the registers' rules give a read or a write (R11-R16, R20, R24, R31, R32, R57). -/

namespace Sys2Proof.Machine

/-! ## Access codes (R15) -/

/-- A register's word after a write of `w` by the access codes of its row. RWL bits take the write while the lock is
clear; W1S bits that hold their value are set. -/
def RegRow.write (r : RegRow) (locked : Bool) (old w : Word) : Word :=
  let m := if locked then r.rw else r.rw ||| r.rwl
  ((old &&& ~~~m) ||| (w &&& m)) &&& ~~~(w &&& r.w1c) ||| (w &&& r.w1s)

/-- A block's register file after a write; no register, no effect (R13). -/
def Cells.write (b : Block) (c : Cells) (off : Nat) (locked : Bool) (w : Word) : Cells :=
  match rowAt b off with
  | some r => Cells.put b c off (r.write locked (Cells.word b c off) w)
  | none => c

/-! ## A reader port -/

/-- The timer channel and the offset in it of a port offset (R458). -/
def tmrPlace (off : Nat) : Option (Fin 4 × Nat) :=
  if 0x400 ≤ off ∧ off < 0x500 then some (Fin.ofNat 4 ((off - 0x400) / 0x40), (off - 0x400) % 0x40) else none

/-- A port register as its rows hold it, with the bits that follow the port's state filled in. -/
def State.portWord (s : State) (p : PortNum) (off : Nat) : Word :=
  let q := s.port p
  let w := q.word off
  if off = GRATE.reg then q.grate.word
  else if off = GRSETTLE.reg then q.grate.settleReg
  else if off = RXCTL.reg then
    wset (wset w 17 1 (bit q.framer.rapidOn)) 18 1 (bit (q.chain.pend || q.framer.frmPend))
  else if off = DCBLK.reg then
    let fz := s.dcFrozen p
    wset (wset w 4 1 (bit fz)) 5 1 (bit (!fz && s.pon p DCBLK.ACQ))
  else if off = FRMSTAT.reg then
    let rx := ((q.framer.win.map (·.start.isSome)).getD false) || q.framer.stray
    let open_ := (q.framer.win.map (·.opened)).getD false
    wset (wset (wset (wset w 0 1 (bit q.framer.tx.isSome)) 1 1 (bit q.framer.guard)) 2 1 (bit open_)) 3 1 (bit rx)
  else if off = RX_STAT.reg then s.fifoStat p .rx
  else if off = TX_STAT.reg then s.fifoStat p .tx
  else if off = RX_PKTCNT.reg then s.fifoCount p .rx
  else if off = TX_PKTCNT.reg then s.fifoCount p .tx
  else if off = TX_DATA.reg then 0
  else if off = ENG_PC.reg then w &&& 0x7FFC
  else w

/-- A read of a port register by a side, with its effect (R13, R131, R403, R464). -/
def State.portRead (s : State) (p : PortNum) (side : Side) (off : Nat) : Word × State :=
  match tmrPlace off with
  | some (c, o) => s.tmrRead (.port p c) o
  | none =>
    if off = VIOLCNT.reg ∨ off = VIOLCNT1.reg then
      let (w, t) := s.violRead p off
      (w, t.modSvc p fun v =>
        { v with viol := if side = .hearth then
            (List.range 8).map fun i =>
              let k := if off = VIOLCNT.reg then i else i - 4
              if (off = VIOLCNT.reg ∧ i < 4) ∨ (off = VIOLCNT1.reg ∧ 4 ≤ i) then min 65535 (v.viol.getD i 0 + wget w (8 * k) 8)
              else v.viol.getD i 0
          else v.viol })
    else if off = RX_DATA.reg then s.rxDataRead p side
    else (s.portWord p off, s)

/-- A register of the port's own rows written by its access codes. -/
def State.portPlain (s : State) (p : PortNum) (off : Nat) (locked : Bool) (w : Word) : State :=
  s.modPort p fun q => { q with regs := Cells.write .port q.regs off locked w }

/-- Receive settings that wait for an idle point (R74). -/
def rxStaged (off : Nat) : Bool := stagedRegs.contains off

/-- A write of FRMSTAT: its W1C bits, then XSTART, VREP_P and VREP_X (R115, R129). -/
def State.frmstatWrite (s : State) (p : PortNum) (w : Word) : State :=
  let s := s.portPlain p FRMSTAT.reg false (w &&& ~~~0x1C00)
  let s := if wget w 10 1 = 1 then s.modFramer p fun f => { f with waitSum := 0 } else s
  let s := if wget w 11 1 = 1 then s.violation p 6 else s
  if wget w 12 1 = 1 then s.violation p 7 else s

/-- A write of TXCTL: RAMP, ANT_CHECK and RAPID_EN, which Kindling holds at 0 (R55), then FIELD_EN (R41). -/
def State.txctlWrite (s : State) (p : PortNum) (w : Word) : State :=
  let w' := if s.kindling then w &&& ~~~0x10 else w
  let s := s.modPort p fun q => q.putWord TXCTL.reg ((q.word TXCTL.reg &&& 1) ||| (w' &&& 0x1E))
  s.writeFieldEn p (wget w 0 1 == 1)

/-- A write of a doorbell or message register (R449, R450). -/
def State.bellWrite (s : State) (p : PortNum) (side : Side) (off : Nat) (w : Word) : State :=
  match side with
  | .hearth => if DBH_MSG.reg ≤ off then s else s.portPlain p off false w
  | .engine =>
    if DBH_MSG.reg ≤ off then
      if s.pget p DBH_RING.RING = 1 then s.modEng p fun e => { e with esw := e.esw ||| 0x400 }
      else s.portPlain p off false w
    else s

/-- A write of a port register by a side, with its effect. ENG_CTL and ENG_PC, which only Hearth writes, are left to
the engine's own operations. -/
def State.portWrite (s : State) (p : PortNum) (side : Side) (off : Nat) (w : Word) : State :=
  match tmrPlace off with
  | some (c, o) => s.tmrWrite (.port p c) o w
  | none =>
    if off = TXCTL.reg then s.txctlWrite p w
    else if off = TXAMP.reg then s.portPlain p off (s.pon p TXAMP.LOCK) w
    else if off = TXPHASE.reg then s.phaseWrite p (wget w 0 8)
    else if off = GRATE.reg then s.grateWrite p w
    else if off = GRSETTLE.reg then s.modPort p fun q => { q with grate := { q.grate with settleReg := w &&& 0xFF } }
    else if off = NOISE.reg then if wget w 13 1 = 1 then s.noiseReset p else s
    else if off = FRMCTL.reg then s.frmctlWrite p (w &&& 0x3FFFFF)
    else if off = FRMSTAT.reg then s.frmstatWrite p w
    else if off = RX_CTL.reg then s.fifoCtlWrite p .rx w
    else if off = TX_CTL.reg then s.fifoCtlWrite p .tx w
    else if off = TX_DATA.reg then s.txDataWrite p side w
    else if off = DBCTL.reg ∨ off = DBDLY.reg then s.portPlain p off (s.pon p DBCTL.LOCK) w
    else if off = ENG_CTL.reg ∨ off = ENG_PC.reg then s
    else if DBE_RING.reg ≤ off ∧ off < 0x860 then s.bellWrite p side off w
    else if rxStaged off then (s.portPlain p off false w).stageRx p
    else s.portPlain p off false w

/-! ## Places of the supervisor address map (R11, R31, R32) -/

/-- Where an address lies. `hole` is an offset of a region that holds nothing (R13). -/
inductive Place where
  | rom (off : Nat)
  | nvm (off : Nat)
  | sram (off : Nat)
  | spill (off : Nat)
  | table (off : Nat)
  | engCode (p : PortNum) (off : Nat)
  | engData (p : PortNum) (off : Nat)
  | port (p : PortNum) (off : Nat)
  | xpdr (off : Nat)
  | coord (off : Nat)
  | host (h : HostNum) (off : Nat)
  | pcr (off : Nat)
  | aon (off : Nat)
  | cal (off : Nat)
  | gtmr (c : Fin 8) (off : Nat)
  | kiln (off : Nat)
  | hole
  deriving DecidableEq, Repr

/-- The place of an address of the supervisor address map; none where no region lies (R31). -/
def placeOf (a : Nat) : Option Place :=
  let page := a / 0x10000
  let off := a % 0x10000
  if a < 0x10000 then some (.rom a)
  else if 0x08000000 ≤ a ∧ a < 0x08040000 then some (.nvm (a - 0x08000000))
  else if 0x20000000 ≤ a ∧ a < 0x20100000 then some (.sram a)
  else if 0x24000000 ≤ a ∧ a < 0x24080000 then some (.spill a)
  else if 0x28000000 ≤ a ∧ a < 0x28040000 then some (.table (a - 0x28000000))
  else if 0x3000 ≤ page ∧ page < 0x3008 then
    if off < 0x8000 then some (.engCode (toPort (page - 0x3000)) off)
    else if off < 0xA000 then some (.engData (toPort (page - 0x3000)) (off - 0x8000))
    else none
  else if 0x4000 ≤ page ∧ page < 0x4008 then some (.port (toPort (page - 0x4000)) off)
  else if page = 0x4008 then some (.xpdr off)
  else if page = 0x4010 then some (.coord off)
  else if page = 0x4020 then
    if off < 0x4000 then some (.host (Fin.ofNat 4 (off / 0x1000)) (off % 0x1000)) else some .hole
  else if page = 0x4030 then some (.pcr off)
  else if page = 0x4031 then some (.aon off)
  else if page = 0x4040 then some (.cal off)
  else if page = 0x4050 then
    if off < 0x200 then some (.gtmr (Fin.ofNat 8 (off / 0x40)) (off % 0x40)) else some .hole
  else if 0x50000000 ≤ a ∧ a < 0x50001000 then some (.kiln (a - 0x50000000))
  else none

/-- Whether the domain of a place is powered (R20); GRATE and GRSETTLE lie in D1 SUP (R57). -/
def State.placeOn (s : State) : Place → Bool
  | .engCode p _ | .engData p _ => s.portOn p
  | .port p off => s.portOn p || off == GRATE.reg || off == GRSETTLE.reg
  | .rom _ | .nvm _ | .sram _ | .spill _ | .table _ | .xpdr _ | .coord _ | .host _ _ | .pcr _ | .aon _ | .cal _
  | .gtmr _ _ | .kiln _ | .hole => true

/-! ## The host port registers -/

/-- Whether a response packet waits in the outbound stream (HPSTAT.RESPQ). -/
def HostPort.respWaits (h : HostPort) : Bool := h.out.any (!·.isEvent)

/-- HIRQ (R317): an enabled packet waits. -/
def HostPort.irq (h : HostPort) : Bool :=
  (h.get HPCFG.IRQ_RESP = 1 && h.respWaits) || (h.get HPCFG.IRQ_EVT = 1 && h.out.any (·.isEvent))

/-- Bytes of the inbound mailbox in use: packets not yet decided and the bytes of the packet being received. -/
def HostPort.inUse (h : HostPort) : Nat := h.part.length + (h.landed.map List.length).sum

/-- HPSTAT as read. -/
def HostPort.stat (h : HostPort) : Word :=
  let w := wset 0 0 14 (8192 - h.inUse)
  let w := wset (wset w 14 5 h.eventCount) 19 1 (bit h.respWaits)
  wset (wset (wset w 20 1 (bit (h.chains.any fun c => !c.expired))) 21 1 (bit h.awake)) 22 1 (bit h.irq)

/-! ## Reads -/

/-- KWSTAT as read: GLITCHES counts the events of the last 10 seconds, LOGQ the records that wait (R503, R535). -/
def State.kwstat (s : State) : Word :=
  let w := wset (Cells.word .kiln s.kiln.regs KWSTAT.reg) 16 5 (min 16 s.kiln.queue.length)
  wset w 8 4 (min 15 (s.kiln.glitchTimes.filter fun t => s.seconds < t + 10).length)

/-- TIMEBASE's halves, the wake compare staged, and the rest of the always-on block. -/
def State.aonWord (s : State) (off : Nat) : Word :=
  if off = 0x000 then BitVec.ofNat 32 s.dev.timebase
  else if off = 0x004 then BitVec.ofNat 32 (s.dev.timebase / 2 ^ 32)
  else Cells.word .aon s.aon off

/-- The 32 bytes of a tag-table entry; a free entry holds zeros. -/
def State.entryBytes (s : State) (i : Nat) : List Byte :=
  (Sparse.find s.table i).getD (List.replicate 32 0)

/-- A read of a place whose domain is powered, with its effect (R12, R13, R15). -/
def State.placeRead (s : State) (pl : Place) : Word × State :=
  match pl with
  | .rom off => (BitVec.ofNat 32 (fromLe ((List.range 4).map fun i => Config.romByte (off + i))), s)
  | .nvm off => (BitVec.ofNat 32 (fromLe ((List.range 4).map fun i => s.nvmByte (off + i))), s)
  | .sram a => (s.sram.word a, s)
  | .spill a => (s.spill.word a, s)
  | .table off => (wordAt (s.entryBytes (off / 32)) (off % 32), s)
  | .engCode p off => ((s.port p).eng.code.word off, s)
  | .engData p off => ((s.port p).eng.data.word off, s)
  | .port p off => s.portRead p .hearth off
  | .xpdr off => (s.xWord off, s)
  | .coord off =>
    if SCHCNT.reg ≤ off ∧ off < SCHCNT.reg + 0x20 then s.schRead (toPort ((off - SCHCNT.reg) / 4))
    else if off % 0x10 = 0xC ∧ off < 0x40 then (s.grpStat (off / 0x10), s)
    else (Cells.word .coord s.coord.regs off, s)
  | .host h off =>
    if off = HPSTAT.reg then ((s.host h).stat, s)
    else
      let w := Cells.word .host (s.host h).regs off
      if off = HPERR.reg then (w, s.modHost h fun x => { x with regs := Cells.put .host x.regs HPERR.reg 0 }) else (w, s)
  | .pcr off => if off = WDTKICK.reg then (0, s) else (Cells.word .pcr s.pcr off, s)
  | .aon off => (s.aonWord off, s)
  | .cal off => (Cells.word .cal s.cal off, s)
  | .gtmr c off => s.tmrRead (.global c) off
  | .kiln off => if off = KWSTAT.reg then (s.kwstat, s) else (0, s)
  | .hole => (0, s)

/-! ## Writes without a reset among their effects -/

/-- A group's membership or settings have been written: every group whose schedule now differs takes the change at
its next boundary (R220, R221). -/
def State.schedSync (s : State) (g : Nat) : State :=
  [0, 1, 2, 3].foldl (fun t h =>
    if h = g ∨ portMask (t.wanted h) ≠ t.coord.active.getD h 0 then t.groupChange h else t) s

/-- A write in the coordination block. -/
def State.coordWrite (s : State) (off : Nat) (w : Word) : State :=
  let put := fun t : State => { t with coord := { t.coord with regs := Cells.write .coord t.coord.regs off false w } }
  if off = CPLCTL.reg then
    let s := { s with coord := { s.coord with
      regs := Cells.write .coord s.coord.regs off false (w &&& ~~~2) } }
    if wget w 1 1 = 1 then s.cplCommit else s
  else if off < 0x40 ∧ off % 0x10 = 0 then (put s).schedSync (off / 0x10)
  else put s

/-- A write of CLKCTL (R486). -/
def State.clkctlWrite (s : State) (w : Word) : State :=
  let s := if wget w 5 1 = 1 then s.pcrSet CLKCTL.UNLOCK 0 else s
  let s := if wget w 0 1 = 1 then (if s.pllLocked then s.pcrSet CLKCTL.HSRC 1 else s) else s.pcrSet CLKCTL.HSRC 0
  let keep := (allPorts.any fun p => (s.port p).svc.svc == .opened) || s.pcrGet CLKCTL.HSRC == 1
  let s := if wget w 1 1 = 1 then s.pcrSet CLKCTL.PLL_EN 1 else if keep then s else s.pcrSet CLKCTL.PLL_EN 0
  if wget w 3 1 = 1 then s.pcrSet CLKCTL.XTAL_EN 1 else if keep then s else s.pcrSet CLKCTL.XTAL_EN 0

/-- A write in the always-on block. -/
def State.aonWrite (s : State) (off : Nat) (w : Word) : State :=
  let s : State := { s with aon := Cells.write .aon s.aon off false w }
  if off = WKCMP_HI.reg then
    { s with dev := { s.dev with wkcmp := w.toNat * 2 ^ 32 + s.aonGet WKCMP_LO.V } }
  else s

/-- A write in the calibration controller: a new CAP takes effect at once at an idle point or with the field off
(R290). -/
def State.calWrite (s : State) (off : Nat) (w : Word) : State :=
  let s : State := { s with cal := Cells.write .cal s.cal off false w }
  if TUNE.reg ≤ off ∧ off < TUNE.reg + 0x20 then s.idleWork (toPort ((off - TUNE.reg) / 4)) else s

/-- A tag-table entry's word written through the lookup unit. -/
def State.tableWrite (s : State) (off : Nat) (w : Word) : State :=
  let i := off / 32
  let b := s.entryBytes i
  let k := off % 32
  let b := b.take k ++ wordBytes w ++ b.drop (k + 4)
  { s with table := Sparse.put s.table i b }

end Sys2Proof.Machine
end

