-- ==== Sys2Proof/Machine/Flags.lean ====
section
/-! DEFINITION. The results and flags of the engine's arithmetic (R429, R431-R435). Operands are taken as exact
numbers and narrowed at the end. -/

namespace Sys2Proof.Machine

/-- A result with the flags it sets; a flag that is none keeps its value. -/
structure AluOut where
  value : Word
  z : Option Bool
  n : Option Bool
  c : Option Bool
  v : Option Bool
  deriving DecidableEq, Repr

/-- Z and N describe the 32-bit result (R431). -/
def AluOut.of (w : Word) (c v : Option Bool) : AluOut :=
  { value := w, z := some (w == 0), n := some (w.getLsbD 31), c, v }

/-- Addition with a carry in: C is the carry out of bit 31, V a signed result that does not fit (R431). -/
def addOut (a b : Word) (cin : Nat) : AluOut :=
  let full := a.toNat + b.toNat + cin
  let sfull := a.toInt + b.toInt + (cin : Int)
  let w := BitVec.ofNat 32 full
  .of w (some (decide (2 ^ 32 ≤ full))) (some (decide (w.toInt ≠ sfull)))

/-- Subtraction with a borrow in: C is 1 when no borrow occurs (R431). -/
def subOut (a b : Word) (bin : Nat) : AluOut :=
  let sfull := a.toInt - b.toInt - (bin : Int)
  let w := BitVec.ofNat 32 (a.toNat + 2 ^ 32 - b.toNat - bin)
  .of w (some (decide (b.toNat + bin ≤ a.toNat))) (some (decide (w.toInt ≠ sfull)))

/-- A logical result sets Z and N only (R429). -/
def logicOut (w : Word) : AluOut := .of w none none

/-- The three-register operations (R429). -/
def aluOut (op : AluOp) (a b : Word) (c : Bool) : AluOut :=
  match op with
  | .add => addOut a b 0
  | .adc => addOut a b (bit c)
  | .sub => subOut a b 0
  | .sbc => subOut a b (1 - bit c)
  | .and => logicOut (a &&& b)
  | .or => logicOut (a ||| b)
  | .xor => logicOut (a ^^^ b)
  | .mul => logicOut (a * b)
  | .mulhu => logicOut (BitVec.ofNat 32 (a.toNat * b.toNat / 2 ^ 32))
  | .mulhs => logicOut (BitVec.ofInt 32 (a.toInt * b.toInt / 2 ^ 32))

/-- The immediate operations (R429): ADDI and SUBI extend the sign, the logical ones extend with zeros. -/
def immOut (op : ImmOp) (a : Word) (v : BitVec 18) : AluOut :=
  match op with
  | .addi => addOut a (v.signExtend 32) 0
  | .subi => subOut a (v.signExtend 32) 0
  | .andi => logicOut (a &&& v.setWidth 32)
  | .ori => logicOut (a ||| v.setWidth 32)
  | .xori => logicOut (a ^^^ v.setWidth 32)

/-- The one-operand operations; MOV sets no flag (R429, R433). -/
def unOut (op : UnOp) (a : Word) : AluOut :=
  match op with
  | .neg => subOut 0 a 0
  | .not => logicOut (~~~a)
  | .mov => { value := a, z := none, n := none, c := none, v := none }

/-- CMP and TST (R429). -/
def cmpOut (op : CmpOp) (a b : Word) : AluOut :=
  match op with
  | .cmp => subOut a b 0
  | .tst => logicOut (a &&& b)

/-- The shifts of R435. -/
def shiftOut (op : ShOp) (a : Word) (k : Nat) : AluOut :=
  let msb := a.getLsbD 31
  match op with
  | .lsl =>
    .of (if k < 32 then a <<< k else 0)
      (if k = 0 then none else some (if k ≤ 32 then a.getLsbD (32 - k) else false)) none
  | .lsr =>
    .of (if k < 32 then a >>> k else 0)
      (if k = 0 then none else some (if k ≤ 32 then a.getLsbD (k - 1) else false)) none
  | .asr =>
    .of (if k < 32 then a.sshiftRight k else if msb then BitVec.allOnes 32 else 0)
      (if k = 0 then none else some (if k ≤ 32 then a.getLsbD (k - 1) else false)) none
  | .ror =>
    let w := a.rotateRight (k % 32)
    .of w (if k = 0 then none else some (w.getLsbD 31)) none

/-- A division's quotient, remainder, V and DZ (R434). -/
def divOut (isSigned : Bool) (a b : Word) : Word × Word × Bool × Bool :=
  if isSigned then
    if b = 0 then (if a.getLsbD 31 then 0x80000000 else 0x7FFFFFFF, a, false, true)
    else if a = 0x80000000 ∧ b = 0xFFFFFFFF then (0x80000000, 0, true, false)
    else (BitVec.ofInt 32 (a.toInt.tdiv b.toInt), BitVec.ofInt 32 (a.toInt.tmod b.toInt), false, false)
  else if b = 0 then (0xFFFFFFFF, a, false, true)
  else (BitVec.ofNat 32 (a.toNat / b.toNat), BitVec.ofNat 32 (a.toNat % b.toNat), false, false)

/-- The conditions of B by Z, N, C, V and DZ (R432). -/
def condHolds (cond : Nat) (z n c v dz : Bool) : Bool :=
  match cond with
  | 0 => true
  | 1 => z
  | 2 => c
  | 3 => n
  | 4 => v
  | 5 => c && !z
  | 6 => n == v
  | 7 => !z && n == v
  | 8 => dz
  | 9 => !z
  | 10 => !c
  | 11 => !n
  | 12 => !v
  | 13 => !c || z
  | 14 => n != v
  | _ => z || n != v

end Sys2Proof.Machine
end

