-- ==== Sys2Proof/Machine/Operands.lean ====
section
/-! DEFINITION. What an engine instruction reads and writes: general registers, ESW, bit variables, code and data
memory and the port window (R421-R425, R430). -/

namespace Sys2Proof.Machine

/-! ## Registers and ESW -/

def State.eng (s : State) (e : PortNum) : Engine := (s.port e).eng

/-- A general register. -/
def State.reg (s : State) (e : PortNum) (r : RegNum) : Word := (s.eng e).g.get r

/-- A general register replaced. -/
def State.setReg (s : State) (e : PortNum) (r : RegNum) (w : Word) : State :=
  s.modEng e fun x => { x with g := x.g.set r w }

/-- A stored bit of ESW. -/
def State.eswBit (s : State) (e : PortNum) (i : Nat) : Bool := (s.eng e).esw.getLsbD i

/-- A stored bit of ESW replaced. -/
def State.setEsw (s : State) (e : PortNum) (i : Nat) (b : Bool) : State :=
  s.modEng e fun x => { x with esw := wset x.esw i 1 (bit b) }

/-- A flag replaced, or kept. -/
def State.optFlag (s : State) (e : PortNum) (i : Nat) : Option Bool → State
  | some b => s.setEsw e i b
  | none => s

/-- The flags of a result: Z 0, N 1, C 2, V 3. -/
def State.setFlags (s : State) (e : PortNum) (o : AluOut) : State :=
  (((s.optFlag e 0 o.z).optFlag e 1 o.n).optFlag e 2 o.c).optFlag e 3 o.v

/-- The program counter: ENG_PC holds its low 15 bits. -/
def State.pc (s : State) (e : PortNum) : Word := (s.port e).word ENG_PC.reg

def State.setPc (s : State) (e : PortNum) (w : Word) : State := s.modPort e fun q => q.putWord ENG_PC.reg w

/-- ENG_STAT.STATE. -/
def State.engState (s : State) (e : PortNum) : Nat := s.pget e ENG_STAT.STATE

def State.setEngState (s : State) (e : PortNum) (v : Nat) : State := s.pset e ENG_STAT.STATE v

/-- The repetitions left, shown in ENG_RCNT (R439). -/
def State.setRep (s : State) (e : PortNum) (n : Nat) : State :=
  (s.modPort e fun q => q.putWord ENG_RCNT.reg (BitVec.ofNat 32 n)).modEng e fun x => { x with repLeft := n }

/-- Engine cycles spent (ENG_CYCLE). -/
def State.spend (s : State) (e : PortNum) (n : Nat) : State :=
  s.modPort e fun q => q.putWord ENG_CYCLE.reg (q.word ENG_CYCLE.reg + BitVec.ofNat 32 n)

/-- The count of a shift (R435). -/
def State.shiftCount (s : State) (e : PortNum) : ShiftCount → Nat
  | .reg r => (s.reg e r).toNat % 256
  | .imm v => v.toNat

/-- The count of REP (R436). -/
def State.repCount (s : State) (e : PortNum) : RepCount → Nat
  | .reg r => (s.reg e r).toNat
  | .imm v => v.toNat

/-! ## Bit variables (R424, R425) -/

/-- The alias windows of whole registers: their first bit address, the register, its RW bits that are fields of one
bit, its W1C and its W1S bits. -/
def aliasWindows : List (Nat × Nat × Word × Word × Word) :=
  [(0x020, FRMSTAT.reg, 0, 0x2F0, 0x1C00), (0x040, TXSTAT.reg, 0, 0x1000, 0), (0x060, RX_STAT.reg, 0, 0x38, 0),
   (0x080, TX_STAT.reg, 0, 0x38, 0), (0x0A0, QUAL.reg, 0, 0, 0), (0x100, TXCTL.reg, 0x19, 0, 0),
   (0x120, FRMCTL.reg, 0x303C00, 0, 0), (0x140, RXCTL.reg, 0x7, 0x10000, 0), (0x160, DCBLK.reg, 0xC, 0, 0),
   (0x180, RX_CTL.reg, 0x8, 0, 0x300), (0x1A0, TX_CTL.reg, 0x8, 0, 0x300)]

/-- The window that holds a bit address. -/
def aliasAt (b : Nat) : Option (Nat × Nat × Word × Word × Word) :=
  aliasWindows.find? fun w => decide (w.1 ≤ b) && decide (b < w.1 + 32)

/-- ESW as read: the doorbells, RPT and RES follow the state. -/
def State.eswWord (s : State) (e : PortNum) : Word :=
  let x := s.eng e
  let w := wset (wset x.esw 5 1 (bit (x.repLeft != 0))) 8 1 (s.pget e DBE_RING.RING)
  wset (wset w 9 1 (s.pget e DBH_RING.RING)) 11 1 (bit (!(s.port e).framer.results.isEmpty))

/-- A bit variable as read. -/
def State.bitRead (s : State) (e : PortNum) (b : Nat) : Bool :=
  if b < 0x20 then (s.eswWord e).getLsbD b
  else if 0x200 ≤ b then (s.eng e).bits.getLsbD (b - 0x200)
  else if 0xC0 ≤ b ∧ b < 0xD0 then (Cells.word .tmr (s.chan (.port e (Fin.ofNat 4 ((b - 0xC0) / 4)))) TMR_STAT.reg).getLsbD (b % 4)
  else
    match aliasAt b with
    | some w => (s.portWord e w.2.1).getLsbD (b - w.1)
    | none => false

/-- ESW written at a bit by its access codes. -/
def State.eswWrite (s : State) (e : PortNum) (b : Nat) (v : Bool) : State :=
  if b < 5 then s.setEsw e b v
  else if b = 7 ∨ b = 10 then (if v then s else s.setEsw e b false)
  else if b = 8 then (if v then s else s.pset e DBE_RING.RING 0)
  else if b = 9 then (if v then s.pset e DBH_RING.RING 1 else s)
  else s

/-- A register written at one bit: an RW bit takes v, v = 0 clears a W1C bit, v = 1 sets a W1S bit; a bit of a wider
field and an RO bit are left (R425). -/
def State.aliasWrite (s : State) (e : PortNum) (w : Nat × Nat × Word × Word × Word) (i : Nat) (v : Bool) : State :=
  let m := BitVec.ofNat 32 (2 ^ i)
  let keep := (s.portWord e w.2.1) &&& ~~~(w.2.2.2.1 ||| w.2.2.2.2)
  if w.2.2.1 &&& m ≠ 0 then s.portWrite e .engine w.2.1 (if v then keep ||| m else keep &&& ~~~m)
  else if w.2.2.2.1 &&& m ≠ 0 then (if v then s else s.portWrite e .engine w.2.1 (keep ||| m))
  else if w.2.2.2.2 &&& m ≠ 0 then (if v then s.portWrite e .engine w.2.1 (keep ||| m) else s)
  else s

/-- A bit variable written (R425). -/
def State.bitWrite (s : State) (e : PortNum) (b : Nat) (v : Bool) : State :=
  if b < 0x20 then s.eswWrite e b v
  else if 0x200 ≤ b then
    s.modEng e fun x => { x with
      bits := (x.bits &&& ~~~(BitVec.ofNat 512 (2 ^ (b - 0x200)))) ||| (if v then BitVec.ofNat 512 (2 ^ (b - 0x200)) else 0) }
  else if 0xC0 ≤ b ∧ b < 0xD0 then
    if b % 4 = 0 ∨ v then s
    else s.tmrWrite (.port e (Fin.ofNat 4 ((b - 0xC0) / 4))) TMR_STAT.reg (BitVec.ofNat 32 (2 ^ (b % 4)))
  else if 0x1C0 ≤ b ∧ b < 0x1C4 then (if v then s.tmrArm (.port e (Fin.ofNat 4 (b - 0x1C0))) else s)
  else if 0x1C4 ≤ b ∧ b < 0x1C8 then (if v then s.tmrStop (.port e (Fin.ofNat 4 (b - 0x1C4))) else s)
  else
    match aliasAt b with
    | some w => s.aliasWrite e w (b - w.1) v
    | none => s

/-! ## Memory (R421, R422, R430) -/

/-- The bytes of an access. -/
def MemW.size : MemW → Nat
  | .word => 4 | .half => 2 | .byte => 1

/-- Where a data address leads. -/
inductive DataPlace where
  | data (a : Nat)
  | window (off : Nat)
  | bus
  | align
  deriving DecidableEq, Repr

/-- The place of a data access: a BUS trap outside both ranges, an ALIGN trap for a misaligned access to data memory,
none in the port window (R422). -/
def dataPlace (a : Word) (w : MemW) : DataPlace :=
  let n := a.toNat
  if n < 0x2000 then (if n % w.size = 0 then .data n else .align)
  else if 0x4000 ≤ n ∧ n < 0x5000 then .window (n - 0x4000)
  else .bus

/-- The value at a place: in the port window a narrow or misaligned read returns 0 (R12). -/
def State.loadAt (s : State) (e : PortNum) (w : MemW) : DataPlace → Word × State
  | .data a => (BitVec.ofNat 32 (fromLe ((s.eng e).data.bytes a w.size)), s)
  | .window off => if w = .word ∧ off % 4 = 0 then s.portRead e .engine off else (0, s)
  | .bus | .align => (0, s)

/-- A value stored at a place; in the port window a narrow or misaligned write has no effect (R12). -/
def State.storeAt (s : State) (e : PortNum) (w : MemW) (v : Word) : DataPlace → State
  | .data a => s.modEng e fun x => { x with data := x.data.putBytes a (leBytes w.size v.toNat) }
  | .window off => if w = .word ∧ off % 4 = 0 then s.portWrite e .engine off v else s
  | .bus | .align => s

/-- The address of an M-format access (R430). -/
def State.memAddr (s : State) (e : PortNum) (ra : RegNum) (off : BitVec 17) : Word := s.reg e ra + off.signExtend 32

/-- The base register after an access with P = 1 (R430). -/
def State.bump (s : State) (e : PortNum) (ra : RegNum) (post : Bool) (n : Nat) : State :=
  if post then s.setReg e ra (s.reg e ra + BitVec.ofNat 32 n) else s

/-! ## Registers that an instruction reads (R430) -/

/-- The register of a shift count. -/
def shiftReads : ShiftCount → List RegNum
  | .reg r => [r]
  | .imm _ => []

/-- The register of a repeat count. -/
def repReads : RepCount → List RegNum
  | .reg r => [r]
  | .imm _ => []

/-- The general registers an instruction reads. -/
def EngInstr.reads : EngInstr → List RegNum
  | .alu _ _ ra rb => [ra, rb]
  | .cmp _ ra rb => [ra, rb]
  | .un _ _ ra => [ra]
  | .shift _ _ ra cnt => ra :: shiftReads cnt
  | .imm _ _ ra _ => [ra]
  | .cmpi ra _ => [ra]
  | .movhi rd _ => [rd]
  | .div _ _ _ ra rb => [ra, rb]
  | .load _ _ ra _ _ => [ra]
  | .store _ rd ra _ _ => [rd, ra]
  | .ldc _ ra _ _ => [ra]
  | .jmp ra => [ra]
  | .callr ra => [ra]
  | .bput _ ra => [ra]
  | .rep cnt => repReads cnt
  | .crc rd ra _ _ => [rd, ra]
  | .crcf rd _ => [rd]
  | .fpush ra _ => [ra]
  | .fpushm ra _ => [ra]
  | .fpopm ra => [ra]
  | .frapid ra => [ra]
  | .nop | .movi _ _ | .branch _ _ | .call _ | .bit1 _ _ | .bit2 _ _ _ _ | .btst _ _ _ | .bget _ _ | .crci _ _
  | .fpop _ | .fabort | .fsend _ | .fres _ | .wait _ _ | .trap _ | .rett | .halt | .gets _ _ => []

/-- The register a load fills. -/
def EngInstr.loads : EngInstr → Option RegNum
  | .load _ rd _ _ _ => some rd
  | .ldc rd _ _ _ => some rd
  | _ => none

/-- Whether an instruction may be repeated (R438). -/
def EngInstr.repeats : EngInstr → Bool
  | .alu _ _ _ _ | .cmp _ _ _ | .un _ _ _ | .shift _ _ _ _ | .imm _ _ _ _ | .cmpi _ _ | .movi _ _ | .movhi _ _
  | .div _ _ _ _ _ | .load _ _ _ _ _ | .store _ _ _ _ _ | .ldc _ _ _ _ | .bit1 _ _ | .bit2 _ _ _ _ | .bget _ _
  | .bput _ _ | .crci _ _ | .crc _ _ _ _ | .crcf _ _ | .fpush _ _ | .fpushm _ _ | .fpop _ | .fpopm _ | .fabort => true
  | .nop | .branch _ _ | .call _ | .jmp _ | .callr _ | .btst _ _ _ | .rep _ | .fsend _ | .fres _ | .frapid _
  | .wait _ _ | .trap _ | .rett | .halt | .gets _ _ => false

end Sys2Proof.Machine
end

