-- ==== Sys2Proof/Machine/Engine.lean ====
section
/-! DEFINITION. The Stoker engines: one instruction, repetition, traps, waiting, debug and the doorbells (R421-R451)
and their rows. -/

namespace Sys2Proof.Machine

/-- Where an instruction leaves the engine: at the next address, at a target, at the end of its repetition, in a trap
(its cause, and whether the instruction was performed), or where it stands. -/
inductive EngEnd where
  | next
  | jump (a : Word)
  | endRep
  | trap (cause : Nat) (done : Bool)
  | stay
  deriving DecidableEq, Repr

/-- The outcome of an instruction: where it leaves the engine, its cycles, the state. -/
abbrev EngOut := EngEnd × Nat × State

/-- An instruction that goes on to the next address. -/
def ok1 (s : State) : EngOut := (.next, 1, s)

/-! ## The kept image of a port (R456) -/

/-- Where supervisor SRAM holds a port's kept image. The place is the model's (log entry 23). -/
def imageBase (p : PortNum) : Nat := 0x20060000 + p.val * 0xA400

/-- A header field of the kept image (R454). -/
def State.imgWord (s : State) (p : PortNum) (ofs : Nat) : Word := s.sram.word (imageBase p + ofs)

/-- A half-word field of the kept image's header. -/
def State.imgHalf (s : State) (p : PortNum) (ofs : Nat) : Nat := fromLe (s.sram.bytes (imageBase p + ofs) 2)

/-! ## Messages (R449-R451) -/

/-- DBH_MSG words, as many as given and zeros after them (R451). -/
def State.putDbh (s : State) (p : PortNum) (l : List Word) : State :=
  s.modPort p fun q => (List.range 8).foldl (fun q i => q.putWord (DBH_MSG.reg + 4 * i) (l.getD i 0)) q

/-- The stop message of HALT (R445, R451); while the engine's ring stands the message is lost (R450). -/
def State.stopMessage (s : State) (p : PortNum) : State :=
  if s.pget p DBH_RING.RING = 1 then s.setEsw p 10 true
  else (s.putDbh p [0x100, s.imgWord p 12]).pset p DBH_RING.RING 1

/-- Hearth's message words and its ring (R449). -/
def State.ringEngine (s : State) (p : PortNum) (l : List Word) : State :=
  (s.modPort p fun q => (List.range 4).foldl (fun q i => q.putWord (DBE_MSG.reg + 4 * i) (l.getD i 0)) q).pset p
    DBE_RING.RING 1

/-! ## One instruction (R429-R445) -/

/-- A result written to its register with its flags. -/
def State.aluTo (s : State) (e : PortNum) (rd : RegNum) (o : AluOut) : State := (s.setReg e rd o.value).setFlags e o

/-- A load (R422, R430). -/
def State.doLoad (s : State) (e : PortNum) (w : MemW) (rd ra : RegNum) (post : Bool) (off : BitVec 17) : EngOut :=
  match dataPlace (s.memAddr e ra off) w with
  | .bus => (.trap 3 false, 1, s)
  | .align => (.trap 2 false, 1, s)
  | .data a =>
    let (v, t) := s.loadAt e w (.data a)
    (.next, 1, (t.bump e ra post w.size).setReg e rd v)
  | .window o =>
    let (v, t) := s.loadAt e w (.window o)
    (.next, 3, (t.bump e ra post w.size).setReg e rd v)

/-- A store (R422, R430). -/
def State.doStore (s : State) (e : PortNum) (w : MemW) (rd ra : RegNum) (post : Bool) (off : BitVec 17) : EngOut :=
  match dataPlace (s.memAddr e ra off) w with
  | .bus => (.trap 3 false, 1, s)
  | .align => (.trap 2 false, 1, s)
  | .data a => ok1 ((s.storeAt e w (s.reg e rd) (.data a)).bump e ra post w.size)
  | .window o => ok1 ((s.storeAt e w (s.reg e rd) (.window o)).bump e ra post w.size)

/-- A code word (LDC). An address that is no word of code memory gives a free value. -/
def State.doLdc (s : State) (e : PortNum) (rd ra : RegNum) (post : Bool) (off : BitVec 17) : EngOut :=
  let a := (s.memAddr e ra off).toNat
  if a < 0x8000 ∧ a % 4 = 0 then (.next, 2, (s.bump e ra post 4).setReg e rd ((s.eng e).code.word a))
  else
    let (v, t) := s.drawNat (2 ^ 32)
    (.next, 2, (t.bump e ra post 4).setReg e rd (BitVec.ofNat 32 v))

/-- A division (R434). -/
def State.doDiv (s : State) (e : PortNum) (sg : Bool) (rq rr ra rb : RegNum) : EngOut :=
  let (q, r, v, dz) := divOut sg (s.reg e ra) (s.reg e rb)
  let t := (s.setReg e rr r).setReg e rq q
  let t := (t.setFlags e (.of q (some false) (some v))).setEsw e 4 dz
  if dz ∧ s.pon e ENG_CTL.DZTRAP then (.trap 4 true, 34, t) else (.next, 34, t)

/-- The parameter set of the CRC group; 5 to 7 are none. -/
def crcSel (n : Nat) : Option CrcKind :=
  match n with
  | 0 => some .crcA | 1 => some .crcB | 2 => some .crc15693 | 3 => some .crcO | 4 => some .crcAelyr | _ => none

/-- A byte pushed to TX_DATA by the engine; none when it stalls (R403, R441). -/
def State.engPush (s : State) (e : PortNum) (b : Byte) (eop : Bool) : Option State :=
  if s.sideOn e .tx .engine then
    if s.pushStalls e .tx eop then none else some (s.pushNow e .tx b eop)
  else some s

/-- The flags of a pop: a word's EOP and CIN; with nothing taken Z alone is stated, C and N are free. -/
def State.popFlags (s : State) (e : PortNum) : Option FWord → State
  | some w => ((s.setEsw e 0 false).setEsw e 2 w.eop).setEsw e 1 w.cin
  | none =>
    let (c, s) := s.drawBool
    let (n, s) := s.drawBool
    ((s.setEsw e 0 true).setEsw e 2 c).setEsw e 1 n

/-- RX_DATA read by the engine (R403, R439, R441). -/
def State.engPop (s : State) (e : PortNum) : Taken × State :=
  if s.sideOn e .rx .engine then s.takeNow e .rx else (.nothing, s)

/-- FPOP (R441). -/
def State.doFpop (s : State) (e : PortNum) (rd : RegNum) : EngOut :=
  match s.engPop e with
  | (.word w, t) => (if w.eop then .endRep else .next, 1, (t.setReg e rd w.data).popFlags e (some w))
  | (.nothing, t) => (.endRep, 1, (t.setReg e rd 0).popFlags e none)
  | (.waits, t) => (.stay, 0, t.modEng e fun x => { x with stall := some (.fpop rd) })

/-- FPOPM (R441): the word goes to data memory at ra, which moves on by 4. -/
def State.doFpopm (s : State) (e : PortNum) (ra : RegNum) : EngOut :=
  match dataPlace (s.reg e ra) .word with
  | .bus => (.trap 3 false, 1, s)
  | .align => (.trap 2 false, 1, s)
  | pl =>
    match s.engPop e with
    | (.word w, t) =>
      (if w.eop then .endRep else .next, 1, ((t.storeAt e .word w.data pl).bump e ra true 4).popFlags e (some w))
    | (.nothing, t) => (.endRep, 1, t.popFlags e none)
    | (.waits, t) => (.stay, 0, t.modEng e fun x => { x with stall := some (.fpopm ra) })

/-- FPUSH (R441). -/
def State.doFpush (s : State) (e : PortNum) (ra : RegNum) (eop : Bool) : EngOut :=
  match s.engPush e ((s.reg e ra).setWidth 8) eop with
  | some t => ok1 t
  | none => (.stay, 0, s.modEng e fun x => { x with stall := some (.fpush ra eop) })

/-- FPUSHM (R441): under REP, EOP goes with the last repetition only. -/
def State.doFpushm (s : State) (e : PortNum) (ra : RegNum) (eop : Bool) : EngOut :=
  match dataPlace (s.reg e ra) .byte with
  | .bus => (.trap 3 false, 1, s)
  | .align => (.trap 2 false, 1, s)
  | pl =>
    let (v, t) := s.loadAt e .byte pl
    match t.engPush e (v.setWidth 8) (eop && (s.eng e).repLeft ≤ 1) with
    | some t => ok1 (t.bump e ra true 1)
    | none => (.stay, 0, s.modEng e fun x => { x with stall := some (.fpushm ra eop) })

/-- FSEND (R442): Z tells that no committed packet waits beyond those already asked for. -/
def State.doFsend (s : State) (e : PortNum) (clear : Bool) : EngOut :=
  let f := (s.port e).framer
  if (s.fifo e .tx).pkts ≤ f.reqs then ok1 (s.setEsw e 0 true)
  else
    let s := s.modFramer e fun f => { f with reqs := f.reqs + 1, waitSum := if clear then 0 else f.waitSum }
    ok1 ((s.framerAdvance e).setEsw e 0 false)

/-- FRES (R443). -/
def State.doFres (s : State) (e : PortNum) (rd : RegNum) : EngOut :=
  match (s.port e).framer.results with
  | w :: r => ok1 (((s.modFramer e fun f => { f with results := r }).setReg e rd w).setEsw e 0 false)
  | [] => ok1 ((s.setReg e rd 0).setEsw e 0 true)

/-- FRAPID (R444). -/
def State.doFrapid (s : State) (e : PortNum) (ra : RegNum) : EngOut :=
  let n := (s.reg e ra).toNat % 128
  if n < 16 ∨ 64 < n ∨ s.pget e TXCTL.RAPID_EN = 0 then ok1 (s.putBare e 4)
  else ok1 (s.modFramer e fun f => { f with rapidN := n, rapidSlot := 0 })

/-- REP (R436, R438): the word after it must be one that may be repeated. -/
def State.doRep (s : State) (e : PortNum) (n : Nat) : EngOut :=
  let a := (s.pc e).toNat + 4
  if a < (s.eng e).codeLen ∧ repeatable ((s.eng e).code.word a) = false then (.trap 1 false, 1, s)
  else if n = 0 then (.jump (s.pc e + 8), 1, s)
  else (.next, 1, s.setRep e n)

/-- The source bit of a bit instruction, inverted where NS is 1. -/
def State.srcBit (s : State) (e : PortNum) (b : Nat) (ns : Bool) : Bool := s.bitRead e b != ns

/-- One instruction executed once (R429). -/
def State.engDo (s : State) (e : PortNum) (i : EngInstr) : EngOut :=
  let g := s.reg e
  let pc := s.pc e
  match i with
  | .nop => ok1 s
  | .alu op rd ra rb =>
    (.next, if op = .mulhu ∨ op = .mulhs then 2 else 1, s.aluTo e rd (aluOut op (g ra) (g rb) (s.eswBit e 2)))
  | .cmp op ra rb => ok1 (s.setFlags e (cmpOut op (g ra) (g rb)))
  | .un op rd ra => ok1 (s.aluTo e rd (unOut op (g ra)))
  | .shift op rd ra cnt => ok1 (s.aluTo e rd (shiftOut op (g ra) (s.shiftCount e cnt)))
  | .imm op rd ra v => ok1 (s.aluTo e rd (immOut op (g ra) v))
  | .cmpi ra v => ok1 (s.setFlags e (subOut (g ra) (v.signExtend 32) 0))
  | .movi rd v => ok1 (s.setReg e rd (v.signExtend 32))
  | .movhi rd v => ok1 (s.setReg e rd (v ++ (g rd).setWidth 16))
  | .div sg rq rr ra rb => s.doDiv e sg rq rr ra rb
  | .load w rd ra post off => s.doLoad e w rd ra post off
  | .store w rd ra post off => s.doStore e w rd ra post off
  | .ldc rd ra post off => s.doLdc e rd ra post off
  | .branch cond off =>
    if condHolds cond.val (s.eswBit e 0) (s.eswBit e 1) (s.eswBit e 2) (s.eswBit e 3) (s.eswBit e 4) then
      (.jump (pc + 4 + (off.signExtend 32 <<< 2)), 2, s)
    else ok1 s
  | .call off => (.jump (pc + 4 + (off.signExtend 32 <<< 2)), 2, s.setReg e 15 (pc + 4))
  | .jmp ra => (.jump (g ra), 2, s)
  | .callr ra => (.jump (g ra), 2, s.setReg e 15 (pc + 4))
  | .bit1 .bset b => ok1 (s.bitWrite e b.toNat true)
  | .bit1 .bclr b => ok1 (s.bitWrite e b.toNat false)
  | .bit1 .bnot b => ok1 (s.bitWrite e b.toNat (!s.bitRead e b.toNat))
  | .bit2 .bmov d ns src => ok1 (s.bitWrite e d.toNat (s.srcBit e src.toNat ns))
  | .bit2 .band d ns src => ok1 (s.bitWrite e d.toNat (s.bitRead e d.toNat && s.srcBit e src.toNat ns))
  | .bit2 .bor d ns src => ok1 (s.bitWrite e d.toNat (s.bitRead e d.toNat || s.srcBit e src.toNat ns))
  | .bit2 .bxor d ns src => ok1 (s.bitWrite e d.toNat (s.bitRead e d.toNat != s.srcBit e src.toNat ns))
  | .btst b pol off =>
    if s.bitRead e b.toNat = pol then (.jump (pc + 4 + (off.signExtend 32 <<< 2)), 2, s) else ok1 s
  | .bget rd b => ok1 (s.setReg e rd (BitVec.ofNat 32 (bit (s.bitRead e b.toNat))))
  | .bput b ra => ok1 (s.bitWrite e b.toNat ((g ra).getLsbD 0))
  | .rep cnt => s.doRep e (s.repCount e cnt)
  | .crci rd sel =>
    match crcSel sel.val with
    | some k => ok1 (s.setReg e rd (k.init.setWidth 32))
    | none => (.trap 1 false, 1, s)
  | .crc rd ra sel n =>
    match crcSel sel.val with
    | some k => ok1 (s.setReg e rd ((((wordBytes (g ra)).take (n.val + 1)).foldl k.feed ((g rd).setWidth 16)).setWidth 32))
    | none => (.trap 1 false, 1, s)
  | .crcf rd sel =>
    match crcSel sel.val with
    | some k => ok1 (s.setReg e rd (((g rd).setWidth 16 ^^^ k.xorOut).setWidth 32))
    | none => (.trap 1 false, 1, s)
  | .fpush ra eop => s.doFpush e ra eop
  | .fpushm ra eop => s.doFpushm e ra eop
  | .fpop rd => s.doFpop e rd
  | .fpopm ra => s.doFpopm e ra
  | .fabort => ok1 (s.txDataWrite e .engine 0x200)
  | .fsend clear => s.doFsend e clear
  | .fres rd => s.doFres e rd
  | .frapid ra => s.doFrapid e ra
  | .wait b pol =>
    if s.bitRead e b.toNat = pol then ok1 s
    else (.stay, 1, (s.setEngState e 2).modEng e fun x => { x with waitOn := some (b, pol) })
  | .trap code => (.trap 5 true, 1, s.pset e ENG_STAT.CODE code.toNat)
  | .rett =>
    if s.eswBit e 6 then (.jump ((s.port e).word ENG_TPC.reg), 1, s.setEsw e 6 false) else (.trap 1 false, 1, s)
  | .halt => (.next, 1, (s.setEngState e 4).stopMessage e)
  | .gets rd k =>
    match k.val with
    | 0 => ok1 (s.setReg e rd ((s.port e).word ENG_CYCLE.reg))
    | 1 => ok1 (s.setReg e rd ((s.port e).word ENG_TPC.reg))
    | 2 => ok1 (s.setReg e rd ((s.port e).word ENG_RCNT.reg))
    | 3 => ok1 (s.setReg e rd (BitVec.ofNat 32 e.val))
    | _ => (.trap 1 false, 1, s)

/-! ## Traps (R447, R448) -/

/-- A trap with its cause and TPC. Inside a trap it is a double trap: the engine stops, the port's command in progress
ends and the fault is logged. -/
def State.trapTo (s : State) (e : PortNum) (cause : Nat) (tpc : Word) : State :=
  let dbl := s.eswBit e 6
  let s := (s.modPort e fun q => q.putWord ENG_TPC.reg tpc).pset e ENG_STAT.CAUSE cause
  let s := (s.setEsw e 6 true).setPc e 4
  let s := s.modEng e fun x => { x with repLeft := 0 }
  if dbl then
    ((s.setEngState e 5).ash 0x0063 e.val (BitVec.ofNat 8 cause :: wordBytes tpc)).stopWork e St.INTERNAL_ERROR
  else s

/-! ## Issue -/

/-- The stop of HALT = 1 after the instruction or repetition in progress (ENG_CTL.HALT). -/
def State.haltCheck (s : State) (e : PortNum) : State :=
  if s.pget e ENG_CTL.HALT = 1 ∧ s.engState e = 1 ∧ (s.eng e).stall = none then s.setEngState e 3 else s

/-- The load whose result the next instruction would wait for (R430). -/
def State.setLoad (s : State) (e : PortNum) (r : Option RegNum) : State := s.modEng e fun x => { x with lastLoad := r }

/-- Whether an instruction uses the result of the load just before it (R430). -/
def State.loadStall (s : State) (e : PortNum) (i : EngInstr) : Bool :=
  match (s.eng e).lastLoad with
  | some r => i.reads.contains r
  | none => false

/-- An instruction performed at PC: its cycles, then where it leaves the engine; a repetition goes on while
repetitions are left (R436, R439). -/
def State.perform (s : State) (e : PortNum) (i : EngInstr) : State :=
  let pc := s.pc e
  let left := (s.eng e).repLeft
  let (fin, cyc, t) := s.engDo e i
  let t := t.spend e (cyc + bit (s.loadStall e i && cyc != 0))
  let t := if cyc = 0 then t else t.setLoad e i.loads
  match fin with
  | .stay => t
  | .next =>
    if left ≤ 1 then (if left = 1 then t.setRep e 0 else t).setPc e (pc + 4)
    else t.setRep e (left - 1)
  | .endRep => (if left = 0 then t else t.setRep e 0).setPc e (pc + 4)
  | .jump a => t.setPc e (a &&& ~~~3)
  | .trap c done => t.trapTo e c (if done then pc + 4 else pc)

/-- Whether the engine executes instructions now: its domain powered, the engine clock there, running, not stalled. -/
def State.runs (s : State) (e : PortNum) : Bool := s.portOn e && s.pllLocked && s.engState e == 1 && (s.eng e).stall.isNone

/-- An instruction of a running engine: a FETCH trap where PC has left the code (R428), else the instruction; inside a
repetition only what may be repeated. -/
def State.issue (s : State) (e : PortNum) (i : EngInstr) : State :=
  if s.runs e then
    if (s.eng e).codeLen ≤ (s.pc e).toNat then s.trapTo e 6 (s.pc e)
    else if (s.eng e).repLeft ≠ 0 ∧ i.repeats = false then s
    else (s.perform e i).haltCheck e
  else s

/-! ## Debug and doorbells (R439, R446, R449) -/

/-- A write of HALT: 1 stops the engine after what is in progress and ends a WAIT; 0 lets a halted engine run. -/
def State.haltWrite (s : State) (e : PortNum) (h : Bool) : State :=
  let s := s.pset e ENG_CTL.HALT (bit h)
  if h then
    if s.engState e = 2 then (s.setEngState e 3).modEng e fun x => { x with waitOn := none }
    else s.haltCheck e
  else if s.engState e = 3 then s.setEngState e 1
  else s

/-- STEP while halted: one instruction or repetition, read from code memory; an unreadable word is ILLEGAL (R427). -/
def State.stepOnce (s : State) (e : PortNum) : State :=
  if s.portOn e ∧ s.engState e = 3 then
    let t := s.setEngState e 1
    let t :=
      if (t.eng e).codeLen ≤ (t.pc e).toNat then t.trapTo e 6 (t.pc e)
      else
        match decodeEng ((t.eng e).code.word (t.pc e).toNat) with
        | some i => t.perform e i
        | none => (t.spend e 1).trapTo e 1 (t.pc e)
    let t := t.modEng e fun x => { x with waitOn := none, stall := none }
    if t.engState e = 1 ∨ t.engState e = 2 then t.setEngState e 3 else t
  else s

/-- A write of ENG_CTL by Hearth. -/
def State.engCtlWrite (s : State) (e : PortNum) (w : Word) : State :=
  let s := (s.pset e ENG_CTL.DZTRAP (wget w 2 1)).haltWrite e (wget w 0 1 == 1)
  if wget w 1 1 = 1 then s.stepOnce e else s

/-- A write of a port register by Hearth, ENG_CTL and ENG_PC among them. -/
def State.hearthWrite (s : State) (p : PortNum) (off : Nat) (w : Word) : State :=
  if off = ENG_CTL.reg then s.engCtlWrite p w
  else if off = ENG_PC.reg then (if s.engState p = 3 then s.setPc p (w &&& 0x7FFC) else s)
  else s.portWrite p .hearth off w

/-- A stalled access completes once the Flue has moved a word; the stall took at most 16 engine cycles (R403). -/
def State.stallRelease (s : State) (e : PortNum) : State :=
  match (s.eng e).stall with
  | some i =>
    let d := match i with
      | .fpush _ _ | .fpushm _ _ => Dir.tx
      | _ => Dir.rx
    let s := (s.flueMove e d).modEng e fun x => { x with stall := none }
    let (n, s) := s.drawNat 17
    ((s.spend e n).perform e i).haltCheck e
  | none => s

/-! ## Rows -/

/-- ADD (R431). -/
def execAdd (e : PortNum) (rd ra rb : RegNum) : State → Host.Outcome State Fault Refusal :=
  run fun s => s.issue e (.alu .add rd ra rb)

/-- ADC (R431). -/
def execAdc (e : PortNum) (rd ra rb : RegNum) : State → Host.Outcome State Fault Refusal :=
  run fun s => s.issue e (.alu .adc rd ra rb)

/-- SUB (R431). -/
def execSub (e : PortNum) (rd ra rb : RegNum) : State → Host.Outcome State Fault Refusal :=
  run fun s => s.issue e (.alu .sub rd ra rb)

/-- SBC (R431). -/
def execSbc (e : PortNum) (rd ra rb : RegNum) : State → Host.Outcome State Fault Refusal :=
  run fun s => s.issue e (.alu .sbc rd ra rb)

/-- AND (R429). -/
def execAnd (e : PortNum) (rd ra rb : RegNum) : State → Host.Outcome State Fault Refusal :=
  run fun s => s.issue e (.alu .and rd ra rb)

/-- OR (R429). -/
def execOr (e : PortNum) (rd ra rb : RegNum) : State → Host.Outcome State Fault Refusal :=
  run fun s => s.issue e (.alu .or rd ra rb)

/-- XOR (R429). -/
def execXor (e : PortNum) (rd ra rb : RegNum) : State → Host.Outcome State Fault Refusal :=
  run fun s => s.issue e (.alu .xor rd ra rb)

/-- MUL (R429). -/
def execMul (e : PortNum) (rd ra rb : RegNum) : State → Host.Outcome State Fault Refusal :=
  run fun s => s.issue e (.alu .mul rd ra rb)

/-- NOP (R429). -/
def execNop (e : PortNum) : State → Host.Outcome State Fault Refusal :=
  run fun s => s.issue e .nop

/-- CMP (R431). -/
def execCmp (e : PortNum) (ra rb : RegNum) : State → Host.Outcome State Fault Refusal :=
  run fun s => s.issue e (.cmp .cmp ra rb)

/-- TST (R429). -/
def execTst (e : PortNum) (ra rb : RegNum) : State → Host.Outcome State Fault Refusal :=
  run fun s => s.issue e (.cmp .tst ra rb)

/-- NEG (R433). -/
def execNeg (e : PortNum) (rd ra : RegNum) : State → Host.Outcome State Fault Refusal :=
  run fun s => s.issue e (.un .neg rd ra)

/-- NOT (R429). -/
def execNot (e : PortNum) (rd ra : RegNum) : State → Host.Outcome State Fault Refusal :=
  run fun s => s.issue e (.un .not rd ra)

/-- MOV (R429). -/
def execMov (e : PortNum) (rd ra : RegNum) : State → Host.Outcome State Fault Refusal :=
  run fun s => s.issue e (.un .mov rd ra)

/-- LSL (R435). -/
def execLsl (e : PortNum) (rd ra : RegNum) (cnt : ShiftCount) : State → Host.Outcome State Fault Refusal :=
  run fun s => s.issue e (.shift .lsl rd ra cnt)

/-- LSR (R435). -/
def execLsr (e : PortNum) (rd ra : RegNum) (cnt : ShiftCount) : State → Host.Outcome State Fault Refusal :=
  run fun s => s.issue e (.shift .lsr rd ra cnt)

/-- ASR (R435). -/
def execAsr (e : PortNum) (rd ra : RegNum) (cnt : ShiftCount) : State → Host.Outcome State Fault Refusal :=
  run fun s => s.issue e (.shift .asr rd ra cnt)

/-- ROR (R435). -/
def execRor (e : PortNum) (rd ra : RegNum) (cnt : ShiftCount) : State → Host.Outcome State Fault Refusal :=
  run fun s => s.issue e (.shift .ror rd ra cnt)

/-- ADDI (R431). -/
def execAddi (e : PortNum) (rd ra : RegNum) (imm : BitVec 18) : State → Host.Outcome State Fault Refusal :=
  run fun s => s.issue e (.imm .addi rd ra imm)

/-- SUBI (R431). -/
def execSubi (e : PortNum) (rd ra : RegNum) (imm : BitVec 18) : State → Host.Outcome State Fault Refusal :=
  run fun s => s.issue e (.imm .subi rd ra imm)

/-- ANDI (R429). -/
def execAndi (e : PortNum) (rd ra : RegNum) (imm : BitVec 18) : State → Host.Outcome State Fault Refusal :=
  run fun s => s.issue e (.imm .andi rd ra imm)

/-- ORI (R429). -/
def execOri (e : PortNum) (rd ra : RegNum) (imm : BitVec 18) : State → Host.Outcome State Fault Refusal :=
  run fun s => s.issue e (.imm .ori rd ra imm)

/-- XORI (R429). -/
def execXori (e : PortNum) (rd ra : RegNum) (imm : BitVec 18) : State → Host.Outcome State Fault Refusal :=
  run fun s => s.issue e (.imm .xori rd ra imm)

/-- CMPI (R431). -/
def execCmpi (e : PortNum) (ra : RegNum) (imm : BitVec 18) : State → Host.Outcome State Fault Refusal :=
  run fun s => s.issue e (.cmpi ra imm)

/-- MOVI (R429). -/
def execMovi (e : PortNum) (rd : RegNum) (imm : BitVec 18) : State → Host.Outcome State Fault Refusal :=
  run fun s => s.issue e (.movi rd imm)

/-- MOVHI (R429). -/
def execMovhi (e : PortNum) (rd : RegNum) (imm : Half) : State → Host.Outcome State Fault Refusal :=
  run fun s => s.issue e (.movhi rd imm)

/-- MULH (R429). -/
def execMulh (e : PortNum) (rd ra rb : RegNum) (signed : Bool) : State → Host.Outcome State Fault Refusal :=
  run fun s => s.issue e (.alu (if signed then .mulhs else .mulhu) rd ra rb)

/-- DIVU (R434). -/
def execDivu (e : PortNum) (rq rr ra rb : RegNum) : State → Host.Outcome State Fault Refusal :=
  run fun s => s.issue e (.div false rq rr ra rb)

/-- DIVS (R434). -/
def execDivs (e : PortNum) (rq rr ra rb : RegNum) : State → Host.Outcome State Fault Refusal :=
  run fun s => s.issue e (.div true rq rr ra rb)

/-- LDW (R430). -/
def execLdw (e : PortNum) (rd ra : RegNum) (post : Bool) (off : BitVec 17) : State → Host.Outcome State Fault Refusal :=
  run fun s => s.issue e (.load .word rd ra post off)

/-- LDH (R430). -/
def execLdh (e : PortNum) (rd ra : RegNum) (post : Bool) (off : BitVec 17) : State → Host.Outcome State Fault Refusal :=
  run fun s => s.issue e (.load .half rd ra post off)

/-- LDB (R430). -/
def execLdb (e : PortNum) (rd ra : RegNum) (post : Bool) (off : BitVec 17) : State → Host.Outcome State Fault Refusal :=
  run fun s => s.issue e (.load .byte rd ra post off)

/-- STW (R430). -/
def execStw (e : PortNum) (rd ra : RegNum) (post : Bool) (off : BitVec 17) : State → Host.Outcome State Fault Refusal :=
  run fun s => s.issue e (.store .word rd ra post off)

/-- STH (R430). -/
def execSth (e : PortNum) (rd ra : RegNum) (post : Bool) (off : BitVec 17) : State → Host.Outcome State Fault Refusal :=
  run fun s => s.issue e (.store .half rd ra post off)

/-- STB (R430). -/
def execStb (e : PortNum) (rd ra : RegNum) (post : Bool) (off : BitVec 17) : State → Host.Outcome State Fault Refusal :=
  run fun s => s.issue e (.store .byte rd ra post off)

/-- LDC (R429). -/
def execLdc (e : PortNum) (rd ra : RegNum) (post : Bool) (off : BitVec 17) : State → Host.Outcome State Fault Refusal :=
  run fun s => s.issue e (.ldc rd ra post off)

/-- B (R432). -/
def execB (e : PortNum) (cond : Fin 16) (off : BitVec 22) : State → Host.Outcome State Fault Refusal :=
  run fun s => s.issue e (.branch cond off)

/-- CALL (R429). -/
def execCall (e : PortNum) (off : BitVec 22) : State → Host.Outcome State Fault Refusal :=
  run fun s => s.issue e (.call off)

/-- JMP (R429). -/
def execJmp (e : PortNum) (ra : RegNum) : State → Host.Outcome State Fault Refusal :=
  run fun s => s.issue e (.jmp ra)

/-- CALLR (R429). -/
def execCallr (e : PortNum) (ra : RegNum) : State → Host.Outcome State Fault Refusal :=
  run fun s => s.issue e (.callr ra)

/-- BSET (R425). -/
def execBset (e : PortNum) (b : BitVec 10) : State → Host.Outcome State Fault Refusal :=
  run fun s => s.issue e (.bit1 .bset b)

/-- BCLR (R425). -/
def execBclr (e : PortNum) (b : BitVec 10) : State → Host.Outcome State Fault Refusal :=
  run fun s => s.issue e (.bit1 .bclr b)

/-- BNOT (R425). -/
def execBnot (e : PortNum) (b : BitVec 10) : State → Host.Outcome State Fault Refusal :=
  run fun s => s.issue e (.bit1 .bnot b)

/-- BMOV (R425). -/
def execBmov (e : PortNum) (d : BitVec 10) (ns : Bool) (src : BitVec 10) : State → Host.Outcome State Fault Refusal :=
  run fun s => s.issue e (.bit2 .bmov d ns src)

/-- BAND (R425). -/
def execBand (e : PortNum) (d : BitVec 10) (ns : Bool) (src : BitVec 10) : State → Host.Outcome State Fault Refusal :=
  run fun s => s.issue e (.bit2 .band d ns src)

/-- BOR (R425). -/
def execBor (e : PortNum) (d : BitVec 10) (ns : Bool) (src : BitVec 10) : State → Host.Outcome State Fault Refusal :=
  run fun s => s.issue e (.bit2 .bor d ns src)

/-- BXOR (R425). -/
def execBxor (e : PortNum) (d : BitVec 10) (ns : Bool) (src : BitVec 10) : State → Host.Outcome State Fault Refusal :=
  run fun s => s.issue e (.bit2 .bxor d ns src)

/-- BTST (R429). -/
def execBtst (e : PortNum) (b : BitVec 10) (pol : Bool) (off : BitVec 15) : State → Host.Outcome State Fault Refusal :=
  run fun s => s.issue e (.btst b pol off)

/-- BGET (R429). -/
def execBget (e : PortNum) (rd : RegNum) (b : BitVec 10) : State → Host.Outcome State Fault Refusal :=
  run fun s => s.issue e (.bget rd b)

/-- BPUT (R429). -/
def execBput (e : PortNum) (b : BitVec 10) (ra : RegNum) : State → Host.Outcome State Fault Refusal :=
  run fun s => s.issue e (.bput b ra)

/-- REP (R436). -/
def execRep (e : PortNum) (cnt : RepCount) : State → Host.Outcome State Fault Refusal :=
  run fun s => s.issue e (.rep cnt)

/-- CRCI (R440). -/
def execCrci (e : PortNum) (rd : RegNum) (sel : Fin 8) : State → Host.Outcome State Fault Refusal :=
  run fun s => s.issue e (.crci rd sel)

/-- CRC (R440). -/
def execCrc (e : PortNum) (rd ra : RegNum) (sel : Fin 8) (n : Fin 4) : State → Host.Outcome State Fault Refusal :=
  run fun s => s.issue e (.crc rd ra sel n)

/-- CRCF (R440). -/
def execCrcf (e : PortNum) (rd : RegNum) (sel : Fin 8) : State → Host.Outcome State Fault Refusal :=
  run fun s => s.issue e (.crcf rd sel)

/-- FPUSH (R441). -/
def execFpush (e : PortNum) (ra : RegNum) (eop : Bool) : State → Host.Outcome State Fault Refusal :=
  run fun s => s.issue e (.fpush ra eop)

/-- FPUSHM (R441). -/
def execFpushm (e : PortNum) (ra : RegNum) (eop : Bool) : State → Host.Outcome State Fault Refusal :=
  run fun s => s.issue e (.fpushm ra eop)

/-- FPOP (R441). -/
def execFpop (e : PortNum) (rd : RegNum) : State → Host.Outcome State Fault Refusal :=
  run fun s => s.issue e (.fpop rd)

/-- FPOPM (R441). -/
def execFpopm (e : PortNum) (ra : RegNum) : State → Host.Outcome State Fault Refusal :=
  run fun s => s.issue e (.fpopm ra)

/-- FABORT (R441). -/
def execFabort (e : PortNum) : State → Host.Outcome State Fault Refusal :=
  run fun s => s.issue e .fabort

/-- FSEND (R442). -/
def execFsend (e : PortNum) (clear : Bool) : State → Host.Outcome State Fault Refusal :=
  run fun s => s.issue e (.fsend clear)

/-- FRES (R443). -/
def execFres (e : PortNum) (rd : RegNum) : State → Host.Outcome State Fault Refusal :=
  run fun s => s.issue e (.fres rd)

/-- FRAPID (R444). -/
def execFrapid (e : PortNum) (ra : RegNum) : State → Host.Outcome State Fault Refusal :=
  run fun s => s.issue e (.frapid ra)

/-- WAIT (R445). -/
def execWait (e : PortNum) (b : BitVec 10) (pol : Bool) : State → Host.Outcome State Fault Refusal :=
  run fun s => s.issue e (.wait b pol)

/-- TRAP (R447). -/
def execTrap (e : PortNum) (code : Byte) : State → Host.Outcome State Fault Refusal :=
  run fun s => s.issue e (.trap code)

/-- RETT (R445). -/
def execRett (e : PortNum) : State → Host.Outcome State Fault Refusal :=
  run fun s => s.issue e .rett

/-- HALT (R445). -/
def execHalt (e : PortNum) : State → Host.Outcome State Fault Refusal :=
  run fun s => s.issue e .halt

/-- GETS (R445). -/
def execGets (e : PortNum) (rd : RegNum) (k : Fin 8) : State → Host.Outcome State Fault Refusal :=
  run fun s => s.issue e (.gets rd k)

/-- WAIT_END (R446): the awaited bit reads its value; the next instruction runs one cycle later. -/
def execWaitEnd (e : PortNum) : State → Host.Outcome State Fault Refusal :=
  run fun s =>
    match (s.eng e).waitOn with
    | some (b, pol) =>
      if s.engState e = 2 ∧ s.bitRead e b.toNat = pol then
        let s := (s.setEngState e 1).modEng e fun x => { x with waitOn := none }
        ((s.spend e 1).setPc e (s.pc e + 4)).haltCheck e
      else s
    | none => s

/-- ENG_CTL_HALT (R446): a write of HALT by Hearth. -/
def execEngCtlHalt (p : PortNum) (halt : Bool) : State → Host.Outcome State Fault Refusal :=
  run fun s => if s.portOn p then s.haltWrite p halt else s

/-- ENG_CTL_STEP (R439). -/
def execEngCtlStep (p : PortNum) : State → Host.Outcome State Fault Refusal := run fun s => s.stepOnce p

/-- DBE_RING (R449): the four message words and the ring. -/
def execDbeRing (p : PortNum) (m0 m1 m2 m3 : Word) : State → Host.Outcome State Fault Refusal :=
  run fun s => if s.portOn p then s.ringEngine p [m0, m1, m2, m3] else s

/-- DBH_RING_CLEAR (R449). -/
def execDbhRingClear (p : PortNum) : State → Host.Outcome State Fault Refusal :=
  run fun s => if s.portOn p then s.pset p DBH_RING.RING 0 else s

/-- FIFO_STALL_RELEASE (R403). -/
def execFifoStallRelease (p : PortNum) : State → Host.Outcome State Fault Refusal := run fun s => s.stallRelease p

end Sys2Proof.Machine
end

