-- ==== Sys2Proof/Machine/Host.lean ====
section
/-! DEFINITION. How Hearth decides a command packet: the checks of R322, repeats, chains and contention (R320-R329,
R334-R338, R344-R348, R596). -/

namespace Sys2Proof.Machine

/-- A row of the command reference (R344-R348, R596): the opcode; its targets; whether it is open to any host port;
whether Kindling and full service offer it; the lengths its layouts allow for a target; the largest payload of a
chain; whether R347 refuses it while the port does not serve; a further condition that ends it with BUSY at check
8; whether it needs the PLL though it names no reader port (R480); what the payload of a segment does at once (with
the bytes that precede it); its meaning. -/
structure Op where
  opcode : Nat
  targets : List Nat
  anyHost : Bool := false
  kindling : Bool := false
  full : Bool := true
  lens : Nat → Nat → Bool
  bound : Nat := 4092
  served : Bool := false
  pll : Bool := false
  gate : Cmd → State → Bool := fun _ _ => false
  onSegment : Cmd → Nat → State → State := fun _ _ s => s
  body : Cmd → State → State

/-- The reader ports as targets. -/
def portTargets : List Nat := [0, 1, 2, 3, 4, 5, 6, 7]

/-- Reader ports and T. -/
def ownTargets : List Nat := [0, 1, 2, 3, 4, 5, 6, 7, 8, 15]

/-- The device as target. -/
def devTarget : List Nat := [15]

/-- Whether a host port owns a target; any co-owner owns the device (R334). -/
def State.owns (s : State) (hp : HostNum) (t : Nat) : Bool :=
  if t = 15 then s.devOwn.getLsbD hp.val else s.ownerOf t == some hp

/-- The command packet's bytes (R303). -/
def cmdBytes (flags seq target : Byte) (opcode : Half) (payload : List Byte) : List Byte :=
  packetBytes 0x5C flags.toNat seq target opcode.toNat payload

/-- OWN_CLAIM and OWN_RELEASE. -/
def isClaim (opcode : Nat) : Bool := opcode == 0x0010 || opcode == 0x0011

/-- Checks 2 to 6 of R322: the status of the first that fails. -/
def State.checkEarly (s : State) (op : Option Op) (c : Cmd) : Option Nat :=
  if !ownTargets.contains c.target.toNat then some St.BAD_PARAM
  else match op with
    | none => some St.UNKNOWN_OPCODE
    | some o =>
      if !o.targets.contains c.target.toNat then some St.BAD_PARAM
      else if !s.dev.full && !o.kindling then some St.BUSY
      else if s.dev.full && !o.full then some St.BAD_PARAM
      else if c.flags.toNat / 4 ≠ 0 then some St.BAD_PARAM
      else if !o.anyHost && !s.owns c.hp c.target.toNat then some St.NOT_OWNER
      else none

/-- Whether the target is not free (R175, R336, R338, R347), for a command that has passed check 7. -/
def State.targetHeld (s : State) (o : Op) (c : Cmd) : Bool :=
  let t := c.target.toNat
  let other := s.running.any fun r => r.cmd.target = c.target && r.cmd.hp ≠ c.hp
  if t = 15 then !o.anyHost && other
  else if t = 8 then other && s.owns c.hp t
  else
    let v := (s.port (toPort t)).svc
    (other && s.owns c.hp t) || (v.pass.isSome && o.opcode ≠ 0x0302) || (o.served && v.svc ≠ .opened)

/-- The inactive image slot, which IMAGE_LOAD writes (R390): slot 1 on a flash of at least 4 MB whose slot 0 is
active, else slot 0. -/
def State.loadSlot (s : State) : Nat := if Config.twoSlots ∧ s.kiln.active = 0 then 1 else 0

/-- An IMAGE_LOAD chain that ends without its last segment marks its slot invalid (R390). -/
def State.chainLost (s : State) (opcode : Half) : State :=
  if opcode = 0x0A00 then { s with flashState := s.flashState.set s.loadSlot 2 } else s

/-- The chain of a host port on a target. -/
def HostPort.chainOf (h : HostPort) (t : Byte) : Option Chain := h.chains.find? (·.target == t)

/-- A host port without its chain on a target. -/
def HostPort.noChain (h : HostPort) (t : Byte) : HostPort := { h with chains := h.chains.filter (·.target ≠ t) }

/-- An open chain discarded (R327). -/
def State.dropChain (s : State) (hp : HostNum) (t : Byte) : State :=
  match (s.host hp).chainOf t with
  | some ch => if ch.expired then s else (s.modHost hp fun h => h.noChain t).chainLost ch.opcode
  | none => s

/-- The open chains of every host port on a target discarded (R327). -/
def State.dropChains (s : State) (t : Nat) : State := allHosts.foldl (fun u h => u.dropChain h (BitVec.ofNat 8 t)) s

/-- A chain opened or carried on. -/
def State.putChain (s : State) (hp : HostNum) (ch : Chain) : State :=
  s.modHost hp fun h => { h.noChain ch.target with chains := ch :: h.chains.filter (·.target ≠ ch.target) }

/-- The answer to a segment: OK with SEGACK (R326). -/
def State.segAck (s : State) (c : Cmd) : State :=
  let p := respPkt c St.OK [] 2 true none
  let s : State := { s with raised := s.raised ++ [OutItem.response c.hp [p]] }
  s.modHost c.hp fun h =>
    { h with
      open_ := markAnswered c.raw h.open_
      kept := { target := c.target, raw := c.raw, pkts := [p] } :: h.kept.filter (·.target ≠ c.target) }

/-- A segment with MORE (R326), with the bytes of the chain before it. -/
def State.segment (s : State) (o : Op) (c : Cmd) (data : List Byte) : State :=
  if c.payload.isEmpty then s.respond c St.BAD_LENGTH
  else if o.bound < data.length + c.payload.length then (s.dropChain c.hp c.target).respond c St.BAD_LENGTH
  else
    let s := o.onSegment c data.length s
    (s.putChain c.hp { target := c.target, opcode := c.opcode, data := data ++ c.payload, expired := false }).segAck c

/-- The chain on a target is over; the mark of an expired one stays (R327). -/
def HostPort.endChain (h : HostPort) (t : Byte) : HostPort :=
  { h with chains := h.chains.filter fun x => x.target != t || x.expired }

/-- Whether a command needs the PLL (R480): it names a reader port, or its row says so. -/
def Op.needsPll (o : Op) (c : Cmd) : Bool := (c.target.toNat < 8 && !isClaim o.opcode) || o.pll

/-- The device waits for the PLL: in DOZE, or between a wake and the lock (R480, R485). -/
def State.pllAwaited (s : State) : Bool := s.dev.power == .doze || s.dev.wokeAt.isSome

/-- The command with its whole payload: check 9, then its meaning, after the PLL's lock where it needs the PLL (R326,
R480, R485, R596). -/
def State.conclude (s : State) (o : Op) (c : Cmd) (data : List Byte) : State :=
  let full : Cmd := { c with payload := data ++ c.payload }
  if o.bound < full.payload.length ∨ !o.lens c.target.toNat full.payload.length then
    (s.dropChain c.hp c.target).respond c St.BAD_LENGTH
  else
    let s := o.onSegment c data.length s
    let s := s.modHost c.hp fun h => h.endChain c.target
    if o.needsPll c && s.pllAwaited then ((s.pcrSet CLKCTL.PLL_EN 1).begin full .lock) else o.body full s

/-- Check 8 and what follows, for a command that has passed check 7; `dup` says that another command of the host
port is outstanding on the target (R322, R323, R326, R327). -/
def State.decideOp (s : State) (o : Op) (c : Cmd) (dup : Bool) : State :=
  if dup then s.respond c St.BUSY
  else
    let ch := (s.host c.hp).chainOf c.target
    let expired := ch.any fun x => x.expired && x.opcode == c.opcode
    let open_ := ch.any fun x => !x.expired
    if expired then (s.modHost c.hp fun h => h.noChain c.target).respond c St.TIMEOUT
    else if open_ && !(ch.any fun x => x.opcode == c.opcode) then s.respond c St.BUSY
    else if c.flags.getLsbD 1 then (s.dropChain c.hp c.target).respond c St.OK
    else if s.targetHeld o c || o.gate c s then s.respond c St.BUSY
    else
      let data := match ch with
        | some x => if x.expired then [] else x.data
        | none => []
      if c.flags.getLsbD 0 then s.segment o c data else s.conclude o c data

/-- A kept exchange sent again (R324): every packet unchanged. -/
def State.resend (s : State) (c : Cmd) (k : Kept) : State :=
  let s := s.modHost c.hp fun h => { h with open_ := h.open_ ++ [⟨c.target, c.raw, true⟩] }
  { s with raised := s.raised ++ [OutItem.response c.hp k.pkts] }

/-- Which commands of a tick have reached check 7 (R337): claims and releases by target and host port, and the host
port of a device command that needs ownership. -/
structure Contest where
  claims : List (Nat × HostNum)
  device : Option HostNum
  deriving DecidableEq, Repr

/-- Whether a command meets a conflict with one that was decided before it in its tick (R337). -/
def Contest.conflict (k : Contest) (o : Op) (c : Cmd) : Bool :=
  if isClaim o.opcode then k.claims.any fun x => x.1 = c.target.toNat && x.2 ≠ c.hp
  else if c.target.toNat = 15 && !o.anyHost then k.device.any fun h => h ≠ c.hp
  else false

/-- The contest with a command that has reached check 7. -/
def Contest.add (k : Contest) (o : Op) (c : Cmd) : Contest :=
  if isClaim o.opcode then { k with claims := k.claims ++ [(c.target.toNat, c.hp)] }
  else if c.target.toNat = 15 && !o.anyHost then { k with device := some (k.device.getD c.hp) }
  else k

/-- A packet whose CRC is right, through the checks of R322. -/
def State.decideCmd (s : State) (k : Contest) (op : Option Op) (c : Cmd) : Contest × State :=
  let h := s.host c.hp
  if h.open_.any (·.raw == c.raw) then (k, s)
  else match h.kept.find? (fun x => x.target = c.target && x.raw == c.raw) with
    | some x => (k, s.resend c x)
    | none =>
      let dup := h.open_.any (·.target == c.target)
      let s1 := s.modHost c.hp fun x => { x with open_ := x.open_ ++ [⟨c.target, c.raw, false⟩] }
      match s.checkEarly op c, op with
      | some st, _ => (k, s1.respond c st)
      | none, none => (k, s1)
      | none, some o =>
        if k.conflict o c then (k, s1.respond c St.CONFLICT) else (k.add o c, s1.decideOp o c dup)

/-- Whether a host port's receiver runs: clocked, outside reset. -/
def State.hostRuns (s : State) (hp : HostNum) : Bool := !s.dev.inReset && (s.host hp).awake

/-- A count of HPERR raised by 1, saturating at 255. -/
def HostPort.count1 (h : HostPort) (f : Fld) (n : Nat := 1) : HostPort := h.set f (min 255 (h.get f + n))

/-- A packet that lands alone in its tick, decided, or held until the host port's DEV_READY has been queued (R321,
R333). A LEN above 4,092 is a framing error (R319). -/
def State.hostPacket (op : Option Op) (opcode : Half) (h : HostCmd) (s : State) : State :=
  if !s.hostRuns h.hp then s
  else if 4092 < h.payload.length then s.modHost h.hp fun x => x.count1 HPERR.TRUNC
  else
    let raw := cmdBytes h.flags h.seq h.target opcode h.payload
    if !(s.host h.hp).ready then s.modHost h.hp fun x => { x with landed := x.landed ++ [raw] }
    else
      (s.decideCmd ⟨[], none⟩ op
        { hp := h.hp, seq := h.seq, flags := h.flags, target := h.target, opcode, payload := h.payload, raw }).2

/-- The packet of a row's command. -/
def State.hostRow (op : Op) (h : HostCmd) (s : State) : State := s.hostPacket (some op) (BitVec.ofNat 16 op.opcode) h

end Sys2Proof.Machine
end

