-- ==== Sys2Proof/Machine/Table.lean ====
section
/-! DEFINITION. The tag table and its lookup unit (R193-R208). -/

namespace Sys2Proof.Machine

/-- A tag-table entry, field by field (R193). USED is 1 in every entry. -/
structure Entry where
  uid : List Byte
  uidlen : Nat
  proto : Nat
  port : Nat
  ant : Nat
  flags : Nat
  first : Nat
  last : Nat
  rssi : Int
  phase : Nat
  seen : Nat
  appear : Nat
  miss : Nat
  sec : Nat
  passseq : Nat
  deriving DecidableEq, Repr

/-- FLAGS bits of byte 13. -/
def flagPresent : Nat := 1
def flagSuspect : Nat := 2
def flagRelay : Nat := 4
def flagHalted : Nat := 8
def flagSeparated : Nat := 16

/-- A mask's bits set in a byte. -/
def bitsOn (v m : Nat) : Nat := v ||| m

/-- A mask's bits cleared in a byte. -/
def bitsOff (v m : Nat) : Nat := (v ||| m) ^^^ m

/-- The entry read from its bytes. -/
def entryOf (b : List Byte) : Entry :=
  { uid := b.take 10, uidlen := byteAt b 10 % 16, proto := byteAt b 10 / 16, port := byteAt b 11 % 8
    ant := byteAt b 12 % 64, flags := byteAt b 13 % 32, first := leAt b 14 4, last := leAt b 18 4
    rssi := le16s b 22, phase := byteAt b 24, seen := leAt b 25 2, appear := byteAt b 27 % 16
    miss := byteAt b 27 / 16, sec := byteAt b 28 % 16, passseq := byteAt b 29 }

/-- The entry's bytes with their CRC. -/
def entryPack (e : Entry) : List Byte :=
  let body := padTo 10 e.uid ++ leBytes 1 (e.uidlen % 16 + 16 * e.proto) ++ leBytes 1 (e.port % 8 + 8)
    ++ leBytes 1 (e.ant % 64) ++ leBytes 1 (e.flags % 32) ++ leBytes 4 e.first ++ leBytes 4 e.last
    ++ leBytes 2 (unsigned 16 e.rssi) ++ leBytes 1 e.phase ++ leBytes 2 e.seen
    ++ leBytes 1 (e.appear % 16 + 16 * (e.miss % 16)) ++ leBytes 1 (e.sec % 16) ++ leBytes 1 e.passseq
  body ++ CrcKind.crcO.bytes body

/-- A key: PROTO, UIDLEN and the ten UID bytes (R196). -/
abbrev Key := List Byte

/-- The key of a tag. -/
def keyOf (proto uidlen : Nat) (uid : List Byte) : Key := leBytes 1 proto ++ leBytes 1 uidlen ++ padTo 10 uid

/-- The key in an entry's bytes. -/
def keyOfBytes (b : List Byte) : Key := keyOf (byteAt b 10 / 16) (byteAt b 10 % 16) (b.take 10)

/-- The home index of a key (R196). -/
def homeOf (k : Key) : Nat := (CrcKind.crcO.of k).toNat % 8192

/-- Whether an entry's bytes hold a tag. -/
def usedBytes (b : List Byte) : Bool := (b.getD 11 0).getLsbD 3

/-- The bytes at an index, when it holds a tag. -/
def State.slotAt (s : State) (i : Nat) : Option (List Byte) := (Sparse.find s.table i).filter usedBytes

/-- Entries in use. -/
def State.ttUsed (s : State) : Nat := (s.table.filter fun e => usedBytes e.2).length

/-- Whether an entry at `j` whose home is `h` may move back to the gap `g` (R197). -/
def mayMove (g j h : Nat) : Bool := (j + 8192 - g) % 8192 ≤ (j + 8192 - h) % 8192

/-- The rest of a probe run moved back over the gap `g`, from index `j` on (R197). -/
def State.shiftBack : Nat → Nat → Nat → State → State
  | 0, _, _, s => s
  | n + 1, g, j, s =>
    match s.slotAt j with
    | none => { s with table := Sparse.del s.table g }
    | some b =>
      if mayMove g j (homeOf (keyOfBytes b)) then
        State.shiftBack n j ((j + 1) % 8192) { s with table := Sparse.put s.table g b }
      else State.shiftBack n g ((j + 1) % 8192) s

/-- An entry deleted by backward shift; GEN counts it (R197, R369). -/
def State.ttRemove (s : State) (i : Nat) : State :=
  let s := State.shiftBack 8192 i ((i + 1) % 8192) s
  { s with ttGen := (s.ttGen + 1) % 65536 }

/-- Whether an entry's CRC holds (R193). -/
def entryGood (b : List Byte) : Bool := CrcKind.crcO.ok (b.take 32)

/-- An entry whose CRC fails is deleted, logged and reported (R200). -/
def State.ttFault (s : State) (i : Nat) : State :=
  ((s.ttRemove i).ash 0x0061 0x0F (leBytes 2 i)).raiseDev 0x0388 (leBytes 2 i)

/-- What a lookup ends with. -/
inductive Probe where
  | found (i : Nat)
  | free (i : Nat)
  | full
  deriving DecidableEq, Repr

/-- Probing from an index on; `left` indices remain (R196, R200). -/
def State.probeN (k : Key) : Nat → Nat → Nat → State → Probe × State
  | 0, _, _, s => (.full, s)
  | n + 1, left, i, s =>
    match s.slotAt i with
    | none => (.free i, s)
    | some b =>
      if !entryGood b then State.probeN k n left i (s.ttFault i)
      else if keyOfBytes b = k then (.found i, s)
      else if left = 0 then (.full, s)
      else State.probeN k n (left - 1) ((i + 1) % 8192) s

/-- A lookup by key (R196). -/
def State.ttLookup (s : State) (k : Key) : Probe × State := State.probeN k 16384 8191 (homeOf k) s

/-- An entry stored. -/
def State.ttStore (s : State) (i : Nat) (e : Entry) : State := { s with table := Sparse.put s.table i (entryPack e) }

/-- The entry at an index. -/
def State.ttEntry (s : State) (i : Nat) : Entry := entryOf ((Sparse.find s.table i).getD [])

/-- The absent entry whose LAST_SEEN is oldest, ties to the lowest index (R199). -/
def oldestAbsent : List (Nat × List Byte) → Option (Nat × Nat) → Option (Nat × Nat)
  | [], a => a
  | (i, b) :: r, a =>
    let e := entryOf b
    if e.flags % 2 = 1 then oldestAbsent r a
    else match a with
      | none => oldestAbsent r (some (i, e.last))
      | some (j, t) => oldestAbsent r (some (if e.last < t then (i, e.last) else (j, t)))

/-- TT_FULL (R199). -/
def State.ttFull (s : State) : State :=
  s.raiseDev 0x0387 (leBytes 2 s.ttUsed ++ leBytes 1 (bit s.ttFullPolicy))

/-- A new entry stored where a lookup ended: at its free index, or in the place of the oldest absent entry of a full
table; the state is unchanged when neither is possible (R199). -/
def State.ttInsert (s : State) (at_ : Probe) (k : Key) (e : Entry) : Option (Nat × State) :=
  match at_ with
  | .found i => some (i, s)
  | .free i =>
    let s := s.ttStore i e
    some (i, if s.ttUsed = 8192 then s.ttFull else s)
  | .full =>
    if !s.ttFullPolicy then none
    else match oldestAbsent s.table none with
      | none => none
      | some (j, _) =>
        let s := s.ttRemove j
        match s.ttLookup k with
        | (.free i, t) => some (i, t.ttStore i e)
        | _ => none

/-- A change of the entry with a key, when there is one. -/
def State.ttModify (s : State) (k : Key) (f : Entry → Entry) : State :=
  match s.ttLookup k with
  | (.found i, t) => t.ttStore i (f (t.ttEntry i))
  | (_, t) => t

end Sys2Proof.Machine
end

