-- ==== Sys2Proof/Machine/Inventory.lean ====
section
/-! DEFINITION. Inventory passes, sightings and slot ends, and the host's inventory and table commands (R173-R209,
R366-R370). -/

namespace Sys2Proof.Machine

/-! ## Parameters (R173, R367) -/

/-- The antennas of ANTLIST in ascending order. -/
def invAnts (inv : List Byte) : List Nat := (List.range 64).filter fun i => nbit (leAt inv 0 8) i

/-- USER, APPEAR, DISAPPEAR, MOVE_DB, FAULTLIM and PERIOD. -/
def invUser (inv : List Byte) : Nat := leAt inv 8 2
def invAppear (inv : List Byte) : Nat := byteAt inv 23
def invDisappear (inv : List Byte) : Nat := byteAt inv 24
def invMove (inv : List Byte) : Nat := byteAt inv 25
def invFaultLim (inv : List Byte) : Nat := byteAt inv 26
def invPeriod (inv : List Byte) : Nat := leAt inv 28 2

/-- The parameters last written. -/
def PortSvc.invSet (v : PortSvc) : List Byte := v.invNext.getD v.inv

/-- An antenna removed from ANTLIST (R190). -/
def invWithout (inv : List Byte) (ant : Nat) : List Byte :=
  leBytes 8 (leAt inv 0 8 - (if nbit (leAt inv 0 8) ant then 2 ^ ant else 0)) ++ inv.drop 8

/-- Whether the used PROTO bytes are codings, each listed once, and the unused ones 0xFF. -/
def protosOk (n : Nat) (l : List Nat) : Bool :=
  (l.take n).all (· ≤ 4) && (l.take n).Nodup && (l.drop n).all (· == 0xFF)

/-- Whether 30 bytes lie in the ranges of R173 and R367. -/
def invOk (b : List Byte) : Bool :=
  let v := byteAt b
  let n := v 10
  leAt b 8 2 ≤ 0x3FF && 1 ≤ n && n ≤ 5 && protosOk n [v 11, v 12, v 13, v 14, v 15]
    && 1 ≤ leAt b 16 2 && leAt b 16 2 ≤ 200 && 1 ≤ v 18 && v 18 ≤ 32 && v 19 ≤ 1
    && [1, 2, 4, 8, 16].contains (v 20) && [1, 16].contains (v 21) && 1 ≤ v 23 && v 23 ≤ 15
    && 1 ≤ v 24 && v 24 ≤ 15 && v 25 ≤ 30 && 1 ≤ v 26 && v 26 ≤ 15

/-! ## Events about tags (R206, R207) -/

/-- TAG_APPEAR and TAG_DISAPPEAR share their first 16 bytes. -/
def tagHead (e : Entry) : List Byte :=
  keyOf e.proto e.uidlen e.uid ++ leBytes 1 e.port ++ leBytes 1 e.ant ++ leBytes 1 e.flags ++ [0]

/-- TAG_MOVED: to the owner of the new port, and of the old one where it differs. -/
def State.raiseMoved (s : State) (oldPort oldAnt : Nat) (e : Entry) (rssi : Int) : State :=
  let pl := keyOf e.proto e.uidlen e.uid ++ leBytes 1 oldPort ++ leBytes 1 oldAnt ++ leBytes 1 e.port
    ++ leBytes 1 e.ant ++ leBytes 2 (unsigned 16 rssi)
  let t := s.raiseOwner e.port 0x0382 pl
  match s.ownerOf oldPort with
  | some h => if s.ownerOf e.port = some h then t else t.raiseTo h e.port 0x0382 pl
  | none => t

/-! ## A sighting (R203) -/

/-- A sighting message as R451 lays it out. -/
structure Sighted where
  key : Key
  uidlen : Nat
  proto : Nat
  uid : List Byte
  ant : Nat
  separated : Bool
  halted : Bool
  rssi : Int
  phase : Nat
  deriving DecidableEq, Repr

/-- The sighting in DBH_MSG. -/
def State.sightingMsg (s : State) (p : PortNum) : Sighted :=
  let q := s.port p
  let m1 := q.word (DBH_MSG.reg + 4)
  let uid := (wordsBytes [q.word (DBH_MSG.reg + 12), q.word (DBH_MSG.reg + 16), q.word (DBH_MSG.reg + 20)]).take 10
  let uidlen := wget m1 0 4
  let proto := wget m1 4 4
  { key := keyOf proto uidlen uid, uidlen, proto, uid, ant := wget m1 8 6, separated := wget m1 14 1 == 1
    halted := wget m1 15 1 == 1, rssi := signed 16 (wget m1 16 16), phase := wget (q.word (DBH_MSG.reg + 8)) 0 8 }

/-- What the sighting does to an entry that it does not leave as a cross-read: the end of the code of R203. The
flag says that TAG_APPEAR is raised. -/
def sightEntry (m : Sighted) (census : Bool) (appearCnt pass now : Nat) (e : Entry) : Entry × Bool :=
  let e := { e with
    last := now
    seen := min 65535 (e.seen + 1)
    phase := m.phase
    passseq := pass % 256
    miss := 0
    flags := bitsOn (bitsOff e.flags (flagHalted + flagSeparated)) (if m.separated then flagSeparated else 0) }
  if e.flags % 2 = 1 then (e, false)
  else if census then ({ e with flags := bitsOn e.flags flagPresent }, false)
  else
    let e := { e with appear := min 15 (e.appear + 1) }
    if appearCnt ≤ e.appear then ({ e with flags := bitsOn e.flags flagPresent }, true) else (e, false)

/-- A new entry of a sighting. -/
def newEntry (m : Sighted) (p : PortNum) (now : Nat) : Entry :=
  { uid := m.uid, uidlen := m.uidlen, proto := m.proto, port := p.val, ant := m.ant, flags := 0, first := now
    last := now, rssi := m.rssi, phase := 0, seen := 0, appear := 0, miss := 0, sec := 0, passseq := 0 }

/-- The sighting stored at an index, with TAG_APPEAR when it is due. -/
def State.sightStore (s : State) (p : PortNum) (m : Sighted) (i : Nat) (e : Entry) : State :=
  let v := (s.port p).svc
  let census := (v.pass.map (·.census)).getD false
  let (e, appears) := sightEntry m census (invAppear v.inv) v.passNum s.seconds e
  let s := s.ttStore i e
  if appears then s.raiseOwner p.val 0x0380 (tagHead e ++ leBytes 2 (unsigned 16 e.rssi)) else s

/-- An untracked sighting (R199). -/
def State.untracked (s : State) (p : PortNum) : State :=
  s.modSvc p fun v =>
    { v with
      untracked := min (2 ^ 32 - 1) (v.untracked + 1)
      pass := v.pass.map fun x => { x with untracked := min 65535 (x.untracked + 1) } }

/-- A sighting applied to the table. -/
def State.sight (s : State) (p : PortNum) (m : Sighted) : State :=
  let now := s.seconds
  match s.ttLookup m.key with
  | (.found i, t) =>
    let e := t.ttEntry i
    if e.port ≠ p.val ∨ e.ant ≠ m.ant then
      if m.rssi < e.rssi - 4 * invMove (t.port p).svc.inv then
        t.ttStore i { e with last := now, seen := min 65535 (e.seen + 1) }
      else
        let e' := { e with port := p.val, ant := m.ant, rssi := m.rssi }
        let t := if e.flags % 2 = 1 then t.raiseMoved e.port e.ant e' m.rssi else t
        t.sightStore p m i e'
    else t.sightStore p m i { e with rssi := e.rssi + (m.rssi - e.rssi + 2) / 4 }
  | (pr, t) =>
    match t.ttInsert pr m.key (newEntry m p now) with
    | some (i, t) => t.sightStore p m i (newEntry m p now)
    | none => t.untracked p

/-! ## A slot end (R190, R204, R206) -/

/-- What a COMPLETE slot does to an entry of its antenna that it did not sight; the flag says that TAG_DISAPPEAR is
raised (R204). -/
def missEntry (disappearCnt pass : Nat) (e : Entry) : Entry × Bool :=
  let e := { e with passseq := pass % 256 }
  if e.flags % 2 = 1 then
    let m := min 15 (e.miss + 1)
    if disappearCnt ≤ m then
      ({ e with flags := bitsOff e.flags flagPresent, sec := 0, appear := 0, miss := 0 }, true)
    else ({ e with miss := m }, false)
  else ({ e with appear := 0 }, false)

/-- One entry of the table at the end of a COMPLETE slot. -/
def State.missAt (p : PortNum) (ant : Nat) (s : State) (i : Nat) : State :=
  match s.slotAt i with
  | none => s
  | some b =>
    let e := entryOf b
    let v := (s.port p).svc
    if e.port = p.val ∧ e.ant = ant ∧ e.passseq ≠ v.passNum % 256 then
      if !entryGood b then s.ttFault i
      else
        let (e, gone) := missEntry (invDisappear v.inv) v.passNum e
        let s := s.ttStore i e
        if gone then s.raiseOwner p.val 0x0381 (tagHead e ++ leBytes 4 e.last) else s
    else s

/-- The misses of a COMPLETE slot, and HALTED for the tags it left halted (R204). -/
def State.countMisses (s : State) (p : PortNum) (ant : Nat) (halted : List Key) : State :=
  let s := (s.table.map (·.1)).foldl (State.missAt p ant) s
  halted.foldl (fun t k => t.ttModify k fun e =>
    if e.port = p.val ∧ e.ant = ant then { e with flags := bitsOn e.flags flagHalted } else e) s

/-- SLOT_ALERT. -/
def State.slotAlert (s : State) (p : PortNum) (ant status : Nat) : State :=
  s.raiseOwner p.val 0x0384 (leBytes 1 p.val ++ leBytes 1 ant ++ leBytes 1 status)

/-- Whether a slot's OVERFULL or UNRESOLVED is new: COMPLETE in the previous pass or not visited in it (R206). -/
def alertNew (prev : List (Nat × Nat)) (ant : Nat) : Bool :=
  match prev.find? (·.1 == ant) with
  | some x => x.2 == 0
  | none => true

/-- Faulted passes of an antenna counted; at FAULTLIM in succession it leaves ANTLIST (R190). -/
def State.faultRun (s : State) (p : PortNum) (ant status : Nat) : State :=
  let v := (s.port p).svc
  let was := ((v.faultRuns.find? (·.1 == ant)).map (·.2)).getD 0
  let rest := v.faultRuns.filter (·.1 ≠ ant)
  if status ≠ 3 then s.modSvc p fun v => { v with faultRuns := rest }
  else if invFaultLim v.inv ≤ was + 1 then
    (s.modSvc p fun v => { v with
      faultRuns := rest
      inv := invWithout v.inv ant
      invNext := v.invNext }).slotAlert p ant 3
  else s.modSvc p fun v => { v with faultRuns := (ant, was + 1) :: rest }

/-- The slot in progress ends with a status. -/
def State.slotEnds (s : State) (p : PortNum) (status : Nat) : State :=
  match (s.port p).svc.pass with
  | none => s
  | some x => match x.slot with
    | none => s
    | some ant =>
      let s := if status = 0 then s.countMisses p ant x.halted else s
      let alert := (status = 1 ∨ status = 2) ∧ alertNew (s.port p).svc.prevSlots ant
      let s := if alert then s.slotAlert p ant status else s
      let s := s.modSvc p fun v => { v with
        pass := v.pass.map fun y => { y with
          slot := none
          halted := []
          counts := y.counts.set status (y.counts.getD status 0 + 1)
          visited := y.visited ++ [(ant, status)] } }
      s.faultRun p ant status

/-! ## Passes (R175-R177, R191, R192, R205) -/

/-- A pass starts: the parameters written since the last one apply. -/
def State.passStart (s : State) (p : PortNum) : State :=
  let v := (s.port p).svc
  let inv := v.invSet
  s.modSvc p fun v => { v with
    inv
    invNext := none
    series := invPeriod inv != 0
    passNum := (v.passNum + 1) % 2 ^ 32
    censusDue := false
    pass := some
      { num := (v.passNum + 1) % 2 ^ 32, left := invAnts inv, slot := none, counts := [0, 0, 0, 0], untracked := 0
        census := v.censusDue && !s.ttCensusEvents, stop := false, fault := none, visited := [], halted := [] } }

/-- PRESENT entries of a port. -/
def State.presentOn (s : State) (p : PortNum) : Nat :=
  (s.table.filter fun e => usedBytes e.2 && (entryOf e.2).port == p.val && (entryOf e.2).flags % 2 == 1).length

/-- A pass ends with a reason and a status: INV_CENSUS after a census, then INV_DONE (R205, R206). -/
def State.passDone (s : State) (p : PortNum) (x : Pass) (reason status : Nat) (goOn : Bool) : State :=
  let s := s.modSvc p fun v => { v with
    pass := none
    prevSlots := x.visited
    series := v.series && goOn }
  let s := if x.census then
      s.raiseOwner p.val 0x0385 (leBytes 1 p.val ++ [0] ++ leBytes 2 (s.presentOn p) ++ leBytes 2 x.untracked)
    else s
  s.raiseOwner p.val 0x0386 (leBytes 1 p.val ++ leBytes 1 reason ++ leBytes 4 x.num
    ++ x.counts.flatMap (leBytes 1 ·) ++ leBytes 2 x.untracked ++ leBytes 2 status)

/-- The pass of a port ends at once because the port is reset, reloaded or isolated; continuous passes stop
(R192, R544). -/
def State.passReset (s : State) (p : PortNum) : State :=
  match (s.port p).svc.pass with
  | some x => s.passDone p x 3 0 false
  | none => s.modSvc p fun v => { v with series := false }

/-- The pass of a port ends: by a fault, stopped between slots, or complete. -/
def State.passEnd (s : State) (p : PortNum) : State :=
  match (s.port p).svc.pass with
  | none => s
  | some x =>
    match x.fault with
    | some st =>
      let s := if x.slot.isSome then s.slotEnds p 3 else s
      match (s.port p).svc.pass with
      | some y => s.passDone p y 2 st false
      | none => s
    | none =>
      if x.slot.isSome then s
      else if x.left.isEmpty then s.passDone p x 0 0 (!x.stop)
      else if x.stop then s.passDone p x 1 0 false
      else s

/-! ## Mailbox -/

/-- The image's mailbox area (R454). -/
def State.mboxOfs (s : State) (p : PortNum) : Nat := s.imgHalf p 28
def State.mboxLen (s : State) (p : PortNum) : Nat := s.imgHalf p 30

/-- Bytes put into the mailbox area, as many as it holds. -/
def State.putMbox (s : State) (p : PortNum) (l : List Byte) : State :=
  let l := l.take (s.mboxLen p)
  let a := s.mboxOfs p
  s.modEng p fun e => { e with data := e.data.putBytes a l }

/-- Bytes of the mailbox area. -/
def State.getMbox (s : State) (p : PortNum) (n : Nat) : List Byte :=
  (s.port p).eng.data.bytes (s.mboxOfs p) (min n (s.mboxLen p))

/-- The next slot of a pass: the engine is rung with a slot request (R176, R451). -/
def State.slotStart (s : State) (p : PortNum) : State :=
  match (s.port p).svc.pass with
  | none => s
  | some x => match x.slot, x.left with
    | none, ant :: rest =>
      if x.stop ∨ x.fault.isSome ∨ (s.port p).svc.svc ≠ .opened then s
      else
        let inv := (s.port p).svc.inv
        let s := s.modSvc p fun v => { v with pass := some { x with slot := some ant, left := rest, halted := [] } }
        (s.putMbox p inv).ringEngine p
          [BitVec.ofNat 32 (ant + 64 * invUser inv), 3, BitVec.ofNat 32 x.num]
    | _, _ => s

/-- A message of a kind stands in DBH_MSG. -/
def State.rung (s : State) (p : PortNum) (kind : Nat) : Bool :=
  s.pget p DBH_RING.RING == 1 && wget ((s.port p).word DBH_MSG.reg) 0 8 == kind

/-- A message taken: Hearth acknowledges it by clearing the ring (R449). -/
def State.ackMsg (s : State) (p : PortNum) : State := s.pset p DBH_RING.RING 0

/-! ## The bodies of the inventory group -/

/-- A port's Aelyr link session and active tags end (R372). -/
def State.endSession (s : State) (p : PortNum) : State :=
  s.modSvc p fun v => { v with session := none, picc := none, osgil := none }

/-- INV_CONFIG (R367). -/
def bodyInvConfig (c : Cmd) (s : State) : State :=
  if !invOk c.payload then s.respond c St.BAD_PARAM
  else (s.modSvc (toPort c.target.toNat) fun v => { v with invNext := some (c.payload.set 27 0) }).respond c St.OK

/-- INV_START (R175). -/
def bodyInvStart (c : Cmd) (s : State) : State :=
  let p := toPort c.target.toNat
  if (s.port p).svc.series then s.respond c St.BUSY
  else
    let s := (s.endSession p).passStart p
    s.respond c St.OK (leBytes 4 (s.port p).svc.passNum)

/-- INV_STOP (R177, R368). -/
def bodyInvStop (c : Cmd) (s : State) : State :=
  (s.modSvc (toPort c.target.toNat) fun v => { v with
    series := false
    pass := v.pass.map fun x => { x with stop := true } }).respond c St.OK

/-- INV_QUERY (R366). -/
def bodyInvQuery (c : Cmd) (s : State) : State :=
  s.respond c St.OK (s.port (toPort c.target.toNat)).svc.invSet

/-- The port that a table read is limited to (R202). -/
def ttScope (c : Cmd) (b : List Byte) : Bool := c.target.toNat = 15 || byteAt b 11 % 8 == c.target.toNat

/-- TT_READ's filter. -/
def ttFilter (f : Nat) (b : List Byte) : Bool :=
  (!nbit f 0 || (b.getD 13 0).getLsbD 0) && (!nbit f 1 || (b.getD 13 0).getLsbD 1 || (b.getD 13 0).getLsbD 2)

/-- Entries read from an index on, until `room` are taken or the table ends; the index to go on from (R200, R369). -/
def State.ttScan (c : Cmd) (f : Nat) : Nat → Nat → Nat → List (Nat × List Byte) → State →
    List (Nat × List Byte) × Nat × State
  | 0, i, _, acc, s => (acc, i, s)
  | n + 1, i, room, acc, s =>
    if 8192 ≤ i then (acc, 0xFFFF, s)
    else if room = 0 then (acc, i, s)
    else match s.slotAt i with
      | none => State.ttScan c f n (i + 1) room acc s
      | some b =>
        if !entryGood b then State.ttScan c f n i room acc (s.ttFault i)
        else if ttScope c b && ttFilter f b then State.ttScan c f n (i + 1) (room - 1) (acc ++ [(i, b)]) s
        else State.ttScan c f n (i + 1) room acc s

/-- TT_READ (R366, R369). -/
def bodyTtRead (c : Cmd) (s : State) : State :=
  let start := leAt c.payload 0 2
  let mx := byteAt c.payload 2
  let f := byteAt c.payload 3
  if mx < 1 ∨ 120 < mx ∨ 3 < f ∨ 8191 < start then s.respond c St.BAD_PARAM
  else
    let (l, next, s) := State.ttScan c f 16385 start mx [] s
    s.respond c St.OK (leBytes 2 next ++ leBytes 2 s.ttGen ++ leBytes 1 l.length ++ [0]
      ++ l.flatMap fun x => leBytes 2 x.1 ++ x.2)

/-- Whether twelve bytes are a key: a coding and a UID length (R193, R196). -/
def keyOk (k : List Byte) : Bool := byteAt k 0 ≤ 4 && [4, 5, 7, 8, 10].contains (byteAt k 1)

/-- TT_FIND (R197, R202). -/
def bodyTtFind (c : Cmd) (s : State) : State :=
  if !keyOk c.payload then s.respond c St.BAD_PARAM
  else match s.ttLookup c.payload with
    | (.found i, t) =>
      let b := ((Sparse.find t.table i).getD [])
      if ttScope c b then t.respond c St.OK (leBytes 2 i ++ b) else t.respond c St.NO_TAG
    | (_, t) => t.respond c St.NO_TAG

/-- TT_DELETE (R202, R369). -/
def bodyTtDelete (c : Cmd) (s : State) : State :=
  if !keyOk c.payload then s.respond c St.BAD_PARAM
  else match s.ttLookup c.payload with
    | (.found i, t) => (t.ttRemove i).respond c St.OK
    | (_, t) => t.respond c St.NO_TAG

/-- TT_CLEAR: the next pass of each port is a census (R370). -/
def bodyTtClear (c : Cmd) (s : State) : State :=
  let s := { s with table := [], ttGen := (s.ttGen + 1) % 65536 }
  (allPorts.foldl (fun t p => t.modSvc p fun v => { v with censusDue := true }) s).respond c St.OK

/-- TT_SET_FLAGS (R202, R370). -/
def bodyTtSetFlags (c : Cmd) (s : State) : State :=
  let set := byteAt c.payload 12
  let clear := byteAt c.payload 13
  if !keyOk (c.payload.take 12) ∨ set &&& 0xF9 ≠ 0 ∨ clear &&& 0xF9 ≠ 0 ∨ set &&& clear ≠ 0 then s.respond c St.BAD_PARAM
  else match s.ttLookup (c.payload.take 12) with
    | (.found i, t) =>
      let e := t.ttEntry i
      let e := { e with flags := bitsOn (bitsOff e.flags clear) set }
      (t.ttStore i e).respond c St.OK (leBytes 1 e.flags)
    | (_, t) => t.respond c St.NO_TAG

/-- TT_CONFIG (R370). -/
def bodyTtConfig (c : Cmd) (s : State) : State :=
  let w := byteAt c.payload 0
  if 1 < w ∨ (w = 1 ∧ (1 < byteAt c.payload 1 ∨ 1 < byteAt c.payload 2)) then s.respond c St.BAD_PARAM
  else
    let s := if w = 1 then
      { s with ttFullPolicy := byteAt c.payload 1 == 1, ttCensusEvents := byteAt c.payload 2 == 1 } else s
    s.respond c St.OK (leBytes 1 (bit s.ttFullPolicy) ++ leBytes 1 (bit s.ttCensusEvents) ++ leBytes 2 s.ttUsed)

/-! ## Rows -/

/-- INV_PASS_START (R175): the next pass of a series, once no command runs on the port. -/
def execInvPassStart (p : PortNum) : State → Host.Outcome State Fault Refusal := run fun s =>
  let v := (s.port p).svc
  if v.series && v.pass.isNone && v.svc == .opened && !s.portBusy p then s.passStart p else s

/-- INV_SLOT_START (R176). -/
def execInvSlotStart (p : PortNum) : State → Host.Outcome State Fault Refusal := run fun s => s.slotStart p

/-- INV_PASS_END (R177). -/
def execInvPassEnd (p : PortNum) : State → Host.Outcome State Fault Refusal := run fun s => s.passEnd p

/-- SIGHTING (R203). -/
def execSighting (p : PortNum) : State → Host.Outcome State Fault Refusal := run fun s =>
  if !s.rung p 2 then s
  else if (s.port p).svc.pass.any fun x => x.slot.isSome then
    let m := s.sightingMsg p
    let s := (s.sight p m).ackMsg p
    if m.halted then
      s.modSvc p fun v => { v with pass := v.pass.map fun x => { x with halted := x.halted ++ [m.key] } }
    else s
  else s.ackMsg p

/-- SLOT_END (R204): the message names its antenna and status. -/
def execSlotEnd (p : PortNum) : State → Host.Outcome State Fault Refusal := run fun s =>
  let m1 := (s.port p).word (DBH_MSG.reg + 4)
  if !s.rung p 3 then s
  else if (s.port p).svc.pass.any fun x => x.slot == some (wget m1 0 6) then (s.slotEnds p (wget m1 8 2)).ackMsg p
  else s.ackMsg p

end Sys2Proof.Machine
end

