-- ==== Sys2Proof/Machine/Kiln.lean ====
section
/-! DEFINITION. Kiln: key slots, nonces, debug, images, tamper and the Ash log (R503-R538, R543, R547, R597). -/

namespace Sys2Proof.Machine

/-! ## Key lock and key slots -/

/-- KWSTAT.KEYLOCK follows the sources of key lock (R530-R532). -/
def State.lockSync (s : State) : State :=
  s.kilnSet KWSTAT.KEYLOCK
    (bit (s.kiln.lockTamper || s.kiln.lockHot || s.kiln.lockGlitch || s.kilnGet KWSTAT.DEBUG == 2))

/-- Key lock is on. -/
def State.keyLock (s : State) : Bool := s.kilnGet KWSTAT.KEYLOCK == 1

/-- Kiln has passed its self-test. -/
def State.kilnReady (s : State) : Bool := s.kilnGet KWSTAT.STATE == 1

/-- The key of a slot, reserved slots among them (R507, R508). -/
def State.keyAt (s : State) (n : Nat) : Option KeySlot :=
  match n with
  | 0 => some ⟨4, 0x18, Config.deviceKey⟩
  | 1 => some ⟨5, 0x08, Config.imageKey⟩
  | 2 => some ⟨5, 0x08, Config.debugKey⟩
  | n => (s.kiln.slots.find? (·.1 == n)).map (·.2)

/-- A key of a type in a list, with a usage bit. -/
def KeySlot.fits (k : KeySlot) (types : List Nat) (bitNo : Nat) : Bool := types.contains k.type && nbit k.usage bitNo

/-- A user slot that key lock makes unusable (R532). -/
def State.slotShut (s : State) (n : Nat) : Bool := 3 ≤ n && s.keyLock

/-- A key for use: none while key lock covers its slot. -/
def State.keyFor (s : State) (n : Nat) (types : List Nat) (bitNo : Nat) : Option KeySlot :=
  if s.slotShut n then none else (s.keyAt n).filter fun k => k.fits types bitNo

/-- A slot written or emptied. -/
def State.putSlot (s : State) (n : Nat) (k : Option KeySlot) : State :=
  let rest := s.kiln.slots.filter (·.1 ≠ n)
  { s with kiln := { s.kiln with slots := match k with
    | some x => (n, x) :: rest
    | none => rest } }

/-- The length of a key of a type. -/
def keyLen (type : Nat) : Nat := if type = 1 then 16 else 32

/-- Whether TYPE is known and USAGE fits it: one function bit that the type allows, with bit 6 where it may be set
(R508). -/
def usageFits (type usage : Nat) : Bool :=
  let fn := match type with
    | 1 => [0, 1, 2, 5] | 2 => [5] | 3 => [3] | 4 => [3, 4] | 5 => [1, 3] | _ => []
  let u := if type = 5 then usage else usage % 64 + (usage / 128) * 128
  fn.any fun b => u == 2 ^ b

/-- Whether a DB_RUN in progress uses a slot (R510). -/
def State.slotInRun (s : State) (n : Nat) : Bool := allPorts.any fun p => (s.port p).svc.db.any fun d => d.slot == n

/-- A free byte, for a field of a record that the spec gives no value. -/
def State.drawByte (s : State) : Nat × State := s.drawNat 256

/-- A KEY_CHANGE record (R534). -/
def State.keyChange (s : State) (slot op type usage wrap : Nat) (hp : HostNum) : State :=
  s.ash 0x0020 0x10 (leBytes 1 slot ++ leBytes 1 op ++ leBytes 1 type ++ leBytes 2 usage ++ leBytes 1 wrap
    ++ leBytes 1 hp.val)

/-- Every DB_RUN in progress ends because key lock came on (R247). -/
def State.lockEndsRuns (s : State) : State :=
  allPorts.foldl (fun t p =>
    if (t.port p).svc.db.isSome then (t.endWhere (fun r => r.job == .db p) St.SECURITY_DENIED).dropDb p else t) s

/-- Key lock formed again; runs end when it comes on. -/
def State.relock (s : State) : State :=
  let was := s.keyLock
  let s := s.lockSync
  if s.keyLock && !was then s.lockEndsRuns else s

/-! ## The TRNG (R516, R517) -/

/-- The TRNG delivers. -/
def State.trngReady (s : State) : Bool := s.kilnGet KWSTAT.TRNG == 1

/-- A SELF_CHECK record; its BLOCK and DETAIL codes are not given (log entry 17). -/
def State.selfCheck (s : State) : State :=
  let (b, s) := s.drawByte
  let (d, s) := s.drawNat (2 ^ 32)
  s.ash 0x0002 0x10 (leBytes 1 b ++ leBytes 4 d)

/-- A health test fails: the source restarts, or is marked as failed at the third failure. -/
def State.trngFail (s : State) : State :=
  let n := s.kiln.trngFails + 1
  let s := { s with kiln := { s.kiln with trngFails := n } }
  (s.kilnSet KWSTAT.TRNG (if 3 ≤ n then 3 else 2)).selfCheck

/-! ## Tamper and glitches (R531, R532) -/

/-- The power state as PWR_STATUS codes it. -/
def Power.code : Power → Nat
  | .run => 0 | .idle => 1 | .doze => 2 | .sleep => 3 | .off => 4

/-- A TAMPER record and its event. -/
def State.tamperReport (s : State) (input response slots power : Nat) : State :=
  (s.ash 0x0030 0x10 (leBytes 1 input ++ leBytes 1 response ++ leBytes 1 slots ++ leBytes 1 power)).raiseDev 0x0980
    [BitVec.ofNat 8 input, BitVec.ofNat 8 response]

/-- The response to a tamper input: TAMP1 zeroises the user slots first. -/
def State.tamperRespond (s : State) (input power : Nat) : State :=
  let n := if input = 1 then s.kiln.slots.length else 0
  let s := if input = 1 then { s with kiln := { s.kiln with slots := [] } } else s
  let s := ({ s with kiln := { s.kiln with lockTamper := true } }).relock
  s.tamperReport input (if input = 1 then 3 else 2) n power

/-- Whether Kiln serves at once: out of its self-test, in a state in which it runs. -/
def State.kilnServes (s : State) : Bool :=
  s.kilnGet KWSTAT.STATE != 0 && !s.dev.inReset
    && (s.dev.power == .run || s.dev.power == .idle || s.dev.power == .doze)

/-- TAMPSTAT.LEVEL and LATCH of an input. -/
def tampLevel (i : Nat) : Fld := ⟨TAMPSTAT.reg, i, 1⟩
def tampLatch (i : Nat) : Fld := ⟨TAMPSTAT.reg, 2 + i, 1⟩

/-- Tamper responses that wait are applied. -/
def State.tamperDeferred (s : State) : State :=
  let l := s.kiln.deferred
  l.foldl (fun t x => t.tamperRespond x.1 x.2) { s with kiln := { s.kiln with deferred := [] } }

/-- Glitch events of the last 10 TIMEBASE seconds. -/
def State.glitches (s : State) : Nat := (s.kiln.glitchTimes.filter fun t => s.seconds < t + 10).length

/-- A Kiln job that is no NVM commit, which is never abandoned. -/
def jobAbandons (r : Running) : Bool :=
  r.job == .kiln && !([0x0904, 0x0A02, 0x0600, 0x0601, 0x0603, 0x0605].contains r.cmd.opcode.toNat)

/-- A glitch of code 2 or 3. -/
def State.glitch (s : State) (input : Nat) : State :=
  let s := { s with kiln := { s.kiln with glitchTimes := s.seconds :: s.kiln.glitchTimes.take 14 } }
  let s := s.endJob jobAbandons St.INTERNAL_ERROR
  let third := 3 ≤ s.glitches
  let s := if third then ({ s with kiln := { s.kiln with lockGlitch := true } }).relock else s
  s.tamperReport input (if third then 2 else 1) 0 s.dev.power.code

/-! ## The Ash log (R533-R538, R547) -/

/-- A record's BODY (R533). -/
def ashBody (seq : Nat) (i : AshItem) : List Byte :=
  leBytes 4 seq ++ leBytes 4 i.time ++ leBytes 2 i.type ++ leBytes 1 i.source ++ leBytes 1 i.flags ++ padTo 18 i.data

/-- The chain value that the next record builds on (R537). -/
def State.lastChain (s : State) : List Byte :=
  match s.kiln.log.getLast? with
  | some r => r.chain
  | none => Config.sha256 (Config.p256Public Config.deviceKey)

/-- A record committed; the oldest of 4,096 gives its chain value to the anchor. -/
def State.ashCommit (s : State) (i : AshItem) : State :=
  let body := ashBody s.kiln.logSeq i
  let r : AshRec := ⟨body, Config.sha256 (s.lastChain ++ body)⟩
  let full := 4096 ≤ s.kiln.log.length
  { s with kiln := { s.kiln with
      anchor := if full then (s.kiln.log.head?.map (·.chain)).getD [] else s.kiln.anchor
      log := (if full then s.kiln.log.drop 1 else s.kiln.log) ++ [r]
      logSeq := s.kiln.logSeq + 1 } }

/-- Whether another fault record may be committed now (R536). -/
def State.faultRoom (s : State) : Bool :=
  (s.kiln.faultTimes.filter fun t => s.seconds < t + 60).length < 16

/-- The record that Kiln takes next: T's first (R25, R535). -/
def nextItem (l : List AshItem) : Option AshItem :=
  match l.find? (·.source == 8) with
  | some i => some i
  | none => l.head?

/-- The queue without the record taken. -/
def afterItem (l : List AshItem) : List AshItem :=
  if l.any (·.source == 8) then dropFirst (·.source == 8) l else l.drop 1

/-- A record counted for the next SUPPRESSED record. -/
def State.ashCount (s : State) (type : Nat) : State :=
  { s with kiln := { s.kiln with
      supCount := min 65535 (s.kiln.supCount + 1)
      supFirst := if s.kiln.supCount = 0 then type else s.kiln.supFirst
      supLast := type } }

/-- In harvest mode a commit waits for the commit reserve (R269, R535). -/
def State.ashMay (s : State) : Bool := s.kilnGet KWSTAT.HARVEST == 0 || s.xpdr.reserve

/-- One queued record committed or suppressed. A committed TAMPER record completes its response and clears the
input's latch (R531). -/
def State.ashStep (s : State) : State :=
  match nextItem s.kiln.queue with
  | none => s
  | some i =>
    if !s.ashMay then s
    else
      let s := { s with kiln := { s.kiln with queue := afterItem s.kiln.queue } }
      if isFaultRecord i.type && !s.faultRoom then s.ashCount i.type
      else
        let s := if isFaultRecord i.type then
          { s with kiln := { s.kiln with faultTimes := (s.seconds :: s.kiln.faultTimes).take 16 } } else s
        let s := s.ashCommit i
        if i.type = 0x0030 ∧ byteAt i.data 0 < 2 then s.aonSet (tampLatch (byteAt i.data 0)) 0 else s

/-- The SUPPRESSED record (R536). -/
def State.suppressedStep (s : State) : State :=
  if s.kiln.supCount = 0 ∨ !s.faultRoom ∨ !s.ashMay then s
  else
    let k := s.kiln
    let s := s.ashCommit { type := 0x0003, source := 0x10, flags := s.ashFlags, time := s.ashTime,
                           data := leBytes 2 k.supCount ++ leBytes 2 k.supFirst ++ leBytes 2 k.supLast }
    { s with kiln := { s.kiln with supCount := 0, supFirst := 0, supLast := 0 } }

/-- A record as GET_LOG exports it (R538). -/
def AshRec.export (r : AshRec) : List Byte := r.body ++ [0, 0] ++ r.chain

/-- The packets of an export: 63 records each, the last with at most 62 and the signature (R353). -/
def logPackets (first : Nat) (recs : List AshRec) (sig : List Byte) : Nat → List (List Byte)
  | 0 => []
  | n + 1 =>
    if recs.length ≤ 62 then
      [leBytes 4 first ++ leBytes 1 recs.length ++ [1, 0, 0] ++ recs.flatMap AshRec.export ++ sig]
    else
      (leBytes 4 first ++ [63, 0, 0, 0] ++ (recs.take 63).flatMap AshRec.export)
        :: logPackets (first + 63) (recs.drop 63) sig n

/-- A signature by the device key over bytes. -/
def State.deviceSign (s : State) (l : List Byte) : List Byte × State :=
  let (k, s) := s.drawBytes 32
  (Config.ecdsaSign Config.deviceKey (Config.sha256 l) k, s)

/-- GET_LOG's response (R353, R538, R547). With no record ever committed, the head statement's SEQ is a free
value. -/
def State.getLog (s : State) (c : Cmd) : State :=
  let first := leAt c.payload 0 4
  let count := leAt c.payload 4 2
  let oldest := s.kiln.logSeq - s.kiln.log.length
  if s.kiln.logSeq ≤ first then
    let (seq, s) := if s.kiln.logSeq = 0 then s.drawNat (2 ^ 32) else (s.kiln.logSeq - 1, s)
    let head := leBytes 4 seq ++ List.replicate 28 0 ++ s.lastChain
    let (sig, s) := s.deviceSign head
    s.respond c St.OK (leBytes 4 first ++ [0, 1, 0, 0] ++ head ++ sig)
  else
    let start := max first oldest
    let recs := (s.kiln.log.drop (start - oldest)).take count
    let (sig, s) := s.deviceSign (recs.flatMap AshRec.export)
    s.respondPkts c St.OK (logPackets start recs sig (recs.length + 1))

/-! ## Firmware images (R519-R524) -/

/-- Where a slot lies in the flash (R390). -/
def slotBase (slot : Nat) : Nat := slot * 0x200000

/-- A number in a slot's image. -/
def State.imageNum (s : State) (slot ofs k : Nat) : Nat := fromLe (s.flash.bytes (slotBase slot + ofs) k)

/-- The check of R521 that a slot's image fails first; none when it passes. -/
def State.imageCheck (s : State) (slot : Nat) : Option Nat :=
  let n := s.imageNum slot
  let len := n 16 4
  let res := n 20 4
  let zero := fun (a k : Nat) => (s.flash.bytes (slotBase slot + a) k).all (· == 0)
  if !(n 0 4 == 0x31545248 && n 4 2 == 1 && 4416 ≤ len && len ≤ 2097152 && len % 4 == 0 && 4096 ≤ res
      && res ≤ 393216 && res % 4 == 0 && 320 + res ≤ len && n 24 4 < res && zero 13 3 && zero 96 160) then some 1
  else if 0x00C1 < n 6 2 then some 2
  else if n 12 1 < s.kiln.secver then some 3
  else if !Config.ecdsaVerify Config.imageKey (Config.sha256 (s.flash.bytes (slotBase slot) 256))
      (s.flash.bytes (slotBase slot + 256) 64) then some 4
  else if Config.sha256 (s.flash.bytes (slotBase slot + 320) (len - 320)) ≠ s.flash.bytes (slotBase slot + 32) 32 then some 5
  else none

/-- A slot's STATE in IMAGE_INFO. -/
def State.slotState (s : State) (slot : Nat) : Nat := s.flashState.getD slot 0

/-- A slot's verdict recorded: valid, or invalid with an IMAGE_REJECTED record (R521). -/
def State.judgeSlot (s : State) (slot : Nat) : State :=
  match s.imageCheck slot with
  | none => { s with flashState := s.flashState.set slot 1 }
  | some k =>
    ({ s with flashState := s.flashState.set slot 2 }).ash 0x0010 0x10
      (leBytes 1 0 ++ leBytes 1 slot ++ leBytes 1 k ++ leBytes 4 (s.imageNum slot 8 4) ++ leBytes 4 0)

/-- Segment bytes of IMAGE_LOAD written into the slot that is not active (R390); from the first on the slot holds no
valid image. -/
def State.loadBytes (s : State) (ofs : Nat) (l : List Byte) : State :=
  { s with
    flash := s.flash.putBytes (slotBase s.loadSlot + ofs) l
    flashState := s.flashState.set s.loadSlot 2 }

/-! ## Nonces (R527) -/

/-- A nonce that is still live. -/
def State.liveNonce (s : State) (n : Option (List Byte × Nat)) : Option (List Byte) :=
  (n.filter fun x => s.seconds < x.2 + 300).map (·.1)

/-! ## The bodies of the Kiln group -/

/-- IDENT (R351, R525). -/
def bodyIdent (c : Cmd) (s : State) : State :=
  s.respond c St.OK (padTo 8 Config.otpLot ++ [Config.otpWafer, Config.otpDieX, Config.otpDieY, 0]
    ++ leBytes 4 Config.otpTestDate.toNat ++ leBytes 2 (Config.certificate.take 1024).length ++ Config.certificate.take 1024)

/-- GET_LOG: Kiln signs (R353). -/
def bodyGetLog (c : Cmd) (s : State) : State :=
  let count := leAt c.payload 4 2
  if count < 1 ∨ 4096 < count then s.respond c St.BAD_PARAM else s.begin c .kiln

/-- KEY_INFO (R387, R597). -/
def bodyKeyInfo (c : Cmd) (s : State) : State :=
  let n := byteAt c.payload 0
  if 63 < n then s.respond c St.BAD_PARAM
  else match s.keyAt n with
    | some k => s.respond c St.OK (leBytes 1 k.type ++ leBytes 2 k.usage ++ [if n ≤ 2 then 2 else 1])
    | none => s.respond c St.OK [0, 0, 0, 0]

/-- Orders 1 to 5 of R597 for KEY_GEN, KEY_IMPORT and KEY_DELETE; `fits` is the TYPE and USAGE condition and
`want` says that the slot must be empty. -/
def State.keyOrder (s : State) (n : Nat) (fits want : Bool) : Option Nat :=
  if 63 < n ∨ !fits then some St.BAD_PARAM
  else if n ≤ 2 then some St.SECURITY_DENIED
  else if s.keyLock then some St.SECURITY_DENIED
  else if s.slotInRun n then some St.BUSY
  else if want && (s.keyAt n).isSome then some St.SECURITY_DENIED
  else none

/-- Orders of KEY_GEN. TYPE 0x05 is never generated (R508). -/
def State.keyGenOrder (s : State) (c : Cmd) : Option Nat :=
  let type := byteAt c.payload 1
  s.keyOrder (byteAt c.payload 0) (type != 5 && usageFits type (leAt c.payload 2 2)) true

/-- KEY_GEN: judged, then Kiln generates. -/
def bodyKeyGen (c : Cmd) (s : State) : State :=
  match s.keyGenOrder c with
  | some st => s.respond c st
  | none => s.begin c .kiln

/-- Kiln generates a key and commits it (R509). -/
def State.keyGenDone (s : State) (c : Cmd) : State :=
  match s.keyGenOrder c with
  | some st => s.respond c st
  | none =>
    let slot := byteAt c.payload 0
    let type := byteAt c.payload 1
    let usage := leAt c.payload 2 2
    let (key, s) := s.drawBytes (keyLen type)
    let (w, s) := s.drawByte
    ((s.putSlot slot (some ⟨type, usage, key⟩)).keyChange slot 0 type usage w c.hp).respond c St.OK
      (if type = 4 then padTo 64 (Config.p256Public key) else [])

/-- The parts of WRAPPED (R511). -/
def wrappedOf (c : Cmd) : List Byte := c.payload.drop 4

/-- The offset of IV in a wrapped key of a form. -/
def ivAt (form : Nat) : Nat := if form = 1 then 72 else 8

/-- Checks 1 and 2 of R512. -/
def State.wrapShape (c : Cmd) : Option Nat :=
  let w := wrappedOf c
  let type := byteAt c.payload 1
  if type = 5 then
    if w.length ≠ 64 then some St.BAD_LENGTH
    else if !Config.onP256 w then some St.BAD_PARAM
    else none
  else
    let form := byteAt w 1
    if form ≤ 1 ∧ (leAt w 6 2 ≠ keyLen type ∨ w.length ≠ ivAt form + 12 + keyLen type + 16) then some St.BAD_LENGTH
    else if byteAt w 0 ≠ 1 ∨ 1 < form ∨ byteAt w 3 ≠ type ∨ leAt w 4 2 ≠ leAt c.payload 2 2 then some St.BAD_PARAM
    else none

/-- The key-encryption key of a wrapped key, when WRAP_SLOT holds what the form needs (check 3 of R512). -/
def State.wrapKey (s : State) (w : List Byte) : Option (List Byte) :=
  let slot := byteAt w 2
  if byteAt w 1 = 0 then (s.keyFor slot [1, 2] 5).map (·.key)
  else (s.keyFor slot [4] 4).map fun k => Config.sha256 (Config.ecdh k.key ((w.drop 8).take 64) ++ w.take 8)

/-- The key that WRAPPED carries, or the status of checks 3 to 5 (R512). -/
def State.unwrapKey (s : State) (c : Cmd) : Except Nat (List Byte) :=
  let w := wrappedOf c
  let type := byteAt c.payload 1
  if type = 5 then .ok w
  else match s.wrapKey w with
    | none => .error St.SECURITY_DENIED
    | some kek =>
      let i := ivAt (byteAt w 1)
      match Config.gcmOpen kek ((w.drop i).take 12) (w.take 8) ((w.drop (i + 12)).take (keyLen type))
          (w.drop (i + 12 + keyLen type)) with
      | none => .error St.AUTH_FAIL
      | some key => if type = 4 && !Config.p256Scalar key then .error St.BAD_PARAM else .ok key

/-- Orders 1 to 5 of R597 and checks 1 to 3 of R512 for KEY_IMPORT. -/
def State.keyImportOrder (s : State) (c : Cmd) : Option Nat :=
  match s.keyOrder (byteAt c.payload 0) (usageFits (byteAt c.payload 1) (leAt c.payload 2 2)) true with
  | some st => some st
  | none => match State.wrapShape c with
    | some st => some st
    | none => if byteAt c.payload 1 ≠ 5 ∧ (s.wrapKey (wrappedOf c)).isNone then some St.SECURITY_DENIED else none

/-- KEY_IMPORT: judged, then Kiln unwraps. -/
def bodyKeyImport (c : Cmd) (s : State) : State :=
  match s.keyImportOrder c with
  | some st => s.respond c st
  | none => s.begin c .kiln

/-- Kiln unwraps the key and commits it. -/
def State.keyImportDone (s : State) (c : Cmd) : State :=
  match s.keyImportOrder c with
  | some st => s.respond c st
  | none => match s.unwrapKey c with
    | .error st => s.respond c st
    | .ok key =>
      let slot := byteAt c.payload 0
      let type := byteAt c.payload 1
      let usage := leAt c.payload 2 2
      let (w, s) := if type = 5 then s.drawByte else (byteAt (wrappedOf c) 2, s)
      ((s.putSlot slot (some ⟨type, usage, key⟩)).keyChange slot 1 type usage w c.hp).respond c St.OK

/-- A command that needs random bytes waits for the TRNG's test as a Kiln operation (R517). -/
def State.withRandom (s : State) (c : Cmd) (f : State → State) : State :=
  if s.trngReady then f s
  else if s.kilnGet KWSTAT.TRNG = 3 then s.respond c St.INTERNAL_ERROR
  else s.begin c .kiln

/-- KEY_EXPORT (R511, R513, R597). -/
def State.keyExport (s : State) (c : Cmd) : State :=
  let n := byteAt c.payload 0
  let ws := byteAt c.payload 1
  if 63 < n ∨ 63 < ws then s.respond c St.BAD_PARAM
  else match (s.keyAt n).filter fun k => 3 ≤ n && nbit k.usage 6 with
    | none => s.respond c St.SECURITY_DENIED
    | some k =>
      if s.keyLock then s.respond c St.SECURITY_DENIED
      else match s.keyFor ws [1, 2] 5 with
        | none => s.respond c St.SECURITY_DENIED
        | some kek => s.withRandom c fun s =>
          let (iv, s) := s.drawBytes 12
          let hdr := [1, 0] ++ leBytes 1 ws ++ leBytes 1 k.type ++ leBytes 2 k.usage ++ leBytes 2 (keyLen k.type)
          let (ct, tag) := Config.gcmSeal kek.key iv hdr k.key
          (s.keyChange n 3 k.type k.usage ws c.hp).respond c St.OK
            (hdr ++ iv ++ padTo (keyLen k.type) ct ++ padTo 16 tag)

def bodyKeyExport (c : Cmd) (s : State) : State := s.keyExport c

/-- KEY_DELETE: an empty slot ends with OK at once (R509). -/
def bodyKeyDelete (c : Cmd) (s : State) : State :=
  let n := byteAt c.payload 0
  match s.keyOrder n true false with
  | some st => s.respond c st
  | none => if (s.keyAt n).isNone then s.respond c St.OK else s.begin c .kiln

/-- Kiln overwrites the slot. -/
def State.keyDeleteDone (s : State) (c : Cmd) : State :=
  let n := byteAt c.payload 0
  match s.keyOrder n true false with
  | some st => s.respond c st
  | none => match s.keyAt n with
    | none => s.respond c St.OK
    | some k =>
      let (w, s) := s.drawByte
      ((s.putSlot n none).keyChange n 2 k.type k.usage w c.hp).respond c St.OK

/-- KILN_RANDOM (R516). -/
def bodyKilnRandom (c : Cmd) (s : State) : State :=
  let n := leAt c.payload 0 2
  if n < 1 ∨ 4092 < n then s.respond c St.BAD_PARAM
  else s.withRandom c fun s => let (b, s) := s.drawBytes n; s.respond c St.OK b

/-- The key of KILN_SIGN: one that signs. -/
def State.signKey (s : State) (c : Cmd) : Option KeySlot := s.keyFor (byteAt c.payload 0) [3, 4] 3

/-- KILN_SIGN: judged, then Kiln signs. -/
def bodyKilnSign (c : Cmd) (s : State) : State :=
  if 63 < byteAt c.payload 0 then s.respond c St.BAD_PARAM
  else if (s.signKey c).isNone then s.respond c St.SECURITY_DENIED
  else s.begin c .kiln

/-- Kiln signs (R508, R526). -/
def State.kilnSignDone (s : State) (c : Cmd) : State :=
  let digest := (c.payload.drop 4).take 32
  match s.signKey c with
  | none => s.respond c St.SECURITY_DENIED
  | some k =>
    if k.type = 3 then s.respond c St.OK (padTo 32 (Config.hmacSha256 k.key digest) ++ List.replicate 32 0)
    else
      let (r, s) := s.drawBytes 32
      let d := if byteAt c.payload 0 = 0 then Config.sha256 ([0x48, 0x4F, 0x53, 0x54] ++ digest) else digest
      s.respond c St.OK (padTo 64 (Config.ecdsaSign k.key d r))

/-- KILN_CHALLENGE: one nonce per purpose (R527). -/
def bodyKilnChallenge (c : Cmd) (s : State) : State :=
  let p := byteAt c.payload 0
  if p < 1 ∨ 2 < p then s.respond c St.BAD_PARAM
  else s.withRandom c fun s =>
    let (n, s) := s.drawBytes 16
    let k := if p = 1 then { s.kiln with nonceX := some (n, s.seconds) } else { s.kiln with nonceD := some (n, s.seconds) }
    { s with kiln := k }.respond c St.OK n

/-- KWSTAT.DBGFAILS and the device record's counter. -/
def State.setDbgFails (s : State) (n : Nat) : State :=
  ({ s with kiln := { s.kiln with dbgFails := n } }).kilnSet KWSTAT.DBGFAILS (min 15 n)

/-- A DEBUG record (R534). -/
def State.debugRecord (s : State) (level result keyslot : Nat) : State :=
  s.ash 0x0021 0x10 (leBytes 1 level ++ leBytes 1 result ++ leBytes 1 s.kiln.dbgFails ++ leBytes 1 keyslot)

/-- DEBUG_UNLOCK's lockout runs (R528). -/
def State.debugLocked (s : State) : Bool :=
  let passed := if s.seconds < s.kiln.dbgLast then s.seconds else s.seconds - s.kiln.dbgLast
  8 ≤ s.kiln.dbgFails && passed < 86400

/-- DEBUG_UNLOCK: lockout, the nonce spent, the attempt counted before AUTH is verified (R527, R528). The nonce goes
with the command to the verification. -/
def bodyDebugUnlock (c : Cmd) (s : State) : State :=
  let level := byteAt c.payload 0
  if level < 1 ∨ 2 < level then s.respond c St.BAD_PARAM
  else
    let nonce := s.liveNonce s.kiln.nonceD
    let s := { s with kiln := { s.kiln with nonceD := none } }
    if s.debugLocked then
      let (k, s) := s.drawByte
      (s.debugRecord level 2 k).respond c St.LOCKED_OUT
    else match nonce with
      | none =>
        let (k, s) := s.drawByte
        (s.debugRecord level 1 k).respond c St.AUTH_FAIL
      | some n =>
        (s.setDbgFails (min 255 (s.kiln.dbgFails + 1))).begin { c with payload := c.payload ++ n } .kiln

/-- The slots whose keys may grant a level (R529). -/
def State.debugSlots (s : State) (level : Nat) : List (Nat × List Byte) :=
  let users := if level = 1 then
      (List.range 64).filterMap fun n => if 3 ≤ n then (s.keyFor n [5] 3).map fun k => (n, k.key) else none
    else []
  (2, Config.debugKey) :: users

/-- Kiln verifies AUTH of DEBUG_UNLOCK (R528-R530). -/
def State.debugUnlockDone (s : State) (c : Cmd) : State :=
  let level := byteAt c.payload 0
  let auth := (c.payload.drop 4).take 64
  let nonce := c.payload.drop 68
  let digest := Config.sha256 ([0x44, BitVec.ofNat 8 level] ++ nonce ++ padTo 8 Config.otpLot
    ++ [Config.otpWafer, Config.otpDieX, Config.otpDieY])
  match (s.debugSlots level).find? fun k => Config.ecdsaVerify k.2 digest auth with
  | some k =>
    let s := s.setDbgFails 0
    let s := (s.kilnSet KWSTAT.DEBUG (max level (s.kilnGet KWSTAT.DEBUG))).relock
    (s.debugRecord level 0 k.1).respond c St.OK
  | none =>
    let s := { s with kiln := { s.kiln with dbgLast := s.seconds } }
    let (k, s) := s.drawByte
    (s.debugRecord level 1 k).respond c (if 8 ≤ s.kiln.dbgFails then St.LOCKED_OUT else St.AUTH_FAIL)

/-! ## The bodies of the image commands -/

/-- IMAGE_LOAD's last segment: Kiln verifies (R390). -/
def bodyImageLoad (c : Cmd) (s : State) : State := s.begin c .kiln

/-- Kiln's verdict on the loaded image. -/
def State.imageLoadDone (s : State) (c : Cmd) : State :=
  let slot := s.loadSlot
  let s := s.judgeSlot slot
  if s.slotState slot = 1 then s.respond c St.OK (leBytes 1 slot ++ leBytes 4 (s.imageNum slot 8 4))
  else s.respond c St.IMAGE_INVALID

/-- One slot in IMAGE_INFO (R389). -/
def State.slotInfo (s : State) (slot : Nat) : List Byte :=
  leBytes 1 (s.slotState slot) ++ leBytes 4 (s.imageNum slot 8 4) ++ leBytes 2 (s.imageNum slot 6 2)
    ++ leBytes 4 (s.imageNum slot 16 4)

/-- IMAGE_INFO. -/
def bodyImageInfo (c : Cmd) (s : State) : State :=
  s.respond c St.OK (leBytes 1 s.kiln.active ++ s.slotInfo 0 ++ s.slotInfo 1)

/-- IMAGE_ACTIVATE: judged, then Kiln commits the device record (R524). -/
def bodyImageActivate (c : Cmd) (s : State) : State :=
  let slot := byteAt c.payload 0
  if 1 < slot ∨ leAt c.payload 1 2 ≠ 0xD0D0 then s.respond c St.BAD_PARAM
  else if s.slotState slot ≠ 1 then s.respond c St.IMAGE_INVALID
  else s.begin c .kiln

/-- The active slot committed. -/
def State.imageActivateDone (s : State) (c : Cmd) : State :=
  let slot := byteAt c.payload 0
  let s := { s with kiln := { s.kiln with active := slot } }
  (s.ash 0x0011 0x10 (leBytes 1 slot ++ leBytes 4 (s.imageNum slot 8 4) ++ leBytes 1 (s.imageNum slot 12 1))).respond c St.OK

/-! ## Event rows -/

/-- TRNG_START_DONE (R516). -/
def execTrngStartDone (pass : Bool) : State → Host.Outcome State Fault Refusal := run fun s =>
  if s.kilnGet KWSTAT.TRNG = 0 ∨ s.kilnGet KWSTAT.TRNG = 2 then
    if pass then s.kilnSet KWSTAT.TRNG 1 else s.trngFail
  else s

/-- TRNG_HEALTH_FAIL (R517). -/
def execTrngHealthFail : State → Host.Outcome State Fault Refusal := run fun s =>
  if s.kilnGet KWSTAT.TRNG = 1 then s.trngFail else s

/-- NONCE_EXPIRY (R527). -/
def execNonceExpiry (purpose : Purpose) : State → Host.Outcome State Fault Refusal := run fun s =>
  match purpose with
  | .xpdrUnlock => if (s.liveNonce s.kiln.nonceX).isNone then { s with kiln := { s.kiln with nonceX := none } } else s
  | .debugUnlock => if (s.liveNonce s.kiln.nonceD).isNone then { s with kiln := { s.kiln with nonceD := none } } else s

/-- TAMPER_INPUT (R531): the response at once where Kiln serves, else when it next does. -/
def execTamperInput (input : Fin 2) (active : Bool) : State → Host.Outcome State Fault Refusal := run fun s =>
  if !s.dev.vsysOk then s
  else if !active then s.aonSet (tampLevel input.val) 0
  else
    let s := (s.aonSet (tampLevel input.val) 1).aonSet (tampLatch input.val) 1
    if s.kilnServes then s.tamperRespond input.val s.dev.power.code
    else { s with kiln := { s.kiln with
      deferred := s.kiln.deferred.filter (·.1 ≠ input.val) ++ [(input.val, s.dev.power.code)] } }

/-- TAMPER_RESPONSE_DEFERRED (R531). -/
def execTamperResponseDeferred : State → Host.Outcome State Fault Refusal := run fun s =>
  if s.kilnServes then s.tamperDeferred else s

/-- GLITCH_DETECT (R531). -/
def execGlitchDetect (clock : Bool) : State → Host.Outcome State Fault Refusal := run fun s =>
  s.glitch (if clock then 3 else 2)

/-- KILN_TEMP_RANGE (R531). -/
def execKilnTempRange (out : Bool) : State → Host.Outcome State Fault Refusal := run fun s =>
  if s.kiln.lockHot = out then s
  else
    let s := ({ s with kiln := { s.kiln with lockHot := out } }).relock
    if out then s.tamperReport 4 2 0 s.dev.power.code else s

/-- ASH_COMMIT (R535-R537). -/
def execAshCommit : State → Host.Outcome State Fault Refusal := run State.ashStep

/-- SUPPRESSED_COMMIT (R536). -/
def execSuppressedCommit : State → Host.Outcome State Fault Refusal := run State.suppressedStep

end Sys2Proof.Machine
end

