-- ==== Sys2Proof/Machine/Service.lean ====
section
/-! DEFINITION. Service of a reader port: images, engine starts, opening, closing, reset, reload and isolation, and
the responses of the engines (R127, R128, R195, R355-R361, R372, R391, R451-R457, R543, R544). -/

namespace Sys2Proof.Machine

/-! ## Engine images (R454, R455, R520) -/

/-- A number in an image. -/
def imgNum (l : List Byte) (ofs k : Nat) : Nat := leAt l ofs k

/-- Check 1 of R455: the length and every header field lie within R454. -/
def imgFieldsOk (l : List Byte) : Bool :=
  let code := imgNum l 20 4
  let data := imgNum l 24 4
  imgNum l 0 4 == 0x314E4B53 && imgNum l 4 2 == 1 && imgNum l 6 1 ≤ 1
    && (if imgNum l 6 1 = 0 then imgNum l 7 1 == 0xFF else imgNum l 7 1 ≤ 63)
    && imgNum l 18 2 ≤ 1 && 4 ≤ code && code ≤ 32768 && code % 4 == 0 && data ≤ 8192 && data % 4 == 0
    && imgNum l 28 2 % 4 == 0 && 16 ≤ imgNum l 30 2 && imgNum l 28 2 + imgNum l 30 2 ≤ 8192
    && ((l.drop 128).take 68).all (· == 0) && l.length == 260 + code + data && l.length ≤ 41220

/-- Check 4 of R455: both hashes match. -/
def imgHashesOk (l : List Byte) : Bool :=
  let code := imgNum l 20 4
  Config.sha256 ((l.drop 260).take code) == (l.drop 32).take 32
    && Config.sha256 ((l.drop (260 + code)).take (imgNum l 24 4)) == (l.drop 64).take 32

/-- The key that verifies an image: slot 1, or the customer's public key with signing usage (R455, R508, R532). -/
def State.imgKey (s : State) (l : List Byte) : Option (List Byte) :=
  if imgNum l 6 1 = 0 then some Config.imageKey else (s.keyFor (imgNum l 7 1) [5] 3).map (·.key)

/-- The check of R455 that an image fails first; none when it passes. -/
def State.imgCheck (s : State) (l : List Byte) : Option Nat :=
  if !imgFieldsOk l then some 1
  else if 0x00C1 < imgNum l 16 2 then some 2
  else match s.imgKey l with
    | none => some 3
    | some k =>
      if !Config.ecdsaVerify k (Config.sha256 (l.take 196)) ((l.drop 196).take 64) then some 3
      else if !imgHashesOk l then some 4
      else none

/-- An IMAGE_REJECTED record of an engine image (R534). -/
def State.imgRejected (s : State) (p : PortNum) (check : Nat) (l : List Byte) : State :=
  s.ash 0x0010 0x10 (leBytes 1 1 ++ leBytes 1 p.val ++ leBytes 1 check ++ leBytes 4 (imgNum l 12 4)
    ++ leBytes 4 (imgNum l 8 4))

/-- An image kept as a port's copy (R456, R520). -/
def State.keepImage (s : State) (p : PortNum) (l : List Byte) (customer : Bool) : State :=
  { s with sram := s.sram.putBytes (imageBase p) l }.modSvc p fun v => { v with imgKept := true, customer }

/-- The kept copy's bytes. -/
def State.keptImage (s : State) (p : PortNum) : List Byte :=
  s.sram.bytes (imageBase p) (260 + (s.imgWord p 20).toNat + (s.imgWord p 24).toNat)

/-- The standard image of a port, read from the active firmware image and kept; a page that fails leaves none, with
an IMAGE_REJECTED record (R456, R523). -/
def State.keepStandard (s : State) (p : PortNum) : State :=
  if Config.pageOk p.val then s.keepImage p (Config.standardImage p.val) false
  else (s.modSvc p fun v => { v with imgKept := false }).imgRejected p 6 []

/-! ## Engine starts (R426, R456) -/

/-- The engine halted by Hearth. -/
def State.engHalt (s : State) (p : PortNum) : State :=
  ((s.pset p ENG_CTL.HALT 1).setEngState p 3).modEng p fun e => { e with waitOn := none, stall := none }

/-- Whether the kept copy may start: it is kept and both hashes match its header. -/
def State.imgStarts (s : State) (p : PortNum) : Bool := (s.port p).svc.imgKept && imgHashesOk (s.keptImage p)

/-- The engine loaded from the kept copy and started (R426, R456): general registers, ESW and bits 0, PC 0, data
memory 0 beyond the data section. -/
def State.engStart (s : State) (p : PortNum) : State :=
  let l := s.keptImage p
  let code := (s.imgWord p 20).toNat
  let data := (s.imgWord p 24).toNat
  let s := s.modEng p fun _ =>
    { Engine.reset with
      code := Mem.putBytes [] 0 ((l.drop 260).take code)
      data := Mem.putBytes [] 0 ((l.drop (260 + code)).take data)
      codeLen := code }
  let s := (s.pset p ENG_CTL.HALT 0).pset p ENG_CTL.DZTRAP (s.imgHalf p 18 % 2)
  let s := ((s.setEngState p 1).setPc p 0).modPort p fun q => q.putWord ENG_CYCLE.reg 0
  s.modSvc p fun v => { v with ready := false }

/-- Both doorbells cleared (R457). -/
def State.clearRings (s : State) (p : PortNum) : State := (s.pset p DBE_RING.RING 0).pset p DBH_RING.RING 0

/-- A port leaves the schedule: its window closes and TXPHASE returns to its reset value (R228). -/
def State.schedOut (s : State) (p : PortNum) : State :=
  let s := s.modSvc p fun v => { v with ready := false }
  ((s.modPort p fun q => q.putWord TXPHASE.reg (resetWord .port TXPHASE.reg)).cutAir p).schedChange p

/-- A port reset: the pass ends, work in progress ends with INTERNAL_ERROR, chains are discarded, the PORT domain is
reset; an open port's engine starts from the kept copy. The flag says that it started (R192, R247, R360, R372). -/
def State.portReset (s : State) (p : PortNum) : Bool × State :=
  let s := ((s.passReset p).stopWork p St.INTERNAL_ERROR).dropChains p.val
  let s := ((s.endSession p).portDomainReset p).modSvc p fun v => { v with ready := false }
  let s := s.schedChange p
  if (s.port p).svc.svc = .opened then
    if s.imgStarts p then (true, s.engStart p) else (false, s.engHalt p)
  else (true, s)

/-- A port closed: the field goes off, the engine halts, the port leaves the schedule, its domain powers down when
nothing keeps it (R228, R356). -/
def State.portClose (s : State) (p : PortNum) (next : Svc) : State :=
  let s := ((s.stopWork p St.INTERNAL_ERROR).fieldDown p).endSession p
  let s := (s.engHalt p).modSvc p fun v => { v with svc := next, series := false }
  (s.schedOut p).powerSync p

/-! ## The bodies of the port's service commands -/

/-- IMAGE_ID and IMAGE_VER of the kept copy. -/
def State.imageIds (s : State) (p : PortNum) : List Byte := wordsBytes [s.imgWord p 8, s.imgWord p 12]

/-- PORT_OPEN (R356, R456). -/
def bodyPortOpen (c : Cmd) (s : State) : State :=
  let p := toPort c.target.toNat
  match (s.port p).svc.svc with
  | .opened | .reloading => s.respond c St.OK (s.imageIds p)
  | .isolated => s.respond c St.BUSY
  | .closed =>
    if s.imgStarts p then
      let s := [p, sibling p].foldl (fun (t : State) q => t.modSvc q fun v => { v with powered := true }) s
      (s.engStart p).begin c (.engineStart p)
    else s.respond c St.IMAGE_INVALID

/-- PORT_CLOSE (R356). -/
def bodyPortClose (c : Cmd) (s : State) : State :=
  let p := toPort c.target.toNat
  match (s.port p).svc.svc with
  | .opened | .reloading => (s.portClose p .closed).respond c St.OK
  | .closed | .isolated => s.respond c St.OK

/-- The port that a command with a port form and a device form acts on. -/
def portOf (c : Cmd) (field : Nat) : Nat := if c.target.toNat = 15 then field else c.target.toNat

/-- PORT_RESET (R360). -/
def bodyPortReset (c : Cmd) (s : State) : State :=
  let n := portOf c (byteAt c.payload 0)
  if 7 < n then s.respond c St.BAD_PARAM
  else
    let p := toPort n
    if (s.port p).svc.svc = .isolated then s.respond c St.BUSY
    else
      match s.portReset p with
      | (ok, t) =>
        if !ok then t.respond c St.INTERNAL_ERROR
        else if (t.port p).svc.svc = .opened then t.begin c (.engineStart p)
        else t.respond c St.OK

/-- Images that are being received or verified, other than by a chain of this command (R543). -/
def State.heldImages (s : State) : Nat :=
  (s.running.filter fun r => match r.job with | .reload _ _ => true | _ => false).length
    + (s.hosts.toList.map fun h => (h.chains.filter fun x => x.opcode == 0x0A03 && !x.expired).length).sum

/-- A third image is refused at its first segment (R543). -/
def gateReload (c : Cmd) (s : State) : Bool :=
  ((s.host c.hp).chainOf c.target).isNone && 2 ≤ s.heldImages

/-- ENGINE_RELOAD (R391): the image, or the standard image, goes to Kiln. -/
def bodyEngineReload (c : Cmd) (s : State) : State :=
  let dev := c.target.toNat = 15
  let n := portOf c (byteAt c.payload 1)
  let src := byteAt c.payload 0
  if 7 < n ∨ 1 < src then s.respond c St.BAD_PARAM
  else
    let p := toPort n
    if (s.port p).svc.svc = .isolated then s.respond c St.BUSY
    else if src = 1 then
      if Config.pageOk p.val then s.begin c (.reload p (Config.standardImage p.val))
      else (s.imgRejected p 6 []).respond c St.IMAGE_INVALID
    else s.begin c (.reload p (c.payload.drop (if dev then 4 else 3)))

/-- The verified image loaded into an open port (R391, R457); a closed port keeps it for its next opening. -/
def State.reloadGo (s : State) (r : Running) (p : PortNum) (l : List Byte) : State :=
  let customer := imgNum l 6 1 = 1
  if (s.port p).svc.svc = .opened then
    let s := (((s.passReset p).stopWork p St.INTERNAL_ERROR).endSession p).fieldDown p
    let s := (s.fifoReset p .rx).fifoReset p .tx
    let s := ((s.schedOut p).modFramer p fun f => { f with results := [] }).clearRings p
    let s := (s.keepImage p l customer).modSvc p fun v => { v with svc := .reloading }
    if s.imgStarts p then (s.engStart p).begin r.cmd (.engineStart p)
    else ((s.engHalt p).modSvc p fun v => { v with svc := .opened }).respond r.cmd St.IMAGE_INVALID
  else
    let s := s.keepImage p l customer
    s.respond r.cmd St.OK (s.imageIds p)

/-- Kiln's verdict on the first held image (R455, R543). -/
def State.imageVerdict (s : State) : State :=
  let sel := fun r : Running => match r.job with | .reload _ _ => true | _ => false
  match s.findJob sel with
  | none => s
  | some r => match r.job with
    | .reload p l =>
      let s := { s with running := dropFirst sel s.running }
      match s.imgCheck l with
      | some k => (s.imgRejected p k l).respond r.cmd St.IMAGE_INVALID
      | none => s.reloadGo r p l
    | _ => s

/-- PORT_ISOLATE (R544). -/
def bodyPortIsolate (c : Cmd) (s : State) : State :=
  let n := byteAt c.payload 0
  let want := byteAt c.payload 1
  if 7 < n ∨ 1 < want then s.respond c St.BAD_PARAM
  else
    let p := toPort n
    let iso := (s.port p).svc.svc == .isolated
    if want = 1 then
      if iso then s.respond c St.OK
      else
        let s := ((s.stopWork p St.INTERNAL_ERROR).dropChains n).passReset p
        (s.portClose p .isolated).respond c St.OK
    else if iso then ((s.modSvc p fun v => { v with svc := .closed }).powerSync p).respond c St.OK
    else s.respond c St.OK

/-- DIAG_COUNTERS (R392, R546). -/
def bodyDiagCounters (c : Cmd) (s : State) : State :=
  let p := toPort c.target.toNat
  if 1 < byteAt c.payload 0 then s.respond c St.BAD_PARAM
  else
    let v := (s.port p).svc
    let pl := v.viol.flatMap (leBytes 2 ·) ++ leBytes 2 v.holds ++ leBytes 2 v.overrides ++ leBytes 2 v.faults
      ++ leBytes 4 v.untracked
    let s := if byteAt c.payload 0 = 1 then
        s.modSvc p fun v =>
          { v with viol := List.replicate 8 0, holds := 0, overrides := 0, faults := 0, untracked := 0 }
      else s
    s.respond c St.OK pl

/-! ## The counters of an exchange (R392) -/

/-- VIOLCNT, VIOLCNT1 and SCHCNT added to the sums, which saturate; the reads clear the counters. -/
def State.addCounters (s : State) (p : PortNum) : State :=
  let (a, s) := s.violRead p VIOLCNT.reg
  let (b, s) := s.violRead p VIOLCNT1.reg
  let (h, s) := s.schRead p
  s.modSvc p fun v =>
    { v with
      viol := (List.range 8).map fun i =>
        min 65535 (v.viol.getD i 0 + (if i < 4 then wget a (8 * i) 8 else wget b (8 * (i - 4)) 8))
      holds := min 65535 (v.holds + wget h 0 16)
      overrides := min 65535 (v.overrides + wget h 16 16) }

/-! ## Requests to an engine (R451) -/

/-- A host command shipped to its port: the payload in the mailbox area and the ring, or BAD_LENGTH. -/
def State.ship (s : State) (c : Cmd) (p : PortNum) (payload : List Byte) (j : Job) : State :=
  if s.mboxLen p < payload.length then s.respond c St.BAD_LENGTH
  else
    let s := (s.putMbox p payload).ringEngine p
      [BitVec.ofNat 32 (c.opcode.toNat + payload.length * 65536),
       BitVec.ofNat 32 (1 + c.hp.val * 256 + c.seq.toNat * 65536)]
    s.begin c j

/-- A command shipped with its own payload. -/
def State.shipCmd (s : State) (c : Cmd) : State :=
  let p := toPort c.target.toNat
  s.ship c p c.payload (.shipped p)

/-! ## What a response does (R127, R195, R372) -/

/-- The key of the tag that an exchange addressed, or of the one active on the port (R127). -/
def State.tagOf (s : State) (c : Cmd) (p : PortNum) : Option Key :=
  let v := (s.port p).svc
  let op := c.opcode.toNat
  if op = 0x0401 then some (keyOf 3 8 (c.payload.take 8))
  else if (0x0402 ≤ op ∧ op ≤ 0x0429) ∨ op = 0x0500 ∨ op = 0x0501 then v.session.map fun x => keyOf 3 8 x.uid
  else if 0x0440 ≤ op ∧ op ≤ 0x0446 then v.osgil
  else if op = 0x0210 then
    if (c.payload.getD 0 0).getLsbD 5 then some (keyOf 2 8 ((c.payload.drop 2).take 8)) else none
  else if op = 0x0203 ∨ op = 0x0204 ∨ op = 0x0205 then v.picc
  else none

/-- TAG_SUSPECT (R127): with the key of an entry, or without one. -/
def State.suspect (s : State) (p : PortNum) (k : Option Key) (vclass : Nat) : State :=
  let ant := s.antenna p
  let head := leBytes 1 p.val ++ leBytes 1 ant
  let plain := fun t : State => t.raiseOwner p.val 0x0383 (head ++ [0] ++ leBytes 1 vclass ++ List.replicate 12 0)
  match k with
  | none => plain s
  | some key => match s.ttLookup key with
    | (.found i, t) =>
      let e := t.ttEntry i
      (t.ttStore i { e with flags := bitsOn e.flags flagSuspect }).raiseOwner p.val 0x0383
        (head ++ [1] ++ leBytes 1 vclass ++ key)
    | (_, t) => plain t

/-- SEC bits set in the entry of a tag (R195). -/
def State.secBits (s : State) (k : Option Key) (setB clrB : Nat) : State :=
  match k with
  | some key =>
    if setB = 0 ∧ clrB = 0 then s
    else s.ttModify key fun e => { e with sec := bitsOn (bitsOff e.sec clrB) setB }
  | none => s

/-- What Hearth keeps from a response: the session, the active tags and the entry's SEC bits (R195, R372). -/
def State.afterResponse (s : State) (c : Cmd) (p : PortNum) (status : Nat) (pl : List Byte) : State :=
  let op := c.opcode.toNat
  let tag := s.tagOf c p
  let ok := status = St.OK
  let locked := 0x0401 ≤ op ∧ op ≤ 0x0446 ∧ op ≠ 0x0440 ∧ ¬pl.isEmpty ∧
    byteAt pl 0 = (if 0x0440 ≤ op then 0x0C else 0x04)
  let pwd := ok ∧ op = 0x0420
  let mac := ok ∧ op = 0x0422
  let s := s.secBits tag ((if pwd then 1 else 0) + (if mac then 2 else 0) + (if locked then 8 else 0))
    (if ok ∧ op = 0x0401 then 1 else 0)
  if op = 0x0401 then
    if ok then s.modSvc p fun v => { v with session := some { uid := c.payload.take 8, info := (pl.drop 1).take 7 } }
    else s
  else if op = 0x0402 then
    let next := fun x : Session => ({ uid := siblingUid x.uid, info := (pl.drop 2).take 7 } : Session)
    let on_ := ok ∧ byteAt pl 1 = 1
    s.modSvc p fun v => { v with session := if on_ then v.session.map next else none }
  else if op = 0x0201 ∧ ok then
    let key := keyOf 0 (byteAt pl 0) ((pl.drop 1).take (byteAt pl 0))
    s.modSvc p fun v => { v with picc := if byteAt c.payload 1 = 1 then some key else none }
  else if op = 0x0202 ∧ ok then s.modSvc p fun v => { v with picc := some (keyOf 1 4 (pl.take 4)) }
  else if op = 0x0204 ∧ ok then s.modSvc p fun v => { v with picc := none }
  else if op = 0x0440 ∧ ok then s.modSvc p fun v => { v with osgil := some (keyOf 4 5 ((pl.drop 1).take 5)) }
  else s

/-- A payload cut into packets of at most 4,092 bytes (R329). -/
def chunks : Nat → List Byte → List (List Byte)
  | 0, _ => []
  | n + 1, l => if l.length ≤ 4092 then [l] else l.take 4092 :: chunks n (l.drop 4092)

/-- A response message: STATUS, violations, the last class, the payload. -/
structure EngReply where
  status : Nat
  viol : Nat
  vclass : Nat
  payload : List Byte
  deriving DecidableEq, Repr

/-- The response message in DBH_MSG (R451). -/
def State.engReply (s : State) (p : PortNum) : EngReply :=
  let m0 := (s.port p).word DBH_MSG.reg
  let m1 := (s.port p).word (DBH_MSG.reg + 4)
  { status := wget m1 0 16, viol := wget m1 16 8, vclass := wget m1 24 3, payload := s.getMbox p (wget m0 16 16) }

/-- Whether R127 looks for the tag of an exchange: it ended with PROTOCOL_ERROR or TIMEOUT after at least one
violation, and is neither TRANSCEIVE nor AL_SCAN (R127, R128, R363, R374). -/
def suspectDue (c : Cmd) (m : EngReply) : Bool :=
  (m.status == St.PROTOCOL_ERROR || m.status == St.TIMEOUT) && 0 < m.viol && c.opcode != 0x0200 && c.opcode != 0x0400

/-- A response of the engine ends its command (R452). -/
def State.engineResponds (s : State) (p : PortNum) (c : Cmd) (m : EngReply) : State :=
  let s := if (s.port p).svc.customer then s else s.addCounters p
  let s := if suspectDue c m then s.suspect p (s.tagOf c p) m.vclass else s
  (s.afterResponse c p m.status m.payload).respondPkts c m.status (chunks 17 m.payload)

/-! ## Rows -/

/-- ENGINE_READY (R456): the ready message ends an engine start; the stopped message ends none. -/
def execEngineReady (p : PortNum) : State → Host.Outcome State Fault Refusal := run fun s =>
  if !s.rung p 0 then s
  else if wget ((s.port p).word DBH_MSG.reg) 8 1 == 0 && !(s.port p).svc.ready then
    let s := s.ackMsg p
    let r := s.findJob fun r => r.job == .engineStart p
    let opening := r.any fun x => x.cmd.opcode == 0x0100 || x.cmd.opcode == 0x0A03
    let s := s.modSvc p fun v => { v with ready := true, svc := if opening then .opened else v.svc }
    let s := s.endJob (fun r => r.job == .engineStart p) St.OK (if opening then s.imageIds p else [])
    (s.schedChange p).powerSync p
  else s.ackMsg p

/-- ENGINE_START_TIMEOUT (R456). -/
def execEngineStartTimeout (p : PortNum) : State → Host.Outcome State Fault Refusal := run fun s =>
  let waits := s.running.any fun r => r.job == .engineStart p
  if (s.port p).svc.ready || !((s.port p).svc.svc == .opened || waits) then s
  else
    let s := (s.engHalt p).endJob (fun r => r.job == .engineStart p) St.INTERNAL_ERROR
    let s := s.modSvc p fun v => { v with svc := if v.svc == .reloading then .opened else v.svc }
    s.powerSync p

/-- ENGINE_RESPONSE_TIMEOUT (R453): the command or slot in progress ends and the port is reset. -/
def execEngineResponseTimeout (p : PortNum) : State → Host.Outcome State Fault Refusal := run fun s =>
  let asked := s.running.any fun r =>
    r.job == .shipped p || (r.job == .db p && (s.port p).svc.db.any fun d => !d.answered)
  let slot := (s.port p).svc.pass.any fun x => x.slot.isSome
  if asked || slot then (s.portReset p).2 else s

/-- ENGINE_IMAGE_VERDICT (R543). -/
def execEngineImageVerdict : State → Host.Outcome State Fault Refusal := run State.imageVerdict

end Sys2Proof.Machine
end

