-- ==== Sys2Proof/Machine/DistBound.lean ====
section
/-! DEFINITION. Distance bounding: the timing unit, DB_RUN, DB_CAL, DB_CONFIG and Kiln's verdict (R229-R249, R376-R378),
and the response of the engine (R452). -/

namespace Sys2Proof.Machine

/-! ## The timing unit (R229-R234) -/

/-- A delay in 1/64 fc cycle rounded to 0.25 ns, halves up (R234). -/
def roundQ (onset : Nat) : Int := divRound ((onset : Int) * 73746) 16000

/-- THRESH as in force: 0 is treated as 1. -/
def State.dbThresh (s : State) (p : PortNum) : Nat := max 1 (s.pget p DBCTL.THRESH)

/-- K as in force: 9 to 15 are treated as 8. -/
def State.dbK (s : State) (p : PortNum) : Nat := min 8 (s.pget p DBCTL.K)

/-- OFS, signed. -/
def State.dbOfs (s : State) (p : PortNum) : Int := signed 16 (s.pget p DBDLY.OFS)

/-- The excess delay of an onset in 0.25 ns (R234). -/
def State.excess (s : State) (p : PortNum) (onset : Nat) : Int :=
  roundQ onset - (s.pget p DBINT.DINT : Int) - s.dbOfs p - (s.pget p DBDLY.TAGDLY : Int)

/-- An excess is late: above the threshold (R234). -/
def State.isLate (s : State) (p : PortNum) (onset : Nat) : Bool := (s.dbThresh p : Int) < s.excess p onset

/-- The half of DBREC that holds slot `i`. -/
def recReg (i : Nat) : Nat := DBREC.reg + 4 * (i / 2)

/-- Where slot `i` lies in its word. -/
def recLo (i : Nat) : Nat := 16 * (i % 2)

/-- The record of slot `i`: ONSET, PRES, PHASE, SENT. -/
def State.dbRec (s : State) (p : PortNum) (i : Nat) : Nat := wget ((s.port p).word (recReg i)) (recLo i) 14

def recOnset (r : Nat) : Nat := r % 2048
def recPres (r : Nat) : Bool := nbit r 11
def recPhase (r : Nat) : Bool := nbit r 12
def recSent (r : Nat) : Bool := nbit r 13

/-- A slot's record. -/
def recOf (sent : Bool) (b : Option Burst) : Nat :=
  8192 * bit sent + match b with
    | some b => b.onset.toNat + 2048 + 4096 * bit b.phase
    | none => 0

/-- The phase begins (R163): asked for, its DB_BEGIN granted, RAPID_EN set, the framer quiet. -/
def State.phaseStart (s : State) (p : PortNum) : State :=
  let f := (s.port p).framer
  if 0 < f.rapidN && f.reserved && !f.rapidOn && s.pon p TXCTL.RAPID_EN && f.tx.isNone && f.win.isNone
      && s.fieldState p == 2 then
    (s.modFramer p fun f => { f with rapidOn := true, rapidSlot := 0 }).pset p DBRES.NSLOTS f.rapidN
  else s

/-- A challenge slot (R229-R234): SENT as observed; a burst is recorded and its excess judged. -/
def State.challenge (s : State) (p : PortNum) (sent : Bool) (b : Option Burst) : State :=
  let f := (s.port p).framer
  if f.rapidOn && f.rapidSlot < f.rapidN then
    let i := f.rapidSlot
    let s := s.modPort p fun q => q.putWord (recReg i) (wset (q.word (recReg i)) (recLo i) 16 (recOf sent b))
    let s := s.modFramer p fun f => { f with rapidSlot := i + 1 }
    match b with
    | none => s.pset p DBRES.ABSENT (s.pget p DBRES.ABSENT + 1)
    | some b =>
      let n := b.onset.toNat
      let s := if s.isLate p n then s.pset p DBRES.LATE (s.pget p DBRES.LATE + 1) else s
      s.modPort p fun q =>
        { q with tim := { q.tim with
            snrSum := q.tim.snrSum + b.snr, excess := q.tim.excess ++ [s.excess p n], onsets := q.tim.onsets ++ [n] } }
  else s

/-- An excess as DBEXC codes it: beyond 16 bits the spec states no code, a free number. -/
def State.excCode (s : State) (e : Int) : Nat × State :=
  if -32768 ≤ e ∧ e ≤ 32767 then (unsigned 16 e, s) else s.drawNat 65536

/-- The mean SNR, saturating; the rounding of a mean that is no whole number is free. -/
def State.meanSnr (s : State) (sum n : Nat) : Nat × State :=
  if n = 0 then (0, s)
  else if sum % n = 0 then (min 255 (sum / n), s)
  else
    let (up, s) := s.drawBool
    (min 255 (sum / n + bit up), s)

/-- The greatest of a list. -/
def maxInt : List Int → Int
  | [] => 0
  | [x] => x
  | x :: r => max x (maxInt r)

/-- The record completed (R229): MEDIAN, MAX and SNR over the slots with a burst. -/
def State.dbSummary (s : State) (p : PortNum) : State :=
  let t := (s.port p).tim
  let s := if t.excess.isEmpty then s
    else
      let (m, s) := s.excCode (median t.excess)
      let (x, s) := s.excCode (maxInt t.excess)
      let (v, s) := s.meanSnr t.snrSum t.excess.length
      ((s.pset p DBEXC.MEDIAN m).pset p DBEXC.MAX x).pset p DBSNR.SNR v
  s.pset p DBRES.DONE 1

/-! ## Challenges (R241, R246) -/

/-- `n` challenge bits of eight random bytes; the others 0. -/
def maskBits (n : Nat) (l : List Byte) : List Byte := leBytes 8 (fromLe l % 2 ^ n)

/-- Challenges written to DBCHAL. -/
def State.putChal (s : State) (p : PortNum) (l : List Byte) : State :=
  s.modPort p fun q => (q.putWord DBCHAL0.reg (wordAt l 0)).putWord DBCHAL1.reg (wordAt l 4)

/-- The phases of DB_CAL with a DBMAX, and the challenges of each (R237). -/
def calPhases (dbmax : Nat) : Nat := (64 + dbmax - 1) / dbmax
def calChallenges (dbmax : Nat) : Nat := let p := calPhases dbmax; (64 + p - 1) / p

/-- A phase of a run ends: DB_CAL gathers its record, and its next phase gets new challenges (R237). -/
def State.runPhase (s : State) (p : PortNum) : State :=
  match (s.port p).svc.db with
  | none => s
  | some d =>
    let t := (s.port p).tim
    let d1 : DbRun := { d with
      phaseDone := true, phases := d.phases + 1, dint0 := if d.phases = 0 then t.dint else d.dint0
      onsets := d.onsets ++ t.onsets, slots := d.slots + (s.port p).framer.rapidN }
    if d.cal then
      let (l, s) := s.drawBytes 8
      let l := maskBits d.n l
      (s.putChal p l).modSvc p fun v => { v with db := some { d1 with chal := l } }
    else s.modSvc p fun v => { v with db := some d1 }

/-- The phase ends (R229, R444): a result is queued, the reservation released. -/
def State.phaseEnd (s : State) (p : PortNum) : State :=
  let f := (s.port p).framer
  if f.rapidOn && f.rapidSlot == f.rapidN then
    let s := (s.dbSummary p).runPhase p
    let s := s.modFramer p fun f => { f with rapidOn := false, rapidN := 0, rapidSlot := 0, reserved := false }
    ((s.putBare p 1).framerAdvance p).idleWork p
  else s

/-! ## DB_RUN, DB_CAL and DB_CONFIG (R237, R240, R245, R246, R376-R378) -/

/-- The session's CAPS bit 0. -/
def Session.bounds (x : Session) : Bool := (x.info.getD 0 0).getLsbD 0

/-- A key for distance bounding (R245, R508). -/
def State.dbKey (s : State) (slot : Nat) : Option KeySlot := s.keyFor slot [1] 0

/-- A run starts: NR and the challenges drawn, DBCHAL written, RAPID_EN set, the request shipped with NR behind its
payload (R246). -/
def State.dbStart (s : State) (c : Cmd) (d : DbRun) : State :=
  let p := toPort c.target.toNat
  if s.mboxLen p < c.payload.length + 8 then s.respond c St.BAD_LENGTH
  else
    let (nr, s) := s.drawBytes 8
    let (l, s) := s.drawBytes 8
    let l := maskBits d.n l
    let s := (s.putChal p l).pset p TXCTL.RAPID_EN 1
    let s := s.modSvc p fun v => { v with db := some { d with nr, chal := l } }
    s.ship c p (c.payload ++ nr) (.db p)

/-- A run with nothing done yet. -/
def DbRun.fresh (cal : Bool) (n slot : Nat) (record : Bool) (refdly : Nat) : DbRun :=
  { cal, n, slot, record, refdly, nr := [], chal := [], nt := [], phases := 0, phaseDone := false, dint0 := 0,
    onsets := [], slots := 0, answered := false }

/-- DB_RUN (R245, R281). -/
def bodyDbRun (c : Cmd) (s : State) : State :=
  let p := toPort c.target.toNat
  let n := byteAt c.payload 0
  let slot := byteAt c.payload 1
  let rcd := byteAt c.payload 2
  if 63 < slot ∨ 1 < rcd then s.respond c St.BAD_PARAM
  else match (s.port p).svc.session with
    | none => s.respond c St.NO_TAG
    | some x =>
      if !x.bounds || n < 16 || byteAt x.info 5 < n then s.respond c St.BAD_PARAM
      else if (s.dbKey slot).isNone then s.respond c St.SECURITY_DENIED
      else if s.calGet CALSTAT.NOSET = 1 then s.respond c St.INTERNAL_ERROR
      else s.withRandom c fun s => s.dbStart c (DbRun.fresh false n slot (rcd == 1) 0)

/-- DB_CAL (R237). A DBMAX outside 16 to 64 lies outside R148: a PROTOCOL_ERROR (log entry 33). -/
def bodyDbCal (c : Cmd) (s : State) : State :=
  let p := toPort c.target.toNat
  match (s.port p).svc.session with
  | none => s.respond c St.NO_TAG
  | some x =>
    let m := byteAt x.info 5
    if !x.bounds then s.respond c St.BAD_PARAM
    else if m < 16 ∨ 64 < m then s.respond c St.PROTOCOL_ERROR
    else if s.pget p DBCTL.LOCK = 1 then s.respond c St.SECURITY_DENIED
    else s.withRandom c fun s =>
      s.dbStart c (DbRun.fresh true (calChallenges m) 0 false (leAt c.payload 0 2))

/-- DB_CONFIG (R240, R378, R598). -/
def bodyDbConfig (c : Cmd) (s : State) : State :=
  let p := toPort c.target.toNat
  let w := byteAt c.payload 0
  let th := leAt c.payload 2 2
  let k := byteAt c.payload 4
  let td := leAt c.payload 6 2
  if 31 < w || (nbit w 0 && 511 < th) || (nbit w 1 && 15 < k) || (nbit w 2 && 511 < td) then s.respond c St.BAD_PARAM
  else if w ≠ 0 ∧ s.pget p DBCTL.LOCK = 1 then s.respond c St.SECURITY_DENIED
  else
    let s := if nbit w 0 then s.pset p DBCTL.THRESH th else s
    let s := if nbit w 1 then s.pset p DBCTL.K k else s
    let s := if nbit w 2 then s.pset p DBDLY.TAGDLY td else s
    let s := if nbit w 3 then s.pset p DBDLY.OFS (leAt c.payload 8 2) else s
    let s := if nbit w 4 then s.pset p DBCTL.LOCK 1 else s
    s.respond c St.OK (leBytes 2 (s.pget p DBCTL.THRESH) ++ leBytes 1 (s.pget p DBCTL.K)
      ++ leBytes 1 (s.pget p DBCTL.LOCK) ++ leBytes 2 (s.pget p DBDLY.TAGDLY) ++ leBytes 2 (s.pget p DBDLY.OFS))

/-! ## The verdict (R241-R244) -/

/-- The class of a slot. -/
inductive SlotClass where
  | absent | wrong | late | good
  deriving DecidableEq, Repr

/-- The first class that applies to a slot: its record, its challenge, its key-derived bit, its CRX bit, whether it
is late (R242). -/
def slotClass (r : Nat) (chal a : Bool) (crx : Option Bool) (late : Bool) : SlotClass :=
  if !recPres r then .absent
  else if recPhase r != (chal != a) || crx.any (· != chal) then .wrong
  else if late then .late
  else .good

/-- Bit `i` of a byte string. -/
def bitOf (l : List Byte) (i : Nat) : Bool := (l.getD (i / 8) 0).getLsbD (i % 8)

/-- How the DB_END reply stands: no CRX exists unless its status is OK (R242). -/
def crxOf : DbReply → Option (List Byte)
  | .answered st crx _ => if st = 0 then some crx else none
  | .silent => none

/-- The classes of the slots of a run (R242). -/
def State.classes (s : State) (p : PortNum) (d : DbRun) (a : List Byte) (reply : DbReply) : List SlotClass :=
  (List.range d.n).map fun i =>
    let r := s.dbRec p i
    slotClass r (bitOf d.chal i) (bitOf a i) ((crxOf reply).map (bitOf · i)) (s.isLate p (recOnset r))

/-- The outcomes of R244. -/
inductive DbOutcome where
  | pass | relay | macfail | silent | aborted
  deriving DecidableEq, Repr

/-- The code of an outcome in the response, and its status. -/
def DbOutcome.code : DbOutcome → Nat
  | .pass => 0 | .relay => 1 | .macfail => 2 | .silent => 3 | .aborted => 4
def DbOutcome.status : DbOutcome → Nat
  | .pass => St.OK | .relay => St.RELAY_SUSPECT | .macfail => St.AUTH_FAIL | .silent => St.TIMEOUT
  | .aborted => St.INTERNAL_ERROR

/-- The failed slots. -/
def failedSlots (l : List SlotClass) : Nat := (l.filter (· != .good)).length

/-- The outcome, in the order of R244. -/
def decideRun (sentOk answered allAbsent macOk : Bool) (failed k : Nat) : DbOutcome :=
  if !sentOk then .aborted
  else if !answered || allAbsent then .silent
  else if !macOk then .macfail
  else if failed ≤ k then .pass
  else .relay

/-- MAC of R165 under K_DB. -/
def dbMacOk (key : List Byte) (d : DbRun) : DbReply → Bool
  | .answered _ crx mac => (Config.aesCmac key (d.nr ++ d.nt ++ leBytes 1 d.n ++ crx)).take 8 == mac
  | .silent => false

/-- The tag's entry after an outcome (R244). -/
def State.dbEntry (s : State) (k : Key) : DbOutcome → State
  | .pass => s.secBits (some k) 4 0
  | .macfail => s.secBits (some k) 0 6
  | .relay => (s.secBits (some k) 0 4).ttModify k fun e => { e with flags := bitsOn e.flags flagRelay }
  | .silent | .aborted => s

/-- The verdict on a run with its key: response, entry, Ash record, end of the run (R242-R246, R377). -/
def State.dbJudge (s : State) (p : PortNum) (c : Cmd) (d : DbRun) (key : List Byte) (reply : DbReply) : State :=
  let a := Config.aes128 key (d.nr ++ d.nt)
  let cls := s.classes p d a reply
  let cnt := fun k => (cls.filter (· == k)).length
  let k := min (s.dbK p) (d.n / 8)
  let sentOk := (List.range d.n).all fun i => recSent (s.dbRec p i) == bitOf d.chal i
  let out := decideRun sentOk (crxOf reply).isSome (cnt .absent == d.n) (dbMacOk key d reply) (failedSlots cls) k
  let sums := leBytes 1 (cnt .absent) ++ leBytes 1 (cnt .wrong) ++ leBytes 1 (cnt .late) ++ leBytes 1 (cnt .good)
    ++ leBytes 2 (s.pget p DBEXC.MEDIAN) ++ leBytes 2 (s.pget p DBEXC.MAX)
  let dint := leBytes 2 (s.pget p DBINT.DINT)
  let lims := leBytes 2 (s.dbThresh p) ++ leBytes 2 (s.pget p DBDLY.TAGDLY) ++ leBytes 2 (s.pget p DBDLY.OFS)
  let rcd := if d.record then d.chal ++ (List.range 32).flatMap fun m => wordBytes ((s.port p).word (DBREC.reg + 4 * m))
    else []
  let pl := leBytes 1 out.code ++ leBytes 1 d.n ++ leBytes 1 k ++ [0] ++ sums ++ leBytes 1 (s.pget p DBSNR.SNR) ++ [0]
    ++ dint ++ lims ++ rcd
  let uid := ((s.port p).svc.session.map (·.uid)).getD []
  let s := if out = .pass then s
    else s.ash 0x0040 p.val (padTo 8 uid ++ leBytes 1 (s.antenna p) ++ leBytes 1 d.n ++ leBytes 1 k
      ++ leBytes 1 out.code ++ sums ++ lims ++ dint)
  let s := (s.dbEntry (keyOf 3 8 uid) out).dropDb p
  { s with running := s.running.filter fun r => r.job != Job.db p }.respond c out.status pl

/-- A run in progress ends with a status and no payload (R247, R377). -/
def State.dbEnd (s : State) (p : PortNum) (status : Nat) : State := (s.endJob (fun r => r.job == .db p) status).dropDb p

/-- Kiln's verdict, asked for when the engine has passed on the reply to DB_END (R246). DB_END without a reply ends
the run before Kiln decides (R247). -/
def State.dbVerdict (s : State) (p : PortNum) (reply : DbReply) : State :=
  match s.findJob fun r => r.job == .db p, (s.port p).svc.db with
  | some r, some d =>
    if d.cal || !d.answered || !d.phaseDone then s
    else match reply with
      | .silent => s.dbEnd p St.TIMEOUT
      | .answered _ _ _ => match s.dbKey d.slot with
        | none => s.dbEnd p St.SECURITY_DENIED
        | some k => s.dbJudge p r.cmd d k.key reply
  | _, _ => s

/-- DB_CAL's result (R237): the conditions on its bursts, then OFS. An OFS beyond 16 bits is a free number. -/
def State.dbCalDone (s : State) (p : PortNum) (d : DbRun) : State :=
  let l : List Int := d.onsets.map Int.ofNat
  let lo := (sortAsc l).headD 0
  let hi := maxInt l
  if s.pget p DBCTL.LOCK = 1 then s.dbEnd p St.SECURITY_DENIED
  else if l.length * 16 < d.slots * 15 ∨ d.slots < 64 then s.dbEnd p St.TIMEOUT
  else if 256000 < (hi - lo) * 73746 then s.dbEnd p St.PROTOCOL_ERROR
  else
    let med := median (d.onsets.map roundQ)
    let (ofs, s) := s.excCode (med - (d.dint0 : Int) - (d.refdly : Int))
    let s := s.pset p DBDLY.OFS ofs
    let s := s.endJob (fun r => r.job == .db p) St.OK (leBytes 2 ofs ++ leBytes 2 med.toNat
      ++ leBytes 2 (roundQ (hi - lo).toNat).toNat ++ leBytes 1 l.length ++ leBytes 1 d.slots)
    s.dropDb p

/-- The engine's response to DB_RUN or DB_CAL: a status other than OK ends it (R147, R237, R247); DB_CAL's OK gives its
result; DB_RUN's OK leaves it to Kiln. -/
def State.dbResponse (s : State) (p : PortNum) (r : Running) (m : EngReply) : State :=
  let s := if (s.port p).svc.customer then s else s.addCounters p
  let s := if suspectDue r.cmd m then s.suspect p (s.tagOf r.cmd p) m.vclass else s
  if m.status ≠ St.OK then s.dbEnd p m.status
  else match (s.port p).svc.db with
    | some d =>
      if d.cal then s.dbCalDone p d
      else (s.pset p TXCTL.RAPID_EN 0).modSvc p fun v => { v with db := some { d with answered := true } }
    | none => s

/-! ## Rows -/

/-- RAPID_PHASE_START (R163). -/
def execRapidPhaseStart (p : PortNum) : State → Host.Outcome State Fault Refusal := run fun s => s.phaseStart p

/-- DB_CHALLENGE_SLOT (R231). -/
def execDbChallengeSlot (p : PortNum) (sent : Bool) (burst : Option Burst) : State → Host.Outcome State Fault Refusal :=
  run fun s => s.challenge p sent burst

/-- RAPID_PHASE_END (R229). -/
def execRapidPhaseEnd (p : PortNum) : State → Host.Outcome State Fault Refusal := run fun s => s.phaseEnd p

/-- DB_VERDICT (R244). -/
def execDbVerdict (p : PortNum) (reply : DbReply) : State → Host.Outcome State Fault Refusal :=
  run fun s => s.dbVerdict p reply

/-- DBCTL_LOCK (R240). -/
def execDbctlLock (p : PortNum) : State → Host.Outcome State Fault Refusal :=
  run fun s => if s.portOn p then s.pset p DBCTL.LOCK 1 else s

/-- ENGINE_RESPONSE (R452): the response in DBH_MSG ends the command that the engine serves. -/
def execEngineResponse (p : PortNum) : State → Host.Outcome State Fault Refusal := run fun s =>
  if !s.rung p 1 then s
  else
    let m := s.engReply p
    let s := s.ackMsg p
    match s.findJob fun r => r.job == .db p || r.job == .shipped p with
    | some r =>
      if r.job == .db p then
        if (s.port p).svc.db.any (·.answered) then s else s.dbResponse p r m
      else { s with running := dropFirst (fun x : Running => x.job == Job.shipped p) s.running }.engineResponds p r.cmd m
    | none => s

end Sys2Proof.Machine
end

