-- ==== Sys2Proof/Machine/Xpdr.lean ====
section
/-! DEFINITION. Port T: commits, host access to its memory, field sessions, the Aelyr link and Osgil frames it
answers, distance bounding on the tag's side and the emergency opening (R143-R172, R249-R277, R379-R382, R527). -/

namespace Sys2Proof.Machine

/-! ## Commits (R269-R273) -/

/-- A change to what T holds. -/
def State.modX (s : State) (f : Xpdr → Xpdr) : State := { s with xpdr := f s.xpdr }

/-- A record written. -/
def State.putRec (s : State) (k : Nat) (r : NvRec) : State :=
  s.modX fun x => { x with recs := Sparse.put x.recs k r }

/-- A record marked as faulted: RECFAULT and a RECORD_FAULT record. -/
def State.nvFault (s : State) (k : Nat) : State :=
  (s.xset XSTAT.RECFAULT 1).ash 0x0054 8 (leBytes 1 (kindOf k) ++ leBytes 2 (indexOf k))

/-- The repair of a cut commit from the journal (R272); it waits for the commit reserve. -/
def State.repair (s : State) : State :=
  match s.xpdr.journal with
  | none => s.modX fun x => { x with repairDue := false }
  | some (k, _) =>
    if !s.ashMay then s.modX fun x => { x with repairDue := true }
    else
      let s := match s.nvRead k with
        | some c => s.putRec k ⟨c, c⟩
        | none => s.nvFault k
      s.modX fun x => { x with journal := none, repairDue := false }

/-- A commit (R270): whether it succeeds, and the state. Whether a write verifies is a free value. -/
def State.commit (s : State) (k : Nat) (data : List Byte) (locked : Bool) : Bool × State :=
  if s.kilnGet KWSTAT.STATE = 2 ∨ !s.ashMay then (false, s)
  else
    let s := s.repair
    let seq := ((s.nvRead k).map (·.seq + 1)).getD 1
    let new : NvCopy := { data := padTo 16 data, seq, locked, ok := true }
    let torn : NvCopy := { new with ok := false }
    let (first, s) := s.drawBool
    if !first then (false, (s.putRec k ⟨torn, (s.nvRec k).backup⟩).nvFault k)
    else
      let (second, s) := s.drawBool
      if !second then (false, (s.putRec k ⟨new, torn⟩).nvFault k) else (true, s.putRec k ⟨new, new⟩)

/-- Commits in order until one is refused or fails: 0 done, 2 a locked block, 3 a failed commit; how many were
committed (R268, R381). -/
def State.commitAll (s : State) : List (Nat × List Byte) → Nat → Nat × Nat × State
  | [], done => (0, done, s)
  | (k, d) :: r, done =>
    if k < 1024 && ((s.nvRead k).map (·.locked)).getD false then (2, done, s)
    else
      let (ok, s) := s.commit k d false
      if ok then s.commitAll r (done + 1) else (3, done, s)

/-! ## Host commands on T (R266-R268, R379-R382) -/

/-- The owner of 8 hears of T only while the host side is powered. -/
def State.hostOn (s : State) : Bool :=
  s.dev.vsysOk && !s.dev.inReset && (s.dev.power == .run || s.dev.power == .idle || s.dev.power == .doze)

/-- A field session runs on T. -/
def State.tSession (s : State) : Bool := s.xget XSTAT.SESSION == 1

/-- One area of XPDR_AREA_SET: BLOCKS, AFLAGS, LIMIT, PWD. -/
def setBlocks (l : List Byte) (i : Nat) : Nat := leAt l (4 + 8 * i) 2

/-- The first block of area `i` of a new layout. -/
def setFirst (l : List Byte) (i : Nat) : Nat := ((List.range i).map (setBlocks l)).sum

/-- The records that XPDR_AREA_SET writes: every named area, keeping FAILS and lockout of one in lockout (R260), and
every area beyond them that had blocks. -/
def State.areaPlan (s : State) (l : List Byte) : List (Nat × List Byte) :=
  let n := byteAt l 0
  (List.range 16).filterMap fun i =>
    let old := s.area i
    let lock := areaLocked old
    let fails := if lock then areaFails old else 0
    if i < n then
      some (areaKey i, areaBytes (setFirst l i) (setBlocks l i) (byteAt l (6 + 8 * i)) (byteAt l (7 + 8 * i)) fails lock
        ((l.drop (8 + 8 * i)).take 4))
    else if areaBlocks old ≠ 0 then some (areaKey i, areaBytes 0 0 0 0 fails lock [])
    else none

/-- The records that XPDR_CONFIG writes: the three items, then each counter whose GUARD changes. -/
def State.configPlan (s : State) (l : List Byte) : List (Nat × List Byte) :=
  (List.range 3).map (fun i => (itemKey i, padTo 16 (l.drop (16 * i))))
    ++ (List.range 16).filterMap fun i =>
      match s.nvRead (counterKey i) with
      | some c =>
        if byteAt c.data 4 = byteAt l (20 + i) then none
        else some (counterKey i, c.data.take 4 ++ [l.getD (20 + i) 0])
      | none => none

/-- The blocks that XPDR_WRITE writes. -/
def blockPlan (b : Nat) (l : List Byte) : Nat → List (Nat × List Byte)
  | 0 => []
  | n + 1 => (blockKey b, l.take 16) :: blockPlan (b + 1) (l.drop 16) n

/-- The records that a host command writes, or why it writes none: 3 a faulted counter, 4 an increment that would
pass 0xFFFF_FFFF (R381). -/
def State.hostPlan (s : State) (c : Cmd) : Except Nat (List (Nat × List Byte)) :=
  let l := c.payload
  match c.opcode.toNat with
  | 0x0600 => .ok (s.configPlan l)
  | 0x0601 => .ok (s.areaPlan l)
  | 0x0603 => .ok (blockPlan (leAt l 0 2) (l.drop 4) (byteAt l 2))
  | _ =>
    match s.nvRead (counterKey (byteAt l 0)) with
    | none => .error 3
    | some r =>
      if 2 ^ 32 ≤ r.value + leAt l 4 4 then .error 4
      else .ok [(counterKey (byteAt l 0), leBytes 4 (r.value + leAt l 4 4) ++ r.data.drop 4)]

/-- A host command committed: its result and the records committed. A new configuration takes effect at once outside
a session, else at its end (R256). -/
def State.hostCommit (s : State) (c : Cmd) : Nat × Nat × State :=
  match s.hostPlan c with
  | .error e => (e, 0, s)
  | .ok plan =>
    let (res, done, s) := s.commitAll plan 0
    (res, done,
      if c.opcode ≠ 0x0600 ∨ res ≠ 0 then s
      else if s.tSession then s.modX fun x => { x with cfgNext := true }
      else s.loadCfg)

/-- The status of a result. -/
def hostStatus : Nat → Nat
  | 0 => St.OK | 2 => St.SECURITY_DENIED | 4 => St.BAD_PARAM | _ => St.INTERNAL_ERROR

/-- A host command that Kiln has committed, answered. -/
def State.hostCommitDone (s : State) (c : Cmd) : State :=
  let (res, done, s) := s.hostCommit c
  let ok := match c.opcode.toNat with
    | 0x0603 => leBytes 1 done
    | 0x0605 => (s.nvData (counterKey (byteAt c.payload 0))).take 4
    | _ => []
  s.respond c (hostStatus res) (if res = 0 then ok else [])

/-- The first deferred command committed, with XPDR_WRITE_DONE (R268). -/
def State.commitDeferred (s : State) : State :=
  match s.xpdr.deferred with
  | [] => s
  | d :: r =>
    let (res, done, s) := (s.modX fun x => { x with deferred := r }).hostCommit d.cmd
    let outcome := match res with
      | 0 => bit d.overtaken
      | 3 => 3
      | _ => 2
    s.raiseTo d.cmd.hp 8 0x0680 ([d.cmd.seq] ++ leBytes 1 outcome ++ leBytes 2 d.cmd.opcode.toNat
      ++ leBytes 1 (if d.cmd.opcode = 0x0603 then done else 0))

/-- A host command that changes T's NVM: deferred during a session; else committed, behind those that still wait
(R267). -/
def State.hostChange (s : State) (c : Cmd) : State :=
  if s.tSession then (s.modX fun x => { x with deferred := x.deferred ++ [⟨c, false⟩] }).respond c St.PENDING
  else (iter State.commitDeferred 8 s).begin c .kiln

/-- A ninth deferred command (R267). -/
def gateDefer (_ : Cmd) (s : State) : Bool := s.tSession && 8 ≤ s.xpdr.deferred.length

/-- Whether a layout of areas fits Osgil (R172, R259): area 0 is blocks 0-3, area 1 blocks 4-15. -/
def osgilFits (b0 b1 : Nat) : Bool := b0 == 4 && b1 == 12

/-- XPDR_CONFIG (R380). -/
def bodyXpdrConfig (c : Cmd) (s : State) : State :=
  let l := c.payload
  let slotOk := fun i => byteAt l i < 64 || byteAt l i == 0x7F
  let guardOk := fun i => byteAt l (20 + i) < s.areaCount || byteAt l (20 + i) == 0xFF
  if 16 ≤ byteAt l 0 ∨ !([1, 2, 3].all slotOk) ∨ 4 ≤ byteAt l 14 ∨ s.areaCount ≤ byteAt l 15 ∨ 16 ≤ byteAt l 16
      ∨ 64 ≤ byteAt l 17 ∨ !((List.range 16).all guardOk)
      ∨ (nbit (byteAt l 0) 2 ∧ !osgilFits (areaBlocks (s.area 0)) (areaBlocks (s.area 1))) then s.respond c St.BAD_PARAM
  else s.hostChange c

/-- XPDR_AREA_SET (R259). -/
def bodyXpdrAreaSet (c : Cmd) (s : State) : State :=
  let l := c.payload
  let n := byteAt l 0
  if l.length ≠ 4 + 8 * n then s.respond c St.BAD_LENGTH
  else if !((List.range n).all fun i => setBlocks l i ≠ 0 && byteAt l (6 + 8 * i) < 4 && byteAt l (7 + 8 * i) ≠ 0)
      ∨ setFirst l n ≠ 1024 ∨ (s.tOsgil ∧ !osgilFits (setBlocks l 0) (setBlocks l 1)) then s.respond c St.BAD_PARAM
  else s.hostChange c

/-- XPDR_WRITE (R381). -/
def bodyXpdrWrite (c : Cmd) (s : State) : State :=
  let n := byteAt c.payload 2
  if c.payload.length ≠ 4 + 16 * n then s.respond c St.BAD_LENGTH
  else if n < 1 ∨ 16 < n ∨ 1024 < leAt c.payload 0 2 + n then s.respond c St.BAD_PARAM
  else s.hostChange c

/-- XPDR_CNT_INC (R261). -/
def bodyXpdrCntInc (c : Cmd) (s : State) : State :=
  if 15 < byteAt c.payload 0 ∨ leAt c.payload 4 4 = 0 then s.respond c St.BAD_PARAM else s.hostChange c

/-- The packets of XPDR_READ, at most 255 blocks each. -/
def readPackets (first : Nat) (l : List Byte) : Nat → Nat → List (List Byte)
  | 0, _ => []
  | f + 1, n =>
    let k := min 255 n
    let p := leBytes 2 first ++ leBytes 1 k ++ [0] ++ l.take (16 * k)
    if n ≤ 255 then [p] else p :: readPackets (first + 255) (l.drop (16 * k)) f (n - 255)

/-- XPDR_READ: the last committed data (R266, R273). -/
def bodyXpdrRead (c : Cmd) (s : State) : State :=
  let b := leAt c.payload 0 2
  let n := leAt c.payload 2 2
  if n < 1 ∨ 1024 < n ∨ 1024 < b + n then s.respond c St.BAD_PARAM
  else
    let recs := (List.range n).map fun i => s.nvRead (blockKey (b + i))
    if recs.any (·.isNone) then s.respond c St.INTERNAL_ERROR
    else s.respondPkts c St.OK (readPackets b (recs.flatMap fun r => padTo 16 ((r.map (·.data)).getD [])) 5 n)

/-- XPDR_CNT_READ. -/
def bodyXpdrCntRead (c : Cmd) (s : State) : State :=
  if 15 < byteAt c.payload 0 then s.respond c St.BAD_PARAM
  else match s.nvRead (counterKey (byteAt c.payload 0)) with
    | some r => s.respond c St.OK (padTo 5 r.data)
    | none => s.respond c St.INTERNAL_ERROR

/-- XPDR_AREA_INFO. -/
def bodyXpdrAreaInfo (c : Cmd) (s : State) : State :=
  let n := s.areaCount
  if (List.range n).any fun i => (s.nvRead (areaKey i)).isNone then s.respond c St.INTERNAL_ERROR
  else s.respond c St.OK (leBytes 1 n ++ (List.range n).flatMap fun i =>
    (s.area i).take 7 ++ leBytes 1 (bit (areaLocked (s.area i))))

/-- XPDR_STATUS. -/
def bodyXpdrStatus (c : Cmd) (s : State) : State :=
  s.respond c St.OK (wordsBytes ([0x000, 0x004, 0x008, 0x00C, 0x010, 0x014].map s.xWord) ++ s.tUid)

/-- An XPDR_LOCKOUT record; a field of it that the spec gives no value is free. -/
def State.lockoutRecord (s : State) (area : Nat) (proto event means host : Option Nat) : State :=
  let pick := fun (o : Option Nat) (s : State) => match o with
    | some v => (v, s)
    | none => s.drawByte
  let (p, s) := pick proto s
  let (e, s) := pick event s
  let (m, s) := pick means s
  let (h, s) := pick host s
  s.ash 0x0050 8 (leBytes 1 area ++ leBytes 1 (areaLimit (s.area area)) ++ leBytes 1 p ++ leBytes 1 e ++ leBytes 1 m
    ++ leBytes 1 h)

/-- The public keys that may clear a lockout (R527). -/
def State.unlockKeys (s : State) : List (List Byte) :=
  (List.range 64).filterMap fun n => if 3 ≤ n then (s.keyFor n [5] 1).map (·.key) else none

/-- XPDR_UNLOCK: judged, the nonce spent, then Kiln verifies (R382, R527). -/
def bodyXpdrUnlock (c : Cmd) (s : State) : State :=
  let area := byteAt c.payload 0
  if s.areaCount ≤ area then s.respond c St.BAD_PARAM
  else if (s.nvRead (areaKey area)).isNone then s.respond c St.INTERNAL_ERROR
  else if !areaLocked (s.area area) ∨ s.unlockKeys = [] then s.respond c St.SECURITY_DENIED
  else
    let nonce := s.liveNonce s.kiln.nonceX
    let s := { s with kiln := { s.kiln with nonceX := none } }
    match nonce with
    | none => (s.lockoutRecord area none (some 2) (some 2) (some c.hp.val)).respond c St.AUTH_FAIL
    | some n => s.begin { c with payload := c.payload ++ n } .kiln

/-- XPDR_UNLOCK ends with BUSY during a session (R382). -/
def gateSession (_ : Cmd) (s : State) : Bool := s.tSession

/-- An area's lockout and FAILS cleared. -/
def State.clearArea (s : State) (i : Nat) : Bool × State :=
  let d := s.area i
  s.commit (areaKey i) (d.take 6 ++ [0, 0] ++ d.drop 8) false

/-- Kiln has verified AUTH of XPDR_UNLOCK. -/
def State.xpdrUnlockDone (s : State) (c : Cmd) : State :=
  let area := byteAt c.payload 0
  let digest := Config.sha256 ([0x55, BitVec.ofNat 8 area] ++ c.payload.drop 68 ++ s.tUid)
  if s.unlockKeys.any fun k => Config.ecdsaVerify k digest ((c.payload.drop 4).take 64) then
    let (ok, s) := s.clearArea area
    if ok then (s.lockoutRecord area none (some 1) (some 2) (some c.hp.val)).respond c St.OK
    else s.respond c St.INTERNAL_ERROR
  else (s.lockoutRecord area none (some 2) (some 2) (some c.hp.val)).respond c St.AUTH_FAIL

/-- A host command on T that Kiln has finished. -/
def State.hostTDone (s : State) (c : Cmd) : State :=
  if c.opcode = 0x0607 then s.xpdrUnlockDone c else s.hostCommitDone c

/-- The host commits in progress on T finished (R267). -/
def State.finishHost (s : State) : State :=
  let sel := fun r : Running => r.job == .kiln && r.cmd.target == 8
  let l := s.running.filter sel
  l.foldl (fun t r => t.hostTDone r.cmd) { s with running := s.running.filter fun r => !sel r }

/-- A SYS reset cuts the commit in progress (R271, R495): a free number of its records is committed, and the next one
is untouched, journalled, torn in the primary copy, or complete in the primary copy with the old backup. -/
def State.cutCommit (s : State) : State :=
  match s.findJob fun r => r.job == .kiln && r.cmd.target == 8 && r.cmd.opcode != 0x0607 with
  | none => s
  | some r => match s.hostPlan r.cmd with
    | .error _ => s
    | .ok plan =>
      let (n, s) := s.drawNat (plan.length + 1)
      let (res, _, s) := s.commitAll (plan.take n) 0
      let (stage, s) := s.drawNat 4
      match plan.drop n with
      | (k, d) :: _ =>
        if res ≠ 0 ∨ stage = 0 ∨ (k < 1024 ∧ ((s.nvRead k).map (·.locked)).getD false) then s
        else
          let seq := ((s.nvRead k).map (·.seq + 1)).getD 1
          let copy : NvCopy := { data := padTo 16 d, seq, locked := false, ok := stage == 3 }
          let s := s.modX fun x => { x with journal := some (k, seq) }
          if stage = 1 then s else s.putRec k ⟨copy, (s.nvRec k).backup⟩
      | [] => s

/-! ## Field sessions and supply modes (R250-R252) -/

/-- Leaving ACTIVE or restarting the session (R145). -/
def State.leaveActive (s : State) : State :=
  s.modX fun x => { x with opens := [], dbArmed := false, dbSync := false, keptReq := [], keptRsp := [], nonce := none }

/-- T starts again: IDLE for Aelyr link, OPEN for Osgil (R252). -/
def State.tFresh (s : State) : State :=
  s.leaveActive.modX fun x =>
    { x with
      sibarm := false
      st := match x.st with
        | .off => .off
        | .opened | .secured => .opened
        | _ => .idle }

/-- The session ends: a waiting configuration takes effect, and T returns to battery mode when VSYS is back. -/
def State.tSessionEnd (s : State) : State :=
  let s := (s.xset XSTAT.SESSION 0).xset XSTAT.PROTO 0
  let s := if s.xpdr.cfgNext then s.loadCfg else s
  if s.xget XSTAT.SUPPLY = 2 ∧ s.dev.vsysOk ∧ !s.xpdr.vsysLow then
    ((s.xset XSTAT.SUPPLY 1).kilnSet KWSTAT.HARVEST 0).tFresh
  else s

/-- Harvest mode. -/
def State.tHarvest (s : State) : State :=
  ((s.xset XSTAT.SUPPLY 2).kilnSet KWSTAT.HARVEST 1).modX fun x => { x with reserve := false }

/-- T loses the field, and with it its state and an armed opening (R143, R253, R277). -/
def State.tFieldGone (s : State) : State :=
  let s := (s.xset XSTAT.SESSION 0).xset XSTAT.PROTO 0
  let s := if s.xpdr.cfgNext then s.loadCfg else s
  let s := ((s.xset XSTAT.FIELD 0).xset XSTAT.SUPPLY 0).xset XSTAT.H 0
  let s := (s.xset XEOSTAT.ARMED 0).xset XEOSTAT.CHARGING 0
  let s := if s.dev.vsysOk ∧ !s.xpdr.vsysLow then s.kilnSet KWSTAT.HARVEST 0 else s
  s.leaveActive.modX fun x =>
    { x with st := .off, spoke := none, sibarm := false, reserve := false, reply := [], replyExt := 0, burst := none }

/-- D8 and Kiln start cold: T's registers and the configuration are loaded (R257), Kiln runs its self-test and the
TRNG's test. -/
def State.tColdStart (s : State) : State :=
  let v := s.xget XEOSTAT.VSTORE
  let s := { s with xpdr := { s.xpdr with regs := [] }, kiln := { s.kiln with regs := [] } }
  (s.xset XEOSTAT.VSTORE v).loadCfg

/-- D8 and D2 have no supply but the field's. -/
def State.tCold (s : State) : Bool := !s.dev.vsysOk || s.dev.power == .off

/-- XPDR_FIELD_APPEAR (R145, R167, R251): a field at operating strength. -/
def execXpdrFieldAppear (strength : Byte) (battery : Bool) : State → Host.Outcome State Fault Refusal := run fun s =>
  let bat := battery && s.dev.vsysOk
  let need := if bat then 3 else 15
  if s.xget XSTAT.FIELD = 1 then s.xset XSTAT.H strength.toNat
  else if strength.toNat < need then s
  else
    let s := if s.tCold then s.tColdStart else s
    let s := ((s.xset XSTAT.FIELD 1).xset XSTAT.H strength.toNat).modX fun x => { x with vsysLow := !bat && s.dev.vsysOk }
    if !s.tEn then s
    else
      let s := if bat then (s.xset XSTAT.SUPPLY 1).kilnSet KWSTAT.HARVEST 0 else s.tHarvest
      s.modX fun x => { x with st := if s.tOsgil && !s.tAelyr then .opened else .idle }

/-- XPDR_FIELD_LOST: a gap in microseconds. Below 1 ms T keeps its state, from 5 ms on it starts again, and between
the two the outcome is free (R143). -/
def execXpdrFieldLost (gap : Nat) : State → Host.Outcome State Fault Refusal := run fun s =>
  if s.xget XSTAT.FIELD = 0 ∨ gap < 1000 then s
  else if 5000 ≤ gap then s.tFieldGone
  else
    let (lost, s) := s.drawBool
    if lost then s.tFieldGone else s

/-- XPDR_SESSION_IDLE_END (R250). -/
def execXpdrSessionIdleEnd : State → Host.Outcome State Fault Refusal := run fun s =>
  if s.tSession then s.tSessionEnd else s

/-- XPDR_SUPPLY_DROP (R252): the session ends, and T goes on in harvest mode in a field of 1.5 A/m or more. -/
def execXpdrSupplyDrop : State → Host.Outcome State Fault Refusal := run fun s =>
  let s := s.modX fun x => { x with vsysLow := true }
  if s.xget XSTAT.SUPPLY ≠ 1 then s
  else if s.xget XSTAT.H < 15 then s.tFieldGone
  else (if s.tSession then s.tSessionEnd else s).tHarvest.tFresh

/-! ## A frame reaches T -/

/-- Nothing is sent. -/
def State.tQuiet (s : State) : State := s.modX fun x => { x with reply := [], replyExt := 0, burst := none }

/-- A reply, without its CRC. -/
def State.tReply (s : State) (r : List Byte) : State := s.modX fun x => { x with reply := r }

/-- Whether T hears a frame of a protocol (R135, R171, R257): field present, T and the protocol enabled, no frame of
the other one accepted since the field appeared. -/
def State.tHears (s : State) (p : LinkProto) (body : List Byte) : Bool :=
  s.xget XSTAT.FIELD == 1 && s.tEn
    && (match p with
      | .aelyr => s.tAelyr && body.length ≤ 29
      | .osgil => s.tOsgil)
    && (match s.xpdr.spoke with
      | none => true
      | some q => q == p)

/-- A valid frame: it starts the session and settles the protocol (R171, R250). -/
def State.tAccept (s : State) (p : LinkProto) : State :=
  let s := s.modX fun x =>
    { x with
      spoke := some p
      st := match p, x.st with
        | .osgil, .secured => .secured
        | .osgil, _ => .opened
        | .aelyr, t => t }
  if s.tSession then s
  else (s.xset XSTAT.SESSION 1).xset XSTAT.PROTO (match p with
    | .aelyr => 1
    | .osgil => 2)

/-- A frame before the sync or inside the phase ends DB_ARMED (R166). -/
def State.dbDisarm (s : State) : State :=
  let x := s.xpdr
  if x.dbArmed && !(x.dbSync && x.crx.length == x.dbN) then s.modX fun x => { x with dbArmed := false } else s

/-- A command that touches NVM waits for a host commit and for Kiln's start; T covers the time with extension frames
whose M is free (R153, R267, R495). -/
def State.tWait (s : State) : State :=
  if s.tCommitting || s.kilnGet KWSTAT.STATE == 0 then
    let (m, s) := s.finishHost.drawNat 8
    s.modX fun x => { x with replyExt := m + 1 }
  else s

/-- A frame that T hears, with whether its length fits its command and whether its command may touch NVM. -/
def State.tFrame (s : State) (p : LinkProto) (body : List Byte) (valid nvm : Bool) (f : State → State) : State :=
  if !s.tHears p body then s.tQuiet
  else
    let s := s.tQuiet.dbDisarm
    let s := if valid then s.tAccept p else s
    f (if nvm then s.tWait else s)

/-- T is in ACTIVE. -/
def State.tActive (s : State) : Bool := s.xpdr.st == .active

/-- The state set. -/
def State.tGo (s : State) (t : TState) : State := s.modX fun x => { x with st := t }

/-! ## Anticollision (R145, R150-R152) -/

/-- Whether a byte string agrees with the UID in its first bits (R150). -/
def prefixFits (uid pre : List Byte) (len : Nat) : Bool :=
  (List.range len).all fun j => (uid.getD (j / 8) 0).getLsbD (j % 8) == (pre.getD (j / 8) 0).getLsbD (j % 8)

/-- A frame of SCAN, SELECT or HALT whose length does not fit: PARAM in ACTIVE, else silence (R145). -/
def State.tMalformed (s : State) : State := if s.tActive then s.tReply [1] else s

/-- The DB key of T (R255). -/
def State.tDbKey (s : State) : Option (List Byte) := (s.keyFor (s.cfgByte 1) [1] 0).map (·.key)

/-- Distance bounding is offered (R251, R255). -/
def State.tDb (s : State) : Bool := s.xget XSTAT.SUPPLY == 1 && s.tDbEn && s.tDbKey.isSome

/-- The SELECT reply: status and tag information (R148). -/
def State.tInfo (s : State) : List Byte :=
  let caps := bit s.tDb + 2 + 4 + 8 * bit (s.tAelyr && s.tOsgil) + 16
  [0] ++ leBytes 1 caps ++ [0, 4] ++ leBytes 1 s.areaCount ++ [16] ++ leBytes 1 (if s.tDb then 64 else 0) ++ [1]

/-- SCAN in a frame whose length fits. -/
def State.tScan (s : State) (body : List Byte) : State :=
  let all := nbit (byteAt body 0) 0
  let fits := prefixFits s.tUid (body.drop 2) (byteAt body 1)
  let s := s.modX fun x => { x with sibarm := false }
  if s.xpdr.st = .halted ∧ !(all && fits) then s
  else
    let s := (if s.tActive then s.leaveActive else s).tGo (if !fits && s.xpdr.st == .idle then .idle else .ready)
    if fits then s.tReply s.tUid else s

/-- SCAN (R145, R150). One with LEN above 63 is ignored. -/
def execScan (body : List Byte) : State → Host.Outcome State Fault Refusal := run fun s =>
  let len := byteAt body 1
  if 2 ≤ body.length ∧ 63 < len then s.tFrame .aelyr body false false id
  else
    let ok := 2 ≤ body.length && body.length == 2 + (len + 7) / 8
    s.tFrame .aelyr body ok false fun s => if ok then s.tScan body else s.tMalformed

/-- SELECT in a frame whose length fits. -/
def State.tSelect (s : State) (body : List Byte) : State :=
  let uid := body.drop 1
  let s := s.modX fun x => { x with sibarm := false }
  if uid = s.tUid then
    if s.xpdr.st = .halted ∧ !nbit (byteAt body 0) 1 then s
    else
      let s := s.leaveActive.tGo .active
      s.tReply s.tInfo
  else
    match s.xpdr.st with
    | .ready => s.modX fun x => { x with sibarm := nbit (byteAt body 0) 0 && uid == siblingUid s.tUid }
    | .active => s.leaveActive.tGo .ready
    | _ => s

/-- SELECT (R145). -/
def execSelect (body : List Byte) : State → Host.Outcome State Fault Refusal := run fun s =>
  let ok := body.length == 9
  s.tFrame .aelyr body ok false fun s => if ok then s.tSelect body else s.tMalformed

/-- HALT in a frame whose length fits. -/
def State.tHalt (s : State) (body : List Byte) : State :=
  let next := nbit (byteAt body 0) 0
  let armed := s.xpdr.sibarm
  let s := if next then s.modX fun x => { x with sibarm := false } else s
  if s.tActive then (s.leaveActive.tGo .halted).tReply [0]
  else if s.xpdr.st = .ready ∧ next ∧ armed then
    let s := s.tGo .active
    s.tReply s.tInfo
  else s

/-- AELYR_HALT (R145, R152). -/
def execAelyrHalt (body : List Byte) : State → Host.Outcome State Fault Refusal := run fun s =>
  let ok := body.length == 1
  s.tFrame .aelyr body ok false fun s => if ok then s.tHalt body else s.tMalformed

/-! ## The commands of ACTIVE (R146, R147) -/

/-- The judgement of R147 for a command that T offers: PARAM for a wrong length, the command's own rule in ACTIVE,
silence elsewhere. -/
def State.tCmd (s : State) (body : List Byte) (len : Nat) (f : State → State) : State :=
  let ok := body.length == len
  s.tFrame .aelyr body ok true fun s => if !s.tActive then s.tQuiet else if ok then f s else s.tReply [1]

/-- A repeat-safe command (R159): an identical frame gets the kept reply. -/
def State.tSafe (s : State) (req : List Byte) (f : State → State) : State :=
  if s.xpdr.keptReq = req then s.tReply s.xpdr.keptRsp
  else
    let s := f s
    s.modX fun x => { x with keptReq := req, keptRsp := x.reply }

/-- Whether a deferred command writes a record. -/
def Deferred.touches (d : Deferred) (k : Nat) : Bool :=
  match d.cmd.opcode.toNat with
  | 0x0601 => kindOf k == 3
  | 0x0603 => leAt d.cmd.payload 0 2 ≤ k && k < leAt d.cmd.payload 0 2 + byteAt d.cmd.payload 2
  | 0x0605 => k == counterKey (byteAt d.cmd.payload 0)
  | _ => false

/-- A commit for the field; deferred commands that write the same record are overtaken (R268). -/
def State.fieldCommit (s : State) (k : Nat) (data : List Byte) (locked : Bool) : Bool × State :=
  let (ok, s) := s.commit k data locked
  (ok, if ok then s.modX fun x =>
      { x with deferred := x.deferred.map fun d => if d.touches k then { d with overtaken := true } else d }
    else s)

/-- Whether an area's password is demanded (bit 0 read, bit 1 write) and the area is not open. -/
def State.areaShut (s : State) (b flag : Nat) : Bool :=
  let a := s.areaOf b
  nbit (areaFlags (s.area a)) flag && !s.areaOpen a

/-- Whether a block's area record or the block itself is faulted. -/
def State.blockFault (s : State) (b : Nat) : Bool :=
  (s.nvRead (areaKey (s.areaOf b))).isNone || (s.nvRead (blockKey b)).isNone

/-- The bytes of a block. -/
def State.blockData (s : State) (b : Nat) : List Byte := padTo 16 (s.nvData (blockKey b))

/-- READ (R156). -/
def execRead (body : List Byte) : State → Host.Outcome State Fault Refusal := run fun s =>
  s.tCmd body 3 fun s =>
    let b := leAt body 0 2
    let n := byteAt body 2
    let l := (List.range n).map (b + ·)
    if n = 0 ∨ 4 < n ∨ 1024 < b + n then s.tReply [1]
    else if l.any fun i => (s.nvRead (areaKey (s.areaOf i))).isNone then s.tReply [6]
    else if l.any fun i => s.areaShut i 0 then s.tReply [2]
    else if l.any s.blockFault then s.tReply [6]
    else s.tReply ([0] ++ l.flatMap s.blockData)

/-- The status that stops a WRITE or LOCK_BLOCK of a block (R156, R273). -/
def State.writeStop (s : State) (b : Nat) : Option Byte :=
  if 1024 ≤ b then some 1
  else if (s.nvRead (areaKey (s.areaOf b))).isNone then some 6
  else if s.areaShut b 1 then some 2
  else match s.nvRead (blockKey b) with
    | none => some 6
    | some c => if c.locked then some 2 else none

/-- The reply of a commit: OK or MEMFAIL. -/
def State.tDone (s : State) (ok : Bool) : State := s.tReply [if ok then 0 else 6]

/-- WRITE (R156). -/
def execWrite (body : List Byte) : State → Host.Outcome State Fault Refusal := run fun s =>
  s.tCmd body 18 fun s =>
    let b := leAt body 0 2
    match s.writeStop b with
    | some st => s.tReply [st]
    | none =>
      let (ok, s) := s.fieldCommit (blockKey b) (body.drop 2) false
      s.tDone ok

/-- LOCK_BLOCK (R156). -/
def execLockBlock (body : List Byte) : State → Host.Outcome State Fault Refusal := run fun s =>
  s.tCmd body 2 fun s =>
    let b := leAt body 0 2
    match s.writeStop b with
    | some st => s.tReply [st]
    | none =>
      let (ok, s) := s.fieldCommit (blockKey b) (s.blockData b) true
      s.tDone ok

/-- AREA_INFO (R155). -/
def execAreaInfo (body : List Byte) : State → Host.Outcome State Fault Refusal := run fun s =>
  s.tCmd body 1 fun s =>
    let i := byteAt body 0
    let d := s.area i
    if s.areaCount ≤ i then s.tReply [1]
    else if (s.nvRead (areaKey i)).isNone then s.tReply [6]
    else s.tReply ([0] ++ d.take 4
      ++ leBytes 1 (areaFlags d % 4 + 4 * bit (areaLocked d) + 8 * bit (s.areaOpen i)) ++ (d.drop 5).take 2)

/-- How a password attempt ends (R157, R265). -/
inductive PwdResult where
  | ok | wrong | locked | memfail
  deriving DecidableEq, Repr

/-- An area's FAILS and lockout committed. -/
def State.commitFails (s : State) (i fails : Nat) (locked : Bool) : Bool × State :=
  let d := s.area i
  s.fieldCommit (areaKey i) (d.take 6 ++ leBytes 1 fails ++ leBytes 1 (bit locked) ++ d.drop 8) false

/-- An area enters lockout: XPDR_LOCKOUT in the log and for the owner of 8 (R264). -/
def State.enterLockout (s : State) (i proto : Nat) : State :=
  let s := s.lockoutRecord i (some proto) (some 0) none (some 0xFF)
  if s.hostOn then s.raiseOwner 8 0x0681 (leBytes 1 i ++ leBytes 1 proto ++ leBytes 1 (areaLimit (s.area i))) else s

/-- A password attempt on an area, in the order of R157. -/
def State.password (s : State) (i proto : Nat) (pwd : List Byte) : PwdResult × State :=
  let d := s.area i
  if (s.nvRead (areaKey i)).isNone then (.memfail, s)
  else if areaLocked d then (.locked, s)
  else
    let fails := min 255 (areaFails d + 1)
    let (ok, s) := s.commitFails i fails false
    if !ok then (.memfail, s)
    else if pwd = areaPwd d then
      let (ok, s) := s.commitFails i 0 false
      if ok then (.ok, s.modX fun x => { x with opens := i :: x.opens.filter (· ≠ i) }) else (.memfail, s)
    else if areaLimit d ≤ fails then
      let (ok, s) := s.commitFails i fails true
      if ok then (.locked, s.enterLockout i proto) else (.memfail, s)
    else (.wrong, s)

/-- The remaining attempts of an area; a free value where its record is faulted. -/
def State.attempts (s : State) (i : Nat) : Nat × State :=
  if (s.nvRead (areaKey i)).isNone then s.drawByte
  else if areaLocked (s.area i) then (0, s)
  else (areaLimit (s.area i) - areaFails (s.area i), s)

/-- AUTH_PWD (R157, R159). -/
def execAuthPwd (body : List Byte) : State → Host.Outcome State Fault Refusal := run fun s =>
  s.tCmd body 6 fun s => s.tSafe (0x20 :: body) fun s =>
    let i := byteAt body 0
    if s.areaCount ≤ i then s.tReply [1]
    else
      let (r, s) := s.password i 1 (body.drop 2)
      let (n, s) := s.attempts i
      s.tReply ([match r with
        | .ok => 0
        | .wrong => 3
        | .locked => 4
        | .memfail => 6] ++ leBytes 1 n)

/-- A new password of an area committed. -/
def State.commitPwd (s : State) (i : Nat) (pwd : List Byte) : Bool × State :=
  s.fieldCommit (areaKey i) ((s.area i).take 8 ++ pwd) false

/-- SET_PWD (R158, R159). -/
def execSetPwd (body : List Byte) : State → Host.Outcome State Fault Refusal := run fun s =>
  s.tCmd body 6 fun s => s.tSafe (0x21 :: body) fun s =>
    let i := byteAt body 0
    if s.areaCount ≤ i then s.tReply [1]
    else if (s.nvRead (areaKey i)).isNone then s.tReply [6]
    else if !s.areaOpen i then s.tReply [2]
    else
      let (ok, s) := s.commitPwd i (body.drop 2)
      s.tDone ok

/-- Kiln can give T random bytes; while the TRNG's test runs T waits for it with extension frames (R517). -/
def State.tRandom (s : State) (f : State → State) : State :=
  if s.kilnGet KWSTAT.TRNG = 3 ∨ s.kilnGet KWSTAT.STATE = 2 then s.tReply [6]
  else if s.trngReady then f s
  else
    let (m, s) := s.drawNat 8
    f (s.modX fun x => { x with replyExt := m + 1 })

/-- GET_NONCE (R160, R517). -/
def execGetNonce (body : List Byte) : State → Host.Outcome State Fault Refusal := run fun s =>
  s.tCmd body 0 fun s => s.tRandom fun s =>
    let (n, s) := s.drawBytes 8
    (s.modX fun x => { x with nonce := some n }).tReply ([0] ++ n)

/-! ## UNLOCK and the emergency opening (R160, R274-R277) -/

/-- VTH of the configuration in 10 mV (R273's register XEO: 51-63 count as 50). -/
def State.eoVthCfg (s : State) : Nat := 200 + 5 * min 50 (s.cfgByte 17)

/-- PULSE of the configuration in 10 ms. -/
def State.eoPulseCfg (s : State) : Nat := max 1 (min 100 (s.cfgByte 18))

/-- The counter of openings raised by 1 under R161; its new value. -/
def State.eoCount (s : State) (i : Nat) : Option Nat × State :=
  match s.nvRead (counterKey i) with
  | none => (none, s)
  | some r =>
    if 2 ^ 32 ≤ r.value + 1 then (none, s)
    else
      let (ok, s) := s.fieldCommit (counterKey i) (leBytes 4 (r.value + 1) ++ r.data.drop 4) false
      (if ok then some (r.value + 1) else none, s)

/-- The charger stops and the arming ends. -/
def State.eoDisarm (s : State) : State := (s.xset XEOSTAT.ARMED 0).xset XEOSTAT.CHARGING 0

/-- The opening: counter and record committed, then EMOPEN (R275). VALUE and CNT are free where no counter counts. -/
def State.eoOpen (s : State) : State :=
  let (val, s) := match s.xpdr.eoCnt with
    | some i => s.eoCount i
    | none =>
      let (v, s) := s.drawNat (2 ^ 32)
      (some v, s)
  let (cnt, s) := match s.xpdr.eoCnt with
    | some i => (i, s)
    | none => s.drawByte
  match val with
  | none => s.eoDisarm
  | some v =>
    if s.kilnGet KWSTAT.STATE = 2 ∨ !s.ashMay then s.eoDisarm
    else
      let vs := s.xget XEOSTAT.VSTORE
      let sup := s.xget XSTAT.SUPPLY
      let s := s.ashCommit { type := 0x0052, source := 8, flags := s.ashFlags, time := s.ashTime,
                             data := leBytes 2 vs ++ leBytes 4 v ++ leBytes 1 cnt ++ leBytes 1 sup }
      let s := (s.eoDisarm.xset XEOSTAT.FIRING 1).xset XEOSTAT.FIRED 1
      if sup = 1 ∧ s.hostOn then s.raiseOwner 8 0x0682 (leBytes 2 vs ++ leBytes 4 v) else s

/-- T is armed with the latched VTH, PULSE and counter; the opening follows at once when VSTORE is charged (R277). -/
def State.eoArm (s : State) : State :=
  let s := s.modX fun x =>
    { x with
      eoVth := s.eoVthCfg
      eoPulse := s.eoPulseCfg
      eoCnt := if s.eoCntEn then some (s.cfgByte 16) else none }
  let s := s.xset XEOSTAT.ARMED 1
  if s.xpdr.eoVth ≤ s.xget XEOSTAT.VSTORE then s.eoOpen else s.xset XEOSTAT.CHARGING 1

/-- The record of the arming committed, or none where it cannot be (R274). -/
def State.armRecord (s : State) (area : Nat) : Option State :=
  if s.kilnGet KWSTAT.STATE = 2 ∨ !s.ashMay then none
  else some (s.ashCommit { type := 0x0051, source := 8, flags := s.ashFlags, time := s.ashTime,
                           data := s.tUid ++ leBytes 1 area ++ leBytes 1 (s.xget XSTAT.SUPPLY) })

/-- UNLOCK applied to an area (R160, R263). -/
def State.applyUnlock (s : State) (area : Nat) : Bool × State :=
  let was := areaLocked (s.area area)
  let d := s.area area
  let (ok, s) := s.fieldCommit (areaKey area) (d.take 6 ++ [0, 0] ++ d.drop 8) false
  (ok, if ok && was then s.lockoutRecord area (some 1) (some 1) (some 1) (some 0xFF) else s)

/-- A correct UNLOCK: of the opening's area it arms (R274), while EMOPEN is asserted it is an ordinary one (R277). -/
def State.unlockOk (s : State) (area : Nat) : State :=
  if s.eoEn && area == s.cfgByte 15 && s.xget XEOSTAT.FIRING == 0 then
    match s.armRecord area with
    | none => s.tReply [6]
    | some s =>
      let (ok, s) := s.applyUnlock area
      if ok then s.eoArm.tReply [0] else s.tReply [6]
  else
    let (ok, s) := s.applyUnlock area
    s.tDone ok

/-- The key that checks an UNLOCK of an area: the service key for the opening's area, else the admin key. -/
def State.unlockKey (s : State) (area : Nat) : Option (List Byte) :=
  if s.eoEn && area == s.cfgByte 15 then (s.keyFor (s.cfgByte 3) [1] 2).map (·.key)
  else (s.keyFor (s.cfgByte 2) [1] 1).map (·.key)

/-- UNLOCK (R159, R160, R263, R274). -/
def execUnlock (body : List Byte) : State → Host.Outcome State Fault Refusal := run fun s =>
  s.tCmd body 10 fun s => s.tSafe (0x23 :: body) fun s =>
    let area := byteAt body 0
    match s.unlockKey area with
    | none => s.tReply [2]
    | some key =>
      if s.areaCount ≤ area then s.tReply [1]
      else if (s.nvRead (areaKey area)).isNone then s.tReply [6]
      else match s.xpdr.nonce with
        | none => s.tReply [2]
        | some n =>
          let s := s.modX fun x => { x with nonce := none }
          let msg := [0x23] ++ s.tUid ++ body.take 1 ++ n
          if padTo 8 (Config.aesCmac key msg) = body.drop 2 then s.unlockOk area else s.tReply [3]

/-- EO_VTH_REACHED (R275). -/
def execEoVthReached (vstore : BitVec 10) : State → Host.Outcome State Fault Refusal := run fun s =>
  if s.xget XEOSTAT.ARMED = 1 ∧ s.xget XSTAT.FIELD = 1 ∧ s.xpdr.eoVth ≤ vstore.toNat then
    (s.xset XEOSTAT.VSTORE vstore.toNat).eoOpen
  else s

/-- EO_ARM_EXPIRY (R277). -/
def execEoArmExpiry : State → Host.Outcome State Fault Refusal := run fun s =>
  if s.xget XEOSTAT.ARMED = 0 then s
  else
    let s := s.eoDisarm
    if s.ashMay then s.ash 0x0053 8 (leBytes 2 (s.xget XEOSTAT.VSTORE)) else s

/-- EMOPEN_PULSE_END (R276). -/
def execEmopenPulseEnd (vstore : BitVec 10) : State → Host.Outcome State Fault Refusal := run fun s =>
  if s.xget XEOSTAT.FIRING = 1 then (s.xset XEOSTAT.VSTORE vstore.toNat).xset XEOSTAT.FIRING 0 else s

/-! ## Counters (R161) -/

/-- READ_CNT. -/
def execReadCnt (body : List Byte) : State → Host.Outcome State Fault Refusal := run fun s =>
  s.tCmd body 1 fun s =>
    let i := byteAt body 0
    if 16 ≤ i then s.tReply [1]
    else match s.nvRead (counterKey i) with
      | some r => s.tReply ([0] ++ r.data.take 4 ++ leBytes 1 (s.tGuard i))
      | none => s.tReply [6]

/-- INC_CNT (R159, R161). -/
def execIncCnt (body : List Byte) : State → Host.Outcome State Fault Refusal := run fun s =>
  s.tCmd body 4 fun s => s.tSafe (0x29 :: body) fun s =>
    let i := byteAt body 0
    let n := leAt body 2 2
    if 16 ≤ i ∨ n = 0 then s.tReply [1]
    else if s.tGuard i ≠ 0xFF ∧ !s.areaOpen (s.tGuard i) then s.tReply [2]
    else match s.nvRead (counterKey i) with
      | none => s.tReply [6]
      | some r =>
        if 2 ^ 32 ≤ r.value + n then s.tReply [5]
        else
          let (ok, s) := s.fieldCommit (counterKey i) (leBytes 4 (r.value + n) ++ r.data.drop 4) false
          if ok then s.tReply ([0] ++ leBytes 4 (r.value + n)) else s.tReply [6]

/-! ## Distance bounding on the tag's side (R162-R166, R255) -/

/-- DB_BEGIN and DB_END: UNSUPPORTED where distance bounding is not offered, whatever the length (R147, R162). -/
def State.tDbCmd (s : State) (body : List Byte) (len : Nat) (f : State → State) : State :=
  if s.tDb then s.tCmd body len f
  else s.tFrame .aelyr body true true fun s => if s.tActive then s.tReply [7] else s.tQuiet

/-- DB_BEGIN (R162). -/
def execDbBegin (body : List Byte) : State → Host.Outcome State Fault Refusal := run fun s =>
  s.tDbCmd body 9 fun s =>
    let n := byteAt body 0
    if n < 16 ∨ 64 < n then s.tReply [1]
    else s.tRandom fun s =>
      let nr := body.drop 1
      let (nt, s) := s.drawBytes 8
      let a := Config.aes128 (s.tDbKey.getD []) (nr ++ nt)
      (s.modX fun x => { x with dbArmed := true, dbSync := false, dbN := n, nr, nt, a, crx := [] }).tReply ([0] ++ nt)

/-- Bits as bytes, bit `i` at bit `i % 8` of byte `i / 8`. -/
def crxBytes (l : List Bool) : List Byte :=
  (List.range 8).map fun k => BitVec.ofNat 8 (((List.range 8).map fun b => bit (l.getD (8 * k + b) false) * 2 ^ b).sum)

/-- DB_END (R165, R166). -/
def execDbEnd (body : List Byte) : State → Host.Outcome State Fault Refusal := run fun s =>
  s.tDbCmd body 0 fun s =>
    let x := s.xpdr
    if !x.dbArmed then s.tReply [1]
    else
      let crx := crxBytes x.crx
      let mac := padTo 8 (Config.aesCmac (s.tDbKey.getD []) (x.nr ++ x.nt ++ leBytes 1 x.dbN ++ crx))
      s.tReply ([0] ++ crx ++ mac)

/-- RAPID_SYNC (R164, R166): the sync with its pilot; a second pause ends DB_ARMED, and what a sync without its pilot
leaves is free. -/
def execRapidSync (pilot : Bool) : State → Host.Outcome State Fault Refusal := run fun s =>
  let s := s.tQuiet
  if !s.xpdr.dbArmed then s
  else if s.xpdr.dbSync then
    (if s.xpdr.crx.length = s.xpdr.dbN then s else s.modX fun x => { x with dbArmed := false })
  else if pilot then s.modX fun x => { x with dbSync := true }
  else
    let (keep, s) := s.drawBool
    s.modX fun x => { x with dbArmed := keep }

/-- RAPID_ANSWER (R164). -/
def execRapidAnswer (challenge : Bool) : State → Host.Outcome State Fault Refusal := run fun s =>
  let x := s.xpdr
  let i := x.crx.length
  if x.dbArmed && x.dbSync && decide (i < x.dbN) then
    let ai := (x.a.getD (i / 8) 0).getLsbD (i % 8)
    s.tQuiet.modX fun x => { x with crx := x.crx ++ [challenge], burst := some (challenge != ai) }
  else s.tQuiet

/-- DB_ARMED_TIMEOUT (R166). -/
def execDbArmedTimeout : State → Host.Outcome State Fault Refusal := run fun s =>
  if s.xpdr.dbArmed && !s.xpdr.dbSync then s.modX fun x => { x with dbArmed := false } else s

/-! ## Osgil (R167-R172, R262, R265) -/

/-- The judgement of an Osgil command: a wrong length gets a free answer, none or one status byte. -/
def State.oCmd (s : State) (body : List Byte) (len : Nat) (f : State → State) : State :=
  let ok := body.length == len
  s.tFrame .osgil body ok true fun s =>
    if ok then f s
    else
      let (answers, s) := s.drawBool
      let (st, s) := s.drawByte
      if answers then s.tReply (leBytes 1 st) else s

/-- T is in SECURED. -/
def State.tSecured (s : State) : Bool := s.xpdr.st == .secured

/-- GET_ID: UID bytes 0-4 (R172). -/
def execGetId (body : List Byte) : State → Host.Outcome State Fault Refusal := run fun s =>
  s.oCmd body 0 fun s => s.tReply (s.tUid.take 5)

/-- The status that stops a page command: NAK_PARAM above page 63, NAK_DENIED outside its pages and states or for a
locked or faulted block. -/
def State.pageStop (s : State) (p : Nat) : Option Byte :=
  if 63 < p then some 0x0B
  else if p < 2 ∨ !s.tSecured then some 0x0A
  else match s.nvRead (blockKey (p / 4)) with
    | none => some 0x0A
    | some c => if c.locked then some 0x0A else none

/-- READ_PAGE: bytes of block p / 4 (R172). -/
def execReadPage (body : List Byte) : State → Host.Outcome State Fault Refusal := run fun s =>
  s.oCmd body 1 fun s =>
    let p := byteAt body 0
    if 63 < p then s.tReply [0x0B]
    else if (16 ≤ p ∧ !s.tSecured) ∨ s.blockFault (p / 4) then s.tReply [0x0A]
    else s.tReply ([0] ++ ((s.blockData (p / 4)).drop (4 * (p % 4))).take 4)

/-- The reply of an Osgil commit. -/
def State.oDone (s : State) (ok : Bool) : State := s.tReply [if ok then 0 else 0x0A]

/-- WRITE_PAGE. -/
def execWritePage (body : List Byte) : State → Host.Outcome State Fault Refusal := run fun s =>
  s.oCmd body 5 fun s =>
    let p := byteAt body 0
    match s.pageStop p with
    | some st => s.tReply [st]
    | none =>
      let d := s.blockData (p / 4)
      let k := 4 * (p % 4)
      let (ok, s) := s.fieldCommit (blockKey (p / 4)) (d.take k ++ body.drop 1 ++ d.drop (k + 4)) false
      s.oDone ok

/-- LOGIN: AUTH_PWD on area 1 (R172, R262, R265). -/
def execLogin (body : List Byte) : State → Host.Outcome State Fault Refusal := run fun s =>
  s.oCmd body 4 fun s =>
    let (r, s) := s.password 1 2 body
    match r with
    | .ok => (s.tGo .secured).tReply [0]
    | .wrong => s.tReply [0x0D]
    | .locked => s.tReply [0x0C]
    | .memfail => s.tReply [0x0A]

/-- LOGOUT (R167). -/
def execLogout (body : List Byte) : State → Host.Outcome State Fault Refusal := run fun s =>
  s.oCmd body 0 fun s =>
    if s.tSecured then ((s.modX fun x => { x with opens := x.opens.filter (· ≠ 1) }).tGo .opened).tReply [0]
    else s.tReply [0x0A]

/-- SET_PASSWORD. -/
def execSetPassword (body : List Byte) : State → Host.Outcome State Fault Refusal := run fun s =>
  s.oCmd body 4 fun s =>
    if !s.tSecured ∨ (s.nvRead (areaKey 1)).isNone then s.tReply [0x0A]
    else
      let (ok, s) := s.commitPwd 1 body
      s.oDone ok

/-- LOCK_PAGE: the block that holds the page. -/
def execLockPage (body : List Byte) : State → Host.Outcome State Fault Refusal := run fun s =>
  s.oCmd body 1 fun s =>
    let p := byteAt body 0
    match s.pageStop p with
    | some st => s.tReply [st]
    | none =>
      let (ok, s) := s.fieldCommit (blockKey (p / 4)) (s.blockData (p / 4)) true
      s.oDone ok

/-! ## Other frames and events -/

/-- XPDR_FRAME_DISCARD (R135): nothing changes and nothing is sent. -/
def execXpdrFrameDiscard : State → Host.Outcome State Fault Refusal := run State.tQuiet

/-- UNKNOWN_CODE: UNSUPPORTED in ACTIVE, silence elsewhere (R145, R147); what Osgil answers is free. -/
def execUnknownCode (proto : LinkProto) (_code : Byte) (body : List Byte) : State → Host.Outcome State Fault Refusal :=
  run fun s =>
    match proto with
    | .aelyr => s.tFrame .aelyr body false false fun s => if s.tActive then s.tReply [7] else s
    | .osgil => s.tFrame .osgil body false false fun s =>
      let (answers, s) := s.drawBool
      let (st, s) := s.drawByte
      if answers then s.tReply (leBytes 1 st) else s

/-- XPDR_DEFERRED_COMMIT (R267). -/
def execXpdrDeferredCommit : State → Host.Outcome State Fault Refusal := run State.commitDeferred

/-- JOURNAL_CHECK (R272). -/
def execJournalCheck : State → Host.Outcome State Fault Refusal := run State.repair

/-- COMMIT_RESERVE_MET (R272, R535): the waiting repair is made; queued records commit under their own rows. -/
def execCommitReserveMet : State → Host.Outcome State Fault Refusal := run fun s =>
  if s.kilnGet KWSTAT.HARVEST = 0 ∨ s.xget XSTAT.FIELD = 0 then s
  else
    let s := s.modX fun x => { x with reserve := true }
    if s.xpdr.repairDue then s.repair else s

end Sys2Proof.Machine
end

