-- ==== Sys2Proof/Machine/Power.lean ====
section
/-! DEFINITION. Resets, boot and Kindling, the change to full service, power states, wake, clocks, the watchdog, Ember
and the supplies (R29, R30, R281, R333, R474-R502, R522, R555, R556, R559, R560). -/

namespace Sys2Proof.Machine

/-- A change to what the device holds. -/
def State.modDev (s : State) (f : Device → Device) : State := { s with dev := f s.dev }

/-! ## Resets (R492-R495, R502) -/

/-- The causes of one reset in the order of R493. -/
def causeOrder : List Nat := [0, 2, 1, 3, 4, 5]

/-- A Kiln commit that the reset cuts is done or not done (R271, R509, R524). -/
def State.cutKiln (s : State) : State :=
  (s.running.filter fun r => r.job == .kiln && r.cmd.target == 15).foldl (fun t r =>
    let (done, t) := t.drawBool
    if !done then t
    else match r.cmd.opcode.toNat with
      | 0x0901 => t.keyGenDone r.cmd
      | 0x0902 => t.keyImportDone r.cmd
      | 0x0904 => t.keyDeleteDone r.cmd
      | 0x0A02 => t.imageActivateDone r.cmd
      | _ => t) s

/-- The tamper inputs whose response a reset interrupts: latched and not yet committed (R531), with the power state
of the TAMPER record that is lost with the queue. -/
def State.tamperAgain (s : State) : List (Nat × Nat) :=
  s.kiln.deferred ++ ([0, 1].filter fun i => s.aonGet (tampLatch i) == 1 && !(s.kiln.deferred.any (·.1 == i))).map fun i =>
    (i, match s.kiln.queue.find? fun q => q.type == 0x0030 && byteAt q.data 0 == i with
      | some q => byteAt q.data 3
      | none => s.dev.power.code)

/-- Kiln after a SYS reset: what lies in NVM and OTP stays (R502). -/
def Kiln.sysReset (k : Kiln) (deferred : List (Nat × Nat)) : Kiln :=
  { Kiln.reset with
    slots := k.slots, dbgFails := k.dbgFails, dbgLast := k.dbgLast, lockHot := k.lockHot, deferred, log := k.log,
    logSeq := k.logSeq, anchor := k.anchor, faultTimes := k.faultTimes, active := k.active, secver := k.secver,
    sets := k.sets }

/-- T after a SYS reset (R268, R495, R502): its tag state and session stay, deferred writes are discarded, its
registers are loaded again from the record. -/
def State.tSysReset (s : State) : State :=
  let s := s.modX fun x => { x with deferred := [] }
  (((s.xset XSTAT.RECFAULT 0).xset XEOSTAT.FIRED 0).modX fun x =>
    { x with regs := Cells.put .xpdr x.regs XDB.reg (resetWord .xpdr XDB.reg) }).loadCfg

/-- The state that a SYS reset leaves, with the always-on block as it stands (R494, R502). -/
def State.cleared (s : State) : State :=
  let s := (s.cutCommit.cutKiln).tSysReset
  { State.reset with
    pending := s.pending, free := s.free, aon := s.aon, kiln := s.kiln.sysReset s.tamperAgain, xpdr := s.xpdr
    flash := s.flash, flashState := s.flashState
    ports := Vector.ofFn fun p => { Port.reset with
      grate := { Grate.reset with kept := (s.port p).grate.kept }
      field := { Field.reset with lockout := (s.port p).field.lockout, vtxUv := (s.port p).field.vtxUv } }
    dev := { Device.reset with
      timebase := s.dev.timebase, wkcmp := s.dev.wkcmp, vsysOk := s.dev.vsysOk, vioOk := true, gpioIn := s.dev.gpioIn
      boot0Pin := s.dev.boot0Pin, boot1Pin := s.dev.boot1Pin
      resetCauses := if s.dev.inReset then s.dev.resetCauses else []
      gpioFunc := if s.dev.power = .off then s.dev.gpioFunc.map fun f => if f = 4 then 4 else 0
                  else List.replicate 24 0 } }

/-- A SYS reset of a cause starts; RSTCAUSE.LAST is the first cause of this reset in the order of R493. -/
def State.sysReset (s : State) (cause : Nat) : State :=
  let s := s.cleared
  let l := cause :: s.dev.resetCauses
  let s := s.modDev fun d => { d with resetCauses := l }
  (s.aonSet RSTCAUSE.LAST ((causeOrder.find? l.contains).getD cause)).aonSet RSTCAUSE.FLAGS
    (s.aonGet RSTCAUSE.FLAGS ||| 2 ^ cause)

/-- D0 loses its state: everything but NVM, the flash, T's D8 and the pins (R502). -/
def State.aonLost (s : State) : State :=
  let s := s.cleared
  { s with
    aon := []
    kiln := { s.kiln with deferred := [] }
    dev := { s.dev with timebase := 0, wkcmp := 2 ^ 64 - 1, resetCauses := [0], gpioFunc := List.replicate 24 0 } }

/-- POWER_ON_RESET (R492): VSYS rises; D0 and everything below it start from reset. -/
def execPowerOnReset : State → Host.Outcome State Fault Refusal := run fun s =>
  (s.aonLost.modDev fun d => { d with vsysOk := true }).modX fun x => { x with vsysLow := false }

/-- BROWN_OUT (R492): bits VSYS, VIO, core. VIO counts in RUN, IDLE and DOZE; only VSYS is watched in SLEEP and OFF. -/
def execBrownOut (supplies : BitVec 3) : State → Host.Outcome State Fault Refusal := run fun s =>
  let asleep := s.dev.power == .sleep || s.dev.power == .off
  let sup := if asleep then supplies.toNat % 2 else supplies.toNat
  if !s.dev.vsysOk ∨ sup = 0 then s else (s.sysReset 2).aonSet RSTCAUSE.BOR sup

/-- RST_N_RESET (R492): a low pulse in nanoseconds. Below 100 ns it is ignored, from 1 µs on it resets, and between
the two the outcome is free. -/
def execRstNReset (width : Nat) : State → Host.Outcome State Fault Refusal := run fun s =>
  if !s.dev.vsysOk ∨ width < 100 then s
  else if 1000 ≤ width then s.sysReset 1
  else
    let (hit, s) := s.drawBool
    if hit then s.sysReset 1 else s

/-- VSYS_REMOVED (R251, R252, R555): D0 loses its state; T goes on in harvest mode in a field of 1.5 A/m or more. -/
def execVsysRemoved : State → Host.Outcome State Fault Refusal := run fun s =>
  if !s.dev.vsysOk then s
  else
    let keep := s.xget XSTAT.FIELD == 1 && s.xget XSTAT.SUPPLY != 0 && 15 ≤ s.xget XSTAT.H
    let regs := s.kiln.regs
    let s := s.aonLost.modDev fun d => { d with vsysOk := false, vioOk := false }
    if keep then
      let s : State := { s with kiln := { s.kiln with regs } }
      if s.xget XSTAT.SUPPLY = 1 then (if s.tSession then s.tSessionEnd else s).tHarvest.tFresh else s
    else s.tFieldGone

/-- VIO_LOSS in SLEEP or OFF (R556); elsewhere it is a brown-out. -/
def execVioLoss : State → Host.Outcome State Fault Refusal := run fun s =>
  if s.dev.power = .sleep ∨ s.dev.power = .off then s.modDev fun d => { d with vioOk := false } else s

/-- VIO_RETURN in SLEEP or OFF (R556). -/
def execVioReturn : State → Host.Outcome State Fault Refusal := run fun s =>
  if s.dev.power = .sleep ∨ s.dev.power = .off then s.modDev fun d => { d with vioOk := true } else s

/-! ## Boot and Kindling (R333, R496-R500) -/

/-- DEV_READY on every host port (R333, R397); the first makes the port ready for held packets. -/
def State.devReady (s : State) (mode imgStat : Nat) : State :=
  let fwver := if mode = 1 then s.imageNum s.kiln.active 8 4 else 0
  let pl := leBytes 1 (s.aonGet RSTCAUSE.LAST) ++ leBytes 1 mode ++ leBytes 4 fwver ++ leBytes 1 imgStat
  let s := s.modDev fun d => { d with imgStat, readyCount := d.readyCount + 1 }
  allHosts.foldl (fun t h => (t.raiseTo h 0x0F 0x0001 pl).modHost h fun x => { x with ready := true }) s

/-- What the boot ROM finds in the active slot before it queues DEV_READY: 1 no header, 2 a header that fails one of
checks 1 to 3 of R521, 3 a check that goes on (R498). -/
def State.headerStat (s : State) : Nat :=
  if s.imageNum s.kiln.active 0 4 ≠ 0x31545248 then 1
  else match s.imageCheck s.kiln.active with
    | some k => if k ≤ 3 then 2 else 3
    | none => 3

/-- SYS_RESET_RELEASE (R496-R498, R532): straps sampled, watchdog armed, crystal started, host ports enabled, P0 and
its chain powered, Grate word 0 shifted, DEV_READY queued. -/
def execSysResetRelease (boot0 boot1 : Bool) : State → Host.Outcome State Fault Refusal := run fun s =>
  if !s.dev.inReset ∨ !s.dev.vsysOk then s
  else
    let l := s.dev.resetCauses
    let s := s.modDev fun d =>
      { d with inReset := false, boot := true, full := false, boot0Pin := boot0, boot1Pin := boot1, boot0, boot1,
               resetCauses := [], readyCount := 0, wdtCount := 0, power := .run }
    let s := (s.pcrSet WDTCTL.EN 1).pcrSet CLKCTL.XTAL_EN 1
    let s := allHosts.foldl (fun t h => t.modHost h fun x => { x with awake := true }) s
    let s := allPorts.foldl (fun (t : State) p => t.modPort p fun q => { q with grate := { q.grate with kept := 0 } }) s
    let s := [0, 1].foldl (fun (t : State) p => t.modSvc p fun v => { v with powered := true }) s
    let active := s.aonGet (tampLevel 0) == 1 || s.aonGet (tampLevel 1) == 1
    let s := ({ s with kiln := { s.kiln with lockTamper := active } }).lockSync
    let s := if l.contains 2 || l.contains 3 then
        s.ash 0x0001 0x0F (leBytes 1 (s.aonGet RSTCAUSE.LAST) ++ leBytes 1 (s.aonGet RSTCAUSE.BOR))
      else s
    let st := s.headerStat
    let s := if (st : Nat) = 2 then s.judgeSlot s.kiln.active else s
    s.devReady 0 st

/-- KILN_SELF_TEST_DONE (R518, R531): tamper responses that wait come before any request; a failed Kiln fails the
image check. -/
def execKilnSelfTestDone (pass : Bool) : State → Host.Outcome State Fault Refusal := run fun s =>
  if s.kilnGet KWSTAT.STATE ≠ 0 then s
  else if pass then (s.kilnSet KWSTAT.STATE 1).tamperDeferred
  else
    let s := s.kilnSet KWSTAT.STATE 2
    if s.kindling ∧ s.dev.imgStat = 3 then s.devReady 0 2 else s

/-- KILN_IMAGE_VERDICT (R498, R500, R521): a valid image starts the PLL for full service, unless BOOT0 is high or the
lifecycle is not complete. -/
def execKilnImageVerdict : State → Host.Outcome State Fault Refusal := run fun s =>
  if !s.kindling ∨ s.dev.imgStat ≠ 3 ∨ s.kilnGet KWSTAT.STATE ≠ 1 then s
  else
    let s := s.judgeSlot s.kiln.active
    if s.slotState s.kiln.active ≠ 1 then s.devReady 0 2
    else if s.dev.boot0 ∨ !Config.lifecycleDone then s.devReady 0 0
    else (s.modDev fun d => { d with imgStat := 0 }).pcrSet CLKCTL.PLL_EN 1

/-- Factory sets that fail both CRCs (R281): SETBAD, NOSET, one record, one event. -/
def State.readSets (s : State) : State :=
  let bad := Config.badSets.toNat
  let s : State := { s with kiln := { s.kiln with sets := Config.badSets } }
  let s := (s.calSet CALSTAT.SETBAD bad).calSet CALSTAT.NOSET (bit (bad == 31))
  if bad = 0 then s
  else
    let pl := leBytes 1 bad ++ leBytes 1 (bit (bad == 31))
    (s.ash 0x0070 0x0F pl).raiseDev 0x0781 pl

/-- The SECVER floor raised to the running image's (R522). -/
def State.raiseSecver (s : State) : State :=
  let new := s.imageNum s.kiln.active 12 1
  if new ≤ s.kiln.secver then s
  else
    ({ s with kiln := { s.kiln with secver := new } }).ash 0x0012 0x10 (leBytes 1 s.kiln.secver ++ leBytes 1 new)

/-- FULL_SERVICE_START (R324, R333, R456, R498, R501): after PLL lock, once no Kindling command is in progress. P0's field
goes off, its registers stay. -/
def execFullServiceStart : State → Host.Outcome State Fault Refusal := run fun s =>
  if !s.kindling ∨ s.dev.imgStat ≠ 0 ∨ s.dev.boot0 ∨ !Config.lifecycleDone
      ∨ (!s.pllLocked ∧ s.pcrGet CLKCTL.XTAL_OK = 1) ∨ !s.running.isEmpty then s
  else
    let s := (s.pset 0 TXCTL.FIELD_EN 0).pset 0 TXSTAT.HELD 0
    let s := (s.cutAir 0).fieldIsOff 0
    let s := (s.modDev fun d => { d with full := true }).pcrSet CLKCTL.HSRC (bit s.pllLocked)
    let s := allHosts.foldl (fun (t : State) h => t.modHost h fun x => { x with kept := [] }) s
    let s := allPorts.foldl State.keepStandard s
    ((s.readSets).raiseSecver).devReady 1 0

/-! ## Clocks (R29, R30, R486-R488) -/

/-- The PLL loses lock (R30, R465). -/
def State.pllLost (s : State) : State :=
  if !s.pllLocked then s
  else
    let s := ((s.pcrSet CLKCTL.PLL_LOCK 0).pcrSet CLKCTL.UNLOCK 1).pcrSet CLKCTL.HSRC 0
    allPorts.foldl (fun t p => t.fieldFault p .pll) (s.stopSources srcPll)

/-- PLL_UNLOCK (R30). -/
def execPllUnlock : State → Host.Outcome State Fault Refusal := run State.pllLost

/-- XTAL_OK (R580). -/
def execXtalOk : State → Host.Outcome State Fault Refusal := run fun s =>
  if s.pcrGet CLKCTL.XTAL_EN = 1 then s.pcrSet CLKCTL.XTAL_OK 1 else s

/-- XTAL_FAIL (R487): the PLL loses lock; under Kindling P0's field stops with FIELD_FAULT. -/
def execXtalFail : State → Host.Outcome State Fault Refusal := run fun s =>
  if s.pcrGet CLKCTL.XTAL_OK = 0 then s
  else
    let s := (s.pcrSet CLKCTL.XTAL_OK 0).pllLost
    if s.kindling then (s.fieldFault 0 .pll).endPort 0 St.FIELD_FAULT else s

/-- CLKCTL_WRITE (R486). -/
def execClkctlWrite (value : Word) : State → Host.Outcome State Fault Refusal := run fun s =>
  if s.dev.inReset then s else s.clkctlWrite value

/-- SLOWCLK_SWITCH (R488). -/
def execSlowclkSwitch (toCrystal : Bool) : State → Host.Outcome State Fault Refusal := run fun s =>
  if !s.dev.vsysOk then s
  else if toCrystal then
    if s.aonGet SLOWCLK.FORCE_RC = 0 then (s.aonSet SLOWCLK.SRC 1).aonSet SLOWCLK.XDET 1 else s
  else if s.aonGet SLOWCLK.SRC = 0 then s
  else if s.aonGet SLOWCLK.FORCE_RC = 1 then s.aonSet SLOWCLK.SRC 0
  else ((s.aonSet SLOWCLK.SRC 0).aonSet SLOWCLK.XDET 0).aonSet SLOWCLK.FAIL 1

/-! ## Watchdog (R496) -/

/-- A write of WDTKICK. -/
def State.wdtKick (s : State) (key : Byte) : State :=
  if key = 0xA5 then s.modDev fun d => { d with wdtCount := 0 } else s.sysReset 3

/-- WDT_KICK. -/
def execWdtKick (key : Byte) : State → Host.Outcome State Fault Refusal := run fun s =>
  if s.dev.inReset then s else s.wdtKick key

/-- WDTCTL_LOCK. -/
def execWdtctlLock : State → Host.Outcome State Fault Refusal := run fun s =>
  if s.dev.inReset then s else s.pcrSet WDTCTL.LOCK 1

/-- WDT_EXPIRY: while the watchdog counts. -/
def execWdtExpiry : State → Host.Outcome State Fault Refusal := run fun s =>
  if s.pcrGet WDTCTL.EN = 1 ∧ !s.dev.jtagHalt ∧ !s.dev.inReset ∧ s.dev.power ≠ .sleep ∧ s.dev.power ≠ .off then s.sysReset 3
  else s

/-- DEV_RESET_FIRE (R352). -/
def execDevResetFire : State → Host.Outcome State Fault Refusal := run fun s =>
  if s.running.any (·.job == .devReset) then s.sysReset 4 else s

/-! ## Entry into DOZE, SLEEP and OFF (R342, R477-R481) -/

/-- Nothing holds off banking (R342, R478). -/
def State.entryClear (s : State) (st : Nat) : Bool :=
  s.running.isEmpty
    && (allHosts.all fun h =>
      let x := s.host h
      x.part.isEmpty && x.landed.isEmpty && x.open_.isEmpty && x.more.isEmpty && !x.respWaits)
    && (st != 4 || (!s.tSession && s.xpdr.deferred.isEmpty))

/-- The fields off, FIELD_EN cleared (R479). -/
def State.allFieldsOff (s : State) : State := allPorts.foldl (fun t p => (t.fieldDown p).fieldIsOff p) s

/-- GRATE of each Ember port written with its Ember antenna and shifted. -/
def State.emberGrate (s : State) : State :=
  allPorts.foldl (fun t p =>
    if nbit (t.aonGet EMBCTL.PORTS) p.val ∧ (t.port p).svc.svc ≠ .isolated then
      let ant := BitVec.ofNat 32 (wget (Cells.word .aon t.aon (if p.val < 4 then 0x048 else 0x04C)) (8 * (p.val % 4)) 6)
      (t.modPort p fun q => { q with grate := { q.grate with
        reg := (q.grate.reg &&& 0xFFC0) ||| ant, request := false, held := false, settling := false
        kept := ((q.grate.reg &&& 0xFFC0) ||| ant).setWidth 16 } })
    else t) s

/-- The PLL is off; with `all` the crystal too, and every source has stopped. -/
def State.clocksOff (s : State) (all : Bool) : State :=
  let s := ((s.pcrSet CLKCTL.HSRC 0).pcrSet CLKCTL.PLL_LOCK 0).pcrSet CLKCTL.PLL_EN 0
  let s := s.stopSources fun n => all || srcPll n
  if all then (s.pcrSet CLKCTL.XTAL_EN 0).pcrSet CLKCTL.XTAL_OK 0 else s

/-- BANKING_START: once the waits have ended, fields go off; DOZE is entered, the other states bank first. -/
def execBankingStart : State → Host.Outcome State Fault Refusal := run fun s =>
  match s.dev.entry with
  | none => s
  | some st =>
    if s.dev.banking ∨ !s.entryClear st then s
    else
      let s := (s.allFieldsOff.emberGrate).modDev fun d => { d with hold := false }
      if st = 2 then (s.clocksOff false).modDev fun d => { d with power := .doze, entry := none }
      else s.modDev fun d => { d with banking := true }

/-- BANKING_DONE: SLEEP or OFF. -/
def execBankingDone : State → Host.Outcome State Fault Refusal := run fun s =>
  if !s.dev.banking then s
  else
    let st := if s.dev.entry = some 4 then Power.off else .sleep
    let s := (s.clocksOff true).modDev fun d => { d with power := st, entry := none, banking := false }
    allHosts.foldl (fun t h => t.modHost h fun x => { x with awake := false }) s

/-- BANKING_ABANDONED: an edge in cycles 1 to 5; the PLL is still locked. -/
def execBankingAbandoned (sources : BitVec 10) : State → Host.Outcome State Fault Refusal := run fun s =>
  let fired := sources.toNat &&& s.aonGet WKEN.SOURCES
  if !s.dev.banking ∨ fired = 0 then s
  else
    let s := s.modDev fun d => { d with entry := none, banking := false, power := .run, embBase := [], embRepeat := [] }
    ((s.aonSet WKCAUSE.SOURCES fired).aonSet WKCAUSE.BANKAB 1).raiseDev 0x0880 (leBytes 2 fired)

/-- ENTRY_TIMEOUT (R478). -/
def execEntryTimeout : State → Host.Outcome State Fault Refusal := run fun s =>
  if s.dev.entry.isSome ∧ !s.dev.banking then
    (s.modDev fun d => { d with entry := none, hold := false }).raiseDev 0x0880 [0, 0]
  else s

/-! ## Wake (R480, R482-R485, R492) -/

/-- The enabled sources that fire; without VIO the detectors of the VIO balls see nothing (R556). -/
def State.firing (s : State) (sources : Nat) : Nat :=
  let seen := if s.dev.vioOk then sources else sources &&& 0x3C2
  seen &&& s.aonGet WKEN.SOURCES

/-- The device returns to RUN on the fast RC; PWR_WAKE follows at PLL lock (R485). -/
def State.wake (s : State) (fired : Nat) : State :=
  let s := (s.aonSet WKCAUSE.SOURCES fired).modDev fun d =>
    { d with
      wdtCount := if d.power = .sleep then 0 else d.wdtCount
      power := .run, wokeAt := some fired, embBase := [], embRepeat := [] }
  let s := (s.pcrSet CLKCTL.XTAL_EN 1).pcrSet CLKCTL.PLL_EN 1
  allHosts.foldl (fun t h => t.modHost h fun x => { x with awake := true }) s

/-- A cold start from OFF; host-port detectors are not powered there (R477, R484, R492). -/
def State.offWake (s : State) (fired : Nat) : State := (s.aonSet WKCAUSE.SOURCES fired).sysReset 5

/-- WAKE_EVENT in SLEEP or DOZE. -/
def execWakeEvent (sources : BitVec 10) : State → Host.Outcome State Fault Refusal := run fun s =>
  let fired := s.firing sources.toNat
  if fired ≠ 0 ∧ (s.dev.power = .sleep ∨ s.dev.power = .doze) then s.wake fired else s

/-- OFF_WAKE. -/
def execOffWake (sources : BitVec 10) : State → Host.Outcome State Fault Refusal := run fun s =>
  let fired := s.firing sources.toNat &&& 0x3C3
  if fired ≠ 0 ∧ s.dev.power = .off ∧ s.dev.vsysOk then s.offWake fired else s

/-- WAKE_COMPARE (R470). -/
def execWakeCompare : State → Host.Outcome State Fault Refusal := run fun s => if s.dev.vsysOk then s.wakeEval else s

/-! ## Ember (R489-R491) -/

/-- Ember probes a port. -/
def State.emberOn (s : State) (p : PortNum) : Bool :=
  nbit (s.aonGet WKEN.SOURCES) 6 && (s.dev.power == .doze || s.dev.power == .sleep || s.dev.power == .off)
    && nbit (s.aonGet EMBCTL.PORTS) p.val && (s.port p).svc.svc != .isolated && s.dev.vsysOk

/-- A phase difference in 10^-5 degree, brought within a half turn. -/
def phaseDiff (a b : Int) : Int := (a - b + 18000000) % 36000000 - 18000000

/-- Whether a measurement exceeds its baseline (R491): amplitude in 0.001 dB, phase in 10^-5 degree. -/
def State.emberExceeds (s : State) (base : Int × Int) (amp phase : Int) : Bool :=
  let at_ := s.aonGet EMBTH.AMP_TH
  let pt := s.aonGet EMBTH.PHASE_TH
  (at_ != 0 && decide (250 * at_ < (amp - base.1).natAbs))
    || (pt != 0 && decide (140625 * pt < (phaseDiff phase base.2).natAbs))

/-- A probe counted. -/
def State.emberProbed (s : State) : State := s.aonSet EMBSTAT.PROBES (min 65535 (s.aonGet EMBSTAT.PROBES + 1))

/-- A port's baseline. -/
def State.emberBase (s : State) (p : PortNum) : Option (Int × Int) :=
  (s.dev.embBase.find? (·.1 == p.val)).map (·.2)

/-- EMBER_PROBE. -/
def execEmberProbe (p : PortNum) (amp phase : Int) : State → Host.Outcome State Fault Refusal := run fun s =>
  if !s.emberOn p then s
  else
    let s := s.emberProbed
    match s.emberBase p with
    | none => s.modDev fun d => { d with embBase := assocPut p.val (amp, phase) d.embBase }
    | some b =>
      if s.emberExceeds b amp phase then
        s.modDev fun d => { d with embRepeat := p.val :: d.embRepeat.filter (· ≠ p.val) }
      else
        let nb := (b.1 + (amp - b.1) / 8, b.2 + phaseDiff phase b.2 / 8)
        s.modDev fun d => { d with embBase := assocPut p.val nb d.embBase }

/-- EMBER_REPEAT_PROBE: a confirmed detection sets TRIG and wakes the device. -/
def execEmberRepeatProbe (p : PortNum) (amp phase : Int) : State → Host.Outcome State Fault Refusal := run fun s =>
  if !s.emberOn p || !s.dev.embRepeat.contains p.val then s
  else
    let s := (s.emberProbed).modDev fun d => { d with embRepeat := d.embRepeat.filter (· ≠ p.val) }
    match s.emberBase p with
    | none => s
    | some b =>
      if s.emberExceeds b amp phase then
        let s := s.aonSet EMBSTAT.TRIG (s.aonGet EMBSTAT.TRIG ||| 2 ^ p.val)
        if s.dev.power = .off then s.offWake 64 else s.wake 64
      else s.aonSet EMBSTAT.UNCONF (min 255 (s.aonGet EMBSTAT.UNCONF + 1))

/-! ## Debug halt and GPIO (R463, R467, R530, R559, R560) -/

/-- HEARTH_JTAG_HALT: level 2 must be granted. -/
def execHearthJtagHalt (halt : Bool) : State → Host.Outcome State Fault Refusal := run fun s =>
  if halt ∧ s.kilnGet KWSTAT.DEBUG ≠ 2 then s else s.modDev fun d => { d with jtagHalt := halt }

/-- FUNC of a pin. -/
def State.gpioFn (s : State) (pin : Nat) : Nat := s.dev.gpioFunc.getD pin 0

/-- A rising edge on TIN `k` counted by the channels that select it, while the PLL is locked. -/
def State.tinEdge (s : State) (k : Nat) : State :=
  allChannels.foldl (fun t ch =>
    let r := t.chan ch
    if tget r TMR_CTL.SRC = 4 + k ∧ tget r TMR_STAT.SRCSTOP = 0 ∧ t.chanOn ch ∧ !t.chanFrozen ch then t.tmrAdvance ch 65536
    else t) s

/-- GPIO_PIN_CHANGE: the level; a TIN counts it, an input under FUNC 0 raises GPIO_EDGE. A wake input acts through
WAKE_EVENT. -/
def execGpioPinChange (pin : Fin 24) (level : Bool) : State → Host.Outcome State Fault Refusal := run fun s =>
  let was := s.dev.gpioIn.getLsbD pin.val
  if was = level then s
  else
    let one : BitVec 24 := BitVec.ofNat 24 (2 ^ pin.val)
    let s := s.modDev fun d => { d with gpioIn := if level then d.gpioIn ||| one else d.gpioIn &&& ~~~one }
    if s.gpioFn pin.val = 1 ∧ pin.val < 4 ∧ level ∧ s.pllLocked then s.tinEdge pin.val
    else if s.gpioFn pin.val = 0 ∧ !s.dev.gpioDir.getLsbD pin.val ∧ s.dev.full ∧ s.hostOn then
      s.raiseDev 0x0B81 (leBytes 1 pin.val ++ leBytes 1 (bit level))
    else s

/-- Whether a pin offers a function (R559). -/
def gpioOffers (pin func : Nat) : Bool :=
  match func with
  | 0 => true
  | 1 => pin < 4
  | 2 => 4 ≤ pin && pin < 8
  | 3 => 16 ≤ pin
  | 4 => true
  | _ => false

/-- The level of a pin in its function (R473, R559, R560). -/
def State.gpioLevel (s : State) (pin : Nat) : Bool :=
  match s.gpioFn pin with
  | 2 => tget (s.chan (.global (Fin.ofNat 8 (pin - 4)))) TMR_STAT.ARMED == 1
  | 3 => s.fieldState (toPort (pin - 16)) != 0
  | 0 => if s.dev.gpioDir.getLsbD pin then s.dev.gpioOut.getLsbD pin else s.dev.gpioIn.getLsbD pin
  | _ => s.dev.gpioIn.getLsbD pin

/-- GPIO_CONFIG. -/
def bodyGpioConfig (c : Cmd) (s : State) : State :=
  let pin := byteAt c.payload 0
  let func := byteAt c.payload 1
  let dir := byteAt c.payload 2
  let pull := byteAt c.payload 3
  if 23 < pin ∨ !gpioOffers pin func ∨ 1 < dir ∨ 2 < pull then s.respond c St.BAD_PARAM
  else
    let one : BitVec 24 := BitVec.ofNat 24 (2 ^ pin)
    (s.modDev fun d =>
      { d with
        gpioFunc := d.gpioFunc.set pin func
        gpioPull := d.gpioPull.set pin pull
        gpioDir := if dir = 1 then d.gpioDir ||| one else d.gpioDir &&& ~~~one }).respond c St.OK

/-- GPIO_WRITE: no effect on pins whose FUNC is not 0. -/
def bodyGpioWrite (c : Cmd) (s : State) : State :=
  let mask := leAt c.payload 0 4
  let value := leAt c.payload 4 4
  if 2 ^ 24 ≤ mask ∨ 2 ^ 24 ≤ value then s.respond c St.BAD_PARAM
  else
    let m : BitVec 24 := BitVec.ofNat 24 ((List.range 24).map fun i => if nbit mask i && s.gpioFn i == 0 then 2 ^ i else 0).sum
    (s.modDev fun d => { d with gpioOut := (d.gpioOut &&& ~~~m) ||| (BitVec.ofNat 24 value &&& m) }).respond c St.OK

/-- GPIO_READ. -/
def bodyGpioRead (c : Cmd) (s : State) : State :=
  s.respond c St.OK (leBytes 4 ((List.range 24).map fun i => bit (s.gpioLevel i) * 2 ^ i).sum)

/-! ## The bodies of the power group and DEV_RESET -/

/-- A pass runs, or continuous passes are set, on some port (R477). -/
def State.anyPass (s : State) : Bool := allPorts.any fun p => (s.port p).svc.pass.isSome || (s.port p).svc.series

/-- PWR_ENTER with STATE 2, 3 or 4 ends with BUSY while a pass runs (R477). -/
def gatePwrEnter (c : Cmd) (s : State) : Bool := 2 ≤ byteAt c.payload 0 && byteAt c.payload 0 ≤ 4 && s.anyPass

/-- PWR_ENTER (R386, R476-R478). -/
def bodyPwrEnter (c : Cmd) (s : State) : State :=
  let st := byteAt c.payload 0
  let src := s.aonGet WKEN.SOURCES
  if st < 1 ∨ 4 < st ∨ (st = 3 ∧ src = 0) ∨ (st = 4 ∧ src &&& 0x3C3 = 0) then s.respond c St.BAD_PARAM
  else if st = 1 then s.respond c St.OK
  else (s.modDev fun d => { d with entry := some st, hold := true }).respond c St.OK

/-- WAKE_CONFIG (R484). -/
def bodyWakeConfig (c : Cmd) (s : State) : State :=
  let src := leAt c.payload 0 2
  let en := leAt c.payload 2 4
  let edge := leAt c.payload 6 4
  let pol := leAt c.payload 10 4
  if 1024 ≤ src ∨ 2 ^ 24 ≤ en ∨ 2 ^ 24 ≤ edge ∨ 2 ^ 24 ≤ pol
      ∨ (List.range 24).any (fun i => nbit en i && s.gpioFn i != 4) then s.respond c St.BAD_PARAM
  else
    let s := (s.aonSet WKEN.SOURCES src).aonSet WKGPEN.V en
    ((s.aonSet WKGPEDGE.V edge).aonSet WKGPPOL.V pol).respond c St.OK (leBytes 2 src)

/-- EMBER_CONFIG (R489): an isolated port is left out. -/
def bodyEmberConfig (c : Cmd) (s : State) : State :=
  let l := c.payload
  let iv := leAt l 2 2
  if iv < 8 ∨ 2000 < iv ∨ (List.range 8).any (fun i => 63 < byteAt l (4 + i)) ∨ (byteAt l 12 = 0 ∧ byteAt l 13 = 0) then
    s.respond c St.BAD_PARAM
  else
    let ports := ((List.range 8).map fun i =>
      if nbit (byteAt l 0) i && (s.port (toPort i)).svc.svc != .isolated then 2 ^ i else 0).sum
    let s := (s.aonSet EMBCTL.PORTS ports).aonSet EMBCTL.INTERVAL iv
    let s := (s.aonSet EMBTH.AMP_TH (byteAt l 12)).aonSet EMBTH.PHASE_TH (byteAt l 13)
    let s : State := { s with aon := Cells.put .aon (Cells.put .aon s.aon 0x048 (wordAt l 4)) 0x04C (wordAt l 8) }
    (allPorts.foldl State.powerSync s).respond c St.OK

/-- The domains that are powered while Hearth serves: D0-D3, D8 and D9 always, D4-D7 as R475 says. -/
def State.domains (s : State) : Nat :=
  0x30F + ((List.range 4).map fun k => if s.portOn (toPort (2 * k)) then 2 ^ (4 + k) else 0).sum

/-- PWR_STATUS (R385). -/
def bodyPwrStatus (c : Cmd) (s : State) : State :=
  s.respond c St.OK (leBytes 1 s.dev.power.code ++ leBytes 1 (s.aonGet RSTCAUSE.LAST) ++ leBytes 2 s.domains
    ++ leBytes 2 (s.aonGet WKCAUSE.SOURCES))

/-- DEV_RESET (R352). -/
def bodyDevReset (c : Cmd) (s : State) : State :=
  if leAt c.payload 0 2 ≠ 0xD0D0 then s.respond c St.BAD_PARAM else (s.respond c St.OK).begin c .devReset

/-- TIMEBASE_READ (R468). -/
def bodyTimebaseRead (c : Cmd) (s : State) : State := s.respond c St.OK (leBytes 8 s.dev.timebase)

/-! ## Writes whose effect may be a reset -/

/-- Code memory takes a Hearth write only while the engine neither runs nor waits (R423). -/
def State.codeWritable (s : State) (p : PortNum) : Bool := s.engState p != 1 && s.engState p != 2

/-- A write of a place whose domain is powered (R15). Memories are written as they are; the NVM, ROM and Kiln windows
take no write. -/
def State.placeWrite (s : State) (pl : Place) (w : Word) : State :=
  match pl with
  | .rom _ | .nvm _ | .kiln _ | .hole => s
  | .sram a => { s with sram := s.sram.putWord a w }
  | .spill a => { s with spill := s.spill.putWord a w }
  | .table off => s.tableWrite off w
  | .engCode p off => if s.codeWritable p then s.modEng p fun e => { e with code := e.code.putWord off w } else s
  | .engData p off => s.modEng p fun e => { e with data := e.data.putWord off w }
  | .port p off => s.hearthWrite p off w
  | .xpdr off => s.modX fun x => { x with regs := Cells.write .xpdr x.regs off false w }
  | .coord off => s.coordWrite off w
  | .host h off => s.modHost h fun x => { x with regs := Cells.write .host x.regs off false w }
  | .pcr off =>
    if off = CLKCTL.reg then s.clkctlWrite w
    else if off = WDTKICK.reg then s.wdtKick (w.setWidth 8)
    else { s with pcr := Cells.write .pcr s.pcr off (s.pcrGet WDTCTL.LOCK == 1) w }
  | .aon off =>
    let s := s.aonWrite off w
    if off = EMBCTL.reg then allPorts.foldl State.powerSync s else s
  | .cal off => s.calWrite off w
  | .gtmr c off => s.tmrWrite (.global c) off w

end Sys2Proof.Machine
end

