-- ==== Sys2Proof/Machine/PortCmd.lean ====
section
/-! DEFINITION. The bodies of the device, port, exchange, calibration, timer and debug commands (R209, R213, R292,
R298-R301, R335, R336, R339, R351, R354-R365, R371-R375, R383, R384, R393-R396, R451, R471). -/

namespace Sys2Proof.Machine

/-! ## Device: 0x00xx -/

/-- INFO (R351). -/
def bodyInfo (c : Cmd) (s : State) : State :=
  let slot := s.kiln.active
  let full := s.dev.full
  s.respond c St.OK (leBytes 2 880 ++ [0x43, 0x31] ++ leBytes 1 (bit full) ++ [8] ++ leBytes 4 Config.romVersion.toNat
    ++ leBytes 4 (if full then s.imageNum slot 8 4 else 0) ++ leBytes 2 (if full then s.imageNum slot 6 2 else 0))

/-- BAUD of HOST_CONFIG, judged as 32 bits (R354). -/
def baudOf (v : Nat) : Nat := if v < 96 then 96 else if 120000 < v then 120000 else v

/-- HOST_CONFIG (R339, R354): on HP2 the new rate takes effect after its response (R313). -/
def bodyHostConfig (c : Cmd) (s : State) : State :=
  let fl := byteAt c.payload 0
  let mask := leAt c.payload 2 2
  if 3 < fl ∨ 1023 < mask then s.respond c St.BAD_PARAM
  else
    let b := baudOf (leAt c.payload 4 4)
    let s := s.modHost c.hp fun h =>
      (((h.set HPCFG.IRQ_RESP (fl % 2)).set HPCFG.IRQ_EVT (fl / 2)).set HPCFG.BAUD b).set HPCFG.EVMASK mask
    s.respondPkts c St.OK [[]] (if c.hp = 2 then some b else none)

/-- HOST_STATUS (R339): HPERR is cleared. -/
def bodyHostStatus (c : Cmd) (s : State) : State :=
  let h := s.host c.hp
  let err := Cells.word .host h.regs HPERR.reg
  let s := s.modHost c.hp fun x => { x with regs := Cells.put .host x.regs HPERR.reg 0 }
  s.respond c St.OK (wordBytes h.stat ++ wordBytes err ++ leBytes 2 h.lost)

/-- An owner as OWN_QUERY and OWN_CHANGED code it. -/
def ownCode : Option HostNum → Byte
  | some h => BitVec.ofNat 8 h.val
  | none => 0xFF

/-- OWN_QUERY (R351). -/
def bodyOwnQuery (c : Cmd) (s : State) : State :=
  s.respond c St.OK (s.owner.toList.map ownCode ++ [s.devOwn.setWidth 8])

/-- HOST of a claim or release: none when out of range (R335). -/
def claimHost (c : Cmd) : Option HostNum :=
  let h := byteAt c.payload 0
  if h = 0xFF then some c.hp else if h < 4 then some (Fin.ofNat 4 h) else none

/-- A new owner of a reader port or T: the old owner's chain goes, both are told unless they sent the command (R327,
R336). -/
def State.setOwner (s : State) (c : Cmd) (new : Option HostNum) : State :=
  let t := c.target.toNat
  let old := s.ownerOf t
  if old = new then s.respond c St.OK
  else
    let s : State := { s with owner := s.owner.set (Fin.ofNat 9 t) new }
    let s := s.dropChains t
    let s := s.respond c St.OK
    s.raiseAll (fun h => h ≠ c.hp && (old == some h || new == some h)) t 0x0003
      [ownCode old, ownCode new, BitVec.ofNat 8 c.hp.val]

/-- A new set of co-owners of the device: every one before or after is told but the sender; chains of a host port
that leaves go (R327, R336). -/
def State.setDevOwn (s : State) (c : Cmd) (new : BitVec 4) : State :=
  let old := s.devOwn
  if old = new then s.respond c St.OK
  else
    let s : State := { s with devOwn := new }
    let s := allHosts.foldl (fun (u : State) h =>
      if old.getLsbD h.val && !new.getLsbD h.val then u.dropChain h 15 else u) s
    let s := s.respond c St.OK
    s.raiseAll (fun h => h ≠ c.hp && (old.getLsbD h.val || new.getLsbD h.val)) 15 0x0003
      [old.setWidth 8, new.setWidth 8, BitVec.ofNat 8 c.hp.val]

/-- OWN_CLAIM (R335). -/
def bodyOwnClaim (c : Cmd) (s : State) : State :=
  let force := byteAt c.payload 1
  match claimHost c with
  | none => s.respond c St.BAD_PARAM
  | some h =>
    if 1 < force then s.respond c St.BAD_PARAM
    else if c.target.toNat = 15 then
      if (s.devOwn = 0 ∧ h = c.hp) ∨ s.devOwn.getLsbD c.hp.val then
        s.setDevOwn c (s.devOwn ||| BitVec.ofNat 4 (2 ^ h.val))
      else s.respond c St.NOT_OWNER
    else
      let o := s.ownerOf c.target.toNat
      if (o = none ∧ h = c.hp) ∨ o = some c.hp ∨ (s.devOwn.getLsbD c.hp.val ∧ (o = none ∨ force = 1)) then
        s.setOwner c (some h)
      else s.respond c St.NOT_OWNER

/-- OWN_RELEASE (R335). -/
def bodyOwnRelease (c : Cmd) (s : State) : State :=
  match claimHost c with
  | none => s.respond c St.BAD_PARAM
  | some h =>
    if c.target.toNat = 15 then
      if s.devOwn.getLsbD c.hp.val then s.setDevOwn c (s.devOwn &&& ~~~(BitVec.ofNat 4 (2 ^ h.val)))
      else s.respond c St.NOT_OWNER
    else if s.ownerOf c.target.toNat = some c.hp ∨ s.devOwn.getLsbD c.hp.val then s.setOwner c none
    else s.respond c St.NOT_OWNER

/-- One tag that KINDLING_SCAN found: its coding, its UID length and UID are what the antenna holds, free values. -/
def State.scanTag (s : State) : List Byte × State :=
  let (v, s) := s.drawBool
  let (k, s) := s.drawNat 3
  let n := if v then 8 else 4 + 3 * k
  let (u, s) := s.drawBytes n
  (leBytes 1 (if v then 2 else 0) ++ leBytes 1 n ++ padTo 10 u, s)

/-- Tags that KINDLING_SCAN found. -/
def scanTags : Nat → State → List Byte × State
  | 0, s => ([], s)
  | n + 1, s =>
    let (a, s) := s.scanTag
    let (b, s) := scanTags n s
    (a ++ b, s)

/-- KINDLING_SCAN (R209, R354, R499): without a stable crystal it ends with FIELD_FAULT. -/
def bodyKindlingScan (c : Cmd) (s : State) : State :=
  if s.pcrGet CLKCTL.XTAL_OK = 0 then s.respond c St.FIELD_FAULT
  else
    let (n, s) := s.drawNat 5
    let (l, s) := scanTags n s
    s.respond c St.OK (leBytes 1 n ++ l)

/-! ## Port: 0x01xx -/

/-- The port of a command to a reader port. -/
def Cmd.port (c : Cmd) : PortNum := toPort c.target.toNat

/-- The offsets that PORT_SET accepts (R357). -/
def portSetOk (off : Nat) : Bool :=
  [0x000, 0x004, 0x008, 0x00C, 0x018, 0x01C, 0x114, 0x120, 0x12C, 0x200, 0x208, 0x20C, 0x218, 0x21C, 0x220,
    0x900].contains off
    || (off % 4 == 0 && ((0x100 ≤ off && off ≤ 0x110) || (0x180 ≤ off && off ≤ 0x1BC) || (0x910 ≤ off && off ≤ 0x92C)))

/-- The bits of a port register that a write can reach. -/
def writableBits (off : Nat) : Word :=
  match rowAt .port off with
  | some r => if off = 0 then 0xE else r.rw ||| r.rwl ||| r.w1c ||| r.w1s
  | none => 0

/-- The bits of a port register that act on a written 1. -/
def actionBits (off : Nat) : Word :=
  match rowAt .port off with
  | some r => r.w1c ||| r.w1s
  | none => 0

/-- An entry of PORT_SET: offset, mask, value. -/
def setEntry (l : List Byte) (i : Nat) : Nat × Word × Word :=
  (leAt l (2 + 10 * i) 2, wordAt l (4 + 10 * i), wordAt l (8 + 10 * i))

/-- Whether an entry may be written. -/
def setEntryOk (e : Nat × Word × Word) : Bool := portSetOk e.1 && e.2.1 &&& ~~~(writableBits e.1) == 0

/-- One entry applied: a read-modify-write under MASK; action bits outside MASK are written 0 (R357, R20). -/
def State.setApply (s : State) (p : PortNum) (e : Nat × Word × Word) : State :=
  let off := e.1
  if s.placeOn (.port p off) then
    s.hearthWrite p off ((s.portWord p off &&& ~~~(actionBits off) &&& ~~~e.2.1) ||| (e.2.2 &&& e.2.1))
  else s

/-- PORT_SET (R357). -/
def bodyPortSet (c : Cmd) (s : State) : State :=
  let n := byteAt c.payload 0
  if c.payload.length ≠ 2 + 10 * n then s.respond c St.BAD_LENGTH
  else
    let l := (List.range n).map (setEntry c.payload)
    if l.all setEntryOk then (l.foldl (fun t e => t.setApply c.port e) s).respond c St.OK
    else s.respond c St.BAD_PARAM

/-- Slow-clock periods that a time in ms takes. -/
def msPeriods (ms : Nat) : Nat := (ms * 32768 + 999) / 1000

/-- FIELD_ON (R41, R42, R358). -/
def bodyFieldOn (c : Cmd) (s : State) : State :=
  let p := c.port
  let w := leAt c.payload 0 2
  if 1000 < w then s.respond c St.BAD_PARAM
  else if (s.port p).field.lockout then (s.writeFieldEn p true).respond c St.THERMAL_LIMIT
  else
    let job := Job.fieldOn p (s.dev.timebase + msPeriods w)
    let s := (s.begin c job).writeFieldEn p true
    if w = 0 ∨ s.fieldState p = 2 then
      s.endJob (fun r => r.job == job) St.OK [BitVec.ofNat 8 (s.fieldState p), BitVec.ofNat 8 (s.pget p TXSTAT.HELD)]
    else s

/-- FIELD_OFF (R358, R372): it answers when the field is off. -/
def bodyFieldOff (c : Cmd) (s : State) : State :=
  let p := c.port
  let s := (s.fieldDown p).endSession p
  if s.fieldState p = 0 then s.respond c St.OK else s.begin c (.fieldOff p)

/-- GRATE_SELECT (R60, R359, R372). -/
def bodyGrateSelect (c : Cmd) (s : State) : State :=
  let p := c.port
  let ant := byteAt c.payload 0
  let user := leAt c.payload 2 2
  if 63 < ant ∨ 1023 < user then s.respond c St.BAD_PARAM
  else
    let s := if ant = s.antenna p then s else s.endSession p
    let off := s.fieldState p == 0
    let s := s.grateWrite p (BitVec.ofNat 32 (ant + 64 * user))
    if off then s.begin c (.grate p) else s.respond c St.OK [1]

/-- Registers read in order for PORT_GET; a port register whose domain is off, a misaligned offset and an offset
without a register read 0 (R12, R13, R20). -/
def getWords (p : PortNum) : List Nat → State → List Byte × State
  | [], s => ([], s)
  | off :: r, s =>
    let (w, s) := if s.placeOn (.port p off) && off % 4 == 0 then s.portRead p .hearth off else (0, s)
    let (l, s) := getWords p r s
    (wordBytes w ++ l, s)

/-- PORT_GET (R361). -/
def bodyPortGet (c : Cmd) (s : State) : State :=
  let n := byteAt c.payload 0
  if c.payload.length ≠ 2 + 2 * n then s.respond c St.BAD_LENGTH
  else
    let l := (List.range n).map fun i => leAt c.payload (2 + 2 * i) 2
    if l.all fun o => o ≤ 0x9FF && o != VIOLCNT.reg && o != VIOLCNT1.reg then
      let (b, s) := getWords c.port l s
      s.respond c St.OK b
    else s.respond c St.BAD_PARAM

/-- A service state as PORT_STATUS codes it. -/
def Svc.code : Svc → Nat
  | .closed => 0 | .opened => 1 | .isolated => 2 | .reloading => 3

/-- PORT_STATUS (R355). -/
def bodyPortStatus (c : Cmd) (s : State) : State :=
  let p := c.port
  let v := (s.port p).svc
  let word := fun off => if s.portOn p then s.portWord p off else 0
  let grp := match s.groupOf p with
    | some g => leBytes 1 g
    | none => [0xFF]
  s.respond c St.OK (leBytes 1 v.svc.code ++ leBytes 1 (bit v.pass.isSome) ++ grp ++ [0] ++ s.imageIds p
    ++ wordsBytes [word TXSTAT.reg, word TXMON.reg, word FRMSTAT.reg])

/-- GROUP_SET (R220-R222, R361): a port already in another group is refused. -/
def bodyGroupSet (c : Cmd) (s : State) : State :=
  let g := byteAt c.payload 0
  let cfg := wordAt c.payload 4
  let bad := cfg &&& ~~~0xFFFF01FF#32 != 0
  let taken := [0, 1, 2, 3].any fun h =>
    h != g && s.coordGet (GRPCFG.MEMBERS.nth h 16) &&& wget cfg GRPCFG.MEMBERS.lo GRPCFG.MEMBERS.len != 0
  if 3 < g ∨ bad ∨ taken then s.respond c St.BAD_PARAM
  else
    let s := s.coordWrite (GRPTIME.reg + 16 * g) (wordAt c.payload 8)
    (s.coordWrite (GRPCFG.reg + 16 * g) cfg).respond c St.OK

/-- GROUP_QUERY (R355). -/
def bodyGroupQuery (c : Cmd) (s : State) : State :=
  let g := byteAt c.payload 0
  if 3 < g then s.respond c St.BAD_PARAM
  else
    s.respond c St.OK (wordsBytes [Cells.word .coord s.coord.regs (GRPCFG.reg + 16 * g),
      Cells.word .coord s.coord.regs (GRPTIME.reg + 16 * g), s.grpStat g])

/-! ## Exchanges: 0x02xx and 0x04xx -/

/-- TRANSCEIVE (R362, R363). -/
def bodyTransceive (c : Cmd) (s : State) : State :=
  let l := c.payload
  if 15 < byteAt l 0 ∨ 7 < byteAt l 1 ∨ 7 < byteAt l 2 ∨ 2 ^ FWT.WAIT.len ≤ leAt l 4 4 ∨ s.fieldState c.port = 0 then
    s.respond c St.BAD_PARAM
  else s.shipCmd c

/-- CID of A_ACTIVATE. -/
def cidOk (v : Nat) : Bool := v ≤ 14 || v == 0xFF

/-- A_ACTIVATE (R362, R364). -/
def bodyAActivate (c : Cmd) (s : State) : State :=
  let b := byteAt c.payload
  if 1 < b 0 || 1 < b 1 || !cidOk (b 2) || 3 < b 3 || 3 < b 4 then s.respond c St.BAD_PARAM else s.shipCmd c

/-- B_ACTIVATE (R362, R364). -/
def bodyBActivate (c : Cmd) (s : State) : State :=
  let b := byteAt c.payload
  if !(List.contains [1, 2, 4, 8, 16] (b 1)) || 3 < b 3 || 3 < b 4 then s.respond c St.BAD_PARAM else s.shipCmd c

/-- A command that needs an activated PICC (R364). -/
def State.shipPicc (s : State) (c : Cmd) : State :=
  if (s.port c.port).svc.picc.isNone then s.respond c St.NO_TAG else s.shipCmd c

/-- APDU (R362). -/
def bodyApdu (c : Cmd) (s : State) : State :=
  if 1 < byteAt c.payload 0 then s.respond c St.BAD_PARAM else s.shipPicc c

/-- DESELECT (R364). -/
def bodyDeselect (c : Cmd) (s : State) : State := s.shipPicc c

/-- VHBR_PARAMS (R364). -/
def bodyVhbrParams (c : Cmd) (s : State) : State := s.shipPicc c

/-- V_CMD (R365). -/
def bodyVCmd (c : Cmd) (s : State) : State :=
  if byteAt c.payload 1 = 1 then s.respond c St.BAD_PARAM else s.shipCmd c

/-- AL_SCAN (R374). -/
def bodyAlScan (c : Cmd) (s : State) : State :=
  let m := byteAt c.payload 0
  if m < 1 ∨ 32 < m then s.respond c St.BAD_PARAM else s.shipCmd c

/-- AL_SELECT (R372, R598): selecting another UID ends the session. -/
def bodyAlSelect (c : Cmd) (s : State) : State :=
  if byteAt c.payload 8 &&& 0xFD ≠ 0 then s.respond c St.BAD_PARAM
  else
    let other := (s.port c.port).svc.session.any fun x => x.uid != c.payload.take 8
    (if other then s.modSvc c.port fun v => { v with session := none } else s).shipCmd c

/-- A command that needs the port's session (R372); `ok` is what its fields must meet (R598). -/
def State.shipSession (s : State) (c : Cmd) (ok : Bool) : State :=
  if !ok then s.respond c St.BAD_PARAM
  else if (s.port c.port).svc.session.isNone then s.respond c St.NO_TAG
  else s.shipCmd c

/-- AL_HALT (R371). -/
def bodyAlHalt (c : Cmd) (s : State) : State := s.shipSession c (byteAt c.payload 0 ≤ 1)

/-- AL_READ (R371). -/
def bodyAlRead (c : Cmd) (s : State) : State :=
  s.shipSession c (1 ≤ byteAt c.payload 2 && byteAt c.payload 2 ≤ 4)

/-- A command of the session whose fields take every value. -/
def bodyAlPlain (c : Cmd) (s : State) : State := s.shipSession c true

/-- AL_UNLOCK (R375): the key slot is judged before any frame is sent. -/
def bodyAlUnlock (c : Cmd) (s : State) : State :=
  let slot := byteAt c.payload 1
  if 63 < slot then s.respond c St.BAD_PARAM
  else if (s.port c.port).svc.session.isNone then s.respond c St.NO_TAG
  else if (s.keyFor slot [1] 1).isNone then s.respond c St.SECURITY_DENIED
  else s.shipCmd c

/-- An Osgil command: it needs no session (R375). -/
def bodyOsgil (c : Cmd) (s : State) : State := s.shipCmd c

/-! ## Calibration: 0x07xx -/

/-- CAL_RUN's refusals of check 8 beside those of R175 and R347 (R292). -/
def gateCalRun (c : Cmd) (s : State) : Bool :=
  let p := c.port
  s.portBusy p || (s.port p).svc.series || s.couplingSet.contains p.val

/-- The parameters of CAL_RUN: STEPS, REF_ANT, LEVEL and ANTLIST; LEN 0 takes every default (R292). -/
def State.calParams (s : State) (c : Cmd) : Nat × Nat × Nat × Nat :=
  let l := c.payload
  if l.isEmpty then
    let ants := leAt (s.port c.port).svc.invSet 0 8
    (15, (maskAnts ants).headD 0, s.pget c.port TXAMP.LEVEL, ants)
  else (byteAt l 0, byteAt l 1, leAt l 2 2, leAt l 4 8)

/-- CAL_RUN (R292, R293). -/
def bodyCalRun (c : Cmd) (s : State) : State :=
  let p := c.port
  let (steps, ref, level, ants) := s.calParams c
  if ants = 0 ∨ steps = 0 ∨ 15 < steps ∨ 63 < ref ∨ (c.payload ≠ [] ∧ (level < 1 ∨ 1023 < level)) then
    s.respond c St.BAD_PARAM
  else if (s.port p).field.lockout then s.respond c St.THERMAL_LIMIT
  else
    s.calBegin p c
      { steps, refAnt := ref, level, ants := maskAnts ants, todo := maskAnts ants, capNow := 0, bestCap := 0,
        bestPhase := 0, levels := [] }

/-- CAL_COUPLING (R213, R214). -/
def bodyCalCoupling (c : Cmd) (s : State) : State :=
  let set := (List.range 8).filter fun i => nbit (byteAt c.payload 0) i
  let ants := (List.range 8).map fun i => byteAt c.payload (4 + i)
  let free := fun n : Nat =>
    let p := toPort n
    let v := (s.port p).svc
    v.svc == .opened && !s.portBusy p && v.pass.isNone && !v.series
  if set.length < 2 ∨ set.any fun n => 63 < ants.getD n 0 then s.respond c St.BAD_PARAM
  else if set.all free then s.cplBegin c set ants
  else s.respond c St.BUSY

/-- The ports of a mask in ascending order. -/
def maskPorts (m : Nat) : List PortNum := allPorts.filter fun p => nbit m p.val

/-- A map entry as R289 stores it. -/
def State.getMap (s : State) (p : PortNum) (ant : Nat) : Nat :=
  s.calGet { off := AMPMAP.MAPA.off + 0x80 * p.val + 4 * (ant / 2),
             lo := if ant % 2 = 0 then AMPMAP.MAPA.lo else AMPMAP.MAPB.lo, len := 11 }

/-- A PORT-domain register as it reads, or its reset value while the domain is off (R298). -/
def State.expWord (s : State) (p : PortNum) (off : Nat) : Word :=
  if s.portOn p then (s.port p).word off else resetWord .port off

/-- A per-port record of the blob (R299): TUNE shows the CAP in force. -/
def State.calRecord (s : State) (p : PortNum) : List Byte :=
  let tune := wset (Cells.word .cal s.cal (TUNE.reg + 4 * p.val)) TUNE.CAP.lo TUNE.CAP.len
    (s.calGet (TUNE.APPLIED.nth p.val))
  leBytes 1 p.val ++ leBytes 1 (bit (s.portOn p)) ++ [0, 0] ++ wordBytes tune
    ++ (List.range 64).flatMap (fun a => leBytes 2 (s.getMap p a)) ++ wordBytes (s.expWord p LKCTL.reg)
    ++ (List.range 8).flatMap (fun j => wordBytes (s.expWord p (LKCOEF.reg + 4 * j)))
    ++ leBytes 2 (wget (s.expWord p DBDLY.reg) 16 16) ++ [0, 0]

/-- The identity of the die in a blob: LOT, WAFER, DIEX, DIEY (R299). -/
def dieBytes : List Byte := padTo 8 Config.otpLot ++ [Config.otpWafer, Config.otpDieX, Config.otpDieY]

/-- CAL_EXPORT (R298, R299). -/
def bodyCalExport (c : Cmd) (s : State) : State :=
  let m := byteAt c.payload 0
  let recs := (maskPorts m).flatMap s.calRecord
  let len := 290 + recs.length
  let body := [0x1B, 0xCA, 1, 0] ++ leBytes 2 len ++ [0xC1] ++ leBytes 1 m ++ dieBytes ++ [0] ++ leBytes 4 s.seconds
    ++ leBytes 1 (s.coordGet CPLCTL.VALID) ++ [0, 0, 0] ++ wordsBytes (matrixWords s.coord.matrix)
    ++ leBytes 2 (matrixCrc s.coord.matrix).toNat ++ [0, 0] ++ recs
  s.respond c St.OK (body ++ CrcKind.crcO.bytes body)

/-- Record `r` of a blob. -/
def blobRec (b : List Byte) (r : Nat) : List Byte := (b.drop (288 + 176 * r)).take 176

/-- The number of records that PORTS of a blob calls for. -/
def blobCount (b : List Byte) : Nat := popCount 8 (byteAt b 7)

/-- Conditions of R300 on the blob's form and of R598 on the map entries that the command writes. -/
def blobBad (b : List Byte) (sections : Nat) : Bool :=
  leAt b 0 2 != 0xCA1B || byteAt b 2 != 1 || !CrcKind.crcO.ok b
    || (List.range (blobCount b)).any fun r =>
      let x := blobRec b r
      7 < byteAt x 0 || !nbit (byteAt b 7) (byteAt x 0)
        || (nbit sections 2 && (List.range 64).any fun a => 2047 < leAt x (8 + 2 * a) 2)

/-- TUNE and the map of a record applied (R290, R301). -/
def State.applyTune (s : State) (sections : Nat) (x : List Byte) : State :=
  let p := toPort (byteAt x 0)
  let s := if nbit sections 1 then (s.calSet (TUNE.CAP.nth p.val) (byteAt x 4 % 64)).idleWork p else s
  if nbit sections 2 then (List.range 64).foldl (fun (t : State) a => t.setMap p a (leAt x (8 + 2 * a) 2)) s else s

/-- Whether a record's PORT-domain fields are written (R301). -/
def State.recLive (s : State) (x : List Byte) : Bool := nbit (byteAt x 1) 0 && s.portOn (toPort (byteAt x 0))

/-- LKCTL, LKCOEF and OFS of a record written at the port's next idle point, or at once (R301). -/
def State.applyPort (s : State) (sections : Nat) (x : List Byte) : State :=
  let p := toPort (byteAt x 0)
  if s.recLive x then
    let canc := if nbit sections 3 then
        (LKCTL.reg, wordAt x 136 &&& 0x1F1F) :: (List.range 8).map fun j => (LKCOEF.reg + 4 * j, wordAt x (140 + 4 * j))
      else []
    let ofs := if nbit sections 4 && !s.pon p DBCTL.LOCK then
        [(DBDLY.reg, BitVec.ofNat 32 (65536 * leAt x 172 2))] else []
    { s with imports := s.imports ++ [(p.val, canc ++ ofs)] }.idleWork p
  else s

/-- The matrix of a blob committed; the flag tells that COMMIT failed (R210, R301). -/
def State.applyMatrix (s : State) (b : List Byte) : Bool × State :=
  let regs := (List.range 64).foldl (fun c i => Cells.put .coord c (CPLM.reg + 4 * i) (wordAt b (28 + 4 * i))) s.coord.regs
  let s : State := { s with coord := { s.coord with regs } }
  let s := s.coordSet CPLCTL.CRC (leAt b 284 2)
  ((matrixCrc s.coord.regs).toNat != leAt b 284 2, s.cplCommit)

/-- A mask of ports. -/
def maskOf (l : List Nat) : Nat := l.foldl (fun a n => a ||| 2 ^ n) 0

/-- CAL_IMPORT's sections applied in the order of R301. -/
def State.calApply (s : State) (c : Cmd) (sections : Nat) (b : List Byte) : State :=
  let recs := (List.range (blobCount b)).map (blobRec b)
  let domain := nbit sections 3 || nbit sections 4
  let skipped := if domain then maskOf ((recs.filter fun x => !s.recLive x).map (byteAt · 0)) else 0
  let locked := if nbit sections 4 then
      maskOf ((recs.filter fun x => s.recLive x && s.pon (toPort (byteAt x 0)) DBCTL.LOCK).map (byteAt · 0)) else 0
  let s := recs.foldl (fun (t : State) x => t.applyTune sections x) s
  let s := recs.foldl (fun (t : State) x => t.applyPort sections x) s
  let (failed, s) := if nbit sections 0 && byteAt b 24 == 1 then s.applyMatrix b else (false, s)
  if failed then s.respond c St.INTERNAL_ERROR
  else s.respond c St.OK (leBytes 1 skipped ++ leBytes 1 locked)

/-- CAL_IMPORT (R300, R301, R384). -/
def bodyCalImport (c : Cmd) (s : State) : State :=
  let sections := byteAt c.payload 0
  let foreign := byteAt c.payload 1
  let b := c.payload.drop 4
  let busy := s.calPorts.any (fun p => nbit (byteAt b 7) p.val) || !s.couplingSet.isEmpty
  if leAt b 4 2 ≠ b.length ∨ b.length ≠ 290 + 176 * blobCount b then s.respond c St.BAD_LENGTH
  else if 31 < sections ∨ 1 < foreign ∨ blobBad b sections then s.respond c St.BAD_PARAM
  else if 0xC1 < byteAt b 6 then s.respond c St.IMAGE_INVALID
  else if foreign = 0 ∧ (b.drop 8).take 11 ≠ dieBytes then s.respond c St.BAD_PARAM
  else if busy then s.respond c St.BUSY
  else s.calApply c sections b

/-- CAL_CONFIG (R383, R384). -/
def bodyCalConfig (c : Cmd) (s : State) : State :=
  let w := byteAt c.payload 0
  let dt := byteAt c.payload 1
  let fl := byteAt c.payload 2
  if 1 < w ∨ (w = 1 ∧ (31 < dt ∨ 3 < fl)) then s.respond c St.BAD_PARAM
  else
    let s := if w = 1 then
        ((s.calSet CALCFG.DT dt).calSet CALCFG.AUTO (fl % 2)).calSet CALCFG.XCHK (fl / 2)
      else s
    s.respond c St.OK (leBytes 1 (s.calGet CALCFG.DT)
      ++ leBytes 1 (s.calGet CALCFG.AUTO + 2 * s.calGet CALCFG.XCHK))

/-- CAL_STATUS (R383). -/
def bodyCalStatus (c : Cmd) (s : State) : State :=
  let words := fun reg n => (List.range n).map fun i => Cells.word .cal s.cal (reg + 4 * i)
  s.respond c St.OK (wordsBytes (words CALSTAT.reg 1 ++ words CALTEMP.reg 5 ++ words ADCX.reg 8
    ++ [Cells.word .coord s.coord.regs CPLCTL.reg]))

/-! ## Timers: 0x0Bxx -/

/-- The channel that a timer command names, or its status (R394). -/
def State.tmrChannel (s : State) (c : Cmd) : Except Nat Channel :=
  let n := byteAt c.payload 0
  if c.target.toNat = 15 then if n < 8 then .ok (.global (Fin.ofNat 8 n)) else .error St.BAD_PARAM
  else if 3 < n then .error St.BAD_PARAM
  else if n < 2 ∧ (s.port c.port).svc.customer = false then .error St.BUSY
  else .ok (.port c.port (Fin.ofNat 4 n))

/-- TMR_CONFIG (R393, R471). -/
def bodyTmrConfig (c : Cmd) (s : State) : State :=
  let src := byteAt c.payload 1
  let fl := byteAt c.payload 2
  if 7 < src ∨ 127 < fl then s.respond c St.BAD_PARAM
  else match s.tmrChannel c with
    | .error st => s.respond c st
    | .ok ch =>
      let s := s.tmrStop ch
      let t := s.chan ch
      let t := tset (tset (tset (tset t TMR_STAT.CMP 0) TMR_STAT.OVR 0) TMR_STAT.MISSED 0) TMR_STAT.CAPV 0
      let ctl := src + 8 * fl
      let t := Cells.put .tmr (Cells.put .tmr (Cells.put .tmr t TMR_CTL.reg (BitVec.ofNat 32 ctl)) TMR_PRESC.reg
        (wordAt c.payload 4)) TMR_CMPV.reg (wordAt c.payload 8)
      (s.setChan ch t).respond c St.OK

/-- TMR_ARM (R471): the response is made ready before the event that an immediate compare raises (R332). -/
def bodyTmrArm (c : Cmd) (s : State) : State :=
  match s.tmrChannel c with
  | .error st => s.respond c st
  | .ok ch =>
    let s := s.respond c St.OK
    (s.setChan ch (Cells.put .tmr (s.chan ch) TMR_CMPV.reg (wordAt c.payload 4))).tmrArm ch

/-- TMR_READ (R393, R471). -/
def bodyTmrRead (c : Cmd) (s : State) : State :=
  match s.tmrChannel c with
  | .error st => s.respond c st
  | .ok ch =>
    let t := s.chan ch
    let fl := tget t TMR_STAT.ARMED + 2 * tget t TMR_STAT.OVR + 4 * tget t TMR_STAT.MISSED
    s.respond c St.OK (leBytes 4 (tget t TMR_COUNT.V) ++ leBytes 4 (tget t TMR_CAP.V) ++ leBytes 1 fl ++ [0, 0, 0]
      ++ leBytes 4 (tget t TMR_MAKEUP.V))

/-! ## Debug: 0x0Fxx -/

/-- Whether the NVM array opens an offset to Hearth reads (R505). -/
def nvmOpens (off : Nat) : Bool := (0x3000 ≤ off && off < 0x4800) || (0x5000 ≤ off && off < 0x17000)

/-- Why a debug access of one word is refused (R31, R396, R423). -/
def State.dbgRefusal (s : State) (write : Bool) (a : Nat) : Option Nat :=
  match placeOf a with
  | none => some St.BAD_PARAM
  | some (.nvm off) => if write || !nvmOpens off then some St.SECURITY_DENIED else none
  | some (.kiln _) => if write then some St.SECURITY_DENIED else none
  | some (.engCode p off) =>
    if !s.placeOn (.engCode p off) then some St.BUSY
    else if write && !s.codeWritable p then some St.BUSY
    else none
  | some pl => if s.placeOn pl then none else some St.BUSY

/-- The word addresses of a debug access. -/
def dbgAddrs (c : Cmd) (n : Nat) : List Nat := (List.range n).map fun i => leAt c.payload 0 4 + 4 * i

/-- Words read in order. -/
def dbgReadWords : List Nat → State → List Byte × State
  | [], s => ([], s)
  | a :: r, s =>
    let (w, s) := match placeOf a with
      | some pl => s.placeRead pl
      | none => (0, s)
    let (l, s) := dbgReadWords r s
    (wordBytes w ++ l, s)

/-- The packets of DBG_READ: at most 1,020 words each (R395). -/
def dbgPackets (a : Nat) (l : List Byte) : Nat → List (List Byte)
  | 0 => []
  | n + 1 =>
    let here := l.take 4080
    let pkt := leBytes 4 a ++ leBytes 2 (here.length / 4) ++ [0, 0] ++ here
    if l.length ≤ 4080 then [pkt] else pkt :: dbgPackets (a + 4080) (l.drop 4080) n

/-- DBG_READ (R396). -/
def bodyDbgRead (c : Cmd) (s : State) : State :=
  let n := leAt c.payload 4 2
  let l := dbgAddrs c n
  if leAt c.payload 0 4 % 4 ≠ 0 ∨ n < 1 ∨ 4096 < n then s.respond c St.BAD_PARAM
  else match l.findSome? (s.dbgRefusal false) with
    | some st => s.respond c st
    | none =>
      let (b, s) := dbgReadWords l s
      s.respondPkts c St.OK (dbgPackets (leAt c.payload 0 4) b 5)

/-- Words written in order. -/
def dbgWriteWords (b : List Byte) : Nat → List Nat → State → State
  | _, [], s => s
  | i, a :: r, s =>
    dbgWriteWords b (i + 1) r (match placeOf a with
      | some pl => s.placeWrite pl (wordAt b (8 + 4 * i))
      | none => s)

/-- DBG_WRITE (R396). A write that resets the device leaves no response. -/
def bodyDbgWrite (c : Cmd) (s : State) : State :=
  let n := leAt c.payload 4 2
  let l := dbgAddrs c n
  if c.payload.length ≠ 8 + 4 * n then s.respond c St.BAD_LENGTH
  else if leAt c.payload 0 4 % 4 ≠ 0 then s.respond c St.BAD_PARAM
  else match l.findSome? (s.dbgRefusal true) with
    | some st => s.respond c st
    | none =>
      let t := dbgWriteWords c.payload 0 l s
      if t.dev.inReset then t else t.respond c St.OK

/-- The engine as DBG_ENGINE shows it: STATE, PC, the general registers, ESW. -/
def State.engDump (s : State) (p : PortNum) : List Byte :=
  leBytes 1 (s.engState p) ++ [0, 0, 0] ++ wordBytes (s.portWord p ENG_PC.reg) ++ wordsBytes (s.eng p).g.toList
    ++ wordBytes (s.eswWord p)

/-- DBG_ENGINE (R396, R530). -/
def bodyDbgEngine (c : Cmd) (s : State) : State :=
  let p := c.port
  let a := byteAt c.payload 0
  if 3 < a then s.respond c St.BAD_PARAM
  else if s.kilnGet KWSTAT.DEBUG = 0 then s.respond c St.SECURITY_DENIED
  else
    let s := match a with
      | 0 => s.haltWrite p true
      | 1 => s.haltWrite p false
      | 2 => s.stepOnce p
      | _ => s
    s.respond c St.OK (s.engDump p)

/-! ## REGISTER_WRITE -/

/-- REGISTER_WRITE (R12, R13, R15, R20, R24, R31): Hearth reaches every place, an engine the registers of its own port; a
misaligned write and one to a block that is off have no effect. -/
def State.registerWrite (s : State) (addr value : Word) (side : Side) : State :=
  if addr.toNat % 4 ≠ 0 then s
  else match placeOf addr.toNat with
    | none => s
    | some pl =>
      if !s.placeOn pl then s
      else match side, pl with
        | .hearth, pl => s.placeWrite pl value
        | .engine, .port p off => if s.portOn p then s.portWrite p .engine off value else s
        | .engine, _ => s

/-- REGISTER_WRITE (R15). -/
def execRegisterWrite (addr value : Word) (side : Side) : State → Host.Outcome State Fault Refusal :=
  run fun s => s.registerWrite addr value side

end Sys2Proof.Machine
end

