-- ==== Sys2Proof/Machine/Opcodes.lean ====
section
/-! DEFINITION. The command reference (R344-R348, R371, R379, R387, R596): each opcode's row. -/

namespace Sys2Proof.Machine

/-! ## Device: 0x00xx -/

/-- INFO (R351). -/
def opInfo : Op where
  opcode := 0x0001
  targets := devTarget
  anyHost := true
  kindling := true
  lens := fun _ n => n == 0
  body := bodyInfo

/-- IDENT (R351, R525). -/
def opIdent : Op where
  opcode := 0x0002
  targets := devTarget
  anyHost := true
  kindling := true
  lens := fun _ n => n == 0
  body := bodyIdent

/-- DEV_RESET (R352). -/
def opDevReset : Op where
  opcode := 0x0003
  targets := devTarget
  kindling := true
  lens := fun _ n => n == 2
  body := bodyDevReset

/-- GET_LOG (R353). -/
def opGetLog : Op where
  opcode := 0x0004
  targets := devTarget
  lens := fun _ n => n == 6
  body := bodyGetLog

/-- HOST_CONFIG (R354). -/
def opHostConfig : Op where
  opcode := 0x0005
  targets := devTarget
  anyHost := true
  kindling := true
  lens := fun _ n => n == 8
  body := bodyHostConfig

/-- HOST_STATUS (R339). -/
def opHostStatus : Op where
  opcode := 0x0006
  targets := devTarget
  anyHost := true
  kindling := true
  lens := fun _ n => n == 0
  body := bodyHostStatus

/-- OWN_CLAIM (R335). -/
def opOwnClaim : Op where
  opcode := 0x0010
  targets := ownTargets
  anyHost := true
  kindling := true
  lens := fun _ n => n == 2
  body := bodyOwnClaim

/-- OWN_RELEASE (R335). -/
def opOwnRelease : Op where
  opcode := 0x0011
  targets := ownTargets
  anyHost := true
  kindling := true
  lens := fun _ n => n == 1
  body := bodyOwnRelease

/-- OWN_QUERY (R351). -/
def opOwnQuery : Op where
  opcode := 0x0012
  targets := devTarget
  anyHost := true
  kindling := true
  lens := fun _ n => n == 0
  body := bodyOwnQuery

/-- KINDLING_SCAN (R348, R500). -/
def opKindlingScan : Op where
  opcode := 0x0020
  targets := [0]
  kindling := true
  full := false
  lens := fun _ n => n == 0
  body := bodyKindlingScan

/-! ## Port: 0x01xx -/

/-- PORT_OPEN (R356). -/
def opPortOpen : Op where
  opcode := 0x0100
  targets := portTargets
  lens := fun _ n => n == 0
  body := bodyPortOpen

/-- PORT_CLOSE (R356). -/
def opPortClose : Op where
  opcode := 0x0101
  targets := portTargets
  lens := fun _ n => n == 0
  body := bodyPortClose

/-- PORT_SET (R357). -/
def opPortSet : Op where
  opcode := 0x0102
  targets := portTargets
  lens := fun _ n => 12 ≤ n && n ≤ 322 && (n - 2) % 10 == 0
  body := bodyPortSet

/-- FIELD_ON (R358). -/
def opFieldOn : Op where
  opcode := 0x0103
  targets := portTargets
  served := true
  lens := fun _ n => n == 2
  body := bodyFieldOn

/-- FIELD_OFF (R358). -/
def opFieldOff : Op where
  opcode := 0x0104
  targets := portTargets
  lens := fun _ n => n == 0
  body := bodyFieldOff

/-- GRATE_SELECT (R359). -/
def opGrateSelect : Op where
  opcode := 0x0105
  targets := portTargets
  served := true
  lens := fun _ n => n == 4
  body := bodyGrateSelect

/-- PORT_RESET (R360). -/
def opPortReset : Op where
  opcode := 0x0106
  targets := portTargets ++ devTarget
  pll := true
  lens := fun t n => n == if t = 15 then 1 else 0
  body := bodyPortReset

/-- PORT_GET (R361). -/
def opPortGet : Op where
  opcode := 0x0107
  targets := portTargets
  lens := fun _ n => 4 ≤ n && n ≤ 130 && (n - 2) % 2 == 0
  body := bodyPortGet

/-- PORT_STATUS (R355). -/
def opPortStatus : Op where
  opcode := 0x0108
  targets := portTargets
  lens := fun _ n => n == 0
  body := bodyPortStatus

/-- GROUP_SET (R361). -/
def opGroupSet : Op where
  opcode := 0x0110
  targets := devTarget
  lens := fun _ n => n == 12
  body := bodyGroupSet

/-- GROUP_QUERY (R355). -/
def opGroupQuery : Op where
  opcode := 0x0111
  targets := devTarget
  lens := fun _ n => n == 1
  body := bodyGroupQuery

/-! ## Exchanges: 0x02xx -/

/-- TRANSCEIVE (R363). -/
def opTransceive : Op where
  opcode := 0x0200
  targets := portTargets
  served := true
  lens := fun _ n => 9 ≤ n && n ≤ 4092
  body := bodyTransceive

/-- A_ACTIVATE (R364). -/
def opAActivate : Op where
  opcode := 0x0201
  targets := portTargets
  served := true
  lens := fun _ n => n == 5
  body := bodyAActivate

/-- B_ACTIVATE (R364). -/
def opBActivate : Op where
  opcode := 0x0202
  targets := portTargets
  served := true
  lens := fun _ n => n == 5
  body := bodyBActivate

/-- APDU (R364). -/
def opApdu : Op where
  opcode := 0x0203
  targets := portTargets
  bound := 4096
  served := true
  lens := fun _ n => 4 ≤ n && n ≤ 4096
  body := bodyApdu

/-- DESELECT (R364). -/
def opDeselect : Op where
  opcode := 0x0204
  targets := portTargets
  served := true
  lens := fun _ n => n == 0
  body := bodyDeselect

/-- VHBR_PARAMS (R362). -/
def opVhbrParams : Op where
  opcode := 0x0205
  targets := portTargets
  served := true
  lens := fun _ n => n == 2
  body := bodyVhbrParams

/-- V_CMD (R365). -/
def opVCmd : Op where
  opcode := 0x0210
  targets := portTargets
  served := true
  lens := fun _ n => 10 ≤ n && n ≤ 4086
  body := bodyVCmd

/-! ## Inventory and tag table: 0x03xx -/

/-- INV_CONFIG (R367). -/
def opInvConfig : Op where
  opcode := 0x0300
  targets := portTargets
  lens := fun _ n => n == 30
  body := bodyInvConfig

/-- INV_START (R175). -/
def opInvStart : Op where
  opcode := 0x0301
  targets := portTargets
  served := true
  lens := fun _ n => n == 0
  body := bodyInvStart

/-- INV_STOP (R368). -/
def opInvStop : Op where
  opcode := 0x0302
  targets := portTargets
  lens := fun _ n => n == 0
  body := bodyInvStop

/-- INV_QUERY (R366). -/
def opInvQuery : Op where
  opcode := 0x0303
  targets := portTargets
  lens := fun _ n => n == 0
  body := bodyInvQuery

/-- TT_READ (R369). -/
def opTtRead : Op where
  opcode := 0x0310
  targets := portTargets ++ devTarget
  lens := fun _ n => n == 4
  body := bodyTtRead

/-- TT_FIND (R197). -/
def opTtFind : Op where
  opcode := 0x0311
  targets := portTargets ++ devTarget
  lens := fun _ n => n == 12
  body := bodyTtFind

/-- TT_DELETE (R202). -/
def opTtDelete : Op where
  opcode := 0x0312
  targets := devTarget
  lens := fun _ n => n == 12
  body := bodyTtDelete

/-- TT_CLEAR (R370). -/
def opTtClear : Op where
  opcode := 0x0313
  targets := devTarget
  lens := fun _ n => n == 0
  body := bodyTtClear

/-- TT_SET_FLAGS (R370). -/
def opTtSetFlags : Op where
  opcode := 0x0314
  targets := devTarget
  lens := fun _ n => n == 14
  body := bodyTtSetFlags

/-- TT_CONFIG (R366). -/
def opTtConfig : Op where
  opcode := 0x0315
  targets := devTarget
  lens := fun _ n => n == 4
  body := bodyTtConfig

/-! ## Aelyr link and Osgil: 0x04xx -/

/-- AL_SCAN (R371, R374). -/
def opAlScan : Op where
  opcode := 0x0400
  targets := portTargets
  served := true
  lens := fun _ n => n == 1
  body := bodyAlScan

/-- AL_SELECT (R372). -/
def opAlSelect : Op where
  opcode := 0x0401
  targets := portTargets
  served := true
  lens := fun _ n => n == 9
  body := bodyAlSelect

/-- AL_HALT (R152). -/
def opAlHalt : Op where
  opcode := 0x0402
  targets := portTargets
  served := true
  lens := fun _ n => n == 1
  body := bodyAlHalt

/-- AL_READ (R156). -/
def opAlRead : Op where
  opcode := 0x0410
  targets := portTargets
  served := true
  lens := fun _ n => n == 3
  body := bodyAlRead

/-- AL_WRITE (R156). -/
def opAlWrite : Op where
  opcode := 0x0411
  targets := portTargets
  served := true
  lens := fun _ n => n == 18
  body := bodyAlPlain

/-- AL_LOCK_BLOCK (R156). -/
def opAlLockBlock : Op where
  opcode := 0x0412
  targets := portTargets
  served := true
  lens := fun _ n => n == 2
  body := bodyAlPlain

/-- AL_AREA_INFO (R155). -/
def opAlAreaInfo : Op where
  opcode := 0x0413
  targets := portTargets
  served := true
  lens := fun _ n => n == 1
  body := bodyAlPlain

/-- AL_AUTH_PWD (R157). -/
def opAlAuthPwd : Op where
  opcode := 0x0420
  targets := portTargets
  served := true
  lens := fun _ n => n == 5
  body := bodyAlPlain

/-- AL_SET_PWD (R158). -/
def opAlSetPwd : Op where
  opcode := 0x0421
  targets := portTargets
  served := true
  lens := fun _ n => n == 5
  body := bodyAlPlain

/-- AL_UNLOCK (R375). -/
def opAlUnlock : Op where
  opcode := 0x0422
  targets := portTargets
  served := true
  lens := fun _ n => n == 2
  body := bodyAlUnlock

/-- AL_READ_CNT (R161). -/
def opAlReadCnt : Op where
  opcode := 0x0428
  targets := portTargets
  served := true
  lens := fun _ n => n == 1
  body := bodyAlPlain

/-- AL_INC_CNT (R161). -/
def opAlIncCnt : Op where
  opcode := 0x0429
  targets := portTargets
  served := true
  lens := fun _ n => n == 3
  body := bodyAlPlain

/-- OS_GET_ID (R168). -/
def opOsGetId : Op where
  opcode := 0x0440
  targets := portTargets
  served := true
  lens := fun _ n => n == 0
  body := bodyOsgil

/-- OS_READ_PAGE (R168). -/
def opOsReadPage : Op where
  opcode := 0x0441
  targets := portTargets
  served := true
  lens := fun _ n => n == 1
  body := bodyOsgil

/-- OS_WRITE_PAGE (R168). -/
def opOsWritePage : Op where
  opcode := 0x0442
  targets := portTargets
  served := true
  lens := fun _ n => n == 5
  body := bodyOsgil

/-- OS_LOGIN (R170). -/
def opOsLogin : Op where
  opcode := 0x0443
  targets := portTargets
  served := true
  lens := fun _ n => n == 4
  body := bodyOsgil

/-- OS_LOGOUT (R168). -/
def opOsLogout : Op where
  opcode := 0x0444
  targets := portTargets
  served := true
  lens := fun _ n => n == 0
  body := bodyOsgil

/-- OS_SET_PASSWORD (R168). -/
def opOsSetPassword : Op where
  opcode := 0x0445
  targets := portTargets
  served := true
  lens := fun _ n => n == 4
  body := bodyOsgil

/-- OS_LOCK_PAGE (R168). -/
def opOsLockPage : Op where
  opcode := 0x0446
  targets := portTargets
  served := true
  lens := fun _ n => n == 1
  body := bodyOsgil

/-! ## Distance bounding: 0x05xx -/

/-- DB_RUN (R246). -/
def opDbRun : Op where
  opcode := 0x0500
  targets := portTargets
  served := true
  lens := fun _ n => n == 4
  body := bodyDbRun

/-- DB_CAL (R237). -/
def opDbCal : Op where
  opcode := 0x0501
  targets := portTargets
  served := true
  lens := fun _ n => n == 2
  body := bodyDbCal

/-- DB_CONFIG (R378). -/
def opDbConfig : Op where
  opcode := 0x0502
  targets := portTargets
  served := true
  lens := fun _ n => n == 10
  body := bodyDbConfig

/-! ## Transponder port: 0x06xx -/

/-- XPDR_CONFIG (R380). -/
def opXpdrConfig : Op where
  opcode := 0x0600
  targets := [8]
  gate := gateDefer
  lens := fun _ n => n == 36
  body := bodyXpdrConfig

/-- XPDR_AREA_SET (R259). -/
def opXpdrAreaSet : Op where
  opcode := 0x0601
  targets := [8]
  gate := gateDefer
  lens := fun _ n => 12 ≤ n && n ≤ 132 && (n - 4) % 8 == 0
  body := bodyXpdrAreaSet

/-- XPDR_READ (R266). -/
def opXpdrRead : Op where
  opcode := 0x0602
  targets := [8]
  lens := fun _ n => n == 4
  body := bodyXpdrRead

/-- XPDR_WRITE (R381). -/
def opXpdrWrite : Op where
  opcode := 0x0603
  targets := [8]
  gate := gateDefer
  lens := fun _ n => 20 ≤ n && n ≤ 260 && (n - 4) % 16 == 0
  body := bodyXpdrWrite

/-- XPDR_CNT_READ (R266). -/
def opXpdrCntRead : Op where
  opcode := 0x0604
  targets := [8]
  lens := fun _ n => n == 1
  body := bodyXpdrCntRead

/-- XPDR_CNT_INC (R261). -/
def opXpdrCntInc : Op where
  opcode := 0x0605
  targets := [8]
  gate := gateDefer
  lens := fun _ n => n == 8
  body := bodyXpdrCntInc

/-- XPDR_AREA_INFO (R379). -/
def opXpdrAreaInfo : Op where
  opcode := 0x0606
  targets := [8]
  lens := fun _ n => n == 0
  body := bodyXpdrAreaInfo

/-- XPDR_UNLOCK (R382). -/
def opXpdrUnlock : Op where
  opcode := 0x0607
  targets := [8]
  gate := gateSession
  lens := fun _ n => n == 68
  body := bodyXpdrUnlock

/-- XPDR_STATUS (R379). -/
def opXpdrStatus : Op where
  opcode := 0x0608
  targets := [8]
  lens := fun _ n => n == 0
  body := bodyXpdrStatus

/-! ## Calibration: 0x07xx -/

/-- CAL_RUN (R292, R293). -/
def opCalRun : Op where
  opcode := 0x0700
  targets := portTargets
  gate := gateCalRun
  served := true
  lens := fun _ n => n == 0 || n == 12
  body := bodyCalRun

/-- CAL_EXPORT (R298). -/
def opCalExport : Op where
  opcode := 0x0701
  targets := devTarget
  lens := fun _ n => n == 1
  body := bodyCalExport

/-- CAL_IMPORT (R301). -/
def opCalImport : Op where
  opcode := 0x0702
  targets := devTarget
  lens := fun _ n => 4 ≤ n && n ≤ 4092
  body := bodyCalImport

/-- CAL_COUPLING (R214). -/
def opCalCoupling : Op where
  opcode := 0x0703
  targets := devTarget
  pll := true
  lens := fun _ n => n == 12
  body := bodyCalCoupling

/-- CAL_CONFIG (R383). -/
def opCalConfig : Op where
  opcode := 0x0704
  targets := devTarget
  lens := fun _ n => n == 3
  body := bodyCalConfig

/-- CAL_STATUS (R383). -/
def opCalStatus : Op where
  opcode := 0x0705
  targets := devTarget
  lens := fun _ n => n == 0
  body := bodyCalStatus

/-! ## Power: 0x08xx -/

/-- PWR_ENTER (R386). -/
def opPwrEnter : Op where
  opcode := 0x0800
  targets := devTarget
  gate := gatePwrEnter
  lens := fun _ n => n == 1
  body := bodyPwrEnter

/-- WAKE_CONFIG (R484). -/
def opWakeConfig : Op where
  opcode := 0x0801
  targets := devTarget
  lens := fun _ n => n == 14
  body := bodyWakeConfig

/-- EMBER_CONFIG (R489). -/
def opEmberConfig : Op where
  opcode := 0x0802
  targets := devTarget
  lens := fun _ n => n == 14
  body := bodyEmberConfig

/-- PWR_STATUS (R385). -/
def opPwrStatus : Op where
  opcode := 0x0803
  targets := devTarget
  lens := fun _ n => n == 0
  body := bodyPwrStatus

/-! ## Kiln: 0x09xx -/

/-- KEY_INFO (R597). -/
def opKeyInfo : Op where
  opcode := 0x0900
  targets := devTarget
  lens := fun _ n => n == 1
  body := bodyKeyInfo

/-- KEY_GEN (R597). -/
def opKeyGen : Op where
  opcode := 0x0901
  targets := devTarget
  lens := fun _ n => n == 4
  body := bodyKeyGen

/-- KEY_IMPORT (R512). -/
def opKeyImport : Op where
  opcode := 0x0902
  targets := devTarget
  lens := fun _ n => 20 ≤ n && n ≤ 260
  body := bodyKeyImport

/-- KEY_EXPORT (R513). -/
def opKeyExport : Op where
  opcode := 0x0903
  targets := devTarget
  lens := fun _ n => n == 2
  body := bodyKeyExport

/-- KEY_DELETE (R509). -/
def opKeyDelete : Op where
  opcode := 0x0904
  targets := devTarget
  lens := fun _ n => n == 1
  body := bodyKeyDelete

/-- KILN_RANDOM (R516). -/
def opKilnRandom : Op where
  opcode := 0x0905
  targets := devTarget
  lens := fun _ n => n == 2
  body := bodyKilnRandom

/-- KILN_SIGN (R526). -/
def opKilnSign : Op where
  opcode := 0x0906
  targets := devTarget
  lens := fun _ n => n == 36
  body := bodyKilnSign

/-- KILN_CHALLENGE (R527). -/
def opKilnChallenge : Op where
  opcode := 0x0907
  targets := devTarget
  lens := fun _ n => n == 1
  body := bodyKilnChallenge

/-- DEBUG_UNLOCK (R528). -/
def opDebugUnlock : Op where
  opcode := 0x0908
  targets := devTarget
  lens := fun _ n => n == 68
  body := bodyDebugUnlock

/-! ## Service: 0x0Axx -/

/-- IMAGE_LOAD (R390). -/
def opImageLoad : Op where
  opcode := 0x0A00
  targets := devTarget
  bound := 2097152
  onSegment := fun c ofs s => s.loadBytes ofs c.payload
  kindling := true
  lens := fun _ n => 0 ≤ n && n ≤ 2097152
  body := bodyImageLoad

/-- IMAGE_INFO (R389). -/
def opImageInfo : Op where
  opcode := 0x0A01
  targets := devTarget
  anyHost := true
  kindling := true
  lens := fun _ n => n == 0
  body := bodyImageInfo

/-- IMAGE_ACTIVATE (R524). -/
def opImageActivate : Op where
  opcode := 0x0A02
  targets := devTarget
  kindling := true
  lens := fun _ n => n == 3
  body := bodyImageActivate

/-- ENGINE_RELOAD (R391). -/
def opEngineReload : Op where
  opcode := 0x0A03
  targets := portTargets ++ devTarget
  bound := 41220
  gate := gateReload
  pll := true
  lens := fun t n => (if t = 15 then 4 else 3) ≤ n && n ≤ 41220
  body := bodyEngineReload

/-- DIAG_COUNTERS (R392). -/
def opDiagCounters : Op where
  opcode := 0x0A04
  targets := portTargets
  served := true
  lens := fun _ n => n == 1
  body := bodyDiagCounters

/-- PORT_ISOLATE (R544). -/
def opPortIsolate : Op where
  opcode := 0x0A05
  targets := devTarget
  lens := fun _ n => n == 2
  body := bodyPortIsolate

/-! ## Timers and GPIO: 0x0Bxx -/

/-- TMR_CONFIG (R394, R471). -/
def opTmrConfig : Op where
  opcode := 0x0B00
  targets := portTargets ++ devTarget
  served := true
  lens := fun _ n => n == 12
  body := bodyTmrConfig

/-- TMR_ARM (R394, R471). -/
def opTmrArm : Op where
  opcode := 0x0B01
  targets := portTargets ++ devTarget
  served := true
  lens := fun _ n => n == 8
  body := bodyTmrArm

/-- TMR_READ (R394, R471). -/
def opTmrRead : Op where
  opcode := 0x0B02
  targets := portTargets ++ devTarget
  served := true
  lens := fun _ n => n == 1
  body := bodyTmrRead

/-- TIMEBASE_READ (R468). -/
def opTimebaseRead : Op where
  opcode := 0x0B03
  targets := devTarget
  anyHost := true
  kindling := true
  lens := fun _ n => n == 0
  body := bodyTimebaseRead

/-- GPIO_CONFIG (R559). -/
def opGpioConfig : Op where
  opcode := 0x0B10
  targets := devTarget
  lens := fun _ n => n == 4
  body := bodyGpioConfig

/-- GPIO_WRITE (R560). -/
def opGpioWrite : Op where
  opcode := 0x0B11
  targets := devTarget
  lens := fun _ n => n == 8
  body := bodyGpioWrite

/-- GPIO_READ (R560). -/
def opGpioRead : Op where
  opcode := 0x0B12
  targets := devTarget
  anyHost := true
  lens := fun _ n => n == 0
  body := bodyGpioRead

/-! ## Debug: 0x0Fxx -/

/-- DBG_READ (R396). -/
def opDbgRead : Op where
  opcode := 0x0F00
  targets := devTarget
  lens := fun _ n => n == 6
  body := bodyDbgRead

/-- DBG_WRITE (R396). -/
def opDbgWrite : Op where
  opcode := 0x0F01
  targets := devTarget
  lens := fun _ n => 12 ≤ n && n ≤ 4092 && (n - 0) % 4 == 0
  body := bodyDbgWrite

/-- DBG_ENGINE (R396). -/
def opDbgEngine : Op where
  opcode := 0x0F02
  targets := portTargets
  served := true
  lens := fun _ n => n == 1
  body := bodyDbgEngine

/-! ## The command reference (R344) -/

/-- Group 0x00xx. -/
def ops00 : List Op :=
  [opInfo, opIdent, opDevReset, opGetLog, opHostConfig, opHostStatus, opOwnClaim, opOwnRelease, opOwnQuery,
   opKindlingScan]

/-- Group 0x01xx. -/
def ops01 : List Op :=
  [opPortOpen, opPortClose, opPortSet, opFieldOn, opFieldOff, opGrateSelect, opPortReset, opPortGet,
   opPortStatus, opGroupSet, opGroupQuery]

/-- Group 0x02xx. -/
def ops02 : List Op :=
  [opTransceive, opAActivate, opBActivate, opApdu, opDeselect, opVhbrParams, opVCmd]

/-- Group 0x03xx. -/
def ops03 : List Op :=
  [opInvConfig, opInvStart, opInvStop, opInvQuery, opTtRead, opTtFind, opTtDelete, opTtClear, opTtSetFlags,
   opTtConfig]

/-- Group 0x04xx. -/
def ops04 : List Op :=
  [opAlScan, opAlSelect, opAlHalt, opAlRead, opAlWrite, opAlLockBlock, opAlAreaInfo, opAlAuthPwd, opAlSetPwd,
   opAlUnlock, opAlReadCnt, opAlIncCnt, opOsGetId, opOsReadPage, opOsWritePage, opOsLogin, opOsLogout,
   opOsSetPassword, opOsLockPage]

/-- Group 0x05xx. -/
def ops05 : List Op :=
  [opDbRun, opDbCal, opDbConfig]

/-- Group 0x06xx. -/
def ops06 : List Op :=
  [opXpdrConfig, opXpdrAreaSet, opXpdrRead, opXpdrWrite, opXpdrCntRead, opXpdrCntInc, opXpdrAreaInfo,
   opXpdrUnlock, opXpdrStatus]

/-- Group 0x07xx. -/
def ops07 : List Op :=
  [opCalRun, opCalExport, opCalImport, opCalCoupling, opCalConfig, opCalStatus]

/-- Group 0x08xx. -/
def ops08 : List Op :=
  [opPwrEnter, opWakeConfig, opEmberConfig, opPwrStatus]

/-- Group 0x09xx. -/
def ops09 : List Op :=
  [opKeyInfo, opKeyGen, opKeyImport, opKeyExport, opKeyDelete, opKilnRandom, opKilnSign, opKilnChallenge,
   opDebugUnlock]

/-- Group 0x0Axx. -/
def ops0A : List Op :=
  [opImageLoad, opImageInfo, opImageActivate, opEngineReload, opDiagCounters, opPortIsolate]

/-- Group 0x0Bxx. -/
def ops0B : List Op :=
  [opTmrConfig, opTmrArm, opTmrRead, opTimebaseRead, opGpioConfig, opGpioWrite, opGpioRead]

/-- Group 0x0Fxx. -/
def ops0F : List Op :=
  [opDbgRead, opDbgWrite, opDbgEngine]

/-- Every opcode of the reference. -/
def allOps : List Op :=
  ops00 ++ ops01 ++ ops02 ++ ops03 ++ ops04 ++ ops05 ++ ops06 ++ ops07 ++ ops08 ++ ops09 ++ ops0A ++ ops0B ++ ops0F

/-- The row of an opcode. -/
def opOf (opcode : Half) : Option Op := allOps.find? fun o => o.opcode == opcode.toNat

end Sys2Proof.Machine
end

