-- ==== Sys2Proof/Machine/Transport.lean ====
section
/-! DEFINITION. The four interfaces: receivers, outbound streams and the transfers of SPI, UART and I2C (R309-R319,
R323, R329, R331, R340, R601). -/

namespace Sys2Proof.Machine

/-! ## The receiver (R319, R601) -/

/-- Bytes of the inbound mailbox. -/
def mailboxSize : Nat := 8192

/-- The inbound mailbox is full. -/
def HostPort.inFull (h : HostPort) : Bool := mailboxSize ≤ h.inUse

/-- The receiver hunts for SYNC. -/
def HostPort.hunting (h : HostPort) : Bool := h.part.isEmpty && !h.refused

/-- The receiver hunts again, the packet it held discarded. -/
def HostPort.hunt (h : HostPort) : HostPort := { h with part := [], refused := false, count := 0 }

/-- A partial packet discarded at a boundary of its interface; it counts in TRUNC. -/
def HostPort.boundary (h : HostPort) : HostPort := if h.hunting then h else h.hunt.count1 HPERR.TRUNC

/-- The length of the packet in progress, once its LEN is known. -/
def HostPort.wants (h : HostPort) : Option Nat := if 4 ≤ h.part.length then some (10 + leAt h.part 2 2) else none

/-- A byte that finds the mailbox full, or that follows one (R601). -/
def HostPort.refuse (h : HostPort) : HostPort :=
  let h := if h.inFull then h.count1 HPERR.OVERRUN else h
  let h := { h with refused := true, count := h.count + 1 }
  if h.wants = some h.count then h.hunt.count1 HPERR.TRUNC else h

/-- One byte received. The list holds bytes that the receiver takes again: after a framing error, and on HP2 after a
packet whose CRC fails, every byte after that packet's SYNC (R319, R320). -/
def HostPort.feed1 (uart : Bool) (h : HostPort) (b : Byte) : HostPort × List Byte :=
  if h.hunting && b != 0x5C then (h.count1 HPERR.JUNK, [])
  else if h.refused || h.inFull then (h.refuse, [])
  else
    let p := h.part ++ [b]
    let h := { h with part := p, count := h.count + 1 }
    if p.length = 8 ∧ 4092 < leAt p 2 2 then (h.hunt.count1 HPERR.TRUNC, p.drop 1)
    else if 8 ≤ p.length ∧ p.length = 10 + leAt p 2 2 then
      let h := { h.hunt with landed := h.landed ++ [p] }
      (h, if uart && !CrcKind.crcO.ok p then p.drop 1 else [])
    else (h, [])

/-- Bytes received in order; the first number bounds the bytes taken, those taken again among them. -/
def HostPort.feed (uart : Bool) : Nat → List Byte → HostPort → HostPort
  | 0, _, h => h
  | _, [], h => h
  | n + 1, b :: r, h =>
    let (h, again) := h.feed1 uart b
    HostPort.feed uart n (again ++ r) h

/-- Bytes received by a host port (R319). -/
def HostPort.receive (uart : Bool) (h : HostPort) (l : List Byte) : HostPort :=
  let n := h.part.length + l.length
  HostPort.feed uart ((n + 1) * (n + 1)) l h

/-- Bytes written to an SPI port that wakes: each counts in OVERRUN and makes its packet incomplete (R312, R340). -/
def HostPort.lose (h : HostPort) : List Byte → HostPort
  | [] => h
  | b :: r =>
    let h := if h.hunting && b != 0x5C then h.count1 HPERR.JUNK
      else
        let h := { h.count1 HPERR.OVERRUN with refused := true, count := h.count + 1 }
        if h.wants = some h.count then h.hunt.count1 HPERR.TRUNC else h
    h.lose r

/-! ## The outbound stream (R310, R313, R323, R331) -/

/-- The answered command on a target that was taken first is no longer outstanding. -/
def HostPort.closeOpen (h : HostPort) (t : Byte) : HostPort :=
  { h with open_ := dropFirst (fun o => o.target == t && o.answered) h.open_ }

/-- EVT_LOST in the slot that became free (R331). -/
def HostPort.tellLost (h : HostPort) : HostPort :=
  if h.lost = 0 then h
  else
    ({ h with lost := 0 }).postEvent 0x0F 0x0002
      (leBytes 2 h.lost ++ leBytes 2 h.lostFirst.toNat ++ leBytes 2 h.lostLast.toNat) false

/-- The host has taken the last byte of the stream's first packet (R311, R313, R323, R331). -/
def HostPort.takePacket (h : HostPort) : HostPort :=
  match h.out with
  | [] => h
  | p :: r =>
    let h := { h with out := r, taken := 0, rst := false, baud := p.baud.getD h.baud }
    let h := if p.isFinal then h.closeOpen p.target else h
    if p.isEvent then h.tellLost else h

/-- Bytes taken from the stream; a byte clocked when none is available takes nothing (R310). -/
def HostPort.takeBytes : Nat → HostPort → HostPort
  | 0, h => h
  | n + 1, h =>
    match h.out with
    | [] => h
    | p :: _ =>
      let h := { h with taken := h.taken + 1 }
      HostPort.takeBytes n (if p.bytes.length ≤ h.taken then h.takePacket else h)

/-- The next packet of a longer response, or of one behind it, added to the stream (R329). -/
def HostPort.nextPacket (h : HostPort) : HostPort :=
  match h.more with
  | p :: r => { h with out := h.out ++ [p.pend false], more := r }
  | [] => h

/-! ## Rows -/

/-- The host port of an SPI port. -/
def spiNum : SpiPort → HostNum
  | .hp0 => 0 | .hp1 => 1

/-- A change of an SPI port. -/
def State.spi (s : State) (hp : SpiPort) (f : HostPort → HostPort) : State :=
  if s.dev.inReset then s else s.modHost (spiNum hp) f

/-- SPI_CS_FALL (R309): a transaction begins. -/
def execSpiCsFall (hp : SpiPort) : State → Host.Outcome State Fault Refusal := run fun s =>
  s.spi hp fun h => if h.spi = .idle then { h with spi := .first } else h

/-- SPI_WRITE (R309, R312): the transfer byte 0x02 when it comes first, then bytes of the inbound stream. -/
def execSpiWrite (hp : SpiPort) (bytes : List Byte) : State → Host.Outcome State Fault Refusal := run fun s =>
  s.spi hp fun h =>
    if h.spi = .first ∨ h.spi = .write then
      let h := { h with spi := .write }
      if h.awake then h.receive false bytes else h.lose bytes
    else h

/-- SPI_READ (R310): the transfer byte 0x03 when it comes first, then bytes of the outbound stream. -/
def execSpiRead (hp : SpiPort) (count : Nat) : State → Host.Outcome State Fault Refusal := run fun s =>
  s.spi hp fun h =>
    if h.spi = .first ∨ h.spi = .read then
      let h := { h with spi := .read }
      if h.awake then h.takeBytes count else h
    else h

/-- SPI_STATUS (R311): the transfer byte 0x05; what follows is ignored. -/
def execSpiStatus (hp : SpiPort) : State → Host.Outcome State Fault Refusal := run fun s =>
  s.spi hp fun h => if h.spi = .first then { h with spi := .ignored } else h

/-- SPI_INVALID_TRANSFER (R309): each byte after the transfer byte counts in JUNK. -/
def execSpiInvalidTransfer (hp : SpiPort) (transfer : Byte) (count : Nat) : State → Host.Outcome State Fault Refusal :=
  run fun s =>
    s.spi hp fun h =>
      if h.spi = .first ∧ transfer ≠ 2 ∧ transfer ≠ 3 ∧ transfer ≠ 5 then
        { h.count1 HPERR.JUNK count with spi := .ignored }
      else h

/-- SPI_CS_RISE (R312). -/
def execSpiCsRise (hp : SpiPort) : State → Host.Outcome State Fault Refusal := run fun s =>
  s.spi hp fun h => { h.boundary with spi := .idle }

/-- UART_BYTE_RECEIVED (R314, R319, R340): while H2_RTS_N is high for want of the crystal, the byte is junk. -/
def execUartByteReceived (b : Byte) : State → Host.Outcome State Fault Refusal := run fun s =>
  if s.dev.inReset then s
  else s.modHost 2 fun h =>
    if h.awake && s.pcrGet CLKCTL.XTAL_OK == 1 then h.receive true [b] else h.count1 HPERR.JUNK

/-- UART_GAP_TIMEOUT (R315). -/
def execUartGapTimeout : State → Host.Outcome State Fault Refusal := run fun s =>
  if s.dev.inReset then s else s.modHost 2 HostPort.boundary

/-- UART_BREAK (R315). -/
def execUartBreak : State → Host.Outcome State Fault Refusal := run fun s =>
  if s.dev.inReset then s else s.modHost 2 HostPort.boundary

/-- UART_BYTE_SENT (R314, R317): a byte counts as taken when its stop bit has been sent. -/
def execUartByteSent : State → Host.Outcome State Fault Refusal := run fun s =>
  if s.hostRuns 2 then s.modHost 2 (HostPort.takeBytes 1) else s

/-- I2C_ADDRESS_MATCH (R316): a START or repeated START with the device's address. -/
def execI2cAddressMatch (isRead : Bool) : State → Host.Outcome State Fault Refusal := run fun s =>
  if s.hostRuns 3 then s.modHost 3 fun h => { h.boundary with i2c := some isRead, i2cFirst := true } else s

/-- I2C_WRITE_BYTE (R316). -/
def execI2cWriteByte (b : Byte) : State → Host.Outcome State Fault Refusal := run fun s =>
  if s.hostRuns 3 && (s.host 3).i2c == some false then s.modHost 3 fun h => h.receive false [b] else s

/-- I2C_READ_BYTE (R316): the first byte of a read transfer is the status byte. -/
def execI2cReadByte : State → Host.Outcome State Fault Refusal := run fun s =>
  if s.hostRuns 3 && (s.host 3).i2c == some true then
    s.modHost 3 fun h => if h.i2cFirst then { h with i2cFirst := false } else h.takeBytes 1
  else s

/-- I2C_STOP (R316). -/
def execI2cStop : State → Host.Outcome State Fault Refusal := run fun s =>
  if s.hostRuns 3 then s.modHost 3 fun h => { h.boundary with i2c := none } else s

/-- HOST_TAKES_PACKET (R323): the rest of the stream's first packet is taken. -/
def execHostTakesPacket (hp : HostNum) : State → Host.Outcome State Fault Refusal := run fun s =>
  if s.hostRuns hp then s.modHost hp HostPort.takePacket else s

/-- RESPONSE_NEXT_PACKET (R329). -/
def execResponseNextPacket (hp : HostNum) : State → Host.Outcome State Fault Refusal := run fun s =>
  if s.hostRuns hp then s.modHost hp HostPort.nextPacket else s

/-- CHAIN_EXPIRY (R327, R390): the chain is discarded; its next segment gets TIMEOUT. -/
def execChainExpiry (hp : HostNum) (target : Byte) : State → Host.Outcome State Fault Refusal := run fun s =>
  match (s.host hp).chainOf target with
  | some ch =>
    if ch.expired then s
    else (s.putChain hp { ch with data := [], expired := true }).chainLost ch.opcode
  | none => s

end Sys2Proof.Machine
end

