-- ==== Sys2Proof/Machine/Commands.lean ====
section
/-! DEFINITION. The host commands' rows: the packets that landed are decided, then the row's own (R321, R322, R326,
R327, R337); the PLL's lock and the end of a Kiln operation, on which commands wait (R480, R485, R514). -/

namespace Sys2Proof.Machine

/-! ## The packets of a tick (R320, R321, R337) -/

/-- The command in a packet's bytes (R303). -/
def cmdOf (hp : HostNum) (raw : List Byte) : Cmd :=
  { hp, seq := raw.getD 4 0, flags := raw.getD 1 0, target := raw.getD 5 0, opcode := BitVec.ofNat 16 (leAt raw 6 2),
    payload := (raw.take (raw.length - 2)).drop 8, raw }

/-- A packet whose CRC fails: counted, answered with BAD_CRC, nothing executed (R320). -/
def State.badCrc (s : State) (c : Cmd) : State :=
  let s := s.modHost c.hp fun h => h.count1 HPERR.CRC
  { s with raised := s.raised ++ [OutItem.response c.hp [respPkt c St.BAD_CRC [] 0 false none]] }

/-- One packet of a tick. -/
def decideRaw (x : Contest × State) (c : Cmd) : Contest × State :=
  if CrcKind.crcO.ok c.raw then x.2.decideCmd x.1 (opOf c.opcode) c else (x.1, x.2.badCrc c)

/-- The packets that wait at the host ports whose DEV_READY has been queued (R333). -/
def State.landedCmds (s : State) : List Cmd :=
  if s.dev.inReset then []
  else allHosts.flatMap fun hp =>
    if (s.host hp).ready && (s.host hp).awake then (s.host hp).landed.map (cmdOf hp) else []

/-- Whether a packet is a claim or a release. -/
def isClaimCmd (c : Cmd) : Bool := CrcKind.crcO.ok c.raw && isClaim c.opcode.toNat

/-- Every packet that landed, decided: claims and releases first, then the others, in ascending host-port order. -/
def State.decideLanded (s : State) : State :=
  let l := s.landedCmds
  let s := l.foldl (fun (t : State) c => t.modHost c.hp fun h => { h with landed := [] }) s
  ((l.filter isClaimCmd ++ l.filter fun c => !isClaimCmd c).foldl decideRaw (⟨[], none⟩, s)).2

/-- TICK_DECIDE (R321). -/
def execTickDecide : State → Host.Outcome State Fault Refusal := run State.decideLanded

/-- CHAIN_SEGMENT (R326): a packet with MORE set. -/
def execChainSegment (h : HostCmd) (opcode : Half) : State → Host.Outcome State Fault Refusal :=
  run fun s => s.decideLanded.hostPacket (opOf opcode) opcode { h with flags := h.flags ||| 1 }

/-- CHAIN_ABORT (R327): a packet with ABORT set. -/
def execChainAbort (h : HostCmd) (opcode : Half) : State → Host.Outcome State Fault Refusal :=
  run fun s => s.decideLanded.hostPacket (opOf opcode) opcode { h with flags := h.flags ||| 2 }

/-! ## Commands that wait for the PLL (R480, R485) -/

/-- The device leaves DOZE, or tells of the wake that is over; a wake by a command raises no event. -/
def State.afterLock (s : State) : State :=
  match s.dev.wokeAt with
  | some causes =>
    ((s.pcrSet CLKCTL.HSRC 1).modDev fun d => { d with wokeAt := none }).raiseDev 0x0880 (leBytes 2 causes)
  | none =>
    if s.dev.full then (s.modDev fun d => { d with power := if d.power = .doze then .run else d.power }).pcrSet CLKCTL.HSRC 1
    else s

/-- A command that waited for the PLL runs. -/
def State.runLocked (s : State) (r : Running) : State :=
  match opOf r.cmd.opcode with
  | some o => o.body r.cmd s
  | none => s

/-- Whether a command waits for the PLL. -/
def isLock (r : Running) : Bool := r.job == .lock

/-- PLL_LOCK (R29, R480, R485). -/
def execPllLock : State → Host.Outcome State Fault Refusal := run fun s =>
  if s.pcrGet CLKCTL.PLL_EN = 0 ∨ s.pcrGet CLKCTL.XTAL_OK = 0 ∨ s.pllLocked then s
  else
    let s := (s.pcrSet CLKCTL.PLL_LOCK 1).afterLock
    let l := s.running.filter isLock
    l.foldl State.runLocked { s with running := s.running.filter fun r => !isLock r }

/-! ## The end of a Kiln operation (R514) -/

/-- A command that needs random bytes (R517). -/
def needsRandom (opcode : Nat) : Bool :=
  [0x0901, 0x0903, 0x0905, 0x0907, 0x0500, 0x0501].contains opcode

/-- A Kiln operation that may end: one that needs random bytes waits for the TRNG's test (R517). -/
def State.kilnEnds (s : State) (r : Running) : Bool :=
  r.job == .kiln && !(needsRandom r.cmd.opcode.toNat && (s.kilnGet KWSTAT.TRNG == 0 || s.kilnGet KWSTAT.TRNG == 2))

/-- The result of an operation, by its command. -/
def State.kilnDone (s : State) (c : Cmd) : State :=
  if s.kilnGet KWSTAT.STATE = 2 ∨ (needsRandom c.opcode.toNat ∧ s.kilnGet KWSTAT.TRNG = 3) then
    s.respond c St.INTERNAL_ERROR
  else if c.target = 8 then s.hostTDone c
  else match c.opcode.toNat with
    | 0x0004 => s.getLog c
    | 0x0901 => s.keyGenDone c
    | 0x0902 => s.keyImportDone c
    | 0x0903 => s.keyExport c
    | 0x0904 => s.keyDeleteDone c
    | 0x0905 => bodyKilnRandom c s
    | 0x0906 => s.kilnSignDone c
    | 0x0907 => bodyKilnChallenge c s
    | 0x0908 => s.debugUnlockDone c
    | 0x0A00 => s.imageLoadDone c
    | 0x0A02 => s.imageActivateDone c
    | 0x0500 => bodyDbRun c s
    | 0x0501 => bodyDbCal c s
    | _ => s

/-- KILN_OPERATION_DONE (R514). During its self-test and in harvest mode Kiln ends no operation of a host. -/
def execKilnOperationDone : State → Host.Outcome State Fault Refusal := run fun s =>
  if s.kilnGet KWSTAT.STATE = 0 ∨ s.kilnGet KWSTAT.HARVEST = 1 then s
  else match s.findJob s.kilnEnds with
    | some r => { s with running := dropFirst s.kilnEnds s.running }.kilnDone r.cmd
    | none => s

/-! ## Rows of 0x00xx -/

/-- INFO (R351). -/
def execInfo (h : HostCmd) : State → Host.Outcome State Fault Refusal := run fun s => s.decideLanded.hostRow opInfo h

/-- IDENT (R351, R525). -/
def execIdent (h : HostCmd) : State → Host.Outcome State Fault Refusal := run fun s => s.decideLanded.hostRow opIdent h

/-- DEV_RESET (R352). -/
def execDevReset (h : HostCmd) : State → Host.Outcome State Fault Refusal :=
  run fun s => s.decideLanded.hostRow opDevReset h

/-- GET_LOG (R353). -/
def execGetLog (h : HostCmd) : State → Host.Outcome State Fault Refusal :=
  run fun s => s.decideLanded.hostRow opGetLog h

/-- HOST_CONFIG (R354). -/
def execHostConfig (h : HostCmd) : State → Host.Outcome State Fault Refusal :=
  run fun s => s.decideLanded.hostRow opHostConfig h

/-- HOST_STATUS (R339). -/
def execHostStatus (h : HostCmd) : State → Host.Outcome State Fault Refusal :=
  run fun s => s.decideLanded.hostRow opHostStatus h

/-- OWN_CLAIM (R335). -/
def execOwnClaim (h : HostCmd) : State → Host.Outcome State Fault Refusal :=
  run fun s => s.decideLanded.hostRow opOwnClaim h

/-- OWN_RELEASE (R335). -/
def execOwnRelease (h : HostCmd) : State → Host.Outcome State Fault Refusal :=
  run fun s => s.decideLanded.hostRow opOwnRelease h

/-- OWN_QUERY (R351). -/
def execOwnQuery (h : HostCmd) : State → Host.Outcome State Fault Refusal :=
  run fun s => s.decideLanded.hostRow opOwnQuery h

/-- KINDLING_SCAN (R348, R500). -/
def execKindlingScan (h : HostCmd) : State → Host.Outcome State Fault Refusal :=
  run fun s => s.decideLanded.hostRow opKindlingScan h

/-! ## Rows of 0x01xx -/

/-- PORT_OPEN (R356). -/
def execPortOpen (h : HostCmd) : State → Host.Outcome State Fault Refusal :=
  run fun s => s.decideLanded.hostRow opPortOpen h

/-- PORT_CLOSE (R356). -/
def execPortClose (h : HostCmd) : State → Host.Outcome State Fault Refusal :=
  run fun s => s.decideLanded.hostRow opPortClose h

/-- PORT_SET (R357). -/
def execPortSet (h : HostCmd) : State → Host.Outcome State Fault Refusal :=
  run fun s => s.decideLanded.hostRow opPortSet h

/-- FIELD_ON (R358). -/
def execFieldOn (h : HostCmd) : State → Host.Outcome State Fault Refusal :=
  run fun s => s.decideLanded.hostRow opFieldOn h

/-- FIELD_OFF (R358). -/
def execFieldOff (h : HostCmd) : State → Host.Outcome State Fault Refusal :=
  run fun s => s.decideLanded.hostRow opFieldOff h

/-- GRATE_SELECT (R359). -/
def execGrateSelect (h : HostCmd) : State → Host.Outcome State Fault Refusal :=
  run fun s => s.decideLanded.hostRow opGrateSelect h

/-- PORT_RESET (R360). -/
def execPortReset (h : HostCmd) : State → Host.Outcome State Fault Refusal :=
  run fun s => s.decideLanded.hostRow opPortReset h

/-- PORT_GET (R361). -/
def execPortGet (h : HostCmd) : State → Host.Outcome State Fault Refusal :=
  run fun s => s.decideLanded.hostRow opPortGet h

/-- PORT_STATUS (R355). -/
def execPortStatus (h : HostCmd) : State → Host.Outcome State Fault Refusal :=
  run fun s => s.decideLanded.hostRow opPortStatus h

/-- GROUP_SET (R361). -/
def execGroupSet (h : HostCmd) : State → Host.Outcome State Fault Refusal :=
  run fun s => s.decideLanded.hostRow opGroupSet h

/-- GROUP_QUERY (R355). -/
def execGroupQuery (h : HostCmd) : State → Host.Outcome State Fault Refusal :=
  run fun s => s.decideLanded.hostRow opGroupQuery h

/-! ## Rows of 0x02xx -/

/-- TRANSCEIVE (R363). -/
def execTransceive (h : HostCmd) : State → Host.Outcome State Fault Refusal :=
  run fun s => s.decideLanded.hostRow opTransceive h

/-- A_ACTIVATE (R364). -/
def execAActivate (h : HostCmd) : State → Host.Outcome State Fault Refusal :=
  run fun s => s.decideLanded.hostRow opAActivate h

/-- B_ACTIVATE (R364). -/
def execBActivate (h : HostCmd) : State → Host.Outcome State Fault Refusal :=
  run fun s => s.decideLanded.hostRow opBActivate h

/-- APDU (R364). -/
def execApdu (h : HostCmd) : State → Host.Outcome State Fault Refusal := run fun s => s.decideLanded.hostRow opApdu h

/-- DESELECT (R364). -/
def execDeselect (h : HostCmd) : State → Host.Outcome State Fault Refusal :=
  run fun s => s.decideLanded.hostRow opDeselect h

/-- VHBR_PARAMS (R362). -/
def execVhbrParams (h : HostCmd) : State → Host.Outcome State Fault Refusal :=
  run fun s => s.decideLanded.hostRow opVhbrParams h

/-- V_CMD (R365). -/
def execVCmd (h : HostCmd) : State → Host.Outcome State Fault Refusal := run fun s => s.decideLanded.hostRow opVCmd h

/-! ## Rows of 0x03xx -/

/-- INV_CONFIG (R367). -/
def execInvConfig (h : HostCmd) : State → Host.Outcome State Fault Refusal :=
  run fun s => s.decideLanded.hostRow opInvConfig h

/-- INV_START (R175). -/
def execInvStart (h : HostCmd) : State → Host.Outcome State Fault Refusal :=
  run fun s => s.decideLanded.hostRow opInvStart h

/-- INV_STOP (R368). -/
def execInvStop (h : HostCmd) : State → Host.Outcome State Fault Refusal :=
  run fun s => s.decideLanded.hostRow opInvStop h

/-- INV_QUERY (R366). -/
def execInvQuery (h : HostCmd) : State → Host.Outcome State Fault Refusal :=
  run fun s => s.decideLanded.hostRow opInvQuery h

/-- TT_READ (R369). -/
def execTtRead (h : HostCmd) : State → Host.Outcome State Fault Refusal :=
  run fun s => s.decideLanded.hostRow opTtRead h

/-- TT_FIND (R197). -/
def execTtFind (h : HostCmd) : State → Host.Outcome State Fault Refusal :=
  run fun s => s.decideLanded.hostRow opTtFind h

/-- TT_DELETE (R202). -/
def execTtDelete (h : HostCmd) : State → Host.Outcome State Fault Refusal :=
  run fun s => s.decideLanded.hostRow opTtDelete h

/-- TT_CLEAR (R370). -/
def execTtClear (h : HostCmd) : State → Host.Outcome State Fault Refusal :=
  run fun s => s.decideLanded.hostRow opTtClear h

/-- TT_SET_FLAGS (R370). -/
def execTtSetFlags (h : HostCmd) : State → Host.Outcome State Fault Refusal :=
  run fun s => s.decideLanded.hostRow opTtSetFlags h

/-- TT_CONFIG (R366). -/
def execTtConfig (h : HostCmd) : State → Host.Outcome State Fault Refusal :=
  run fun s => s.decideLanded.hostRow opTtConfig h

/-! ## Rows of 0x04xx -/

/-- AL_SCAN (R371, R374). -/
def execAlScan (h : HostCmd) : State → Host.Outcome State Fault Refusal :=
  run fun s => s.decideLanded.hostRow opAlScan h

/-- AL_SELECT (R372). -/
def execAlSelect (h : HostCmd) : State → Host.Outcome State Fault Refusal :=
  run fun s => s.decideLanded.hostRow opAlSelect h

/-- AL_HALT (R152). -/
def execAlHalt (h : HostCmd) : State → Host.Outcome State Fault Refusal :=
  run fun s => s.decideLanded.hostRow opAlHalt h

/-- AL_READ (R156). -/
def execAlRead (h : HostCmd) : State → Host.Outcome State Fault Refusal :=
  run fun s => s.decideLanded.hostRow opAlRead h

/-- AL_WRITE (R156). -/
def execAlWrite (h : HostCmd) : State → Host.Outcome State Fault Refusal :=
  run fun s => s.decideLanded.hostRow opAlWrite h

/-- AL_LOCK_BLOCK (R156). -/
def execAlLockBlock (h : HostCmd) : State → Host.Outcome State Fault Refusal :=
  run fun s => s.decideLanded.hostRow opAlLockBlock h

/-- AL_AREA_INFO (R155). -/
def execAlAreaInfo (h : HostCmd) : State → Host.Outcome State Fault Refusal :=
  run fun s => s.decideLanded.hostRow opAlAreaInfo h

/-- AL_AUTH_PWD (R157). -/
def execAlAuthPwd (h : HostCmd) : State → Host.Outcome State Fault Refusal :=
  run fun s => s.decideLanded.hostRow opAlAuthPwd h

/-- AL_SET_PWD (R158). -/
def execAlSetPwd (h : HostCmd) : State → Host.Outcome State Fault Refusal :=
  run fun s => s.decideLanded.hostRow opAlSetPwd h

/-- AL_UNLOCK (R375). -/
def execAlUnlock (h : HostCmd) : State → Host.Outcome State Fault Refusal :=
  run fun s => s.decideLanded.hostRow opAlUnlock h

/-- AL_READ_CNT (R161). -/
def execAlReadCnt (h : HostCmd) : State → Host.Outcome State Fault Refusal :=
  run fun s => s.decideLanded.hostRow opAlReadCnt h

/-- AL_INC_CNT (R161). -/
def execAlIncCnt (h : HostCmd) : State → Host.Outcome State Fault Refusal :=
  run fun s => s.decideLanded.hostRow opAlIncCnt h

/-- OS_GET_ID (R168). -/
def execOsGetId (h : HostCmd) : State → Host.Outcome State Fault Refusal :=
  run fun s => s.decideLanded.hostRow opOsGetId h

/-- OS_READ_PAGE (R168). -/
def execOsReadPage (h : HostCmd) : State → Host.Outcome State Fault Refusal :=
  run fun s => s.decideLanded.hostRow opOsReadPage h

/-- OS_WRITE_PAGE (R168). -/
def execOsWritePage (h : HostCmd) : State → Host.Outcome State Fault Refusal :=
  run fun s => s.decideLanded.hostRow opOsWritePage h

/-- OS_LOGIN (R170). -/
def execOsLogin (h : HostCmd) : State → Host.Outcome State Fault Refusal :=
  run fun s => s.decideLanded.hostRow opOsLogin h

/-- OS_LOGOUT (R168). -/
def execOsLogout (h : HostCmd) : State → Host.Outcome State Fault Refusal :=
  run fun s => s.decideLanded.hostRow opOsLogout h

/-- OS_SET_PASSWORD (R168). -/
def execOsSetPassword (h : HostCmd) : State → Host.Outcome State Fault Refusal :=
  run fun s => s.decideLanded.hostRow opOsSetPassword h

/-- OS_LOCK_PAGE (R168). -/
def execOsLockPage (h : HostCmd) : State → Host.Outcome State Fault Refusal :=
  run fun s => s.decideLanded.hostRow opOsLockPage h

/-! ## Rows of 0x05xx -/

/-- DB_RUN (R246). -/
def execDbRun (h : HostCmd) : State → Host.Outcome State Fault Refusal := run fun s => s.decideLanded.hostRow opDbRun h

/-- DB_CAL (R237). -/
def execDbCal (h : HostCmd) : State → Host.Outcome State Fault Refusal := run fun s => s.decideLanded.hostRow opDbCal h

/-- DB_CONFIG (R378). -/
def execDbConfig (h : HostCmd) : State → Host.Outcome State Fault Refusal :=
  run fun s => s.decideLanded.hostRow opDbConfig h

/-! ## Rows of 0x06xx -/

/-- XPDR_CONFIG (R380). -/
def execXpdrConfig (h : HostCmd) : State → Host.Outcome State Fault Refusal :=
  run fun s => s.decideLanded.hostRow opXpdrConfig h

/-- XPDR_AREA_SET (R259). -/
def execXpdrAreaSet (h : HostCmd) : State → Host.Outcome State Fault Refusal :=
  run fun s => s.decideLanded.hostRow opXpdrAreaSet h

/-- XPDR_READ (R266). -/
def execXpdrRead (h : HostCmd) : State → Host.Outcome State Fault Refusal :=
  run fun s => s.decideLanded.hostRow opXpdrRead h

/-- XPDR_WRITE (R381). -/
def execXpdrWrite (h : HostCmd) : State → Host.Outcome State Fault Refusal :=
  run fun s => s.decideLanded.hostRow opXpdrWrite h

/-- XPDR_CNT_READ (R266). -/
def execXpdrCntRead (h : HostCmd) : State → Host.Outcome State Fault Refusal :=
  run fun s => s.decideLanded.hostRow opXpdrCntRead h

/-- XPDR_CNT_INC (R261). -/
def execXpdrCntInc (h : HostCmd) : State → Host.Outcome State Fault Refusal :=
  run fun s => s.decideLanded.hostRow opXpdrCntInc h

/-- XPDR_AREA_INFO (R379). -/
def execXpdrAreaInfo (h : HostCmd) : State → Host.Outcome State Fault Refusal :=
  run fun s => s.decideLanded.hostRow opXpdrAreaInfo h

/-- XPDR_UNLOCK (R382). -/
def execXpdrUnlock (h : HostCmd) : State → Host.Outcome State Fault Refusal :=
  run fun s => s.decideLanded.hostRow opXpdrUnlock h

/-- XPDR_STATUS (R379). -/
def execXpdrStatus (h : HostCmd) : State → Host.Outcome State Fault Refusal :=
  run fun s => s.decideLanded.hostRow opXpdrStatus h

/-! ## Rows of 0x07xx -/

/-- CAL_RUN (R292, R293). -/
def execCalRun (h : HostCmd) : State → Host.Outcome State Fault Refusal :=
  run fun s => s.decideLanded.hostRow opCalRun h

/-- CAL_EXPORT (R298). -/
def execCalExport (h : HostCmd) : State → Host.Outcome State Fault Refusal :=
  run fun s => s.decideLanded.hostRow opCalExport h

/-- CAL_IMPORT (R301). -/
def execCalImport (h : HostCmd) : State → Host.Outcome State Fault Refusal :=
  run fun s => s.decideLanded.hostRow opCalImport h

/-- CAL_COUPLING (R214). -/
def execCalCoupling (h : HostCmd) : State → Host.Outcome State Fault Refusal :=
  run fun s => s.decideLanded.hostRow opCalCoupling h

/-- CAL_CONFIG (R383). -/
def execCalConfig (h : HostCmd) : State → Host.Outcome State Fault Refusal :=
  run fun s => s.decideLanded.hostRow opCalConfig h

/-- CAL_STATUS (R383). -/
def execCalStatus (h : HostCmd) : State → Host.Outcome State Fault Refusal :=
  run fun s => s.decideLanded.hostRow opCalStatus h

/-! ## Rows of 0x08xx -/

/-- PWR_ENTER (R386). -/
def execPwrEnter (h : HostCmd) : State → Host.Outcome State Fault Refusal :=
  run fun s => s.decideLanded.hostRow opPwrEnter h

/-- WAKE_CONFIG (R484). -/
def execWakeConfig (h : HostCmd) : State → Host.Outcome State Fault Refusal :=
  run fun s => s.decideLanded.hostRow opWakeConfig h

/-- EMBER_CONFIG (R489). -/
def execEmberConfig (h : HostCmd) : State → Host.Outcome State Fault Refusal :=
  run fun s => s.decideLanded.hostRow opEmberConfig h

/-- PWR_STATUS (R385). -/
def execPwrStatus (h : HostCmd) : State → Host.Outcome State Fault Refusal :=
  run fun s => s.decideLanded.hostRow opPwrStatus h

/-! ## Rows of 0x09xx -/

/-- KEY_INFO (R597). -/
def execKeyInfo (h : HostCmd) : State → Host.Outcome State Fault Refusal :=
  run fun s => s.decideLanded.hostRow opKeyInfo h

/-- KEY_GEN (R597). -/
def execKeyGen (h : HostCmd) : State → Host.Outcome State Fault Refusal :=
  run fun s => s.decideLanded.hostRow opKeyGen h

/-- KEY_IMPORT (R512). -/
def execKeyImport (h : HostCmd) : State → Host.Outcome State Fault Refusal :=
  run fun s => s.decideLanded.hostRow opKeyImport h

/-- KEY_EXPORT (R513). -/
def execKeyExport (h : HostCmd) : State → Host.Outcome State Fault Refusal :=
  run fun s => s.decideLanded.hostRow opKeyExport h

/-- KEY_DELETE (R509). -/
def execKeyDelete (h : HostCmd) : State → Host.Outcome State Fault Refusal :=
  run fun s => s.decideLanded.hostRow opKeyDelete h

/-- KILN_RANDOM (R516). -/
def execKilnRandom (h : HostCmd) : State → Host.Outcome State Fault Refusal :=
  run fun s => s.decideLanded.hostRow opKilnRandom h

/-- KILN_SIGN (R526). -/
def execKilnSign (h : HostCmd) : State → Host.Outcome State Fault Refusal :=
  run fun s => s.decideLanded.hostRow opKilnSign h

/-- KILN_CHALLENGE (R527). -/
def execKilnChallenge (h : HostCmd) : State → Host.Outcome State Fault Refusal :=
  run fun s => s.decideLanded.hostRow opKilnChallenge h

/-- DEBUG_UNLOCK (R528). -/
def execDebugUnlock (h : HostCmd) : State → Host.Outcome State Fault Refusal :=
  run fun s => s.decideLanded.hostRow opDebugUnlock h

/-! ## Rows of 0x0Axx -/

/-- IMAGE_LOAD (R390). -/
def execImageLoad (h : HostCmd) : State → Host.Outcome State Fault Refusal :=
  run fun s => s.decideLanded.hostRow opImageLoad h

/-- IMAGE_INFO (R389). -/
def execImageInfo (h : HostCmd) : State → Host.Outcome State Fault Refusal :=
  run fun s => s.decideLanded.hostRow opImageInfo h

/-- IMAGE_ACTIVATE (R524). -/
def execImageActivate (h : HostCmd) : State → Host.Outcome State Fault Refusal :=
  run fun s => s.decideLanded.hostRow opImageActivate h

/-- ENGINE_RELOAD (R391). -/
def execEngineReload (h : HostCmd) : State → Host.Outcome State Fault Refusal :=
  run fun s => s.decideLanded.hostRow opEngineReload h

/-- DIAG_COUNTERS (R392). -/
def execDiagCounters (h : HostCmd) : State → Host.Outcome State Fault Refusal :=
  run fun s => s.decideLanded.hostRow opDiagCounters h

/-- PORT_ISOLATE (R544). -/
def execPortIsolate (h : HostCmd) : State → Host.Outcome State Fault Refusal :=
  run fun s => s.decideLanded.hostRow opPortIsolate h

/-! ## Rows of 0x0Bxx -/

/-- TMR_CONFIG (R394, R471). -/
def execTmrConfig (h : HostCmd) : State → Host.Outcome State Fault Refusal :=
  run fun s => s.decideLanded.hostRow opTmrConfig h

/-- TMR_ARM (R394, R471). -/
def execTmrArm (h : HostCmd) : State → Host.Outcome State Fault Refusal :=
  run fun s => s.decideLanded.hostRow opTmrArm h

/-- TMR_READ (R394, R471). -/
def execTmrRead (h : HostCmd) : State → Host.Outcome State Fault Refusal :=
  run fun s => s.decideLanded.hostRow opTmrRead h

/-- TIMEBASE_READ (R468). -/
def execTimebaseRead (h : HostCmd) : State → Host.Outcome State Fault Refusal :=
  run fun s => s.decideLanded.hostRow opTimebaseRead h

/-- GPIO_CONFIG (R559). -/
def execGpioConfig (h : HostCmd) : State → Host.Outcome State Fault Refusal :=
  run fun s => s.decideLanded.hostRow opGpioConfig h

/-- GPIO_WRITE (R560). -/
def execGpioWrite (h : HostCmd) : State → Host.Outcome State Fault Refusal :=
  run fun s => s.decideLanded.hostRow opGpioWrite h

/-- GPIO_READ (R560). -/
def execGpioRead (h : HostCmd) : State → Host.Outcome State Fault Refusal :=
  run fun s => s.decideLanded.hostRow opGpioRead h

/-! ## Rows of 0x0Fxx -/

/-- DBG_READ (R396). -/
def execDbgRead (h : HostCmd) : State → Host.Outcome State Fault Refusal :=
  run fun s => s.decideLanded.hostRow opDbgRead h

/-- DBG_WRITE (R396). -/
def execDbgWrite (h : HostCmd) : State → Host.Outcome State Fault Refusal :=
  run fun s => s.decideLanded.hostRow opDbgWrite h

/-- DBG_ENGINE (R396). -/
def execDbgEngine (h : HostCmd) : State → Host.Outcome State Fault Refusal :=
  run fun s => s.decideLanded.hostRow opDbgEngine h

end Sys2Proof.Machine
end

