-- ==== Sys2Proof/Machine/Dispatch.lean ====
section
/-! DEFINITION. One arm per command of the table. -/

namespace Sys2Proof.Machine

def exec (i : Instr) (s : State) : Host.Outcome State Fault Refusal :=
  match i with
  | .info h => Sys2Proof.Machine.execInfo h s
  | .ident h => Sys2Proof.Machine.execIdent h s
  | .devReset h => Sys2Proof.Machine.execDevReset h s
  | .devResetFire => Sys2Proof.Machine.execDevResetFire s
  | .getLog h => Sys2Proof.Machine.execGetLog h s
  | .hostConfig h => Sys2Proof.Machine.execHostConfig h s
  | .hostStatus h => Sys2Proof.Machine.execHostStatus h s
  | .ownClaim h => Sys2Proof.Machine.execOwnClaim h s
  | .ownRelease h => Sys2Proof.Machine.execOwnRelease h s
  | .ownQuery h => Sys2Proof.Machine.execOwnQuery h s
  | .kindlingScan h => Sys2Proof.Machine.execKindlingScan h s
  | .portOpen h => Sys2Proof.Machine.execPortOpen h s
  | .portClose h => Sys2Proof.Machine.execPortClose h s
  | .portSet h => Sys2Proof.Machine.execPortSet h s
  | .fieldOn h => Sys2Proof.Machine.execFieldOn h s
  | .fieldOff h => Sys2Proof.Machine.execFieldOff h s
  | .grateSelect h => Sys2Proof.Machine.execGrateSelect h s
  | .portReset h => Sys2Proof.Machine.execPortReset h s
  | .portGet h => Sys2Proof.Machine.execPortGet h s
  | .portStatus h => Sys2Proof.Machine.execPortStatus h s
  | .groupSet h => Sys2Proof.Machine.execGroupSet h s
  | .groupQuery h => Sys2Proof.Machine.execGroupQuery h s
  | .transceive h => Sys2Proof.Machine.execTransceive h s
  | .aActivate h => Sys2Proof.Machine.execAActivate h s
  | .bActivate h => Sys2Proof.Machine.execBActivate h s
  | .apdu h => Sys2Proof.Machine.execApdu h s
  | .deselect h => Sys2Proof.Machine.execDeselect h s
  | .vhbrParams h => Sys2Proof.Machine.execVhbrParams h s
  | .vCmd h => Sys2Proof.Machine.execVCmd h s
  | .invConfig h => Sys2Proof.Machine.execInvConfig h s
  | .invStart h => Sys2Proof.Machine.execInvStart h s
  | .invStop h => Sys2Proof.Machine.execInvStop h s
  | .invQuery h => Sys2Proof.Machine.execInvQuery h s
  | .ttRead h => Sys2Proof.Machine.execTtRead h s
  | .ttFind h => Sys2Proof.Machine.execTtFind h s
  | .ttDelete h => Sys2Proof.Machine.execTtDelete h s
  | .ttClear h => Sys2Proof.Machine.execTtClear h s
  | .ttSetFlags h => Sys2Proof.Machine.execTtSetFlags h s
  | .ttConfig h => Sys2Proof.Machine.execTtConfig h s
  | .alScan h => Sys2Proof.Machine.execAlScan h s
  | .alSelect h => Sys2Proof.Machine.execAlSelect h s
  | .alHalt h => Sys2Proof.Machine.execAlHalt h s
  | .alRead h => Sys2Proof.Machine.execAlRead h s
  | .alWrite h => Sys2Proof.Machine.execAlWrite h s
  | .alLockBlock h => Sys2Proof.Machine.execAlLockBlock h s
  | .alAreaInfo h => Sys2Proof.Machine.execAlAreaInfo h s
  | .alAuthPwd h => Sys2Proof.Machine.execAlAuthPwd h s
  | .alSetPwd h => Sys2Proof.Machine.execAlSetPwd h s
  | .alUnlock h => Sys2Proof.Machine.execAlUnlock h s
  | .alReadCnt h => Sys2Proof.Machine.execAlReadCnt h s
  | .alIncCnt h => Sys2Proof.Machine.execAlIncCnt h s
  | .osGetId h => Sys2Proof.Machine.execOsGetId h s
  | .osReadPage h => Sys2Proof.Machine.execOsReadPage h s
  | .osWritePage h => Sys2Proof.Machine.execOsWritePage h s
  | .osLogin h => Sys2Proof.Machine.execOsLogin h s
  | .osLogout h => Sys2Proof.Machine.execOsLogout h s
  | .osSetPassword h => Sys2Proof.Machine.execOsSetPassword h s
  | .osLockPage h => Sys2Proof.Machine.execOsLockPage h s
  | .dbRun h => Sys2Proof.Machine.execDbRun h s
  | .dbCal h => Sys2Proof.Machine.execDbCal h s
  | .dbConfig h => Sys2Proof.Machine.execDbConfig h s
  | .xpdrConfig h => Sys2Proof.Machine.execXpdrConfig h s
  | .xpdrAreaSet h => Sys2Proof.Machine.execXpdrAreaSet h s
  | .xpdrRead h => Sys2Proof.Machine.execXpdrRead h s
  | .xpdrWrite h => Sys2Proof.Machine.execXpdrWrite h s
  | .xpdrCntRead h => Sys2Proof.Machine.execXpdrCntRead h s
  | .xpdrCntInc h => Sys2Proof.Machine.execXpdrCntInc h s
  | .xpdrAreaInfo h => Sys2Proof.Machine.execXpdrAreaInfo h s
  | .xpdrUnlock h => Sys2Proof.Machine.execXpdrUnlock h s
  | .xpdrStatus h => Sys2Proof.Machine.execXpdrStatus h s
  | .calRun h => Sys2Proof.Machine.execCalRun h s
  | .calExport h => Sys2Proof.Machine.execCalExport h s
  | .calImport h => Sys2Proof.Machine.execCalImport h s
  | .calCoupling h => Sys2Proof.Machine.execCalCoupling h s
  | .calConfig h => Sys2Proof.Machine.execCalConfig h s
  | .calStatus h => Sys2Proof.Machine.execCalStatus h s
  | .pwrEnter h => Sys2Proof.Machine.execPwrEnter h s
  | .wakeConfig h => Sys2Proof.Machine.execWakeConfig h s
  | .emberConfig h => Sys2Proof.Machine.execEmberConfig h s
  | .pwrStatus h => Sys2Proof.Machine.execPwrStatus h s
  | .keyInfo h => Sys2Proof.Machine.execKeyInfo h s
  | .keyGen h => Sys2Proof.Machine.execKeyGen h s
  | .keyImport h => Sys2Proof.Machine.execKeyImport h s
  | .keyExport h => Sys2Proof.Machine.execKeyExport h s
  | .keyDelete h => Sys2Proof.Machine.execKeyDelete h s
  | .kilnRandom h => Sys2Proof.Machine.execKilnRandom h s
  | .kilnSign h => Sys2Proof.Machine.execKilnSign h s
  | .kilnChallenge h => Sys2Proof.Machine.execKilnChallenge h s
  | .debugUnlock h => Sys2Proof.Machine.execDebugUnlock h s
  | .imageLoad h => Sys2Proof.Machine.execImageLoad h s
  | .imageInfo h => Sys2Proof.Machine.execImageInfo h s
  | .imageActivate h => Sys2Proof.Machine.execImageActivate h s
  | .engineReload h => Sys2Proof.Machine.execEngineReload h s
  | .diagCounters h => Sys2Proof.Machine.execDiagCounters h s
  | .portIsolate h => Sys2Proof.Machine.execPortIsolate h s
  | .tmrConfig h => Sys2Proof.Machine.execTmrConfig h s
  | .tmrArm h => Sys2Proof.Machine.execTmrArm h s
  | .tmrRead h => Sys2Proof.Machine.execTmrRead h s
  | .timebaseRead h => Sys2Proof.Machine.execTimebaseRead h s
  | .gpioConfig h => Sys2Proof.Machine.execGpioConfig h s
  | .gpioWrite h => Sys2Proof.Machine.execGpioWrite h s
  | .gpioRead h => Sys2Proof.Machine.execGpioRead h s
  | .dbgRead h => Sys2Proof.Machine.execDbgRead h s
  | .dbgWrite h => Sys2Proof.Machine.execDbgWrite h s
  | .dbgEngine h => Sys2Proof.Machine.execDbgEngine h s
  | .spiCsFall hp => Sys2Proof.Machine.execSpiCsFall hp s
  | .spiWrite hp bytes => Sys2Proof.Machine.execSpiWrite hp bytes s
  | .spiRead hp count => Sys2Proof.Machine.execSpiRead hp count s
  | .spiStatus hp => Sys2Proof.Machine.execSpiStatus hp s
  | .spiInvalidTransfer hp transfer count => Sys2Proof.Machine.execSpiInvalidTransfer hp transfer count s
  | .spiCsRise hp => Sys2Proof.Machine.execSpiCsRise hp s
  | .uartByteReceived b => Sys2Proof.Machine.execUartByteReceived b s
  | .uartGapTimeout => Sys2Proof.Machine.execUartGapTimeout s
  | .uartBreak => Sys2Proof.Machine.execUartBreak s
  | .uartByteSent => Sys2Proof.Machine.execUartByteSent s
  | .i2cAddressMatch isRead => Sys2Proof.Machine.execI2cAddressMatch isRead s
  | .i2cWriteByte b => Sys2Proof.Machine.execI2cWriteByte b s
  | .i2cReadByte => Sys2Proof.Machine.execI2cReadByte s
  | .i2cStop => Sys2Proof.Machine.execI2cStop s
  | .tickDecide => Sys2Proof.Machine.execTickDecide s
  | .chainSegment h opcode => Sys2Proof.Machine.execChainSegment h opcode s
  | .chainAbort h opcode => Sys2Proof.Machine.execChainAbort h opcode s
  | .chainExpiry hp target => Sys2Proof.Machine.execChainExpiry hp target s
  | .hostTakesPacket hp => Sys2Proof.Machine.execHostTakesPacket hp s
  | .responseNextPacket hp => Sys2Proof.Machine.execResponseNextPacket hp s
  | .gpioPinChange pin level => Sys2Proof.Machine.execGpioPinChange pin level s
  | .txctlFieldEnWrite p value => Sys2Proof.Machine.execTxctlFieldEnWrite p value s
  | .fieldRampStart p => Sys2Proof.Machine.execFieldRampStart p s
  | .fieldRampUpDone p => Sys2Proof.Machine.execFieldRampUpDone p s
  | .fieldRampDownDone p => Sys2Proof.Machine.execFieldRampDownDone p s
  | .txphaseWrite p phase => Sys2Proof.Machine.execTxphaseWrite p phase s
  | .phaseApply p => Sys2Proof.Machine.execPhaseApply p s
  | .ampApply p => Sys2Proof.Machine.execAmpApply p s
  | .ampRampDone p => Sys2Proof.Machine.execAmpRampDone p s
  | .txampLock p => Sys2Proof.Machine.execTxampLock p s
  | .shortFault p => Sys2Proof.Machine.execShortFault p s
  | .vtxUvFault rail => Sys2Proof.Machine.execVtxUvFault rail s
  | .vtxUvClear rail => Sys2Proof.Machine.execVtxUvClear rail s
  | .openFault p => Sys2Proof.Machine.execOpenFault p s
  | .thermalTrip dom => Sys2Proof.Machine.execThermalTrip dom s
  | .thermalLockoutEnd dom => Sys2Proof.Machine.execThermalLockoutEnd dom s
  | .pllUnlock => Sys2Proof.Machine.execPllUnlock s
  | .pllLock => Sys2Proof.Machine.execPllLock s
  | .xtalOk => Sys2Proof.Machine.execXtalOk s
  | .xtalFail => Sys2Proof.Machine.execXtalFail s
  | .clkctlWrite value => Sys2Proof.Machine.execClkctlWrite value s
  | .thermSample dom tj vtx => Sys2Proof.Machine.execThermSample dom tj vtx s
  | .dutyWindow p onTime => Sys2Proof.Machine.execDutyWindow p onTime s
  | .grateWrite p value => Sys2Proof.Machine.execGrateWrite p value s
  | .grateShiftFrame => Sys2Proof.Machine.execGrateShiftFrame s
  | .grateSettleEnd p => Sys2Proof.Machine.execGrateSettleEnd p s
  | .frmctlApply p => Sys2Proof.Machine.execFrmctlApply p s
  | .rxConfigApply p => Sys2Proof.Machine.execRxConfigApply p s
  | .agcWindowEnd p peak => Sys2Proof.Machine.execAgcWindowEnd p peak s
  | .adcOverload p => Sys2Proof.Machine.execAdcOverload p s
  | .dcAcqEnd p => Sys2Proof.Machine.execDcAcqEnd p s
  | .noiseWindowEnd p result quiet => Sys2Proof.Machine.execNoiseWindowEnd p result quiet s
  | .noiseRestart p => Sys2Proof.Machine.execNoiseRestart p s
  | .frameGrant p => Sys2Proof.Machine.execFrameGrant p s
  | .holdOverride p => Sys2Proof.Machine.execHoldOverride p s
  | .frameSendEnd p => Sys2Proof.Machine.execFrameSendEnd p s
  | .replyStart p t => Sys2Proof.Machine.execReplyStart p t s
  | .frameReceiveEnd p rx => Sys2Proof.Machine.execFrameReceiveEnd p rx s
  | .responseTimeout p => Sys2Proof.Machine.execResponseTimeout p s
  | .waitLimitExpiry p => Sys2Proof.Machine.execWaitLimitExpiry p s
  | .guardEnd p => Sys2Proof.Machine.execGuardEnd p s
  | .secondWindowOpen p => Sys2Proof.Machine.execSecondWindowOpen p s
  | .frmstatXstart p => Sys2Proof.Machine.execFrmstatXstart p s
  | .frmstatVrepP p => Sys2Proof.Machine.execFrmstatVrepP p s
  | .frmstatVrepX p => Sys2Proof.Machine.execFrmstatVrepX p s
  | .violcntRead p => Sys2Proof.Machine.execViolcntRead p s
  | .schcntRead p => Sys2Proof.Machine.execSchcntRead p s
  | .rapidPhaseStart p => Sys2Proof.Machine.execRapidPhaseStart p s
  | .dbChallengeSlot p sent burst => Sys2Proof.Machine.execDbChallengeSlot p sent burst s
  | .rapidPhaseEnd p => Sys2Proof.Machine.execRapidPhaseEnd p s
  | .dbVerdict p reply => Sys2Proof.Machine.execDbVerdict p reply s
  | .dbctlLock p => Sys2Proof.Machine.execDbctlLock p s
  | .cplCommit => Sys2Proof.Machine.execCplCommit s
  | .cplApply p => Sys2Proof.Machine.execCplApply p s
  | .cplCheck => Sys2Proof.Machine.execCplCheck s
  | .lkDepthBlock p sumL sumR trims clamped => Sys2Proof.Machine.execLkDepthBlock p sumL sumR trims clamped s
  | .adaptResume p => Sys2Proof.Machine.execAdaptResume p s
  | .groupBoundary g => Sys2Proof.Machine.execGroupBoundary g s
  | .invPassStart p => Sys2Proof.Machine.execInvPassStart p s
  | .invSlotStart p => Sys2Proof.Machine.execInvSlotStart p s
  | .invPassEnd p => Sys2Proof.Machine.execInvPassEnd p s
  | .sighting p => Sys2Proof.Machine.execSighting p s
  | .slotEnd p => Sys2Proof.Machine.execSlotEnd p s
  | .engineResponse p => Sys2Proof.Machine.execEngineResponse p s
  | .engineReady p => Sys2Proof.Machine.execEngineReady p s
  | .engineStartTimeout p => Sys2Proof.Machine.execEngineStartTimeout p s
  | .engineResponseTimeout p => Sys2Proof.Machine.execEngineResponseTimeout p s
  | .engineImageVerdict => Sys2Proof.Machine.execEngineImageVerdict s
  | .dbeRing p m0 m1 m2 m3 => Sys2Proof.Machine.execDbeRing p m0 m1 m2 m3 s
  | .dbhRingClear p => Sys2Proof.Machine.execDbhRingClear p s
  | .engCtlHalt p halt => Sys2Proof.Machine.execEngCtlHalt p halt s
  | .engCtlStep p => Sys2Proof.Machine.execEngCtlStep p s
  | .txDataPush p side b => Sys2Proof.Machine.execTxDataPush p side b s
  | .txDataCommit p side b => Sys2Proof.Machine.execTxDataCommit p side b s
  | .txDataAbort p side => Sys2Proof.Machine.execTxDataAbort p side s
  | .rxDataRead p side => Sys2Proof.Machine.execRxDataRead p side s
  | .fifoFlush p d => Sys2Proof.Machine.execFifoFlush p d s
  | .fifoClrcnt p d => Sys2Proof.Machine.execFifoClrcnt p d s
  | .fifoSpillSet p d spill => Sys2Proof.Machine.execFifoSpillSet p d spill s
  | .fifoStallRelease p => Sys2Proof.Machine.execFifoStallRelease p s
  | .flueMove p d => Sys2Proof.Machine.execFlueMove p d s
  | .nop e => Sys2Proof.Machine.execNop e s
  | .add e rd ra rb => Sys2Proof.Machine.execAdd e rd ra rb s
  | .adc e rd ra rb => Sys2Proof.Machine.execAdc e rd ra rb s
  | .sub e rd ra rb => Sys2Proof.Machine.execSub e rd ra rb s
  | .sbc e rd ra rb => Sys2Proof.Machine.execSbc e rd ra rb s
  | .and e rd ra rb => Sys2Proof.Machine.execAnd e rd ra rb s
  | .or e rd ra rb => Sys2Proof.Machine.execOr e rd ra rb s
  | .xor e rd ra rb => Sys2Proof.Machine.execXor e rd ra rb s
  | .cmp e ra rb => Sys2Proof.Machine.execCmp e ra rb s
  | .tst e ra rb => Sys2Proof.Machine.execTst e ra rb s
  | .neg e rd ra => Sys2Proof.Machine.execNeg e rd ra s
  | .not e rd ra => Sys2Proof.Machine.execNot e rd ra s
  | .mov e rd ra => Sys2Proof.Machine.execMov e rd ra s
  | .lsl e rd ra cnt => Sys2Proof.Machine.execLsl e rd ra cnt s
  | .lsr e rd ra cnt => Sys2Proof.Machine.execLsr e rd ra cnt s
  | .asr e rd ra cnt => Sys2Proof.Machine.execAsr e rd ra cnt s
  | .ror e rd ra cnt => Sys2Proof.Machine.execRor e rd ra cnt s
  | .addi e rd ra imm => Sys2Proof.Machine.execAddi e rd ra imm s
  | .subi e rd ra imm => Sys2Proof.Machine.execSubi e rd ra imm s
  | .andi e rd ra imm => Sys2Proof.Machine.execAndi e rd ra imm s
  | .ori e rd ra imm => Sys2Proof.Machine.execOri e rd ra imm s
  | .xori e rd ra imm => Sys2Proof.Machine.execXori e rd ra imm s
  | .cmpi e ra imm => Sys2Proof.Machine.execCmpi e ra imm s
  | .movi e rd imm => Sys2Proof.Machine.execMovi e rd imm s
  | .movhi e rd imm => Sys2Proof.Machine.execMovhi e rd imm s
  | .mul e rd ra rb => Sys2Proof.Machine.execMul e rd ra rb s
  | .mulh e rd ra rb signed => Sys2Proof.Machine.execMulh e rd ra rb signed s
  | .divu e rq rr ra rb => Sys2Proof.Machine.execDivu e rq rr ra rb s
  | .divs e rq rr ra rb => Sys2Proof.Machine.execDivs e rq rr ra rb s
  | .ldw e rd ra post off => Sys2Proof.Machine.execLdw e rd ra post off s
  | .ldh e rd ra post off => Sys2Proof.Machine.execLdh e rd ra post off s
  | .ldb e rd ra post off => Sys2Proof.Machine.execLdb e rd ra post off s
  | .stw e rd ra post off => Sys2Proof.Machine.execStw e rd ra post off s
  | .sth e rd ra post off => Sys2Proof.Machine.execSth e rd ra post off s
  | .stb e rd ra post off => Sys2Proof.Machine.execStb e rd ra post off s
  | .ldc e rd ra post off => Sys2Proof.Machine.execLdc e rd ra post off s
  | .b e cond off => Sys2Proof.Machine.execB e cond off s
  | .call e off => Sys2Proof.Machine.execCall e off s
  | .jmp e ra => Sys2Proof.Machine.execJmp e ra s
  | .callr e ra => Sys2Proof.Machine.execCallr e ra s
  | .bset e b => Sys2Proof.Machine.execBset e b s
  | .bclr e b => Sys2Proof.Machine.execBclr e b s
  | .bnot e b => Sys2Proof.Machine.execBnot e b s
  | .bmov e d ns src => Sys2Proof.Machine.execBmov e d ns src s
  | .band e d ns src => Sys2Proof.Machine.execBand e d ns src s
  | .bor e d ns src => Sys2Proof.Machine.execBor e d ns src s
  | .bxor e d ns src => Sys2Proof.Machine.execBxor e d ns src s
  | .btst e b pol off => Sys2Proof.Machine.execBtst e b pol off s
  | .bget e rd b => Sys2Proof.Machine.execBget e rd b s
  | .bput e b ra => Sys2Proof.Machine.execBput e b ra s
  | .rep e cnt => Sys2Proof.Machine.execRep e cnt s
  | .crci e rd sel => Sys2Proof.Machine.execCrci e rd sel s
  | .crc e rd ra sel n => Sys2Proof.Machine.execCrc e rd ra sel n s
  | .crcf e rd sel => Sys2Proof.Machine.execCrcf e rd sel s
  | .fpush e ra eop => Sys2Proof.Machine.execFpush e ra eop s
  | .fpushm e ra eop => Sys2Proof.Machine.execFpushm e ra eop s
  | .fpop e rd => Sys2Proof.Machine.execFpop e rd s
  | .fpopm e ra => Sys2Proof.Machine.execFpopm e ra s
  | .fabort e => Sys2Proof.Machine.execFabort e s
  | .fsend e clear => Sys2Proof.Machine.execFsend e clear s
  | .fres e rd => Sys2Proof.Machine.execFres e rd s
  | .frapid e ra => Sys2Proof.Machine.execFrapid e ra s
  | .wait e b pol => Sys2Proof.Machine.execWait e b pol s
  | .waitEnd e => Sys2Proof.Machine.execWaitEnd e s
  | .trap e code => Sys2Proof.Machine.execTrap e code s
  | .rett e => Sys2Proof.Machine.execRett e s
  | .halt e => Sys2Proof.Machine.execHalt e s
  | .gets e rd k => Sys2Proof.Machine.execGets e rd k s
  | .tmrArmBit ch => Sys2Proof.Machine.execTmrArmBit ch s
  | .tmrStopBit ch => Sys2Proof.Machine.execTmrStopBit ch s
  | .tmrCmpvWrite ch value => Sys2Proof.Machine.execTmrCmpvWrite ch value s
  | .tmrPrescWrite ch value => Sys2Proof.Machine.execTmrPrescWrite ch value s
  | .tmrCompare ch => Sys2Proof.Machine.execTmrCompare ch s
  | .tmrCapture ch rising => Sys2Proof.Machine.execTmrCapture ch rising s
  | .tmrCapRead ch => Sys2Proof.Machine.execTmrCapRead ch s
  | .timerSourceStop ch => Sys2Proof.Machine.execTimerSourceStop ch s
  | .timerMakeup ch periods => Sys2Proof.Machine.execTimerMakeup ch periods s
  | .wkcmpHiWrite value => Sys2Proof.Machine.execWkcmpHiWrite value s
  | .wakeCompare => Sys2Proof.Machine.execWakeCompare s
  | .wdtKick key => Sys2Proof.Machine.execWdtKick key s
  | .wdtctlLock => Sys2Proof.Machine.execWdtctlLock s
  | .wdtExpiry => Sys2Proof.Machine.execWdtExpiry s
  | .powerOnReset => Sys2Proof.Machine.execPowerOnReset s
  | .brownOut supplies => Sys2Proof.Machine.execBrownOut supplies s
  | .rstNReset width => Sys2Proof.Machine.execRstNReset width s
  | .sysResetRelease boot0 boot1 => Sys2Proof.Machine.execSysResetRelease boot0 boot1 s
  | .kilnSelfTestDone pass => Sys2Proof.Machine.execKilnSelfTestDone pass s
  | .kilnImageVerdict => Sys2Proof.Machine.execKilnImageVerdict s
  | .fullServiceStart => Sys2Proof.Machine.execFullServiceStart s
  | .trngStartDone pass => Sys2Proof.Machine.execTrngStartDone pass s
  | .trngHealthFail => Sys2Proof.Machine.execTrngHealthFail s
  | .nonceExpiry purpose => Sys2Proof.Machine.execNonceExpiry purpose s
  | .tamperInput input active => Sys2Proof.Machine.execTamperInput input active s
  | .tamperResponseDeferred => Sys2Proof.Machine.execTamperResponseDeferred s
  | .glitchDetect clock => Sys2Proof.Machine.execGlitchDetect clock s
  | .kilnTempRange out => Sys2Proof.Machine.execKilnTempRange out s
  | .ashCommit => Sys2Proof.Machine.execAshCommit s
  | .suppressedCommit => Sys2Proof.Machine.execSuppressedCommit s
  | .bankingStart => Sys2Proof.Machine.execBankingStart s
  | .bankingDone => Sys2Proof.Machine.execBankingDone s
  | .bankingAbandoned sources => Sys2Proof.Machine.execBankingAbandoned sources s
  | .entryTimeout => Sys2Proof.Machine.execEntryTimeout s
  | .wakeEvent sources => Sys2Proof.Machine.execWakeEvent sources s
  | .offWake sources => Sys2Proof.Machine.execOffWake sources s
  | .slowclkSwitch toCrystal => Sys2Proof.Machine.execSlowclkSwitch toCrystal s
  | .emberProbe p amp phase => Sys2Proof.Machine.execEmberProbe p amp phase s
  | .emberRepeatProbe p amp phase => Sys2Proof.Machine.execEmberRepeatProbe p amp phase s
  | .xchkRun p dev => Sys2Proof.Machine.execXchkRun p dev s
  | .recalApply port => Sys2Proof.Machine.execRecalApply port s
  | .xpdrFieldAppear strength battery => Sys2Proof.Machine.execXpdrFieldAppear strength battery s
  | .xpdrFieldLost gap => Sys2Proof.Machine.execXpdrFieldLost gap s
  | .xpdrSessionIdleEnd => Sys2Proof.Machine.execXpdrSessionIdleEnd s
  | .xpdrSupplyDrop => Sys2Proof.Machine.execXpdrSupplyDrop s
  | .xpdrFrameDiscard => Sys2Proof.Machine.execXpdrFrameDiscard s
  | .scan body => Sys2Proof.Machine.execScan body s
  | .select body => Sys2Proof.Machine.execSelect body s
  | .aelyrHalt body => Sys2Proof.Machine.execAelyrHalt body s
  | .read body => Sys2Proof.Machine.execRead body s
  | .write body => Sys2Proof.Machine.execWrite body s
  | .lockBlock body => Sys2Proof.Machine.execLockBlock body s
  | .areaInfo body => Sys2Proof.Machine.execAreaInfo body s
  | .authPwd body => Sys2Proof.Machine.execAuthPwd body s
  | .setPwd body => Sys2Proof.Machine.execSetPwd body s
  | .getNonce body => Sys2Proof.Machine.execGetNonce body s
  | .unlock body => Sys2Proof.Machine.execUnlock body s
  | .readCnt body => Sys2Proof.Machine.execReadCnt body s
  | .incCnt body => Sys2Proof.Machine.execIncCnt body s
  | .dbBegin body => Sys2Proof.Machine.execDbBegin body s
  | .dbEnd body => Sys2Proof.Machine.execDbEnd body s
  | .rapidSync pilot => Sys2Proof.Machine.execRapidSync pilot s
  | .rapidAnswer challenge => Sys2Proof.Machine.execRapidAnswer challenge s
  | .dbArmedTimeout => Sys2Proof.Machine.execDbArmedTimeout s
  | .getId body => Sys2Proof.Machine.execGetId body s
  | .readPage body => Sys2Proof.Machine.execReadPage body s
  | .writePage body => Sys2Proof.Machine.execWritePage body s
  | .login body => Sys2Proof.Machine.execLogin body s
  | .logout body => Sys2Proof.Machine.execLogout body s
  | .setPassword body => Sys2Proof.Machine.execSetPassword body s
  | .lockPage body => Sys2Proof.Machine.execLockPage body s
  | .xpdrDeferredCommit => Sys2Proof.Machine.execXpdrDeferredCommit s
  | .journalCheck => Sys2Proof.Machine.execJournalCheck s
  | .eoVthReached vstore => Sys2Proof.Machine.execEoVthReached vstore s
  | .eoArmExpiry => Sys2Proof.Machine.execEoArmExpiry s
  | .emopenPulseEnd vstore => Sys2Proof.Machine.execEmopenPulseEnd vstore s
  | .registerWrite addr value side => Sys2Proof.Machine.execRegisterWrite addr value side s
  | .unknownCode proto code body => Sys2Proof.Machine.execUnknownCode proto code body s
  | .commitReserveMet => Sys2Proof.Machine.execCommitReserveMet s
  | .kilnOperationDone => Sys2Proof.Machine.execKilnOperationDone s
  | .calMeasurementEnd p m => Sys2Proof.Machine.execCalMeasurementEnd p m s
  | .couplingSourceEnd m => Sys2Proof.Machine.execCouplingSourceEnd m s
  | .vsysRemoved => Sys2Proof.Machine.execVsysRemoved s
  | .vioLoss => Sys2Proof.Machine.execVioLoss s
  | .vioReturn => Sys2Proof.Machine.execVioReturn s
  | .hearthJtagHalt halt => Sys2Proof.Machine.execHearthJtagHalt halt s

end Sys2Proof.Machine
end

