-- ==== Sys2Proof/Machine/Tick.lean ====
section
/-! DEFINITION. One slow-clock period, which a step spends when no command waits (log entry 1). -/

namespace Sys2Proof.Machine

/-- One slow-clock period of a timer channel whose source runs (R459, R466). -/
def State.chanTick (s : State) (ch : Channel) : State :=
  let t := s.chan ch
  if s.chanOn ch && tget t TMR_STAT.SRCSTOP = 0 && !s.chanFrozen ch then s.tmrAdvance ch (tmrFactor (tget t TMR_CTL.SRC))
  else s

/-- The watchdog's timeout in slow-clock periods: 0 is treated as 1, above 256 as 256 (WDTCTL.TIMEOUT). -/
def State.wdtLimit (s : State) : Nat := 1024 * max 1 (min 256 (s.pcrGet WDTCTL.TIMEOUT))

/-- The watchdog counts in RUN, IDLE and DOZE and holds while Hearth is halted through JTAG (R496). -/
def State.wdtTick (s : State) : State :=
  if s.pcrGet WDTCTL.EN = 1 ∧ s.dev.jtagHalt = false ∧ (s.dev.power = .run ∨ s.dev.power = .idle ∨ s.dev.power = .doze) then
    { s with dev := { s.dev with wdtCount := min s.wdtLimit (s.dev.wdtCount + 1) } }
  else s

/-- A FIELD_ON whose WAIT has passed ends with TIMEOUT (R358). -/
def State.fieldOnDue (s : State) : State :=
  s.endWhere (fun r => match r.job with
    | .fieldOn _ due => due ≤ s.dev.timebase | _ => false) St.TIMEOUT

/-- One slow-clock period: TIMEBASE (R468), the channels (R459), the watchdog (R496) and the wake compare (R470).
Without VSYS nothing counts. -/
def State.tick (s : State) : State :=
  if s.dev.vsysOk then
    let s := { s with dev := { s.dev with timebase := (s.dev.timebase + 1) % 2 ^ 64 } }
    ((allChannels.foldl State.chanTick s).wdtTick.wakeEval.fieldOnDue).flush
  else s

end Sys2Proof.Machine
end

