-- ==== Sys2Proof/Safety.lean ====
section
/-! DEFINITION. The terms in which claims about the block are stated: when an engine or a command is ready, what a
step leaves, what a response is, and the invariants. -/

namespace Sys2Proof.Machine

/-! ## The fields of a word -/

/-- A field fits its word. -/
abbrev Fld.fits (f : Fld) : Prop := f.lo + f.len ≤ 32

/-- Two fields share no bit. -/
abbrev Fld.apart (f g : Fld) : Prop := f.off ≠ g.off ∨ f.lo + f.len ≤ g.lo ∨ g.lo + g.len ≤ f.lo

/-! ## The rows of the engines -/

/-- The engine and the instruction of a row of the instruction set (R429, R435-R445). -/
def engRow : Instr → Option (PortNum × EngInstr)
  | .add e rd ra rb => some (e, .alu .add rd ra rb)
  | .adc e rd ra rb => some (e, .alu .adc rd ra rb)
  | .sub e rd ra rb => some (e, .alu .sub rd ra rb)
  | .sbc e rd ra rb => some (e, .alu .sbc rd ra rb)
  | .and e rd ra rb => some (e, .alu .and rd ra rb)
  | .or e rd ra rb => some (e, .alu .or rd ra rb)
  | .xor e rd ra rb => some (e, .alu .xor rd ra rb)
  | .mul e rd ra rb => some (e, .alu .mul rd ra rb)
  | .nop e => some (e, .nop)
  | .cmp e ra rb => some (e, .cmp .cmp ra rb)
  | .tst e ra rb => some (e, .cmp .tst ra rb)
  | .neg e rd ra => some (e, .un .neg rd ra)
  | .not e rd ra => some (e, .un .not rd ra)
  | .mov e rd ra => some (e, .un .mov rd ra)
  | .lsl e rd ra cnt => some (e, .shift .lsl rd ra cnt)
  | .lsr e rd ra cnt => some (e, .shift .lsr rd ra cnt)
  | .asr e rd ra cnt => some (e, .shift .asr rd ra cnt)
  | .ror e rd ra cnt => some (e, .shift .ror rd ra cnt)
  | .addi e rd ra imm => some (e, .imm .addi rd ra imm)
  | .subi e rd ra imm => some (e, .imm .subi rd ra imm)
  | .andi e rd ra imm => some (e, .imm .andi rd ra imm)
  | .ori e rd ra imm => some (e, .imm .ori rd ra imm)
  | .xori e rd ra imm => some (e, .imm .xori rd ra imm)
  | .cmpi e ra imm => some (e, .cmpi ra imm)
  | .movi e rd imm => some (e, .movi rd imm)
  | .movhi e rd imm => some (e, .movhi rd imm)
  | .mulh e rd ra rb signed => some (e, .alu (if signed then .mulhs else .mulhu) rd ra rb)
  | .divu e rq rr ra rb => some (e, .div false rq rr ra rb)
  | .divs e rq rr ra rb => some (e, .div true rq rr ra rb)
  | .ldw e rd ra post off => some (e, .load .word rd ra post off)
  | .ldh e rd ra post off => some (e, .load .half rd ra post off)
  | .ldb e rd ra post off => some (e, .load .byte rd ra post off)
  | .stw e rd ra post off => some (e, .store .word rd ra post off)
  | .sth e rd ra post off => some (e, .store .half rd ra post off)
  | .stb e rd ra post off => some (e, .store .byte rd ra post off)
  | .ldc e rd ra post off => some (e, .ldc rd ra post off)
  | .b e cond off => some (e, .branch cond off)
  | .call e off => some (e, .call off)
  | .jmp e ra => some (e, .jmp ra)
  | .callr e ra => some (e, .callr ra)
  | .bset e b => some (e, .bit1 .bset b)
  | .bclr e b => some (e, .bit1 .bclr b)
  | .bnot e b => some (e, .bit1 .bnot b)
  | .bmov e d ns src => some (e, .bit2 .bmov d ns src)
  | .band e d ns src => some (e, .bit2 .band d ns src)
  | .bor e d ns src => some (e, .bit2 .bor d ns src)
  | .bxor e d ns src => some (e, .bit2 .bxor d ns src)
  | .btst e b pol off => some (e, .btst b pol off)
  | .bget e rd b => some (e, .bget rd b)
  | .bput e b ra => some (e, .bput b ra)
  | .rep e cnt => some (e, .rep cnt)
  | .crci e rd sel => some (e, .crci rd sel)
  | .crc e rd ra sel n => some (e, .crc rd ra sel n)
  | .crcf e rd sel => some (e, .crcf rd sel)
  | .fpush e ra eop => some (e, .fpush ra eop)
  | .fpushm e ra eop => some (e, .fpushm ra eop)
  | .fpop e rd => some (e, .fpop rd)
  | .fpopm e ra => some (e, .fpopm ra)
  | .fabort e => some (e, .fabort)
  | .fsend e clear => some (e, .fsend clear)
  | .fres e rd => some (e, .fres rd)
  | .frapid e ra => some (e, .frapid ra)
  | .wait e b pol => some (e, .wait b pol)
  | .trap e code => some (e, .trap code)
  | .rett e => some (e, .rett)
  | .halt e => some (e, .halt)
  | .gets e rd k => some (e, .gets rd k)
  | _ => none

/-! ## The engines -/

/-- Engine `e` executes its next instruction at once: it runs, PC lies in its code, no repetition and no halt is in
force, and nothing waits to be posted (R428, R436, R446). -/
def EngReady (s : State) (e : PortNum) : Prop :=
  s.raised = [] ∧ s.runs e = true ∧ (s.pc e).toNat < (s.eng e).codeLen ∧ (s.eng e).repLeft = 0 ∧
    s.pget e ENG_CTL.HALT = 0

/-- Nothing outside port `e` differs, and of the port nothing but registers and engine. -/
def OnlyEngine (s t : State) (e : PortNum) : Prop :=
  t = { s with ports := t.ports } ∧ (∀ q, q ≠ e → t.port q = s.port q) ∧
    t.port e = { s.port e with regs := (t.port e).regs, eng := (t.port e).eng }

/-- Of the registers of port `e` none but those at the given offsets differs. -/
def RegsKept (s t : State) (e : PortNum) (l : List Nat) : Prop := ∀ o, o ∉ l → (t.port e).word o = (s.port e).word o

/-- The registers that every instruction moves: PC and the cycle counter. -/
def pcAndCycle : List Nat := [ENG_PC.reg, ENG_CYCLE.reg]

/-- The engine's memories, bit variables and repetition are as they were. -/
def EngMemKept (s t : State) (e : PortNum) : Prop :=
  (t.eng e).code = (s.eng e).code ∧ (t.eng e).data = (s.eng e).data ∧ (t.eng e).bits = (s.eng e).bits ∧
    (t.eng e).codeLen = (s.eng e).codeLen ∧ (t.eng e).repLeft = (s.eng e).repLeft ∧
    (t.eng e).waitOn = (s.eng e).waitOn ∧ (t.eng e).stall = (s.eng e).stall

/-- The engine's code, repetition, wait and stall are as they were. -/
def EngCtlKept (s t : State) (e : PortNum) : Prop :=
  (t.eng e).code = (s.eng e).code ∧ (t.eng e).codeLen = (s.eng e).codeLen ∧ (t.eng e).repLeft = (s.eng e).repLeft ∧
    (t.eng e).waitOn = (s.eng e).waitOn ∧ (t.eng e).stall = (s.eng e).stall

/-- The frame of an instruction that also writes data memory or bit variables. -/
def EngInstrFrame (s t : State) (e : PortNum) : Prop :=
  OnlyEngine s t e ∧ RegsKept s t e pcAndCycle ∧ EngCtlKept s t e

/-- The frame of an instruction that works on general registers and flags only. -/
def RegInstrFrame (s t : State) (e : PortNum) : Prop :=
  OnlyEngine s t e ∧ RegsKept s t e pcAndCycle ∧ EngMemKept s t e

/-- No flag and no other bit of ESW differs. -/
def FlagsKept (s t : State) (e : PortNum) : Prop := ∀ i, t.eswBit e i = s.eswBit e i

/-- Z, N, C and V take the given values, a flag without one keeps its own, and the rest of ESW is as it was. -/
def FlagsTo (s t : State) (e : PortNum) (z n c v : Option Bool) : Prop :=
  t.eswBit e 0 = z.getD (s.eswBit e 0) ∧ t.eswBit e 1 = n.getD (s.eswBit e 1) ∧
    t.eswBit e 2 = c.getD (s.eswBit e 2) ∧ t.eswBit e 3 = v.getD (s.eswBit e 3) ∧
    ∀ i, 4 ≤ i → t.eswBit e i = s.eswBit e i

/-- Z and N describe `w`, C and V are as given. -/
def FlagsOf (s t : State) (e : PortNum) (w : Word) (c v : Option Bool) : Prop :=
  FlagsTo s t e (some (w == 0)) (some (w.getLsbD 31)) c v

/-- No general register but `rd` differs, and `rd` holds `w`. -/
def RegTo (s t : State) (e : PortNum) (rd : RegNum) (w : Word) : Prop :=
  t.reg e rd = w ∧ ∀ r, r ≠ rd → t.reg e r = s.reg e r

/-- No general register differs. -/
def RegsSame (s t : State) (e : PortNum) : Prop := ∀ r, t.reg e r = s.reg e r

/-- Command `i` answers a next state in which `P` holds. -/
def Answers (i : Instr) (s : State) (P : State → Prop) : Prop := ∃ t, exec i s = .next t ∧ P t

/-- An instruction that writes `rd` with `w` and goes on to the next address, with its flags and its frame. -/
def Computes (i : Instr) (s : State) (e : PortNum) (rd : RegNum) (w : Word) (flags : State → Prop) : Prop :=
  Answers i s fun t => RegTo s t e rd w ∧ flags t ∧ t.pc e = s.pc e + 4 ∧ RegInstrFrame s t e

/-- An instruction that goes to address `a` and changes no register and no flag. -/
def GoesTo (i : Instr) (s : State) (e : PortNum) (a : Word) : Prop :=
  Answers i s fun t => t.pc e = a ∧ RegsSame s t e ∧ FlagsKept s t e ∧ RegInstrFrame s t e

/-- Data memory holds `l` from address `a` upward and its other bytes as before. -/
def DataTo (s t : State) (e : PortNum) (a : Nat) (l : List Byte) : Prop :=
  (t.eng e).data.bytes a l.length = l ∧
    ∀ b, b < a ∨ a + l.length ≤ b → (t.eng e).data.read b = (s.eng e).data.read b

/-- A trap of cause `c` with `a` in TPC: the engine goes on at the handler's address 4 with ESW.TRAP set (R447). -/
def Traps (i : Instr) (s : State) (e : PortNum) (c : Nat) (a : Word) : Prop :=
  Answers i s fun t => t.pc e = 4 ∧ (t.port e).word ENG_TPC.reg = a ∧ t.pget e ENG_STAT.CAUSE = c ∧
    t.eswBit e 6 = true ∧ (∀ j, j ≠ 6 → t.eswBit e j = s.eswBit e j) ∧ RegsSame s t e ∧ OnlyEngine s t e ∧
    (t.eng e).code = (s.eng e).code ∧ (t.eng e).data = (s.eng e).data ∧ (t.eng e).bits = (s.eng e).bits ∧
    RegsKept s t e (ENG_TPC.reg :: ENG_STAT.reg :: pcAndCycle)

/-! ## The FIFOs -/

/-- Nothing outside port `p` differs. -/
def OnlyPort (s t : State) (p : PortNum) : Prop := t = { s with ports := t.ports } ∧ ∀ q, q ≠ p → t.port q = s.port q

/-- The words of a FIFO in order, the oldest first. -/
def Fifo.row (f : Fifo) : List FWord := f.head ++ f.win ++ f.tail

/-- The two copies of every position agree (R417). -/
def Fifo.sound (f : Fifo) : Prop := ∀ i, i < 7 → (f.pos.getD i (FPos.of 0)).ok = true

/-- FIFO `d` of port `p` takes a byte at once and loses none: no Cinder and no lost packet is open, the tail has room,
and a word is free for it beside the one held back (R403, R408, R412). -/
def CanPush (s : State) (p : PortNum) (d : Dir) : Prop :=
  let f := s.fifo p d
  f.sound ∧ f.cinder = none ∧ f.lostWhole = false ∧ f.tail.length < 16 ∧ f.part.length < 4 ∧
    (f.part = [] → 2 ≤ s.fifoFree p d) ∧ (f.part ≠ [] → f.open_ = true)

/-- FIFO `d` after byte `b` was pushed, as the packet's last one or not: four bytes, or the last ones, make a word; the
last one commits the packet (R400, R409). -/
def Pushed (s t : State) (p : PortNum) (d : Dir) (b : Byte) (last : Bool) : Prop :=
  let f := s.fifo p d
  let g := t.fifo p d
  let bytes := f.part ++ [b]
  let full := last || bytes.length == 4
  g.row = f.row ++ (if full then
    [{ data := BitVec.ofNat 32 (fromLe bytes), vb := bytes.length, eop := last, cin := false, pkt := f.pktNo, slot := 0 }]
    else []) ∧
  g.part = (if full then [] else bytes) ∧ g.open_ = !last ∧ g.pkts = f.pkts + bit last ∧
  g.pktNo = f.pktNo + bit last ∧ g.cinder = none ∧ g.lostWhole = false

/-- FIFO `d` after word `w` at its head was taken: the others keep their order, and a packet's last word takes the packet
(R403, R410). -/
def Popped (s t : State) (p : PortNum) (d : Dir) (w : FWord) : Prop :=
  let f := s.fifo p d
  let g := t.fifo p d
  g.row = f.row.drop 1 ∧ g.part = f.part ∧ g.open_ = f.open_ ∧ g.pktNo = f.pktNo ∧
    g.pkts = f.pkts - bit w.eop ∧ t.fget p d RX_STAT.LAST_VB = w.vb % 8 ∧ t.fget p d RX_STAT.LAST_EOP = bit w.eop ∧
    t.fget p d RX_STAT.LAST_CIN = bit w.cin

/-! ## The commands of the host -/

/-- The row of the command reference and the packet of a host command (R344-R348). -/
def hostOp : Instr → Option (Op × HostCmd)
  | .info h => some (opInfo, h)
  | .ident h => some (opIdent, h)
  | .devReset h => some (opDevReset, h)
  | .getLog h => some (opGetLog, h)
  | .hostConfig h => some (opHostConfig, h)
  | .hostStatus h => some (opHostStatus, h)
  | .ownClaim h => some (opOwnClaim, h)
  | .ownRelease h => some (opOwnRelease, h)
  | .ownQuery h => some (opOwnQuery, h)
  | .kindlingScan h => some (opKindlingScan, h)
  | .portOpen h => some (opPortOpen, h)
  | .portClose h => some (opPortClose, h)
  | .portSet h => some (opPortSet, h)
  | .fieldOn h => some (opFieldOn, h)
  | .fieldOff h => some (opFieldOff, h)
  | .grateSelect h => some (opGrateSelect, h)
  | .portReset h => some (opPortReset, h)
  | .portGet h => some (opPortGet, h)
  | .portStatus h => some (opPortStatus, h)
  | .groupSet h => some (opGroupSet, h)
  | .groupQuery h => some (opGroupQuery, h)
  | .transceive h => some (opTransceive, h)
  | .aActivate h => some (opAActivate, h)
  | .bActivate h => some (opBActivate, h)
  | .apdu h => some (opApdu, h)
  | .deselect h => some (opDeselect, h)
  | .vhbrParams h => some (opVhbrParams, h)
  | .vCmd h => some (opVCmd, h)
  | .invConfig h => some (opInvConfig, h)
  | .invStart h => some (opInvStart, h)
  | .invStop h => some (opInvStop, h)
  | .invQuery h => some (opInvQuery, h)
  | .ttRead h => some (opTtRead, h)
  | .ttFind h => some (opTtFind, h)
  | .ttDelete h => some (opTtDelete, h)
  | .ttClear h => some (opTtClear, h)
  | .ttSetFlags h => some (opTtSetFlags, h)
  | .ttConfig h => some (opTtConfig, h)
  | .alScan h => some (opAlScan, h)
  | .alSelect h => some (opAlSelect, h)
  | .alHalt h => some (opAlHalt, h)
  | .alRead h => some (opAlRead, h)
  | .alWrite h => some (opAlWrite, h)
  | .alLockBlock h => some (opAlLockBlock, h)
  | .alAreaInfo h => some (opAlAreaInfo, h)
  | .alAuthPwd h => some (opAlAuthPwd, h)
  | .alSetPwd h => some (opAlSetPwd, h)
  | .alUnlock h => some (opAlUnlock, h)
  | .alReadCnt h => some (opAlReadCnt, h)
  | .alIncCnt h => some (opAlIncCnt, h)
  | .osGetId h => some (opOsGetId, h)
  | .osReadPage h => some (opOsReadPage, h)
  | .osWritePage h => some (opOsWritePage, h)
  | .osLogin h => some (opOsLogin, h)
  | .osLogout h => some (opOsLogout, h)
  | .osSetPassword h => some (opOsSetPassword, h)
  | .osLockPage h => some (opOsLockPage, h)
  | .dbRun h => some (opDbRun, h)
  | .dbCal h => some (opDbCal, h)
  | .dbConfig h => some (opDbConfig, h)
  | .xpdrConfig h => some (opXpdrConfig, h)
  | .xpdrAreaSet h => some (opXpdrAreaSet, h)
  | .xpdrRead h => some (opXpdrRead, h)
  | .xpdrWrite h => some (opXpdrWrite, h)
  | .xpdrCntRead h => some (opXpdrCntRead, h)
  | .xpdrCntInc h => some (opXpdrCntInc, h)
  | .xpdrAreaInfo h => some (opXpdrAreaInfo, h)
  | .xpdrUnlock h => some (opXpdrUnlock, h)
  | .xpdrStatus h => some (opXpdrStatus, h)
  | .calRun h => some (opCalRun, h)
  | .calExport h => some (opCalExport, h)
  | .calImport h => some (opCalImport, h)
  | .calCoupling h => some (opCalCoupling, h)
  | .calConfig h => some (opCalConfig, h)
  | .calStatus h => some (opCalStatus, h)
  | .pwrEnter h => some (opPwrEnter, h)
  | .wakeConfig h => some (opWakeConfig, h)
  | .emberConfig h => some (opEmberConfig, h)
  | .pwrStatus h => some (opPwrStatus, h)
  | .keyInfo h => some (opKeyInfo, h)
  | .keyGen h => some (opKeyGen, h)
  | .keyImport h => some (opKeyImport, h)
  | .keyExport h => some (opKeyExport, h)
  | .keyDelete h => some (opKeyDelete, h)
  | .kilnRandom h => some (opKilnRandom, h)
  | .kilnSign h => some (opKilnSign, h)
  | .kilnChallenge h => some (opKilnChallenge, h)
  | .debugUnlock h => some (opDebugUnlock, h)
  | .imageLoad h => some (opImageLoad, h)
  | .imageInfo h => some (opImageInfo, h)
  | .imageActivate h => some (opImageActivate, h)
  | .engineReload h => some (opEngineReload, h)
  | .diagCounters h => some (opDiagCounters, h)
  | .portIsolate h => some (opPortIsolate, h)
  | .tmrConfig h => some (opTmrConfig, h)
  | .tmrArm h => some (opTmrArm, h)
  | .tmrRead h => some (opTmrRead, h)
  | .timebaseRead h => some (opTimebaseRead, h)
  | .gpioConfig h => some (opGpioConfig, h)
  | .gpioWrite h => some (opGpioWrite, h)
  | .gpioRead h => some (opGpioRead, h)
  | .dbgRead h => some (opDbgRead, h)
  | .dbgWrite h => some (opDbgWrite, h)
  | .dbgEngine h => some (opDbgEngine, h)
  | _ => none

/-- The command that a packet of row `o` carries (R303). -/
def Op.cmd (o : Op) (h : HostCmd) : Cmd :=
  let opcode := BitVec.ofNat 16 o.opcode
  { hp := h.hp, seq := h.seq, flags := h.flags, target := h.target, opcode, payload := h.payload,
    raw := cmdBytes h.flags h.seq h.target opcode h.payload }

/-- The packet reaches Hearth alone and for the first time: the host port runs and is ready, no packet waits at a host
port, nothing is outstanding on the target, no long response is under way, and it repeats no exchange (R321-R324,
R329, R333). -/
structure Arrives (s : State) (o : Op) (h : HostCmd) : Prop where
  quiet : s.raised = []
  alone : ∀ q, (s.host q).landed = []
  runs : s.hostRuns h.hp = true
  ready : (s.host h.hp).ready = true
  short : h.payload.length ≤ 4092
  stream : (s.host h.hp).more = []
  first : ∀ x ∈ (s.host h.hp).open_, x.raw ≠ (o.cmd h).raw ∧ x.target ≠ h.target
  fresh : ∀ x ∈ (s.host h.hp).kept, x.raw ≠ (o.cmd h).raw

/-- The command passes the checks of R322: its target, the mode, FLAGS 0, the ownership, no chain on the target, the
target is free, the length, and no wait for the PLL (R322, R326, R334, R344, R347, R480). -/
structure Passes (s : State) (o : Op) (h : HostCmd) : Prop where
  target : h.target.toNat ∈ o.targets
  mode : (if s.dev.full then o.full else o.kindling) = true
  flags : h.flags = 0
  owner : o.anyHost = true ∨ s.owns h.hp h.target.toNat = true
  noChain : ∀ x ∈ (s.host h.hp).chains, x.target ≠ h.target
  held : s.targetHeld o (o.cmd h) = false
  gate : o.gate (o.cmd h) s = false
  lens : o.lens h.target.toNat h.payload.length = true ∧ h.payload.length ≤ o.bound
  pll : (o.needsPll (o.cmd h) && s.pllAwaited) = false

/-- A command that is accepted and runs at once. -/
def Accepted (s : State) (o : Op) (h : HostCmd) : Prop := Arrives s o h ∧ Passes s o h

/-- The command outstanding and unanswered (R323). -/
def State.opened (s : State) (c : Cmd) : State :=
  s.modHost c.hp fun x => { x with open_ := x.open_ ++ [⟨c.target, c.raw, false⟩] }

/-- The state with the packets of one response in the stream of the command's host port and the exchange outstanding,
answered; a response of one packet, or to APDU, is kept for a repeat (R322-R324, R329, R332). -/
def State.answeredPkts (u : State) (c : Cmd) (status : Nat) (pls : List (List Byte)) (baud : Option Nat := none) : State :=
  u.modHost c.hp fun x =>
    let pkts := respPkts c status baud pls
    { x with
      out := x.out ++ pkts.take 1
      more := x.more ++ pkts.drop 1
      open_ := x.open_ ++ [⟨c.target, c.raw, true⟩]
      kept := if pls.length ≤ 1 || c.opcode = 0x0203 then
          { target := c.target, raw := c.raw, pkts } :: x.kept.filter (·.target ≠ c.target)
        else x.kept }

/-- The state with the one packet of the command's response. -/
def State.answered (u : State) (c : Cmd) (status : Nat) (payload : List Byte) : State := u.answeredPkts c status [payload]

/-- The state with the command outstanding and in progress (R323). -/
def State.waiting (u : State) (c : Cmd) (j : Job) : State :=
  (u.modHost c.hp fun x => { x with open_ := x.open_ ++ [⟨c.target, c.raw, false⟩] }).begin c j

/-- Accepted, the command answers a status and a payload at once, and leaves `u` beside its answer. -/
def RepliesAs (i : Instr) (s : State) (o : Op) (h : HostCmd) (u : State) (status : Nat) (payload : List Byte) : Prop :=
  Accepted s o h → exec i s = .next (u.answered (o.cmd h) status payload)

/-- Accepted, the command answers OK with a payload at once, and leaves `u` beside its answer. -/
def Replies (i : Instr) (s : State) (o : Op) (h : HostCmd) (u : State) (payload : List Byte) : Prop :=
  RepliesAs i s o h u St.OK payload

/-- Accepted, the command leaves `u` and goes on as a job. -/
def Begins (i : Instr) (s : State) (o : Op) (h : HostCmd) (u : State) (j : Job) : Prop :=
  Accepted s o h → exec i s = .next (u.waiting (o.cmd h) j)

/-- The state with one event for each of the listed host ports, in their streams unless it is masked or lost (R308,
R330-R332). -/
def State.told (u : State) (l : List HostNum) (target : Byte) (code : Half) (payload : List Byte) : State :=
  l.foldl (fun v q => v.modHost q fun x => x.postEvent target code payload false) u

/-- The co-owners of the device, whom its events go to (R330). -/
def State.coOwners (s : State) : List HostNum := allHosts.filter fun h => s.devOwn.getLsbD h.val

/-- HOST of a claim or release: 0xFF stands for the sender (R335). -/
def hostNamed (h : HostCmd) : Option HostNum :=
  if byteAt h.payload 0 = 0xFF then some h.hp
  else if byteAt h.payload 0 < 4 then some (Fin.ofNat 4 (byteAt h.payload 0)) else none

/-- The sender may give port or transponder `h.target` to `q` (R335). -/
def MayClaim (s : State) (h : HostCmd) (q : HostNum) : Prop :=
  let o := s.ownerOf h.target.toNat
  (o = none ∧ q = h.hp) ∨ o = some h.hp ∨ (s.devOwn.getLsbD h.hp.val = true ∧ (o = none ∨ byteAt h.payload 1 = 1))

/-- The fields of a request that its port's engine serves lie within their ranges, and what the row needs is there: a
PICC, a session, a field, a key (R362-R365, R371, R372, R375, R598). -/
def ShipReady (s : State) (p : PortNum) : Instr → Prop
  | .transceive h => byteAt h.payload 0 ≤ 15 ∧ byteAt h.payload 1 ≤ 7 ∧ byteAt h.payload 2 ≤ 7 ∧
      leAt h.payload 4 4 < 2 ^ 28 ∧ s.fieldState p ≠ 0
  | .aActivate h => byteAt h.payload 0 ≤ 1 ∧ byteAt h.payload 1 ≤ 1 ∧
      (byteAt h.payload 2 ≤ 14 ∨ byteAt h.payload 2 = 0xFF) ∧ byteAt h.payload 3 ≤ 3 ∧ byteAt h.payload 4 ≤ 3
  | .bActivate h => byteAt h.payload 1 ∈ [1, 2, 4, 8, 16] ∧ byteAt h.payload 3 ≤ 3 ∧ byteAt h.payload 4 ≤ 3
  | .apdu h => byteAt h.payload 0 ≤ 1 ∧ (s.port p).svc.picc.isSome = true
  | .deselect _ | .vhbrParams _ => (s.port p).svc.picc.isSome = true
  | .vCmd h => byteAt h.payload 1 ≠ 1
  | .alScan h => 1 ≤ byteAt h.payload 0 ∧ byteAt h.payload 0 ≤ 32
  | .alSelect h => byteAt h.payload 8 &&& 0xFD = 0 ∧
      ∀ x ∈ (s.port p).svc.session, x.uid = h.payload.take 8
  | .alHalt h => byteAt h.payload 0 ≤ 1 ∧ (s.port p).svc.session.isSome = true
  | .alRead h => 1 ≤ byteAt h.payload 2 ∧ byteAt h.payload 2 ≤ 4 ∧ (s.port p).svc.session.isSome = true
  | .alWrite _ | .alLockBlock _ | .alAreaInfo _ | .alAuthPwd _ | .alSetPwd _ | .alReadCnt _ | .alIncCnt _ =>
      (s.port p).svc.session.isSome = true
  | .alUnlock h => byteAt h.payload 1 ≤ 63 ∧ (s.port p).svc.session.isSome = true ∧
      (s.keyFor (byteAt h.payload 1) [1] 1).isSome = true
  | .osGetId _ | .osReadPage _ | .osWritePage _ | .osLogin _ | .osLogout _ | .osSetPassword _ | .osLockPage _ => True
  | _ => False

/-- The rows that need a session or an activated PICC, their fields as they must be (R364, R372). -/
def NeedsTag (s : State) (p : PortNum) : Instr → Prop
  | .apdu h => byteAt h.payload 0 ≤ 1 ∧ (s.port p).svc.picc = none
  | .deselect _ | .vhbrParams _ => (s.port p).svc.picc = none
  | .alHalt h => byteAt h.payload 0 ≤ 1 ∧ (s.port p).svc.session = none
  | .alRead h => 1 ≤ byteAt h.payload 2 ∧ byteAt h.payload 2 ≤ 4 ∧ (s.port p).svc.session = none
  | .alWrite _ | .alLockBlock _ | .alAreaInfo _ | .alAuthPwd _ | .alSetPwd _ | .alReadCnt _ | .alIncCnt _ =>
      (s.port p).svc.session = none
  | .alUnlock h => byteAt h.payload 1 ≤ 63 ∧ (s.port p).svc.session = none
  | _ => False

/-- The engine of a port asked by a request message, the payload in its mailbox area (R449, R451). -/
def State.asked (s : State) (p : PortNum) (c : Cmd) (payload : List Byte) : State :=
  (s.putMbox p payload).ringEngine p [BitVec.ofNat 32 (c.opcode.toNat + payload.length * 65536),
    BitVec.ofNat 32 (1 + c.hp.val * 256 + c.seq.toNat * 65536)]

/-- The next state of a command that changes host port `q` alone, which becomes `h`. -/
def HostBecomes (i : Instr) (s : State) (q : HostNum) (h : HostPort) : Prop :=
  exec i s = .next { s with hosts := s.hosts.set q h }

/-- A count of HPERR one higher, saturating at 255 (R319, R343). -/
def HostPort.counted (h : HostPort) (f : Fld) (n : Nat) : HostPort := h.set f (min 255 (h.get f + n))

/-- A host port with the first packet of its stream taken: a final packet ends its target's outstanding command. -/
def HostPort.took (h : HostPort) (p : OutPkt) (r : List OutPkt) : HostPort :=
  { h with
    out := r, taken := 0, rst := false, baud := p.baud.getD h.baud
    open_ := if p.isFinal then dropFirst (fun o => o.target == p.target && o.answered) h.open_ else h.open_ }

/-- The host ports that TMR_EXPIRED of a channel goes to, its TARGET and the channel's number (R472). -/
def State.chanTold (s : State) (ch : Channel) : List HostNum :=
  if tget (s.chan ch) TMR_CTL.EVT = 1 then
    match ch with
    | .port p _ => (s.ownerOf p.val).toList
    | .global _ => s.coOwners
  else []

def chanTarget : Channel → Byte
  | .port p _ => BitVec.ofNat 8 p.val
  | .global _ => 0x0F

def chanIndex : Channel → Byte
  | .port _ c => BitVec.ofNat 8 c.val
  | .global c => BitVec.ofNat 8 c.val

/-- The command leaves the channel's registers at `t` and everything else as it was. -/
def ChanBecomes (i : Instr) (s : State) (ch : Channel) (t : Cells) : Prop := exec i s = .next (s.setChan ch t)

/-- The command leaves the channel's registers at `t`, which has reached its compare: ARMED is cleared, CMP is set, and
with EVT = 1 the owner hears of it (R461, R472). -/
def ChanFires (i : Instr) (s : State) (ch : Channel) (t : Cells) : Prop :=
  let u := s.setChan ch t
  exec i s = .next ((s.setChan ch (tset (tset t TMR_STAT.ARMED 0) TMR_STAT.CMP 1)).told (u.chanTold ch) (chanTarget ch)
    0x0B80 [chanIndex ch, BitVec.ofNat 8 (4 * tget t TMR_STAT.MISSED)])

/-- Nothing is on the air of the port and no frame is asked for. -/
structure AirIdle (s : State) (p : PortNum) : Prop where
  tx : (s.port p).framer.tx = none
  win : (s.port p).framer.win = none
  reqs : (s.port p).framer.reqs = 0

/-- A field request of the port may ramp: it has its carrier, the Grate is settled, and neither a thermal lockout nor
the duty limit holds it (R41). -/
structure MayRamp (s : State) (p : PortNum) : Prop where
  carrier : s.carrier p = true
  grate : (s.port p).grate.busy = false
  cool : (s.port p).field.lockout = false
  duty : s.dutySpent p = false

/-- A command in progress waits for the field of port `p` to be on, or off (R358). -/
def fieldOnOf (p : PortNum) (r : Running) : Bool := match r.job with | .fieldOn q _ => q = p | _ => false

def fieldOffOf (p : PortNum) (r : Running) : Bool := r.job == .fieldOff p

/-- The state with the first command that meets a test answered (R323). -/
def State.ended (u : State) (sel : Running → Bool) (r : Running) (status : Nat) (payload : List Byte) : State :=
  (({ u with running := dropFirst sel u.running }).respond r.cmd status payload).flush

/-- What waits for an idle point or a field that is off: the written capacitor setting and imported words (R290, R301). -/
def IdleWorkDone (s t : State) (p : PortNum) : Prop :=
  t.calGet (TUNE.APPLIED.nth p.val) = s.calGet (TUNE.CAP.nth p.val) ∧ ∀ w ∈ t.imports, w.1 ≠ p.val

/-- No imported word that waits for the port is for the register at an offset (R301). -/
def NoImport (s : State) (p : PortNum) (o : Nat) : Prop := ∀ i ∈ s.imports, i.1 = p.val → ∀ w ∈ i.2, w.1 ≠ o

/-- No command, calibration or distance-bounding run is in progress on the port. -/
structure NoWork (s : State) (p : PortNum) : Prop where
  running : ∀ r ∈ s.running, r.onPort p = false
  coupling : s.couplingSet.contains p.val = false
  db : (s.port p).svc.db = none

/-- The port as a fault with FIELD_EN = 1 leaves it: the field stopped as the cause says, the fault recorded, the active
tags and the session gone, and a pass ended where the cause ends it (R66, R191, R372). -/
def State.faulted (s : State) (p : PortNum) (c : Cause) : State :=
  let off := (s.pset p TXCTL.FIELD_EN 0).pset p TXSTAT.HELD 0
  let off := if c = .opened then off.pset p TXSTAT.STATE 3 else off.fieldIsOff p
  (((off.pset p TXSTAT.FAULT 1).pset p TXSTAT.CAUSE c.code).pset p TXSTAT.ANT_AT_FAULT (s.antenna p)).modSvc p fun v =>
    { v with
      session := none, picc := none, osgil := none
      faults := min 65535 (v.faults + 1)
      series := v.series && (c = .opened || c = .short)
      pass := if c = .opened ∨ c = .short then v.pass else v.pass.map fun x => { x with fault := some c.status } }

/-- The state after FIELD_FAULTED has gone to the owner of the port (R66, R408). -/
def State.faultTold (u s : State) (p : PortNum) (c : Cause) : State :=
  u.told (s.ownerOf p.val).toList (BitVec.ofNat 8 p.val) 0x0180
    ([BitVec.ofNat 8 c.code, BitVec.ofNat 8 (s.antenna p)] ++ leBytes 2 c.status)

/-- A port whose field is off and not asked for. -/
def FieldIdle (s : State) (p : PortNum) : Prop := s.fieldState p = 0 ∧ s.pget p TXCTL.FIELD_EN = 0

def setLockout (p : PortNum) (b : Bool) (s : State) : State :=
  s.modPort p fun q => { q with field := { q.field with lockout := b } }

def setVtxUv (p : PortNum) (b : Bool) (s : State) : State :=
  s.modPort p fun q => { q with field := { q.field with vtxUv := b } }

/-- The oldest packet of a FIFO lies whole at its head: its words, the last one with EOP, no Cinder among them. -/
def HeadPacket (f : Fifo) (ws : List FWord) : Prop :=
  f.sound ∧ ws.length ≤ 16 ∧ (∃ r, f.head = ws ++ r) ∧ (∃ a w, ws = a ++ [w] ∧ w.eop = true ∧ ∀ x ∈ a, x.eop = false) ∧
    ∀ x ∈ ws, x.pkt ≠ f.pktNo ∧ x.cin = false

/-- The bytes that words carry (R409). -/
def wordsData (ws : List FWord) : List Byte := ws.flatMap fun w => (wordBytes w.data).take w.vb

/-- The framer may send the port's oldest packet, which holds `ws` (R112, R415, R600). -/
structure MaySend (s : State) (p : PortNum) (ws : List FWord) : Prop where
  ready : s.canSend p = true
  settled : (s.port p).framer.frmPend = false
  enabled : s.pget p TXCTL.FIELD_EN = 1
  packet : HeadPacket (s.fifo p .tx) ws

/-- The frame of packet `ws` is on the air: its packet has left the FIFO, the modulation settings are loaded under AUTO,
and DB_BEGIN takes its reservation and its challenges (R52, R103, R225, R227, R229, R442). -/
structure FrameOut (s t : State) (p : PortNum) (ws : List FWord) : Prop where
  rest : t = { s with ports := t.ports }
  others : ∀ q, q ≠ p → t.port q = s.port q
  framer : let f := (s.port p).framer
    let x := txFrame f.frm (wordsData ws)
    (t.port p).framer = { f with reqs := f.reqs - 1, tx := some x, held := false, holdCounted := false, reserved := x.dbBegin }
  fifo : (t.fifo p .tx).row = (s.fifo p .tx).row.drop ws.length ∧ (t.fifo p .rx) = s.fifo p .rx
  auto : s.pget p MODCTL.AUTO = 1 → let m := modDefaults (s.port p).framer.frm
    t.pget p MODCTL.DEPTH = m.1 ∧ t.pget p MODCTL.FALL = m.2.1 ∧ t.pget p MODCTL.RISE = m.2.2 ∧ t.pget p MODCTL.SHAPE = 0
  fixed : s.pget p MODCTL.AUTO = 0 → t.pget p MODCTL.DEPTH = s.pget p MODCTL.DEPTH ∧
    t.pget p MODCTL.CLAMP = if 101 ≤ s.pget p MODCTL.DEPTH ∧ s.pget p MODCTL.DEPTH ≤ 254 then 1 else 0
  regs : (txFrame (s.port p).framer.frm (wordsData ws)).dbBegin = false →
    (t.port p).tim = (s.port p).tim ∧ ∀ o, o ≠ MODCTL.reg → o ≠ TX_STAT.reg → (t.port p).word o = (s.port p).word o
  begun : (txFrame (s.port p).framer.frm (wordsData ws)).dbBegin = true →
    (t.port p).tim = { chal := (s.port p).word DBCHAL1.reg ++ (s.port p).word DBCHAL0.reg
                       dint := (s.trimAt 4 p.val (s.pget p TXMON.TJ) % 65536).toNat, snrSum := 0, excess := [], onsets := [] }

/-- A count of SCHCNT one higher, saturating (R220). -/
def schCounted (f : Fld) (s : State) : State := s.coordSet f (min 65535 (s.coordGet f + 1))

/-- The next state of a command whose effect is `u`: what `u` has made ready reaches the host ports, and the queue is as
it was (R332). -/
def Leaves (i : Instr) (s u : State) : Prop := exec i s = .next { u.flush with pending := s.pending }

/-- The state with an event for the owner of a target (R330). -/
def State.toldOwner (u : State) (t : Nat) (code : Half) (payload : List Byte) : State :=
  u.told (u.ownerOf t).toList (BitVec.ofNat 8 t) code payload

/-- A message of an engine stands in DBH_MSG: its kind, its first word's upper part ignored (R449, R451). -/
def MessageWaits (s : State) (p : PortNum) (kind : Nat) : Prop :=
  s.pget p DBH_RING.RING = 1 ∧ wget ((s.port p).word DBH_MSG.reg) 0 8 = kind

/-- A slot of a pass is in progress on an antenna. -/
def SlotOn (s : State) (p : PortNum) (x : Pass) (ant : Nat) : Prop :=
  (s.port p).svc.pass = some x ∧ x.slot = some ant

/-- The entry of a sighted tag that is neither new nor cross-read: its times, counts and flags (R203). -/
def seenEntry (s : State) (p : PortNum) (m : Sighted) (e : Entry) : Entry :=
  { e with
    last := s.seconds, seen := min 65535 (e.seen + 1), phase := m.phase, passseq := (s.port p).svc.passNum % 256, miss := 0
    flags := bitsOn (bitsOff e.flags (flagHalted + flagSeparated)) (if m.separated then flagSeparated else 0) }

/-- The excess delay that a slot's onset stands for, in 0.25 ns, late or not (R234). -/
def lateOf (s : State) (p : PortNum) (b : Option Burst) : Nat :=
  match b with
  | some b => bit (decide (max 1 (s.pget p DBCTL.THRESH) < roundQ b.onset.toNat - (s.pget p DBINT.DINT : Int) -
      signed 16 (s.pget p DBDLY.OFS) - (s.pget p DBDLY.TAGDLY : Int)))
  | none => 0

/-- A command in progress waits for the engine of a port to be ready (R356, R456). -/
def engineStartOf (p : PortNum) (r : Running) : Bool := r.job == .engineStart p

/-- A command in progress was shipped to the engine of a port, or is its distance-bounding run (R451, R246). -/
def engineServes (p : PortNum) (r : Running) : Bool := r.job == .db p || r.job == .shipped p

def shippedTo (p : PortNum) (r : Running) : Bool := r.job == .shipped p

/-- No group counts the port (R220). -/
def Ungrouped (s : State) (p : PortNum) : Prop := s.groupOf p = none

/-- Both ports of the domain are powered. -/
def DomainOn (s : State) (p : PortNum) : Prop := s.portOn p = true ∧ s.portOn (sibling p) = true

/-- A command in progress waits for Kiln's verdict on its engine image. -/
def reloads (r : Running) : Bool := match r.job with | .reload _ _ => true | _ => false

/-- Accepted, the command leaves `u`, in which it is outstanding or answered. -/
def Runs (i : Instr) (s : State) (o : Op) (h : HostCmd) (u : State) : Prop := Accepted s o h → Leaves i s u

/-- The one run of distance bounding in progress on a port. -/
def dbOf (p : PortNum) (r : Running) : Bool := r.job == .db p

/-- The CAL_RUN in progress on a port. -/
def calRunOf (p : PortNum) (r : Running) : Bool := match r.job with | .calRun q _ => q = p | _ => false

/-- The CAL_COUPLING in progress. -/
def couples (r : Running) : Bool := match r.job with | .coupling _ => true | _ => false

/-- The state in which a distance-bounding run has its nonce and its challenges, and its engine the request (R246). -/
def State.dbAsked (s : State) (p : PortNum) (c : Cmd) (d : DbRun) (nr chal : List Byte) (k : Nat) : State :=
  ((((({ s with free := k } : State).putChal p (maskBits d.n chal)).pset p TXCTL.RAPID_EN 1).modSvc p fun v =>
    { v with db := some { d with nr, chal := maskBits d.n chal } }).asked p c (c.payload ++ nr))

/-- What a command that needs random bytes does once it may: the TRNG delivers, or it waits for the TRNG's test, or the
TRNG has failed (R517); the run gets free bytes and is shipped, or its request is too long for the mailbox. -/
def StartsRun (i : Instr) (s : State) (o : Op) (h : HostCmd) (d : DbRun) : Prop :=
  let p := toPort h.target.toNat
  (s.kilnGet KWSTAT.TRNG = 1 → h.payload.length + 8 ≤ s.mboxLen p → Accepted s o h → ∃ nr chal k, nr.length = 8 ∧ chal.length = 8 ∧
    exec i s = .next ((s.dbAsked p (o.cmd h) d nr chal k).waiting (o.cmd h) (.db p))) ∧
  (s.kilnGet KWSTAT.TRNG = 1 → s.mboxLen p < h.payload.length + 8 → RepliesAs i s o h s St.BAD_LENGTH []) ∧
  (s.kilnGet KWSTAT.TRNG = 3 → RepliesAs i s o h s St.INTERNAL_ERROR []) ∧
  (s.kilnGet KWSTAT.TRNG ≠ 1 → s.kilnGet KWSTAT.TRNG ≠ 3 → Begins i s o h s .kiln)

/-- An accepted command that takes `n` random bytes: it runs while the TRNG delivers, waits as a Kiln operation during the
TRNG's test, and ends with INTERNAL_ERROR once the TRNG has failed (R517). The bytes are free. -/
def TakesRandom (i : Instr) (s : State) (o : Op) (h : HostCmd) (n : Nat) (u : List Byte → State) (payload : List Byte → List Byte) : Prop :=
  (s.kilnGet KWSTAT.TRNG = 1 → Accepted s o h → ∃ l k, l.length = n ∧
    exec i s = .next (({ u l with free := k } : State).answered (o.cmd h) St.OK (payload l))) ∧
  (s.kilnGet KWSTAT.TRNG = 3 → RepliesAs i s o h s St.INTERNAL_ERROR []) ∧
  (s.kilnGet KWSTAT.TRNG ≠ 1 → s.kilnGet KWSTAT.TRNG ≠ 3 → Begins i s o h s .kiln)

/-- The text that DEBUG_UNLOCK's signature covers: its level, the nonce and the die (R528). -/
def debugText (level : Nat) (nonce : List Byte) : List Byte :=
  [0x44, BitVec.ofNat 8 level] ++ nonce ++ padTo 8 Config.otpLot ++ [Config.otpWafer, Config.otpDieX, Config.otpDieY]

/-- Kiln has the result of command `r`, and it is no operation of port T. -/
def KilnEnds (s : State) (r : Running) (opcode : Half) : Prop :=
  s.findJob s.kilnEnds = some r ∧ r.cmd.opcode = opcode ∧ r.cmd.target ≠ 8 ∧ s.kilnGet KWSTAT.STATE = 1 ∧
    s.kilnGet KWSTAT.HARVEST = 0 ∧ s.kilnGet KWSTAT.TRNG = 1

/-- The state with an event for every co-owner of the device (R330). -/
def State.toldDev (u : State) (code : Half) (payload : List Byte) : State := u.told u.coOwners 0x0F code payload

/-- Every host port is told DEV_READY and is ready for the packets it holds (R333, R397). -/
def State.readyTold (s : State) (mode imgStat : Nat) : State :=
  (allHosts.foldl (fun (t : State) q => t.modHost q fun x => { x with ready := true })
    { s with dev := { s.dev with imgStat, readyCount := s.dev.readyCount + 1 } }).told allHosts 0x0F 0x0001
      (leBytes 1 (s.aonGet RSTCAUSE.LAST) ++ leBytes 1 mode
        ++ leBytes 4 (if mode = 1 then s.imageNum s.kiln.active 8 4 else 0) ++ leBytes 1 imgStat)

/-- No distance-bounding run is in progress on any port. -/
def NoRuns (s : State) : Prop := ∀ p, (s.port p).svc.db = none

/-- A TAMPER record queued and KILN_TAMPER told (R531). -/
def State.tamperTold (s : State) (input response slots power : Nat) : State :=
  (s.ash 0x0030 0x10 (leBytes 1 input ++ leBytes 1 response ++ leBytes 1 slots ++ leBytes 1 power)).toldDev 0x0980
    [BitVec.ofNat 8 input, BitVec.ofNat 8 response]

/-- The record that Kiln forms from a queued item, with the chain value over the last one (R533, R537). -/
def State.nextRecord (s : State) (i : AshItem) : AshRec :=
  let body := leBytes 4 s.kiln.logSeq ++ leBytes 4 i.time ++ leBytes 2 i.type ++ leBytes 1 i.source ++ leBytes 1 i.flags ++ padTo 18 i.data
  ⟨body, Config.sha256 ((match s.kiln.log.getLast? with
    | some r => r.chain
    | none => Config.sha256 (Config.p256Public Config.deviceKey)) ++ body)⟩

/-- The log with a record appended; of 4,096 the oldest gives its chain value to the anchor (R537). -/
def State.logged (s : State) (i : AshItem) : State :=
  { s with kiln := { s.kiln with
      log := (if s.kiln.log.length < 4096 then s.kiln.log else s.kiln.log.drop 1) ++ [s.nextRecord i]
      anchor := if s.kiln.log.length < 4096 then s.kiln.anchor else (s.kiln.log.head?.map (·.chain)).getD []
      logSeq := s.kiln.logSeq + 1 } }

/-- What no reset keeps (R494, R502): the host ports, the ownership, the commands in progress, the coordination block, the
tag table, the calibration results, the clocks, the memories, the timers and Kiln's own state. -/
structure Cleared (t : State) : Prop where
  host : t.hosts = Vector.replicate 4 .reset ∧ t.running = [] ∧ t.owner = Vector.replicate 9 (some 0) ∧ t.devOwn = 1
  blocks : t.coord = .reset ∧ t.cal = [] ∧ t.pcr = [] ∧ t.gtmr = Vector.replicate 8 []
  memories : t.sram = [] ∧ t.spill = [] ∧ t.table = []
  calibration : t.trims = [] ∧ t.staged = [] ∧ t.imports = [] ∧ t.xchkPend = [] ∧ t.calDue = []
  ports : ∀ p, (t.port p).regs = [] ∧ (t.port p).rxf = .reset ∧ (t.port p).txf = .reset ∧ (t.port p).eng = .reset ∧
    (t.port p).framer = .reset ∧ (t.port p).tmr = Vector.replicate 4 [] ∧ (t.port p).svc = .reset
  kiln : t.kiln.nonceX = none ∧ t.kiln.nonceD = none ∧ t.kiln.queue = [] ∧ t.kiln.glitchTimes = [] ∧
    t.kiln.lockTamper = false ∧ t.kiln.lockGlitch = false
  device : t.dev.inReset = true ∧ t.dev.power = .run ∧ t.dev.full = false ∧ t.dev.boot = false ∧ t.dev.jtagHalt = false

/-- What every reset keeps: the flash and what Kiln and port T hold in NVM (R502). -/
structure NvmKept (s t : State) : Prop where
  flash : t.flash = s.flash ∧ t.flashState = s.flashState
  keys : t.kiln.slots = s.kiln.slots ∧ t.kiln.dbgFails = s.kiln.dbgFails ∧ t.kiln.secver = s.kiln.secver ∧
    t.kiln.active = s.kiln.active
  log : t.kiln.log = s.kiln.log ∧ t.kiln.logSeq = s.kiln.logSeq ∧ t.kiln.anchor = s.kiln.anchor
  records : t.xpdr.recs = s.xpdr.recs

/-- No Kiln operation is in progress, so no commit is cut. -/
def NoKilnWork (s : State) : Prop := ∀ r ∈ s.running, r.job ≠ .kiln

/-- The device out of reset under Kindling: its straps sampled, its watchdog armed, the crystal started, the host ports
enabled, P0's domain powered and Grate word 0 shifted (R492, R496-R498). -/
def State.released (s : State) (boot0 boot1 : Bool) : State :=
  { s with
    dev := { s.dev with inReset := false, boot := true, full := false, boot0Pin := boot0, boot1Pin := boot1, boot0, boot1
                        resetCauses := [], readyCount := 0, wdtCount := 0, power := .run }
    pcr := Cells.set .pcr (Cells.set .pcr s.pcr WDTCTL.EN 1) CLKCTL.XTAL_EN 1
    hosts := s.hosts.map fun x => { x with awake := true }
    ports := Vector.ofFn fun p : PortNum => { s.port p with
      grate := { (s.port p).grate with kept := 0 }
      svc := { (s.port p).svc with powered := p.val < 2 || (s.port p).svc.powered } } }

/-- Key lock after the tamper inputs are read: a present tamper level, a hot or glitched Kiln, or level 2 (R531). -/
def State.lockedBy (s : State) (tamper : Bool) : State :=
  ({ s with kiln := { s.kiln with lockTamper := tamper } } : State).kilnSet KWSTAT.KEYLOCK
    (bit (tamper || s.kiln.lockHot || s.kiln.lockGlitch || s.kilnGet KWSTAT.DEBUG == 2))

/-- The device awake on the fast RC: the causes recorded, the crystal and the PLL started, the host ports enabled, and the
Ember baselines dropped (R480, R482-R485, R490). -/
def State.woken (s : State) (fired : Nat) : State :=
  { s with
    aon := Cells.set .aon s.aon WKCAUSE.SOURCES fired
    dev := { s.dev with
      wdtCount := if s.dev.power = .sleep then 0 else s.dev.wdtCount
      power := .run, wokeAt := some fired, embBase := [], embRepeat := [] }
    pcr := Cells.set .pcr (Cells.set .pcr s.pcr CLKCTL.XTAL_EN 1) CLKCTL.PLL_EN 1
    hosts := s.hosts.map fun x => { x with awake := true } }

/-- A probe counted in EMBSTAT (R490). -/
def State.probed (s : State) : State := s.aonSet EMBSTAT.PROBES (min 65535 (s.aonGet EMBSTAT.PROBES + 1))

/-- The enabled wake sources among some that fire; without VIO those of the VIO balls do not (R484, R556). -/
def State.seen (s : State) (sources : BitVec 10) : Nat :=
  (if s.dev.vioOk then sources.toNat else sources.toNat &&& 0x3C2) &&& s.aonGet WKEN.SOURCES

/-- Ember probes a port: wake source 6 is enabled, the device is in DOZE, SLEEP or OFF with VSYS, and the port is set and
not isolated (R489, R490). -/
def EmberOn (s : State) (p : PortNum) : Prop :=
  nbit (s.aonGet WKEN.SOURCES) 6 = true ∧ (s.dev.power = .doze ∨ s.dev.power = .sleep ∨ s.dev.power = .off) ∧
    nbit (s.aonGet EMBCTL.PORTS) p.val = true ∧ (s.port p).svc.svc ≠ .isolated ∧ s.dev.vsysOk = true

/-- A measurement lies beyond a threshold of its baseline: amplitude in steps of 0.25 dB, phase in steps of 1.40625
degrees, a threshold of 0 never (R491). -/
def Exceeds (s : State) (base : Int × Int) (amp phase : Int) : Prop :=
  (s.aonGet EMBTH.AMP_TH ≠ 0 ∧ 250 * s.aonGet EMBTH.AMP_TH < (amp - base.1).natAbs) ∨
    (s.aonGet EMBTH.PHASE_TH ≠ 0 ∧ 140625 * s.aonGet EMBTH.PHASE_TH < (phaseDiff phase base.2).natAbs)

/-- Checks 2 to 6 of R322 as a row states them. -/
structure EarlyOk (s : State) (o : Op) (h : HostCmd) : Prop where
  target : h.target.toNat ∈ o.targets
  mode : (if s.dev.full then o.full else o.kindling) = true
  flags : h.flags.toNat < 4
  owner : o.anyHost = true ∨ s.owns h.hp h.target.toNat = true

/-- The target is free for the command: no other host port's command, no pass, no closed or isolated port holds it off
(R323, R336, R347). -/
def TargetFree (s : State) (o : Op) (h : HostCmd) : Prop :=
  s.targetHeld o (o.cmd h) = false ∧ o.gate (o.cmd h) s = false

/-- The host port has no chain on the command's target. -/
def NoChain (s : State) (h : HostCmd) : Prop := ∀ x ∈ (s.host h.hp).chains, x.target ≠ h.target

/-- The command as the packet of a segment with MORE (R326). -/
def segOf (h : HostCmd) : HostCmd := { h with flags := h.flags ||| 1 }

/-- The command as the packet that aborts a chain (R327). -/
def abortOf (h : HostCmd) : HostCmd := { h with flags := h.flags ||| 2 }

/-- The state with a segment acknowledged: one packet with SEGACK, kept for a repeat (R326). -/
def State.acked (u : State) (c : Cmd) : State :=
  u.modHost c.hp fun x =>
    let p := respPkt c St.OK [] 2 true none
    { x with
      out := x.out ++ [p], open_ := x.open_ ++ [⟨c.target, c.raw, true⟩]
      kept := { target := c.target, raw := c.raw, pkts := [p] } :: x.kept.filter (·.target ≠ c.target) }

/-- The state with a chain on a target of a host port, in place of one that was there (R326). -/
def State.chained (u : State) (hp : HostNum) (target : Byte) (opcode : Half) (data : List Byte) : State :=
  u.modHost hp fun x => { x with
    chains := { target, opcode, data, expired := false } :: x.chains.filter (·.target ≠ target) }

/-- The state without the chain on a target. -/
def State.unchained (u : State) (hp : HostNum) (target : Byte) : State :=
  u.modHost hp fun x => { x with chains := x.chains.filter (·.target ≠ target) }

/-- A host command that changes port T's records: behind a field session it waits and PENDING answers it, else Kiln commits it
once the commands that still wait are committed (R267). -/
def Changes (i : Instr) (s : State) (o : Op) (h : HostCmd) : Prop :=
  let c := o.cmd h
  (s.tSession = true → RepliesAs i s o h { s with xpdr := { s.xpdr with deferred := s.xpdr.deferred ++ [⟨c, false⟩] } } St.PENDING []) ∧
  (s.tSession = false → s.xpdr.deferred = [] → Begins i s o h s .kiln) ∧
  (s.tSession = false → Runs i s o h ((iter State.commitDeferred 8 (s.opened c)).begin c .kiln))

/-- The fields of XPDR_CONFIG lie within their ranges, and Osgil's areas are there where Osgil is enabled (R172, R380). -/
def XpdrConfigFits (s : State) (l : List Byte) : Prop :=
  byteAt l 0 < 16 ∧ (∀ i ∈ [1, 2, 3], byteAt l i < 64 ∨ byteAt l i = 0x7F) ∧ byteAt l 14 < 4 ∧ byteAt l 15 < s.areaCount ∧
    byteAt l 16 < 16 ∧ byteAt l 17 < 64 ∧ (∀ i, i < 16 → byteAt l (20 + i) < s.areaCount ∨ byteAt l (20 + i) = 0xFF) ∧
    (nbit (byteAt l 0) 2 = true → areaBlocks (s.area 0) = 4 ∧ areaBlocks (s.area 1) = 12)

/-- A layout of areas: each with blocks, flags and LIMIT in range, 1,024 blocks in all, and Osgil's areas where Osgil is
enabled (R172, R259). -/
def AreaSetFits (s : State) (l : List Byte) : Prop :=
  let n := byteAt l 0
  (∀ i, i < n → setBlocks l i ≠ 0 ∧ byteAt l (6 + 8 * i) < 4 ∧ byteAt l (7 + 8 * i) ≠ 0) ∧ setFirst l n = 1024 ∧
    (s.tOsgil = true → setBlocks l 0 = 4 ∧ setBlocks l 1 = 12)

/-- Kiln can end the operation of port T that `r` began. -/
def KilnEndsT (s : State) (r : Running) : Prop :=
  s.findJob s.kilnEnds = some r ∧ r.cmd.target = 8 ∧ s.kilnGet KWSTAT.STATE = 1 ∧ s.kilnGet KWSTAT.HARVEST = 0 ∧
    needsRandom r.cmd.opcode.toNat = false

/-- The frames of the air and the body of each, after its code (R144, R168). -/
def airFrame : Instr → Option (LinkProto × List Byte)
  | .scan b | .select b | .aelyrHalt b | .read b | .write b | .lockBlock b | .areaInfo b | .authPwd b | .setPwd b
  | .getNonce b | .unlock b | .readCnt b | .incCnt b | .dbBegin b | .dbEnd b => some (.aelyr, b)
  | .getId b | .readPage b | .writePage b | .login b | .logout b | .setPassword b | .lockPage b => some (.osgil, b)
  | .unknownCode p _ b => some (p, b)
  | _ => none

/-- Port T hears a frame: a field, T and the protocol enabled, a frame that fits, and no frame of the other protocol accepted
since the field appeared (R135, R171, R257). -/
def Hears (s : State) (p : LinkProto) (body : List Byte) : Prop :=
  s.xget XSTAT.FIELD = 1 ∧ s.tEn = true ∧
    (p = .aelyr → s.tAelyr = true ∧ body.length ≤ 29) ∧ (p = .osgil → s.tOsgil = true) ∧
    (s.xpdr.spoke = none ∨ s.xpdr.spoke = some p)

/-- The state in which a frame that is heard is acted on: nothing is sent yet, DB_ARMED ends unless its phase is complete, a
frame that fits its command starts the session, and one that touches NVM waits for a host commit and for Kiln's start
(R153, R166, R171, R250, R267, R495). -/
def State.heard (s : State) (p : LinkProto) (fits nvm : Bool) : State :=
  let u := s.tQuiet.dbDisarm
  let v := if fits then u.tAccept p else u
  if nvm then v.tWait else v

/-- The number of a protocol in XSTAT.PROTO. -/
def protoCode : LinkProto → Nat
  | .aelyr => 1
  | .osgil => 2

/-- T with nothing of a session left: no area open, no kept reply, no nonce, no distance bounding. -/
def Xpdr.closed (x : Xpdr) : Prop :=
  x.opens = [] ∧ x.dbArmed = false ∧ x.dbSync = false ∧ x.keptReq = [] ∧ x.keptRsp = [] ∧ x.nonce = none ∧ x.sibarm = false

/-- The state with a record written. -/
def State.recordIs (s : State) (k : Nat) (r : NvRec) : State := { s with xpdr := { s.xpdr with recs := Sparse.put s.xpdr.recs k r } }

/-- Kiln works and may commit: its self-test has not failed, and in harvest mode the commit reserve is met (R270, R535). -/
def MayCommit (s : State) : Prop := s.kilnGet KWSTAT.STATE ≠ 2 ∧ s.ashMay = true

/-- The copies that a commit writes into record `k`: SEQ goes one up from the copy in force. -/
def State.newCopy (s : State) (k : Nat) (data : List Byte) (locked : Bool) : NvCopy :=
  { data := padTo 16 data, seq := ((s.nvRead k).map (·.seq + 1)).getD 1, locked, ok := true }

/-- The outcome of a command that T deferred, in XPDR_WRITE_DONE: 0 committed, 1 committed over a write of the field, 2 refused,
3 not committed (R268). -/
def deferredOutcome (overtaken : Bool) (res : Nat) : Nat :=
  if res = 0 then bit overtaken else if res = 3 then 3 else 2

/-- The state with the kept reply of a repeat-safe command (R159). -/
def State.keeping (u : State) (req : List Byte) : State :=
  { u with xpdr := { u.xpdr with keptReq := req, keptRsp := u.xpdr.reply } }

/-- The commands that T takes in ACTIVE alone, with the length of each (R147, R155-R161). -/
def activeCmd : Instr → Option (List Byte × Nat)
  | .read b => some (b, 3) | .write b => some (b, 18) | .lockBlock b => some (b, 2) | .areaInfo b => some (b, 1)
  | .authPwd b => some (b, 6) | .setPwd b => some (b, 6) | .getNonce b => some (b, 0) | .unlock b => some (b, 10)
  | .readCnt b => some (b, 1) | .incCnt b => some (b, 4)
  | _ => none

/-- The opening of the emergency latch with VALUE `value` and CNT `cnt` in its record, or the end of the arming where the
record cannot be committed (R275). -/
def State.openedWith (u : State) (value cnt : Nat) : State → Prop := fun t =>
  let vs := u.xget XEOSTAT.VSTORE
  let w := ((u.ashCommit { type := 0x0052, source := 8, flags := u.ashFlags, time := u.ashTime, data := leBytes 2 vs ++ leBytes 4 value ++ leBytes 1 cnt ++ leBytes 1 (u.xget XSTAT.SUPPLY) }).eoDisarm.xset XEOSTAT.FIRING 1).xset XEOSTAT.FIRED 1
  (¬MayCommit u → t = u.eoDisarm) ∧
  (MayCommit u → u.xget XSTAT.SUPPLY = 1 → u.hostOn = true → t = w.raiseOwner 8 0x0682 (leBytes 2 vs ++ leBytes 4 value)) ∧
  (MayCommit u → u.xget XSTAT.SUPPLY ≠ 1 ∨ u.hostOn = false → t = w)

/-- The records of a log from the oldest on, each record's chain value building on the one before it (R537). -/
def Chained (before : List Byte) : List AshRec → Prop
  | [] => True
  | r :: l => r.chain = Config.sha256 (before ++ r.body) ∧ Chained r.chain l

/-- The records of a log from the oldest on, each BODY of 30 bytes with its SEQ in bytes 0-3 and SEQ rising by 1 (R533). -/
def Numbered (seq : Nat) : List AshRec → Prop
  | [] => True
  | r :: l => r.body.length = 30 ∧ r.body.take 4 = leBytes 4 seq ∧ Numbered (seq + 1) l

/-- The log as R533 and R537 have it: the last 4,096 records, numbered up to the next SEQ, chained from the SHA-256 of
the device public key while record 0 is held, and from the anchor once it has been overwritten. -/
def AshSound (s : State) : Prop :=
  s.kiln.log.length = min 4096 s.kiln.logSeq ∧
  Numbered (s.kiln.logSeq - s.kiln.log.length) s.kiln.log ∧
  Chained (if s.kiln.logSeq = s.kiln.log.length then Config.sha256 (Config.p256Public Config.deviceKey) else s.kiln.anchor) s.kiln.log

end Sys2Proof.Machine
end

