-- ==== Sys2Proof/Certificates/Slice0/Obligations.lean ====
section
/-! DEFINITION. The statements about the block: one per kind of command or state, each naming the rules it rests on. -/

open Sys2Proof Sys2Proof.Machine

/-- For every state whose queue is c :: r, a step is exec of c on that state with the queue r. (R332) -/
def Obligations.AStepIsTheCommandInFront : Prop :=
  ∀ (s : State) (c : Instr) (r : List Instr), s.pending = c :: r → step s = exec c { s with pending := r }

/-- Every command of the table answers a next state from every state, keeps the queue, and has handed all it made ready to
the host ports. On an empty queue a step is one period of the slow clock (the model's own choice, log entry 1), which
keeps the log and SECVER. (R332) -/
def Obligations.EveryCommandAnswersAndAnEmptyQueueTicks : Prop :=
  (
    ∀ (i : Instr) (s : State), ∃ t, exec i s = .next t ∧ t.pending = s.pending ∧ t.raised = []) ∧
  (
    ∀ s : State, s.pending = [] → step s = .next s.tick ∧ s.tick.kiln.log = s.kiln.log ∧ s.tick.kiln.secver = s.kiln.secver)

/-- AshSound is kept by every step from every state: the log holds the last 4,096 records, each BODY of 30 bytes with its
SEQ in bytes 0-3 and SEQ rising by 1 up to the next SEQ; each record's chain value is the SHA-256 of the chain value
before it and its BODY; the value before record 0 is the SHA-256 of the device public key, and once the oldest record
has been overwritten the anchor holds the chain value that the oldest record held builds on. (R537) -/
def Obligations.EveryStepKeepsTheAshLogSound : Prop :=
  ∀ s t : State, AshSound s → step s = .next t → AshSound t

/-- From every state whose log holds at most 4,096 records, a step leaves SECVER as high or higher, and adds records at
the end of the log, of which the last 4,096 stay, with SEQ counted up by as many: no step changes, reorders or removes
a record but the oldest ones of a full log. (R522, R533) -/
def Obligations.TheLogOnlyGrowsAndSecverNeverFalls : Prop :=
  ∀ s t : State, s.kiln.log.length ≤ 4096 → step s = .next t →
    s.kiln.secver ≤ t.kiln.secver ∧
    ∃ new : List AshRec, t.kiln.logSeq = s.kiln.logSeq + new.length ∧
      t.kiln.log = (s.kiln.log ++ new).drop ((s.kiln.log ++ new).length - 4096)

/-- After reset HP0 owns P0-P7 and T and is the only co-owner of the device ("Ownership" of chapter 11); every reader port
has the inventory parameters of R173; HP2 runs at 115,200 baud; every field is off and every domain unpowered; the log
is sound (AshSound) and the queue is empty. That the log is empty is the model's choice (log entry 14). (R173, R313,
R533, R537) -/
def Obligations.ResetLeavesTheOwnershipTheDefaultsAndTheLog : Prop :=
  (∀ k : Fin 9, State.reset.owner[k] = some 0) ∧
  (∀ h : HostNum, State.reset.devOwn.getLsbD h.val = decide (h = 0)) ∧
  (∀ p : PortNum, (State.reset.port p).svc.inv =
    leBytes 8 1 ++ leBytes 2 0 ++ [1, 0] ++ [0xFF, 0xFF, 0xFF, 0xFF] ++ leBytes 2 50 ++ [4, 1, 1, 16, 0, 2, 3, 10, 3, 0] ++ leBytes 2 0) ∧
  (∀ h : HostNum, h = 2 → (State.reset.host h).baud = 115200 / 100) ∧
  (∀ p : PortNum, (State.reset.port p).svc.powered = false ∧ State.reset.pget p TXCTL.FIELD_EN = 0) ∧
  AshSound State.reset ∧ State.reset.pending = []

/-- On a ready engine ADD, ADC, SUB, SBC, ADDI and SUBI write rd with the sum or difference and take C, V, Z and N from
the exact one; CMP and CMPI set the same flags and write no register; NEG writes 0 - ra, with C = 1 only for 0 and V =
1 only for 0x8000_0000, whose result is 0x8000_0000. PC moves on by 4, and nothing else of the state changes but the
cycle counter. (R433) -/
def Obligations.EngineArithmeticAndComparesSetExactFlags : Prop :=
  (
    ∀ (s : State) (e : PortNum) (rd ra rb : RegNum) (imm : BitVec 18), EngReady s e →
      let a := s.reg e ra
      let b := s.reg e rb
      let i := imm.signExtend 32
      let c := bit (s.eswBit e 2)
      let sum := fun (x y : Word) (k : Nat) (w : Word) (t : State) =>
        FlagsOf s t e w (some (decide (2 ^ 32 ≤ x.toNat + y.toNat + k))) (some (decide (w.toInt ≠ x.toInt + y.toInt + k)))
      let diff := fun (x y : Word) (k : Nat) (w : Word) (t : State) =>
        FlagsOf s t e w (some (decide (y.toNat + k ≤ x.toNat))) (some (decide (w.toInt ≠ x.toInt - y.toInt - k)))
      let compares := fun (x : Instr) (y : Word) => Answers x s fun t =>
        RegsSame s t e ∧ diff a y 0 (a - y) t ∧ t.pc e = s.pc e + 4 ∧ RegInstrFrame s t e
      Computes (.add e rd ra rb) s e rd (a + b) (sum a b 0 (a + b)) ∧
      Computes (.adc e rd ra rb) s e rd (a + b + BitVec.ofNat 32 c) (sum a b c (a + b + BitVec.ofNat 32 c)) ∧
      Computes (.sub e rd ra rb) s e rd (a - b) (diff a b 0 (a - b)) ∧
      Computes (.sbc e rd ra rb) s e rd (a - b - BitVec.ofNat 32 (1 - c)) (diff a b (1 - c) (a - b - BitVec.ofNat 32 (1 - c))) ∧
      Computes (.addi e rd ra imm) s e rd (a + i) (sum a i 0 (a + i)) ∧
      Computes (.subi e rd ra imm) s e rd (a - i) (diff a i 0 (a - i)) ∧
      compares (.cmp e ra rb) b ∧ compares (.cmpi e ra imm) i) ∧
  (
    ∀ (s : State) (e : PortNum) (rd ra : RegNum), EngReady s e →
      let a := s.reg e ra
      Computes (.neg e rd ra) s e rd (0 - a) (fun t => FlagsOf s t e (0 - a) (some (a == 0)) (some (a == 0x80000000))) ∧
      (a = 0x80000000 → 0 - a = 0x80000000))

/-- AND, OR, XOR, NOT, ANDI, ORI, XORI, MUL and MULH write their value and set Z and N; MOV, MOVI and MOVHI set no flag;
NOP and TST write no register. LSL, LSR, ASR and ROR take their count from the low byte of rb or from the immediate,
by the table of R435 for every count 0 to 255: C is the last bit shifted out (unchanged for 0, 0 beyond 32; for ROR
bit 31 of the result), V never changes. PC moves on by 4, and nothing else changes but the cycle counter. (R435) -/
def Obligations.EngineLogicMovesAndShiftsFollowTheirTables : Prop :=
  (
    ∀ (s : State) (e : PortNum) (rd ra rb : RegNum) (imm : BitVec 18) (h : Half), EngReady s e →
      let a := s.reg e ra
      let b := s.reg e rb
      let z := imm.setWidth 32
      let zn := fun (w : Word) (t : State) => FlagsOf s t e w none none
      let none_ := fun (t : State) => FlagsKept s t e
      Computes (.and e rd ra rb) s e rd (a &&& b) (zn (a &&& b)) ∧
      Computes (.or e rd ra rb) s e rd (a ||| b) (zn (a ||| b)) ∧
      Computes (.xor e rd ra rb) s e rd (a ^^^ b) (zn (a ^^^ b)) ∧
      Computes (.not e rd ra) s e rd (~~~a) (zn (~~~a)) ∧
      Computes (.andi e rd ra imm) s e rd (a &&& z) (zn (a &&& z)) ∧
      Computes (.ori e rd ra imm) s e rd (a ||| z) (zn (a ||| z)) ∧
      Computes (.xori e rd ra imm) s e rd (a ^^^ z) (zn (a ^^^ z)) ∧
      Computes (.mul e rd ra rb) s e rd (a * b) (zn (a * b)) ∧
      (let w := BitVec.ofNat 32 (a.toNat * b.toNat / 2 ^ 32)
       Computes (.mulh e rd ra rb false) s e rd w (zn w)) ∧
      (let w := BitVec.ofInt 32 (a.toInt * b.toInt / 2 ^ 32)
       Computes (.mulh e rd ra rb true) s e rd w (zn w)) ∧
      Computes (.mov e rd ra) s e rd a none_ ∧
      Computes (.movi e rd imm) s e rd (imm.signExtend 32) none_ ∧
      Computes (.movhi e rd h) s e rd (h ++ (s.reg e rd).setWidth 16) none_ ∧
      Answers (.nop e) s (fun t => RegsSame s t e ∧ FlagsKept s t e ∧ t.pc e = s.pc e + 4 ∧ RegInstrFrame s t e) ∧
      Answers (.tst e ra rb) s (fun t => RegsSame s t e ∧ zn (a &&& b) t ∧ t.pc e = s.pc e + 4 ∧ RegInstrFrame s t e)) ∧
  (
    ∀ (s : State) (e : PortNum) (rd ra : RegNum) (cnt : ShiftCount), EngReady s e →
      let a := s.reg e ra
      let k := match cnt with
        | .reg r => (s.reg e r).toNat % 256
        | .imm v => v.toNat
      let sign := if a.getLsbD 31 then BitVec.allOnes 32 else 0
      let l := if k < 32 then a <<< k else 0
      let r := if k < 32 then a >>> k else 0
      let x := if k < 32 then a.sshiftRight k else sign
      let o := a.rotateRight (k % 32)
      let cl := if k = 0 then none else some (decide (k ≤ 32) && a.getLsbD (32 - k))
      let cr := if k = 0 then none else some (decide (k ≤ 32) && a.getLsbD (k - 1))
      let co := if k = 0 then none else some (o.getLsbD 31)
      Computes (.lsl e rd ra cnt) s e rd l (fun t => FlagsOf s t e l cl none) ∧
      Computes (.lsr e rd ra cnt) s e rd r (fun t => FlagsOf s t e r cr none) ∧
      Computes (.asr e rd ra cnt) s e rd x (fun t => FlagsOf s t e x cr none) ∧
      Computes (.ror e rd ra cnt) s e rd o (fun t => FlagsOf s t e o co none))

/-- DIVU and DIVS write rq and rr (rq alone where both name one register) with the quotient truncated toward 0 and its
remainder, the results of the table for a divisor of 0 and for 0x8000_0000 by -1, C = 0, V and DZ as the table says
and Z and N from the quotient. With a divisor of 0 and DZTRAP = 1 the results are written and a DZ trap is entered,
the next address in TPC. (R434) -/
def Obligations.EngineDivisionsWriteTheResultsOfEveryCase : Prop :=
  ∀ (s : State) (e : PortNum) (rq rr ra rb : RegNum) (sg : Bool), EngReady s e →
    let a := s.reg e ra
    let b := s.reg e rb
    let i := if sg then Instr.divs e rq rr ra rb else Instr.divu e rq rr ra rb
    let dz := b == 0
    let ovf := sg && a == 0x80000000 && b == 0xFFFFFFFF
    let q := if dz then (if sg then (if a.getLsbD 31 then 0x80000000 else 0x7FFFFFFF) else 0xFFFFFFFF)
      else if ovf then 0x80000000
      else if sg then BitVec.ofInt 32 (a.toInt.tdiv b.toInt) else BitVec.ofNat 32 (a.toNat / b.toNat)
    let m := if dz then a
      else if ovf then 0
      else if sg then BitVec.ofInt 32 (a.toInt.tmod b.toInt) else BitVec.ofNat 32 (a.toNat % b.toNat)
    let results := fun (t : State) =>
      t.reg e rq = q ∧ (rr ≠ rq → t.reg e rr = m) ∧ (∀ r, r ≠ rq → r ≠ rr → t.reg e r = s.reg e r) ∧
        t.eswBit e 0 = (q == 0) ∧ t.eswBit e 1 = q.getLsbD 31 ∧ t.eswBit e 2 = false ∧ t.eswBit e 3 = ovf ∧
        t.eswBit e 4 = dz
    (s.pget e ENG_CTL.DZTRAP = 0 ∨ dz = false → Answers i s fun t =>
      results t ∧ t.pc e = s.pc e + 4 ∧ (∀ j, 5 ≤ j → t.eswBit e j = s.eswBit e j) ∧ RegInstrFrame s t e) ∧
    (s.pget e ENG_CTL.DZTRAP = 1 → dz = true → s.eswBit e 6 = false → Answers i s fun t =>
      results t ∧ t.pc e = 4 ∧ t.eswBit e 6 = true ∧ (t.port e).word ENG_TPC.reg = s.pc e + 4 ∧
        t.pget e ENG_STAT.CAUSE = 4 ∧ OnlyEngine s t e ∧ EngMemKept s t e)

/-- B, BTST, JMP, CALL and CALLR go to their targets (a branch target is its own address + 4 + 4 x offset), calls leave
the return address in G15, and no flag changes. With PC at or above CODE_LEN no row is performed: a FETCH trap is
raised with that address in TPC. The rows of an engine that is held, waits, has halted or stands in an access change
nothing. (R428) -/
def Obligations.EngineBranchesReachTheirTargetsOrFetchTraps : Prop :=
  (
    ∀ (s : State) (e : PortNum) (ra : RegNum) (cond : Fin 16) (off : BitVec 22) (b : BitVec 10) (pol : Bool)
      (o : BitVec 15), EngReady s e →
      let z := s.eswBit e 0
      let n := s.eswBit e 1
      let c := s.eswBit e 2
      let v := s.eswBit e 3
      let dz := s.eswBit e 4
      let taken := [true, z, c, n, v, c && !z, n == v, !z && n == v, dz, !z, !c, !n, !v, !c || z, n != v,
        z || n != v].getD cond.val false
      let target := (s.pc e + 4 + (off.signExtend 32 <<< 2)) &&& ~~~3
      let short := (s.pc e + 4 + (o.signExtend 32 <<< 2)) &&& ~~~3
      let calls := fun (i : Instr) (a : Word) => Answers i s fun t =>
        RegTo s t e 15 (s.pc e + 4) ∧ t.pc e = a ∧ FlagsKept s t e ∧ RegInstrFrame s t e
      GoesTo (.b e cond off) s e (if taken then target else s.pc e + 4) ∧
      GoesTo (.btst e b pol o) s e (if s.bitRead e b.toNat = pol then short else s.pc e + 4) ∧
      GoesTo (.jmp e ra) s e (s.reg e ra &&& ~~~3) ∧
      calls (.call e off) target ∧ calls (.callr e ra) (s.reg e ra &&& ~~~3)) ∧
  (
    ∀ (s : State) (e : PortNum) (i : Instr) (x : EngInstr), engRow i = some (e, x) → s.raised = [] →
      s.runs e = true → (s.eng e).codeLen ≤ (s.pc e).toNat → s.eswBit e 6 = false → Traps i s e 6 (s.pc e)) ∧
  (
    ∀ (s : State) (e : PortNum) (i : Instr) (x : EngInstr), engRow i = some (e, x) → s.raised = [] →
      s.runs e = false → exec i s = .next s)

/-- LDW, LDH, LDB, STW, STH and STB reach data memory at ra + offset when aligned to their size: the loaded value or
exactly the stored bytes, every other byte as before, ra moved on by the size with P = 1, a load's rd taking the value
even where it is ra. Outside the data ranges they raise BUS, misaligned ones ALIGN, and neither is performed. A narrow
or misaligned access of the port window reads 0 or has no effect. LDC reads a word of code memory. (R12, R422, R429,
R430) -/
def Obligations.EngineLoadsAndStoresReachTheirMemoriesOrTrap : Prop :=
  (
    ∀ (s : State) (e : PortNum) (w : MemW) (rd ra : RegNum) (post : Bool) (off : BitVec 17), EngReady s e →
      let a := (s.reg e ra + off.signExtend 32).toNat
      let n := match w with | .word => 4 | .half => 2 | .byte => 1
      let ld := match w with | .word => Instr.ldw e rd ra post off | .half => .ldh e rd ra post off | .byte => .ldb e rd ra post off
      let st := match w with | .word => Instr.stw e rd ra post off | .half => .sth e rd ra post off | .byte => .stb e rd ra post off
      let base := if post then s.reg e ra + BitVec.ofNat 32 n else s.reg e ra
      a < 0x2000 → a % n = 0 →
      (Answers ld s fun t => t.reg e rd = BitVec.ofNat 32 (fromLe ((s.eng e).data.bytes a n)) ∧
        (ra ≠ rd → t.reg e ra = base) ∧ (∀ r, r ≠ rd → r ≠ ra → t.reg e r = s.reg e r) ∧ FlagsKept s t e ∧
        t.pc e = s.pc e + 4 ∧ RegInstrFrame s t e) ∧
      (Answers st s fun t => RegTo s t e ra base ∧ DataTo s t e a (leBytes n (s.reg e rd).toNat) ∧
        (t.eng e).bits = (s.eng e).bits ∧ FlagsKept s t e ∧ t.pc e = s.pc e + 4 ∧ EngInstrFrame s t e)) ∧
  (
    ∀ (s : State) (e : PortNum) (rd ra : RegNum) (post : Bool) (off : BitVec 17), EngReady s e → s.eswBit e 6 = false →
      let a := (s.reg e ra + off.signExtend 32).toNat
      (0x2000 ≤ a ∧ a < 0x4000 ∨ 0x5000 ≤ a →
        ∀ i ∈ [Instr.ldw e rd ra post off, .ldh e rd ra post off, .ldb e rd ra post off, .stw e rd ra post off,
          .sth e rd ra post off, .stb e rd ra post off], Traps i s e 3 (s.pc e)) ∧
      (a < 0x2000 → a % 4 ≠ 0 → Traps (.ldw e rd ra post off) s e 2 (s.pc e) ∧ Traps (.stw e rd ra post off) s e 2 (s.pc e)) ∧
      (a < 0x2000 → a % 2 ≠ 0 → Traps (.ldh e rd ra post off) s e 2 (s.pc e) ∧ Traps (.sth e rd ra post off) s e 2 (s.pc e))) ∧
  (
    ∀ (s : State) (e : PortNum) (w : MemW) (rd ra : RegNum) (off : BitVec 17), EngReady s e →
      let a := (s.reg e ra + off.signExtend 32).toNat
      let ld := match w with | .word => Instr.ldw e rd ra false off | .half => .ldh e rd ra false off | .byte => .ldb e rd ra false off
      let st := match w with | .word => Instr.stw e rd ra false off | .half => .sth e rd ra false off | .byte => .stb e rd ra false off
      0x4000 ≤ a → a < 0x5000 → w ≠ .word ∨ a % 4 ≠ 0 →
      Computes ld s e rd 0 (fun t => FlagsKept s t e) ∧ GoesTo st s e (s.pc e + 4)) ∧
  (
    ∀ (s : State) (e : PortNum) (rd ra : RegNum) (post : Bool) (off : BitVec 17), EngReady s e →
      let a := (s.reg e ra + off.signExtend 32).toNat
      a < 0x8000 → a % 4 = 0 →
      Answers (.ldc e rd ra post off) s fun t => t.reg e rd = (s.eng e).code.word a ∧
        (ra ≠ rd → t.reg e ra = if post then s.reg e ra + 4 else s.reg e ra) ∧
        (∀ r, r ≠ rd → r ≠ ra → t.reg e r = s.reg e r) ∧ FlagsKept s t e ∧ t.pc e = s.pc e + 4 ∧ RegInstrFrame s t e)

/-- On a destination that is a general bit variable or one of the five flags of ESW, the bit instructions write the new
value there and nowhere else; BGET writes the bit into rd, BPUT takes bit 0 of ra. RPT, INTRAP and RES take no write;
RQOVF and DBERR are cleared by a 0 and not set by a 1. (R425, R429) -/
def Obligations.EngineBitInstructionsFollowTheAccessCodes : Prop :=
  (
    ∀ (s : State) (e : PortNum) (d src : BitVec 10) (ns : Bool) (rd ra : RegNum), EngReady s e →
      d.toNat < 5 ∨ 0x200 ≤ d.toNat →
      let old := s.bitRead e d.toNat
      let x := s.bitRead e src.toNat ^^ ns
      let sets := fun (i : Instr) (v : Bool) => Answers i s fun t =>
        t.bitRead e d.toNat = v ∧
        (0x200 ≤ d.toNat → FlagsKept s t e ∧
          ∀ j, j ≠ d.toNat - 0x200 → (t.eng e).bits.getLsbD j = (s.eng e).bits.getLsbD j) ∧
        (d.toNat < 5 → (t.eng e).bits = (s.eng e).bits ∧ ∀ j, j ≠ d.toNat → t.eswBit e j = s.eswBit e j) ∧
        RegsSame s t e ∧ (t.eng e).data = (s.eng e).data ∧ t.pc e = s.pc e + 4 ∧ EngInstrFrame s t e
      sets (.bset e d) true ∧ sets (.bclr e d) false ∧ sets (.bnot e d) (!old) ∧ sets (.bmov e d ns src) x ∧
      sets (.band e d ns src) (old && x) ∧ sets (.bor e d ns src) (old || x) ∧ sets (.bxor e d ns src) (old ^^ x) ∧
      sets (.bput e d ra) ((s.reg e ra).getLsbD 0) ∧
      Computes (.bget e rd src) s e rd (if s.bitRead e src.toNat then 1 else 0) (fun t => FlagsKept s t e)) ∧
  (
    ∀ (s : State) (e : PortNum), EngReady s e →
      (∀ d : BitVec 10, d.toNat ∈ [5, 6, 11] →
        GoesTo (.bset e d) s e (s.pc e + 4) ∧ GoesTo (.bclr e d) s e (s.pc e + 4)) ∧
      (∀ d : BitVec 10, d.toNat ∈ [7, 10] → GoesTo (.bset e d) s e (s.pc e + 4) ∧
        Answers (.bclr e d) s fun t => t.eswBit e d.toNat = false ∧
          (∀ j, j ≠ d.toNat → t.eswBit e j = s.eswBit e j) ∧ RegsSame s t e ∧ t.pc e = s.pc e + 4 ∧
          RegInstrFrame s t e))

/-- REP latches its count, which ENG_RCNT shows; a count of 0 skips the next instruction; before an instruction that may
not be repeated REP raises ILLEGAL at its own address. A repeated instruction, shown on ADDI, is performed once per
repetition and PC stays at it until the last. (R436, R437, R438) -/
def Obligations.EngineRepetitionsRunAsOftenAsCounted : Prop :=
  (
    ∀ (s : State) (e : PortNum) (cnt : RepCount), EngReady s e →
      let n := match cnt with
        | .reg r => (s.reg e r).toNat
        | .imm v => v.toNat
      let a := (s.pc e).toNat + 4
      let okNext := a < (s.eng e).codeLen → repeatable ((s.eng e).code.word a) = true
      (okNext → n ≠ 0 → Answers (.rep e cnt) s fun t => (t.eng e).repLeft = n ∧
        (t.port e).word ENG_RCNT.reg = BitVec.ofNat 32 n ∧ t.pc e = s.pc e + 4 ∧ RegsSame s t e ∧ FlagsKept s t e ∧
        OnlyEngine s t e ∧ RegsKept s t e (ENG_RCNT.reg :: pcAndCycle) ∧ (t.eng e).data = (s.eng e).data ∧
        (t.eng e).bits = (s.eng e).bits ∧ (t.eng e).code = (s.eng e).code) ∧
      (okNext → n = 0 → GoesTo (.rep e cnt) s e ((s.pc e + 8) &&& ~~~3)) ∧
      (¬ okNext → s.eswBit e 6 = false → Traps (.rep e cnt) s e 1 (s.pc e))) ∧
  (
    ∀ (s : State) (e : PortNum) (rd ra : RegNum) (imm : BitVec 18) (k : Nat), s.raised = [] → s.runs e = true →
      (s.pc e).toNat < (s.eng e).codeLen → s.pget e ENG_CTL.HALT = 0 → (s.eng e).repLeft = k + 1 →
      Answers (.addi e rd ra imm) s fun t => RegTo s t e rd (s.reg e ra + imm.signExtend 32) ∧ (t.eng e).repLeft = k ∧
        (t.port e).word ENG_RCNT.reg = BitVec.ofNat 32 k ∧ t.pc e = (if k = 0 then s.pc e + 4 else s.pc e) ∧
        OnlyEngine s t e)

/-- CRCI, CRC and CRCF work on a running value by their parameter set, sets 5 to 7 raising ILLEGAL. TRAP saves the next
address in TPC and its cause and code in ENG_STAT, sets INTRAP and goes to 4; RETT goes back and clears INTRAP,
outside a trap it raises ILLEGAL. WAIT goes on when the bit reads its value and else stands with STATE = 2 until
WAIT_END finds it so. GETS reads the cycle counter, TPC, ENG_RCNT and the port number; 4 to 7 raise ILLEGAL. (R440,
R445, R446, R447) -/
def Obligations.EngineCrcTrapWaitAndStatusInstructions : Prop :=
  (
    ∀ (s : State) (e : PortNum) (rd ra : RegNum) (sel : Fin 8) (n : Fin 4), EngReady s e →
      (∀ k, [CrcKind.crcA, .crcB, .crc15693, .crcO, .crcAelyr][sel.val]? = some k →
        Computes (.crci e rd sel) s e rd (k.init.setWidth 32) (fun t => FlagsKept s t e) ∧
        Computes (.crc e rd ra sel n) s e rd
          ((((wordBytes (s.reg e ra)).take (n.val + 1)).foldl k.feed ((s.reg e rd).setWidth 16)).setWidth 32)
          (fun t => FlagsKept s t e) ∧
        Computes (.crcf e rd sel) s e rd (((s.reg e rd).setWidth 16 ^^^ k.xorOut).setWidth 32)
          (fun t => FlagsKept s t e)) ∧
      (5 ≤ sel.val → s.eswBit e 6 = false → Traps (.crci e rd sel) s e 1 (s.pc e) ∧
        Traps (.crc e rd ra sel n) s e 1 (s.pc e) ∧ Traps (.crcf e rd sel) s e 1 (s.pc e))) ∧
  (
    ∀ (s : State) (e : PortNum) (code : Byte), EngReady s e →
      (s.eswBit e 6 = false → Traps (.trap e code) s e 5 (s.pc e + 4) ∧
        (Answers (.trap e code) s fun t => t.pget e ENG_STAT.CODE = code.toNat) ∧ Traps (.rett e) s e 1 (s.pc e)) ∧
      (s.eswBit e 6 = true → Answers (.rett e) s fun t => t.pc e = (s.port e).word ENG_TPC.reg &&& ~~~3 ∧
        t.eswBit e 6 = false ∧ (∀ j, j ≠ 6 → t.eswBit e j = s.eswBit e j) ∧ RegsSame s t e ∧ RegInstrFrame s t e)) ∧
  (
    ∀ (s : State) (e : PortNum) (b : BitVec 10) (pol : Bool) (rd : RegNum) (k : Fin 8),
      (EngReady s e →
        (s.bitRead e b.toNat = pol → GoesTo (.wait e b pol) s e (s.pc e + 4)) ∧
        (s.bitRead e b.toNat ≠ pol → Answers (.wait e b pol) s fun t => t.engState e = 2 ∧ t.pc e = s.pc e ∧
          (t.eng e).waitOn = some (b, pol) ∧ RegsSame s t e ∧ FlagsKept s t e ∧ OnlyEngine s t e ∧
          RegsKept s t e [ENG_STAT.reg, ENG_CYCLE.reg]) ∧
        (k.val < 4 → Computes (.gets e rd k) s e rd
          ([(s.port e).word ENG_CYCLE.reg, (s.port e).word ENG_TPC.reg, (s.port e).word ENG_RCNT.reg,
            BitVec.ofNat 32 e.val].getD k.val 0) (fun t => FlagsKept s t e)) ∧
        (4 ≤ k.val → s.eswBit e 6 = false → Traps (.gets e rd k) s e 1 (s.pc e))) ∧
      (s.raised = [] → (s.eng e).waitOn = some (b, pol) → s.engState e = 2 → s.bitRead e b.toNat = pol →
        s.pget e ENG_CTL.HALT = 0 → Answers (.waitEnd e) s fun t => t.engState e = 1 ∧ t.pc e = s.pc e + 4 ∧
          (t.eng e).waitOn = none ∧ RegsSame s t e ∧ FlagsKept s t e ∧ OnlyEngine s t e ∧
          RegsKept s t e (ENG_STAT.reg :: pcAndCycle)))

/-- HALT leaves STATE = 4 and sends the stop message with the kept image's version. A write of ENG_CTL.HALT halts a
running or waiting engine (STATE = 3) and lets a halted one run; STEP performs the one instruction at PC and leaves
the engine halted, an undefined word raising ILLEGAL. Hearth rings an engine with four words in DBE_MSG, and a clear
of DBH_RING acknowledges the engine's ring. Each changes only what it names. (R427, R439, R445, R446, R449, R451) -/
def Obligations.EngineHaltStepAndDoorbellsActAtOnce : Prop :=
  (
    ∀ (s : State) (e : PortNum), EngReady s e → s.pget e DBH_RING.RING = 0 →
      Answers (.halt e) s fun t => t.engState e = 4 ∧ t.pget e DBH_RING.RING = 1 ∧
        (t.port e).word DBH_MSG.reg = 0x100 ∧ (t.port e).word (DBH_MSG.reg + 4) = s.imgWord e 12 ∧
        (∀ i, 2 ≤ i → i < 8 → (t.port e).word (DBH_MSG.reg + 4 * i) = 0) ∧ RegsSame s t e ∧ FlagsKept s t e ∧
        OnlyEngine s t e ∧
        RegsKept s t e ([ENG_STAT.reg, DBH_RING.reg] ++ (List.range 8).map (DBH_MSG.reg + 4 * ·) ++ pcAndCycle)) ∧
  (
    ∀ (s : State) (p : PortNum) (m0 m1 m2 m3 : Word), s.raised = [] → s.portOn p = true →
      (s.engState p = 1 → (s.eng p).stall = none → Answers (.engCtlHalt p true) s fun t => t.engState p = 3 ∧
        t.pget p ENG_CTL.HALT = 1 ∧ OnlyEngine s t p ∧ RegsKept s t p [ENG_CTL.reg, ENG_STAT.reg] ∧ t.eng p = s.eng p) ∧
      (s.engState p = 2 → Answers (.engCtlHalt p true) s fun t => t.engState p = 3 ∧ t.pget p ENG_CTL.HALT = 1 ∧
        OnlyEngine s t p ∧ RegsKept s t p [ENG_CTL.reg, ENG_STAT.reg] ∧ t.eng p = { s.eng p with waitOn := none }) ∧
      (s.engState p = 3 → Answers (.engCtlHalt p false) s fun t => t.engState p = 1 ∧ t.pget p ENG_CTL.HALT = 0 ∧
        OnlyEngine s t p ∧ RegsKept s t p [ENG_CTL.reg, ENG_STAT.reg] ∧ t.eng p = s.eng p) ∧
      (Answers (.dbeRing p m0 m1 m2 m3) s fun t => t.pget p DBE_RING.RING = 1 ∧
        (List.range 4).map (fun i => (t.port p).word (DBE_MSG.reg + 4 * i)) = [m0, m1, m2, m3] ∧ OnlyEngine s t p ∧
        RegsKept s t p (DBE_RING.reg :: (List.range 4).map (DBE_MSG.reg + 4 * ·)) ∧ t.eng p = s.eng p) ∧
      (Answers (.dbhRingClear p) s fun t => t.pget p DBH_RING.RING = 0 ∧ OnlyEngine s t p ∧
        RegsKept s t p [DBH_RING.reg] ∧ t.eng p = s.eng p)) ∧
  (
    ∀ (s : State) (p : PortNum), s.raised = [] → s.portOn p = true → s.engState p = 3 →
      (s.pc p).toNat < (s.eng p).codeLen → (s.eng p).repLeft = 0 →
      (∀ op rd ra rb, decodeEng ((s.eng p).code.word (s.pc p).toNat) = some (.alu op rd ra rb) →
        Answers (.engCtlStep p) s fun t => t.engState p = 3 ∧ t.pc p = s.pc p + 4 ∧
          RegTo s t p rd (aluOut op (s.reg p ra) (s.reg p rb) (s.eswBit p 2)).value ∧ OnlyEngine s t p ∧
          RegsKept s t p (ENG_STAT.reg :: pcAndCycle)) ∧
      (decodeEng ((s.eng p).code.word (s.pc p).toNat) = none → s.eswBit p 6 = false →
        Answers (.engCtlStep p) s fun t => t.engState p = 3 ∧ t.pc p = 4 ∧
          (t.port p).word ENG_TPC.reg = s.pc p ∧ t.pget p ENG_STAT.CAUSE = 1 ∧ t.eswBit p 6 = true ∧
          RegsSame s t p ∧ OnlyEngine s t p))

/-- A byte pushed by the selected side joins the packet in progress after its bytes; four bytes, or the last ones, make a
word, and EOP commits the packet. FPUSHM takes the byte from data memory and moves ra on by 1. An abort withdraws
every word of the packet in progress and leaves the committed packets as they stand. Nothing outside the FIFO and the
engine changes. (R400, R403, R409, R414, R416, R441) -/
def Obligations.PushesJoinThePacketAndAbortsWithdrawIt : Prop :=
  (
    ∀ (s : State) (p : PortNum) (side : Side) (b : Byte) (ra : RegNum) (eop : Bool), s.raised = [] → CanPush s p .tx →
      (s.portOn p = true → s.sideOn p .tx side = true →
        (Answers (.txDataPush p side b) s fun t => Pushed s t p .tx b false ∧ OnlyPort s t p ∧
          t.port p = { s.port p with txf := t.fifo p .tx }) ∧
        (Answers (.txDataCommit p side b) s fun t => Pushed s t p .tx b true ∧ OnlyPort s t p ∧
          t.port p = { s.port p with txf := t.fifo p .tx })) ∧
      (EngReady s p → s.sideOn p .tx .engine = true →
        (Answers (.fpush p ra eop) s fun t => Pushed s t p .tx ((s.reg p ra).setWidth 8) eop ∧ OnlyPort s t p ∧
          t.port p = { s.port p with txf := t.fifo p .tx, regs := (t.port p).regs, eng := t.eng p } ∧
          RegsSame s t p ∧ FlagsKept s t p ∧ t.pc p = s.pc p + 4 ∧ RegsKept s t p pcAndCycle ∧ EngMemKept s t p) ∧
        ((s.reg p ra).toNat < 0x2000 →
          Answers (.fpushm p ra eop) s fun t => Pushed s t p .tx ((s.eng p).data.read (s.reg p ra).toNat) eop ∧
            OnlyPort s t p ∧ t.port p = { s.port p with txf := t.fifo p .tx, regs := (t.port p).regs, eng := t.eng p } ∧
            RegTo s t p ra (s.reg p ra + 1) ∧ FlagsKept s t p ∧ t.pc p = s.pc p + 4 ∧ RegsKept s t p pcAndCycle ∧
            EngMemKept s t p))) ∧
  (
    ∀ (s : State) (p : PortNum) (side : Side), s.raised = [] → (s.fifo p .tx).sound → (s.fifo p .tx).open_ = true →
      let withdrawn := fun (t : State) =>
        (t.fifo p .tx).row = (s.fifo p .tx).row.filter (fun w => w.pkt != (s.fifo p .tx).pktNo) ∧
        (t.fifo p .tx).part = [] ∧ (t.fifo p .tx).open_ = false ∧ (t.fifo p .tx).pkts = (s.fifo p .tx).pkts ∧
        OnlyPort s t p
      (s.portOn p = true → s.sideOn p .tx side = true → Answers (.txDataAbort p side) s fun t =>
        withdrawn t ∧ t.port p = { s.port p with txf := t.fifo p .tx }) ∧
      (EngReady s p → s.sideOn p .tx .engine = true → Answers (.fabort p) s fun t =>
        withdrawn t ∧ t.port p = { s.port p with txf := t.fifo p .tx, regs := (t.port p).regs, eng := t.eng p } ∧
          RegsSame s t p ∧ FlagsKept s t p ∧ t.pc p = s.pc p + 4 ∧ RegsKept s t p pcAndCycle ∧ EngMemKept s t p))

/-- A read by the selected side takes the committed word at the head; FPOP and FPOPM leave its tags in Z, C and N, FPOPM
stores it and moves ra on by 4. With no committed word a read returns 0, takes nothing and sets UNDER; FPOP then sets
Z, its C and N being free (no rule states them). A stalled FPOP completes once the Flue has the word; the cycles of
the stall are free, up to 16. (R403, R410, R441) -/
def Obligations.ReadsTakeTheHeadWordOrFindNothing : Prop :=
  (
    ∀ (s : State) (p : PortNum) (side : Side) (rd ra : RegNum) (w : FWord) (r : List FWord), s.raised = [] →
      (s.fifo p .rx).sound → (s.fifo p .rx).head = w :: r → w.pkt ≠ (s.fifo p .rx).pktNo →
      let flags := fun (t : State) => FlagsTo s t p (some false) (some w.cin) (some w.eop) none
      let kept := fun (t : State) => OnlyPort s t p ∧
        t.port p = { s.port p with rxf := t.fifo p .rx, regs := (t.port p).regs, eng := t.eng p }
      (s.portOn p = true → s.sideOn p .rx side = true →
        (s.portRead p side RX_DATA.reg).1 = w.data ∧
        Answers (.rxDataRead p side) s fun t => Popped s t p .rx w ∧ kept t ∧ t.eng p = s.eng p ∧
          RegsKept s t p [RX_STAT.reg]) ∧
      (EngReady s p → s.sideOn p .rx .engine = true →
        (Answers (.fpop p rd) s fun t => Popped s t p .rx w ∧ RegTo s t p rd w.data ∧ flags t ∧ kept t ∧
          t.pc p = s.pc p + 4 ∧ RegsKept s t p (RX_STAT.reg :: pcAndCycle) ∧ EngMemKept s t p) ∧
        ((s.reg p ra).toNat < 0x2000 → (s.reg p ra).toNat % 4 = 0 →
          Answers (.fpopm p ra) s fun t => Popped s t p .rx w ∧ RegTo s t p ra (s.reg p ra + 4) ∧
            DataTo s t p (s.reg p ra).toNat (wordBytes w.data) ∧ flags t ∧ kept t ∧ t.pc p = s.pc p + 4 ∧
            RegsKept s t p (RX_STAT.reg :: pcAndCycle) ∧ EngCtlKept s t p))) ∧
  (
    ∀ (s : State) (p : PortNum) (side : Side) (rd : RegNum), s.raised = [] → (s.fifo p .rx).sound →
      (s.fifo p .rx).head = [] → (s.fifo p .rx).win = [] →
      (s.portOn p = true → s.sideOn p .rx side = true → (s.portRead p side RX_DATA.reg).1 = 0 ∧
        Answers (.rxDataRead p side) s fun t => t.pget p RX_STAT.UNDER = 1 ∧ OnlyPort s t p ∧
          t.port p = { s.port p with regs := (t.port p).regs } ∧ RegsKept s t p [RX_STAT.reg]) ∧
      (EngReady s p → s.sideOn p .rx .engine = true →
        Answers (.fpop p rd) s fun t => RegTo s t p rd 0 ∧ t.eswBit p 0 = true ∧ t.pget p RX_STAT.UNDER = 1 ∧
          t.fifo p .rx = s.fifo p .rx ∧ t.pc p = s.pc p + 4 ∧ RegsKept s t p (RX_STAT.reg :: pcAndCycle))) ∧
  (
    ∀ (s : State) (e : PortNum) (rd : RegNum) (w : FWord) (r : List FWord), s.raised = [] →
      (s.eng e).stall = some (.fpop rd) → (s.eng e).repLeft = 0 → s.pget e ENG_CTL.HALT = 0 →
      s.sideOn e .rx .engine = true → (s.fifo e .rx).sound →
      (s.fifo e .rx).head = [] → (s.fifo e .rx).win = w :: r → w.pkt ≠ (s.fifo e .rx).pktNo →
      Answers (.fifoStallRelease e) s fun t =>
        RegTo s t e rd (s.windowWord e .rx w).data ∧
        (t.eng e).stall = none ∧ t.pc e = s.pc e + 4 ∧ FlagsTo s t e (some false) (some w.cin) (some w.eop) none ∧
        ((t.fifo e .rx).row.map (·.pkt)) = ((s.fifo e .rx).row.drop 1).map (·.pkt) ∧
        (∀ q, q ≠ e → t.port q = s.port q))

/-- The side that is not selected pushes and withdraws nothing and reads 0. A flush empties the FIFO, CLRCNT clears its
loss counts, a new SPILL takes effect while it holds no word and else only sets CFGERR. A move of the Flue keeps the
order, the number and the tags of the words and changes only the FIFO and the spill SRAM. (R399, R401, R406, R407,
R411, R418) -/
def Obligations.FifoControlsAndTheFlueKeepTheWordsInOrder : Prop :=
  (
    ∀ (s : State) (p : PortNum) (side : Side) (b : Byte), s.raised = [] → s.portOn p = true →
      (s.sideOn p .tx side = false → exec (.txDataPush p side b) s = .next s ∧ exec (.txDataCommit p side b) s = .next s ∧
        exec (.txDataAbort p side) s = .next s) ∧
      (s.sideOn p .rx side = false → exec (.rxDataRead p side) s = .next s ∧ (s.portRead p side RX_DATA.reg).1 = 0)) ∧
  (
    ∀ (s : State) (p : PortNum) (d : Dir) (v : Fin 8), s.raised = [] → s.portOn p = true →
      (Answers (.fifoFlush p d) s fun t => t.fifo p d = Fifo.reset ∧ OnlyPort s t p ∧
        (t.port p).fifo (if d = .rx then .tx else .rx) = (s.port p).fifo (if d = .rx then .tx else .rx) ∧
        (d = .tx → (t.port p).framer.reqs = 0 ∧ (t.port p).framer.tx = none)) ∧
      (Answers (.fifoClrcnt p d) s fun t => (t.port p).word (RX_LOST.BYTES.dir d).off = 0 ∧ OnlyPort s t p ∧
        t.port p = { s.port p with regs := (t.port p).regs } ∧ RegsKept s t p [(RX_LOST.BYTES.dir d).off]) ∧
      ((s.fifo p d).holdsNone = true → Answers (.fifoSpillSet p d v) s fun t =>
        t.fget p d RX_CTL.SPILL = v.val ∧ OnlyPort s t p ∧ t.port p = { s.port p with regs := (t.port p).regs } ∧
        RegsKept s t p [(RX_CTL.SPILL.dir d).off]) ∧
      ((s.fifo p d).holdsNone = false → s.fget p d RX_CTL.SPILL ≠ v.val → Answers (.fifoSpillSet p d v) s fun t =>
        t.fget p d RX_STAT.CFGERR = 1 ∧ OnlyPort s t p ∧ t.port p = { s.port p with regs := (t.port p).regs } ∧
        RegsKept s t p [(RX_STAT.CFGERR.dir d).off])) ∧
  (
    ∀ (s : State) (p : PortNum) (d : Dir), s.raised = [] → s.portOn p = true → (s.fifo p d).sound →
      Answers (.flueMove p d) s fun t =>
        (t.fifo p d).row.map (fun w => (w.vb, w.eop, w.cin, w.pkt)) =
          (s.fifo p d).row.map (fun w => (w.vb, w.eop, w.cin, w.pkt)) ∧
        (t.fifo p d).pkts = (s.fifo p d).pkts ∧ (t.fifo p d).part = (s.fifo p d).part ∧
        t = { s with ports := t.ports, spill := t.spill } ∧ (∀ q, q ≠ p → t.port q = s.port q) ∧
        t.port p = (s.port p).setFifo d (t.fifo p d))

/-- FRES takes the oldest result with Z = 0, or writes 0 with Z = 1 from an empty queue. FSEND asks for one packet more
while a committed one waits beyond those asked for, with Z = 0, and clears the waiting sum with argument 1; with none
it sets Z = 1. FRAPID asks for a phase of N challenges; an N outside 16-64 or RAPID_EN = 0 gives a result with OUTCOME
4, a full queue losing its oldest and setting RQOVF. (R442, R443, R444) -/
def Obligations.EngineFramingAssistsAskTheFramer : Prop :=
  (
    ∀ (s : State) (e : PortNum) (rd : RegNum), EngReady s e →
      Answers (.fres e rd) s fun t =>
        RegTo s t e rd ((s.port e).framer.results.headD 0) ∧
        FlagsTo s t e (some (s.port e).framer.results.isEmpty) none none none ∧
        t.port e = { s.port e with
          framer := { (s.port e).framer with results := (s.port e).framer.results.drop 1 }
          regs := (t.port e).regs, eng := t.eng e } ∧
        OnlyPort s t e ∧ t.pc e = s.pc e + 4 ∧ RegsKept s t e pcAndCycle ∧ EngMemKept s t e) ∧
  (
    ∀ (s : State) (e : PortNum) (clear : Bool), EngReady s e →
      let f := (s.port e).framer
      ((s.fifo e .tx).pkts ≤ f.reqs → Answers (.fsend e clear) s fun t =>
        FlagsTo s t e (some true) none none none ∧ RegsSame s t e ∧ t.pc e = s.pc e + 4 ∧ RegInstrFrame s t e) ∧
      (f.reqs < (s.fifo e .tx).pkts →
        f.tx.isSome = true ∨ f.win.isSome = true ∨
          (s.pget e TXCTL.FIELD_EN = 1 ∧ cinderFirst (s.fifo e .tx).committed = false) →
        Answers (.fsend e clear) s fun t =>
          FlagsTo s t e (some false) none none none ∧ RegsSame s t e ∧ t.pc e = s.pc e + 4 ∧
          t.port e = { s.port e with
            framer := { f with reqs := f.reqs + 1, waitSum := if clear then 0 else f.waitSum }
            regs := (t.port e).regs, eng := t.eng e } ∧
          OnlyPort s t e ∧ RegsKept s t e pcAndCycle ∧ EngMemKept s t e)) ∧
  (
    ∀ (s : State) (e : PortNum) (ra : RegNum), EngReady s e →
      let n := (s.reg e ra).toNat % 128
      let f := (s.port e).framer
      let kept := fun (t : State) => RegsSame s t e ∧ t.pc e = s.pc e + 4 ∧ OnlyPort s t e ∧ RegsKept s t e pcAndCycle
      (16 ≤ n → n ≤ 64 → s.pget e TXCTL.RAPID_EN = 1 → Answers (.frapid e ra) s fun t =>
        (t.port e).framer = { f with rapidN := n, rapidSlot := 0 } ∧ FlagsKept s t e ∧ kept t ∧ EngMemKept s t e) ∧
      (n < 16 ∨ 64 < n ∨ s.pget e TXCTL.RAPID_EN = 0 → f.results.length < 4 → Answers (.frapid e ra) s fun t =>
        (t.port e).framer = { f with results := f.results ++ [4] } ∧ FlagsKept s t e ∧ kept t ∧ EngMemKept s t e) ∧
      (n < 16 ∨ 64 < n ∨ s.pget e TXCTL.RAPID_EN = 0 → 4 ≤ f.results.length → Answers (.frapid e ra) s fun t =>
        (t.port e).framer = { f with results := f.results.drop 1 ++ [4] } ∧ t.eswBit e 7 = true ∧
        (∀ j, j ≠ 7 → t.eswBit e j = s.eswBit e j) ∧ kept t))

/-- A write of FIELD_EN = 1 ramps at once where it may, is HELD where it may not and is refused in thermal lockout;
FIELD_EN = 0 starts the ramp down; a held request ramps once nothing holds it. The ends of the ramps answer FIELD_ON
and FIELD_OFF and let what waits for an idle point happen. Phase and amplitude changes take effect while the field is
off or the port is quiet; the amplitude never exceeds min(LEVEL, PMAX_LEVEL) and equals it with a full map entry and
governor. (R39, R41, R42, R43, R44, R47, R56, R60, R290, R358) -/
def Obligations.FieldsRampAndChangesTakeEffectWhenQuiet : Prop :=
  (
    ∀ (s : State) (p : PortNum), s.raised = [] →
      let write := fun b => exec (.txctlFieldEnWrite p b) s
      (s.portOn p = true → s.pget p TXCTL.FIELD_EN = 0 →
        (MayRamp s p → s.fieldState p = 0 → (s.port p).field.vtxUv = false →
          write true = .next ((((s.pset p TXCTL.FIELD_EN 1).pset p TXSTAT.STATE 1).pset p TXSTAT.HELD 0).takeLeff p)) ∧
        (MayRamp s p → s.fieldState p = 3 → write true = .next ((s.pset p TXCTL.FIELD_EN 1).pset p TXSTAT.STATE 1)) ∧
        ((s.port p).field.lockout = false → ¬MayRamp s p →
          write true = .next ((s.pset p TXCTL.FIELD_EN 1).pset p TXSTAT.HELD 1)) ∧
        -- in thermal lockout the write is refused
        ((s.port p).field.lockout = true → (s.port p).svc.pass = none → (s.port p).svc.series = false → write true = .next s) ∧
        write false = .next s) ∧
      (s.portOn p = true → s.pget p TXCTL.FIELD_EN = 1 → write true = .next s) ∧
      (s.portOn p = true → s.pget p TXCTL.FIELD_EN = 1 → AirIdle s p →
        let u := (s.pset p TXCTL.FIELD_EN 0).pset p TXSTAT.HELD 0
        write false = .next (if s.fieldState p = 1 ∨ s.fieldState p = 2 then u.pset p TXSTAT.STATE 3 else u)) ∧
      -- a held request ramps once nothing holds it
      (s.pget p TXSTAT.HELD = 1 → s.fieldState p = 0 → MayRamp s p → (s.port p).field.vtxUv = false →
        exec (.fieldRampStart p) s = .next (((s.pset p TXSTAT.STATE 1).pset p TXSTAT.HELD 0).takeLeff p)) ∧
      -- the end of a ramp-up answers a FIELD_ON; the end of a ramp-down answers a FIELD_OFF
      (s.fieldState p = 1 →
        let u := (((s.pset p TXSTAT.STATE 2).takeLeff p).pset p DCBLK.ACQ 1).idleWork p
        (s.findJob (fieldOnOf p) = none → exec (.fieldRampUpDone p) s = .next u) ∧
        (∀ r, s.findJob (fieldOnOf p) = some r →
          exec (.fieldRampUpDone p) s = .next (u.ended (fieldOnOf p) r St.OK [2, 0]))) ∧
      (NoImport s p TXSTAT.reg → s.fieldState p = 3 → s.pget p TXSTAT.HELD = 0 → (s.port p).svc.svc = .opened →
        s.portOn p = true → s.portOn (sibling p) = true →
        let u := s.fieldIsOff p
        (s.findJob (fieldOffOf p) = none → exec (.fieldRampDownDone p) s = .next u) ∧
        (∀ r, s.findJob (fieldOffOf p) = some r →
          exec (.fieldRampDownDone p) s = .next (u.ended (fieldOffOf p) r St.OK []))) ∧
      -- what these leave
      (NoImport s p TXSTAT.reg → let u := s.fieldIsOff p
       u.fieldState p = 0 ∧ (u.port p).field.leff = 0 ∧ (u.port p).grate.held = false ∧ IdleWorkDone s u p ∧
         (∀ q, q ≠ p → u.port q = s.port q) ∧ u.hosts = s.hosts ∧ u.running = s.running ∧ u.aon = s.aon ∧ u.table = s.table) ∧
      (let u := s.takeLeff p
       (u.port p).field = { (s.port p).field with leff := s.leff p } ∧ (u.port p).field.leff ≤ s.headroom p ∧
         (∀ o, o ≠ TXSTAT.reg → (u.port p).word o = (s.port p).word o) ∧ ∀ q, q ≠ p → u.port q = s.port q)) ∧
  (
    ∀ (s : State) (p : PortNum), s.raised = [] →
      (∀ v : Byte, s.portOn p = true → s.pget p TXPHASE.COORD = 0 →
        exec (.txphaseWrite p v) s = .next ((s.pset p TXPHASE.PHASE v.toNat).pset p TXPHASE.PENDING
          (if v.toNat = s.pget p TXPHASE.APPLIED then 0 else 1))) ∧
      (∀ v, s.portOn p = true → s.pget p TXPHASE.COORD = 1 → exec (.txphaseWrite p v) s = .next s) ∧
      (s.pget p TXPHASE.PENDING = 1 → s.fieldState p = 0 ∨ s.quiet p = true →
        exec (.phaseApply p) s = .next ((s.pset p TXPHASE.APPLIED (s.pget p TXPHASE.PHASE)).pset p TXPHASE.PENDING 0)) ∧
      (s.fieldState p ≠ 0 → s.quiet p = false → exec (.phaseApply p) s = .next s) ∧
      (s.fieldState p = 2 → s.quiet p = true → s.leff p ≠ (s.port p).field.leff →
        exec (.ampApply p) s = .next ((s.takeLeff p).modPort p fun q => { q with field := { q.field with ramping := true } })) ∧
      (s.fieldState p ≠ 2 ∨ s.quiet p = false → exec (.ampApply p) s = .next s) ∧
      ((s.port p).field.ramping = true →
        exec (.ampRampDone p) s = .next (((s.modPort p fun q =>
          { q with field := { q.field with ramping := false } }).pset p DCBLK.ACQ 1).idleWork p)) ∧
      (s.portOn p = true → exec (.txampLock p) s = .next (s.pset p TXAMP.LOCK 1)) ∧
      -- the amplitude of R45
      (let lv := min (s.pget p TXAMP.LEVEL) (s.pget p TXAMP.PMAX_LEVEL)
       (s.port p).field.calLevel = none → s.pget p TXSTAT.GOV_FACTOR ≤ 100 → s.leff p ≤ lv ∧
         (s.mapEntry p (s.antenna p) = 1024 → s.pget p TXSTAT.GOV_FACTOR = 100 → (s.port p).field.sampled = false →
           s.leff p = lv)))

/-- A fault with FIELD_EN = 1 stops the field as its cause says, records cause and antenna, ends the active tag and
session (and the pass, where the cause ends it) and tells the owner by FIELD_FAULTED; a field going down without
FIELD_EN faults in silence; unarmed monitors do nothing. The rail and the junction are shared by the two ports of a
domain, and a thermal trip locks both out until the lockout ends. (R42, R65, R66, R67, R68, R69, R191, R372) -/
def Obligations.FieldFaultsStopTheFieldAndTellTheOwner : Prop :=
  (∀ (s : State) (p : PortNum), s.raised = [] →
    -- a fault with FIELD_EN = 1
    (s.pget p TXCTL.FIELD_EN = 1 → AirIdle s p → NoWork s p →
      (s.fieldState p ≠ 0 → exec (.shortFault p) s = .next ((s.faulted p .short).faultTold s p .short)) ∧
      (s.pget p TXCTL.ANT_CHECK = 1 → s.fieldState p = 2 →
        exec (.openFault p) s = .next ((s.faulted p .opened).faultTold s p .opened))) ∧
    -- a field that is going down without FIELD_EN faults in silence; an unarmed monitor does nothing
    (s.pget p TXCTL.FIELD_EN = 0 → s.fieldState p ≠ 0 → (s.port p).svc.svc = .opened → s.portOn p = true →
      s.portOn (sibling p) = true → exec (.shortFault p) s = .next (s.fieldIsOff p)) ∧
    (s.fieldState p = 0 → exec (.shortFault p) s = .next s) ∧
    (s.pget p TXCTL.ANT_CHECK = 0 → exec (.openFault p) s = .next s)) ∧
  (∀ (s : State) (k : Fin 4), s.raised = [] →
    let a : PortNum := Fin.ofNat 8 (2 * k.val)
    let b : PortNum := Fin.ofNat 8 (2 * k.val + 1)
    -- the rail and the junction are shared by the two ports
    (FieldIdle s a → FieldIdle s b → (s.port a).field.sampled = true → (s.port b).field.sampled = true →
      exec (.vtxUvFault k) s = .next (setVtxUv b true (setVtxUv a true s))) ∧
    (s.pget a TXCTL.FIELD_EN = 1 → s.fieldState a ≠ 0 → AirIdle s a → NoWork s a → (s.port a).field.sampled = true →
      (s.port b).field.sampled = false →
      exec (.vtxUvFault k) s = .next (((setVtxUv a true s).faulted a .vtxUv).faultTold s a .vtxUv)) ∧
    (s.pget b TXCTL.FIELD_EN = 1 → s.fieldState b ≠ 0 → AirIdle s b → NoWork s b → (s.port b).field.sampled = true →
      (s.port a).field.sampled = false →
      exec (.vtxUvFault k) s = .next (((setVtxUv b true s).faulted b .vtxUv).faultTold s b .vtxUv)) ∧
    exec (.vtxUvClear k) s = .next (setVtxUv b false (setVtxUv a false s)) ∧
    (s.portOn a = true → s.portOn b = true →
      (FieldIdle s a → FieldIdle s b → exec (.thermalTrip k) s = .next (setLockout b true (setLockout a true s))) ∧
      (s.pget a TXCTL.FIELD_EN = 1 → AirIdle s a → NoWork s a → FieldIdle s b →
        exec (.thermalTrip k) s =
          .next ((setLockout b true (setLockout a true (s.faulted a .thermal))).faultTold s a .thermal)) ∧
      (s.pget b TXCTL.FIELD_EN = 1 → AirIdle s b → NoWork s b → FieldIdle s a →
        exec (.thermalTrip k) s =
          .next ((setLockout b true ((setLockout a true s).faulted b .thermal)).faultTold s b .thermal))) ∧
    exec (.thermalLockoutEnd k) s = .next (setLockout b false (setLockout a false s)))

/-- A write of GRATE asks for a shift frame while the field is off and is held while it is on; a new antenna clears the
AFC seed. A shift frame carries the word of every port that asked and leaves the other ports. The end of the settle
time answers GRATE_SELECT and lets a held field request ramp. (R57, R58, R59, R60, R61) -/
def Obligations.GrateWordsShiftOnceTheFieldIsOffAndSettle : Prop :=
  (∀ (s : State) (p : PortNum), s.raised = [] →
    -- a write asks for a shift, or waits for the field to be off; a new antenna clears the AFC seed
    (∀ w, exec (.grateWrite p w) s = .next ((if wget w 0 6 = s.antenna p then s else s.pset p AFC.SEEDVALID 0).modPort p fun q =>
      { q with grate := { q.grate with
          reg := w &&& 0xFFFF
          request := q.grate.request || s.fieldState p == 0
          held := q.grate.held || s.fieldState p != 0 } })) ∧
    -- a settle time ends
    ((s.port p).grate.settling = true →
      let u := s.modPort p fun q => { q with grate := { q.grate with settling := false } }
      ((s.port p).grate.request = true ∨ (s.port p).grate.held = true → exec (.grateSettleEnd p) s = .next u) ∧
      ((s.port p).grate.request = false → (s.port p).grate.held = false →
        (s.pget p TXSTAT.HELD = 0 → s.findJob (fun r => r.job == .grate p) = none → exec (.grateSettleEnd p) s = .next u) ∧
        (s.pget p TXSTAT.HELD = 0 → ∀ r, s.findJob (fun r => r.job == .grate p) = some r →
          exec (.grateSettleEnd p) s = .next (u.ended (fun r => r.job == .grate p) r St.OK [0])) ∧
        (s.pget p TXSTAT.HELD = 1 → s.fieldState p = 0 → MayRamp u p → (s.port p).field.vtxUv = false →
          s.findJob (fun r => r.job == .grate p) = none →
          exec (.grateSettleEnd p) s = .next (((u.pset p TXSTAT.STATE 1).pset p TXSTAT.HELD 0).takeLeff p)))) ∧
    ((s.port p).grate.settling = false → exec (.grateSettleEnd p) s = .next s)) ∧
  (∀ (s : State), s.raised = [] → s.pllLocked = true ∨ s.kindling = true →
    -- a frame carries the word of every port that asked for it and leaves the others
    ∃ t, exec .grateShiftFrame s = .next t ∧ t = { s with ports := t.ports } ∧
      ∀ p, t.port p = if (s.port p).grate.request then
          { s.port p with grate := { (s.port p).grate with
              kept := (s.port p).grate.reg.setWidth 16, request := false, settling := true } }
        else s.port p)

/-- The end of a 10 ms window carries the time beyond its cap as debt. A reading sets TJ and VTX, the governor factor and
the hot state of both ports of the domain. The factor is 100 up to START, falls by SLOPE + 1 per half degree, and is
never below 25 or above 100. (R45, R47, R63, R64, R65, R70) -/
def Obligations.ReadingsGovernThePortAndItsDuty : Prop :=
  ∀ (s : State), s.raised = [] →
    -- the end of a 10 ms window carries the time beyond its cap as debt
    (∀ p n, s.portOn p = true → s.pget p TXSTAT.HELD = 0 →
      exec (.dutyWindow p n) s = .next (s.modPort p fun q => { q with field := { q.field with
        debt := if s.dutyOn p then (q.field.debt + n) - s.dutyCap p else 0
        dutyUsed := if s.dutyOn p then (q.field.debt + n) - s.dutyCap p else 0 } })) ∧
    -- a reading without a recalibration to do
    (∀ (k : Fin 4) (tj : BitVec 9) (vtx : BitVec 10),
      let ports : List PortNum := [Fin.ofNat 8 (2 * k.val), Fin.ofNat 8 (2 * k.val + 1)]
      (∀ p ∈ ports, s.portOn p = true) → (s.dev.full = false ∨ s.calGet CALCFG.AUTO = 0) →
        ∃ t, exec (.thermSample ⟨k.val, by omega⟩ tj vtx) s = .next t ∧ t = { s with ports := t.ports } ∧
          (∀ p, p ∉ ports → t.port p = s.port p) ∧
          ∀ p ∈ ports, t.pget p TXMON.TJ = tj.toNat ∧ t.pget p TXMON.VTX = vtx.toNat ∧
            t.pget p TXSTAT.GOV_FACTOR = govFactor (s.pget p THERM.START) (s.pget p THERM.SLOPE) tj.toNat ∧
            (t.port p).field = { (s.port p).field with
              sampled := true
              hot := decide (2 * (thermStart (s.pget p THERM.START) + s.pget p THERM.DUTY_AT) + 128 ≤ tj.toNat)
              debt := (t.port p).field.debt
              dutyUsed := (t.port p).field.dutyUsed } ∧
            ∀ o, o ≠ TXMON.reg → o ≠ TXSTAT.reg → (t.port p).word o = (s.port p).word o) ∧
    -- the factor of the governor: full below START, never below a quarter
    (∀ start slope tj, (tj ≤ 128 + 2 * thermStart start → govFactor start slope tj = 100) ∧
      (∀ n, tj = 128 + 2 * thermStart start + n → (slope + 1) * n ≤ 75 → govFactor start slope tj = 100 - (slope + 1) * n) ∧
      25 ≤ govFactor start slope tj ∧ govFactor start slope tj ≤ 100)

/-- A written FRMCTL and the staged receive settings take effect at an idle point or with the field off, and a change of
coding loads the defaults of the registers under their AUTO bits. AGC moves the Damper by one step per window beyond
its marks; an overload sets OVL and marks the frame; the DC acquisition ends; the first noise window sets the floor; a
restart gives NOISE its reset word. (R76, R78, R87, R91, R94) -/
def Obligations.ReceiveSettingsAndMeasurementsMoveTheirRegisters : Prop :=
  (
    ∀ (s : State) (p : PortNum), s.raised = [] →
      let w := (s.port p).word FRMCTL.reg
      let f := s.modFramer p fun f => { f with frm := w, frmPend := false }
      -- FRMCTL; a change of coding loads the defaults of the registers under AUTO
      ((s.port p).framer.frmPend = true → s.idleOrOff p = true →
        (codingKey w = codingKey (s.port p).framer.frm → exec (.frmctlApply p) s = .next f) ∧
        (codingKey w ≠ codingKey (s.port p).framer.frm → ∃ t, exec (.frmctlApply p) s = .next t ∧ t = { s with ports := t.ports } ∧
          (∀ q, q ≠ p → t.port q = s.port q) ∧ (t.port p).framer = (f.port p).framer ∧
          (s.pget p RXCTL.RXAUTO = 1 → t.pget p DECIM.K = (rxDefaults w).1 ∧ t.pget p MEDIAN.TAPS = (rxDefaults w).2.1 ∧
            t.pget p MEDIAN.RANK = (rxDefaults w).2.2.1 ∧ t.pget p FIRCTL.SET = (rxDefaults w).2.2.2) ∧
          (s.pget p FDT.AUTO = 1 → t.pget p FDT.MIN = (windowDefaults (codingOf w)).1 ∧
            t.pget p FDT.GRID = (windowDefaults (codingOf w)).2.1) ∧
          (s.pget p FWT.AUTO = 1 → t.pget p FWT.WAIT = (windowDefaults (codingOf w)).2.2.1) ∧
          (s.pget p BITTOL.AUTO = 1 → t.pget p BITTOL.TOL = (windowDefaults (codingOf w)).2.2.2) ∧
          t.pget p AFC.SEEDVALID = 0)) ∧
      ((s.port p).framer.frmPend = false ∨ s.idleOrOff p = false → exec (.frmctlApply p) s = .next s) ∧
      -- the other receive settings
      ((s.port p).chain.pend = true → s.idleOrOff p = true → ∃ t, exec (.rxConfigApply p) s = .next t ∧
        t = { s with ports := t.ports } ∧ (∀ q, q ≠ p → t.port q = s.port q) ∧
        t.port p = { s.port p with chain := { (s.port p).chain with inForce := (t.port p).chain.inForce, pend := false } } ∧
        ∀ o ∈ stagedRegs, Cells.word .port (t.port p).chain.inForce o = (s.port p).word o) ∧
      ((s.port p).chain.pend = false ∨ s.idleOrOff p = false → exec (.rxConfigApply p) s = .next s)) ∧
  (
    ∀ (s : State) (p : PortNum), s.raised = [] →
      -- AGC: one Damper step above the upper mark, one below the lower mark
      (∀ peak : Int, s.pon p DAMPER.AGC = true → s.rxRuns p = true → s.idlePoint p = true → s.cplFrozen p = false →
        let a := s.pget p DAMPER.ATTEN
        let hi := s.pget p DAMPER.HI
        let lo := max (s.pget p DAMPER.LO) (hi + 6)
        let moved := fun n => let u := (s.pset p DAMPER.ATTEN n).pset p DCBLK.ACQ 1
          u.modPort p fun q => { q with chain := { q.chain with
            inForce := Cells.put .port q.chain.inForce DAMPER.reg (q.word DAMPER.reg) } }
        (-(4 * (hi : Int)) < peak → a < 15 → exec (.agcWindowEnd p peak) s = .next (moved (a + 1))) ∧
        (-(4 * (hi : Int)) < peak → a = 15 → exec (.agcWindowEnd p peak) s = .next s) ∧
        (peak < -(4 * (lo : Int)) → 0 < a → exec (.agcWindowEnd p peak) s = .next (moved (a - 1))) ∧
        (peak < -(4 * (lo : Int)) → a = 0 → exec (.agcWindowEnd p peak) s = .next s) ∧
        (-(4 * (lo : Int)) ≤ peak → peak ≤ -(4 * (hi : Int)) → exec (.agcWindowEnd p peak) s = .next s)) ∧
      (∀ peak, s.pon p DAMPER.AGC = false ∨ s.rxRuns p = false ∨ s.idlePoint p = false →
        exec (.agcWindowEnd p peak) s = .next s) ∧
      -- an overload, the end of an acquisition
      (s.rxRuns p = true → (s.port p).framer.win = none → (s.port p).framer.stray = false →
        exec (.adcOverload p) s = .next (s.pset p RXCTL.OVL 1)) ∧
      (∀ w t, s.rxRuns p = true → (s.port p).framer.win = some w → w.start = some t → exec (.adcOverload p) s = .next
        ((s.pset p RXCTL.OVL 1).modPort p fun q => { q with chain := { q.chain with clipped := true } })) ∧
      (s.dcFrozen p = false → exec (.dcAcqEnd p) s = .next (s.pset p DCBLK.ACQ 0)) ∧
      (s.dcFrozen p = true → exec (.dcAcqEnd p) s = .next s) ∧
      -- the noise floor: the first window sets it, a later one of the same level keeps it
      (∀ r : Int, -1024 ≤ r → r ≤ 1023 → s.rxRuns p = true → s.idlePoint p = true → s.dcFrozen p = false →
        s.pon p DCBLK.ACQ = false → s.pon p NOISE.VALID = false →
        exec (.noiseWindowEnd p r true) s = .next (((s.pset p NOISE.LEVEL (unsigned 11 r)).pset p NOISE.VALID 1).pset p
          NOISE.WINDOWS (min 65535 (s.pget p NOISE.WINDOWS + 1)))) ∧
      (∀ r, exec (.noiseWindowEnd p r false) s = .next s) ∧
      (s.portOn p = true → exec (.noiseRestart p) s = .next (s.modPort p fun q => q.putWord NOISE.reg (resetWord .port NOISE.reg))))

/-- A COMMIT with the right CRC takes the matrix whole and else sets CHECKFAIL; the background check withdraws a matrix
that has changed, logs it and tells the co-owners; receivers take it at idle points. A group takes its schedule at its
boundary. A frame goes out when no mate protects air time, is held and counted once when one does, and an override
sends a held frame unless a mate holds a reservation; the guard ends with a reservation that no phase follows. (R112,
R210, R211, R212, R217, R219, R220, R223, R225, R227, R229) -/
def Obligations.CouplingAndGroupsAreTakenWholeAndGranted : Prop :=
  (
    (∀ (s : State), s.raised = [] →
      -- COMMIT
      ((matrixCrc s.coord.regs).toNat = s.coordGet CPLCTL.CRC → ∃ t, exec .cplCommit s = .next t ∧
        t = { s with coord := t.coord } ∧ t.coord.crc = matrixCrc s.coord.regs ∧ t.coord.cplPend = [0, 1, 2, 3, 4, 5, 6, 7] ∧
        t.coordGet CPLCTL.VALID = 1 ∧ t.coord.active = s.coord.active ∧ t.coord.suspended = s.coord.suspended ∧
        (∀ i, i < 64 → Cells.word .coord t.coord.matrix (CPLM.reg + 4 * i) = Cells.word .coord s.coord.regs (CPLM.reg + 4 * i)) ∧
        ∀ o, o ≠ CPLCTL.reg → Cells.word .coord t.coord.regs o = Cells.word .coord s.coord.regs o) ∧
      ((matrixCrc s.coord.regs).toNat ≠ s.coordGet CPLCTL.CRC → exec .cplCommit s = .next (s.coordSet CPLCTL.CHECKFAIL 1)) ∧
      -- the background check
      (s.coordGet CPLCTL.VALID = 0 ∨ matrixCrc s.coord.matrix = s.coord.crc → exec .cplCheck s = .next s) ∧
      (s.coordGet CPLCTL.VALID = 1 → matrixCrc s.coord.matrix ≠ s.coord.crc →
        let d := leBytes 2 s.coord.crc.toNat ++ leBytes 2 (matrixCrc s.coord.matrix).toNat
        exec .cplCheck s = .next ((((s.coordSet CPLCTL.VALID 0).coordSet CPLCTL.CHECKFAIL 1).ash 0x0062 0x0F d).told
          s.coOwners 0x0F 0x0780 d))) ∧
    (∀ (s : State) (p : PortNum), s.raised = [] →
      (s.idleOrOff p = true → exec (.cplApply p) s = .next
        { s with coord := { s.coord with cplPend := s.coord.cplPend.filter (· ≠ p.val) } }) ∧
      (s.idleOrOff p = false → exec (.cplApply p) s = .next s) ∧
      exec (.adaptResume p) s = .next { s with coord := { s.coord with suspended := s.coord.suspended.filter (· ≠ p.val) } } ∧
      -- a block of the adaptation leaves its trims and the depth it reached
      (s.pget p LKCTL.ADAPT = 0 → ∀ a b l c, exec (.lkDepthBlock p a b l c) s = .next s) ∧
      (s.pget p LKCTL.ADAPT = 1 → ∀ (a b : Nat) (l : List Word) (c : Byte), l.length = 8 →
        ∃ t, exec (.lkDepthBlock p a b l c) s = .next t ∧ t = { s with ports := t.ports } ∧ (∀ q, q ≠ p → t.port q = s.port q) ∧
          t.pget p LKSTAT.DEPTH = (if b = 0 then 60 else min 60 (floorDb a b)) ∧
          (∀ j, j < 8 → (t.port p).word (LKCOEF.reg + 4 * j) =
            if j ≠ p.val ∧ j ∉ s.coord.suspended then l.getD j 0 else (s.port p).word (LKCOEF.reg + 4 * j)) ∧
          ∀ o, o ≠ LKSTAT.reg → (∀ j, j < 8 → o ≠ LKCOEF.reg + 4 * j) → (t.port p).word o = (s.port p).word o))) ∧
  (
    ∀ (s : State) (g : Fin 4), s.raised = [] →
      let new := s.wanted g.val
      ∃ t, exec (.groupBoundary g) s = .next t ∧ t = { s with ports := t.ports, coord := t.coord } ∧
        t.coord = { s.coord with active := s.coord.active.set g.val (portMask new), change := s.coord.change.set g.val false } ∧
        (∀ p o, o ≠ TXPHASE.reg → (t.port p).word o = (s.port p).word o) ∧
        (s.coordGet (GRPCFG.STAGGER.nth g.val 16) = 1 → ∀ m, (h : m < new.length) →
          t.pget new[m] TXPHASE.COORD = 1 ∧
          t.pget new[m] TXPHASE.PHASE = (s.coordGet (GRPCFG.BASE.nth g.val 16) + m * s.coordGet (GRPCFG.STEP.nth g.val 16)) % 256) ∧
        (s.coordGet (GRPCFG.STAGGER.nth g.val 16) = 0 → ∀ p, p ∈ new → (∀ h, h ≠ g.val → h < 4 → nbit (s.coord.active.getD h 0) p.val = false) →
          t.pget p TXPHASE.COORD = 0)) ∧
  (
    ∀ (s : State) (p : PortNum), s.raised = [] →
      (∀ ws, MaySend s p ws →
        -- no mate protects air time: the frame goes out
        ((∀ o ∈ s.mates p, s.protects o = false ∧ (s.port o).framer.tx = none) →
          ∃ t, exec (.frameGrant p) s = .next t ∧ FrameOut s t p ws) ∧
        -- a mate listens or holds a reservation: the frame is held, and counted once
        ((∃ o ∈ s.mates p, s.protects o = true) →
          exec (.frameGrant p) s = .next ((if (s.port p).framer.holdCounted then s
            else schCounted (SCHCNT.HOLDS.nth p.val) s).modFramer p fun f => { f with held := true, holdCounted := true })) ∧
        -- the override sends a held frame that is no DB_BEGIN, unless a mate holds a reservation
        ((s.port p).framer.held = true → s.dbWaiting p = false → (∀ o ∈ s.mates p, (s.port o).framer.reserved = false) →
          ∃ t, exec (.holdOverride p) s = .next t ∧ FrameOut (schCounted (SCHCNT.OVERRIDES.nth p.val) s) t p ws)) ∧
      (s.canSend p = false → (s.port p).framer.reqs = 0 ∨ (s.port p).framer.win ≠ none ∨ (s.port p).framer.tx ≠ none →
        exec (.frameGrant p) s = .next s) ∧
      ((s.port p).framer.held = false ∨ s.canSend p = false ∨ s.dbWaiting p = true ∨
          (∃ o ∈ s.mates p, (s.port o).framer.reserved = true) → exec (.holdOverride p) s = .next s) ∧
      -- the guard ends; with it a reservation that no phase follows
      ((s.port p).framer.guard = true → exec (.guardEnd p) s = .next (s.modFramer p fun f =>
        { f with guard := false, reserved := f.reserved && decide (0 < f.rapidN) })) ∧
      ((s.port p).framer.guard = false → exec (.guardEnd p) s = .next s) ∧
      -- SCHCNT is read and cleared
      exec (.schcntRead p) s = .next { s with coord := { s.coord with
        regs := Cells.put .coord s.coord.regs (SCHCNT.reg + 4 * p.val) 0 } })

/-- The end of a frame opens its window with the settings then in force. A start in time is taken, an early one or one off
the grid is a TIMING violation. WAIT without a start and the waiting limit close the window with their results; a
received frame is discarded by its violation class, is a disturbance that leaves the window open, an extension that
moves it, or a reply that goes to the RX FIFO with its result. A full result queue loses its oldest and sets RQOVF.
The class counters count and are read and cleared. (R108, R109, R110, R111, R113, R114, R115, R116, R118, R119, R152,
R443) -/
def Obligations.WindowsTimeTheRepliesThatFramesBring : Prop :=
  (
    ∀ (s : State) (p : PortNum), s.raised = [] →
      let f := (s.port p).framer
      -- the end of a frame opens its window with the settings then in force
      (∀ x, f.tx = some x → exec (.frameSendEnd p) s = .next (s.modFramer p fun f => { f with
        tx := none
        win := some { min := s.pget p FDT.MIN, wait := max 1 (s.pget p FWT.WAIT), grid := s.pon p FDT.GRID
                      lastOne := x.lastOne, frm := x.frm, base := max 1 (s.pget p FWT.WAIT), scanHalt := x.scanHalt
                      haltNext := x.haltNext, dbBegin := x.dbBegin, second := false, opened := true, firstOk := false
                      exts := 0, extSum := 0, viol := false, start := none } })) ∧
      (f.tx = none → exec (.frameSendEnd p) s = .next s) ∧
      -- a start in time is taken; an early one, or one off the grid, is a TIMING violation; a late one is none
      (∀ w t, f.win = some w → w.opened = true → w.start = none → f.stray = false → s.rxRuns p = true →
        let taken := exec (.replyStart p t) s = .next (s.modFramer p fun f => { f with win := some { w with start := some t } })
        let early := exec (.replyStart p t) s = .next ((s.violation p 0).modFramer p fun f => { f with stray := true })
        let base := if w.lastOne then 84 else 20
        (w.wait < t → exec (.replyStart p t) s = .next s) ∧
        (codingOf w.frm ≠ 0 ∨ w.grid = false → t ≤ w.wait → (w.min ≤ t → taken) ∧ (t < w.min → early)) ∧
        (codingOf w.frm = 0 → w.grid = true → t ≤ w.wait →
          ((∃ n, 9 ≤ n ∧ 128 * n + base ≤ t + 8 ∧ t ≤ 128 * n + base + 8) → taken) ∧
          (¬(∃ n, 9 ≤ n ∧ 128 * n + base ≤ t + 8 ∧ t ≤ 128 * n + base + 8) → early))) ∧
      -- WAIT expires with no start; the framer goes on to the second window, or to its guard
      (∀ w, f.win = some w → w.opened = true → w.start = none → f.reqs = 0 ∨ (w.haltNext = true ∧ w.second = false) →
        exec (.responseTimeout p) s = .next ((((s.pset p FRMSTAT.TIMEOUT 1).closeWindow p
          (w.wait - (if w.second then 1472 else 0)) false).putResult p
            (resultWord 2 false 0 false 0 (s.pget p FRMSTAT.VCLASS) w.viol false w.second)).idleWork p)) ∧
      -- the waiting sum reaches its limit: no second window follows
      (∀ w, f.win = some w → w.opened = true → w.start = none → f.reqs = 0 →
        exec (.waitLimitExpiry p) s = .next ((((((s.pset p FRMSTAT.TIMEOUT 1).pset p FRMSTAT.WLIM 1).violation p 7).modFramer p
          fun f => { f with win := none, guard := true, reserved := false }).putResult p
            (resultWord 2 false 0 false 0 7 true true w.second)).idleWork p)) ∧
      -- what a closing window leaves
      (∀ w time ok, f.win = some w → s.closeWindow p time ok = s.modFramer p fun f =>
        if w.haltNext = true ∧ w.second = false then
          { f with waitSum := f.waitSum + time
                   win := some { w with second := true, opened := false, firstOk := ok, viol := false, start := none
                                        min := 1472, wait := 1504, grid := false } }
        else { f with waitSum := f.waitSum + time, win := none, guard := true, reserved := f.reserved && ok }) ∧
      -- what a result leaves: a full queue of four loses its oldest and sets RQOVF
      (∀ r, (f.results.length < 4 → s.putResult p r = s.modFramer p fun f => { f with results := f.results ++ [r] }) ∧
        (f.results.length = 4 → ((s.putResult p r).port p).framer.results = f.results.drop 1 ++ [r] ∧
          (s.putResult p r).eswBit p 7 = true)) ∧
      exec (.secondWindowOpen p) s = .next (s.modFramer p fun f =>
        { f with win := f.win.map fun w => { w with opened := w.opened || w.second } }) ∧
      exec (.frmstatXstart p) s = .next (s.modFramer p fun f => { f with waitSum := 0 })) ∧
  (
    ∀ (s : State) (p : PortNum), s.raised = [] →
      let f := (s.port p).framer
      (∀ (w : Window) (rx : RxFrame) (at_ : Nat), f.stray = false → f.win = some w → w.start = some at_ → f.reqs = 0 →
        let u := s.quality p w.frm rx
        let clipped := (s.port p).chain.clipped
        let v := u.judge p w.frm rx
        -- a frame of a violation class is discarded and counted
        (∀ c, v = .discard c → exec (.frameReceiveEnd p rx) s = .next ((((u.violation p c).closeWindow p (at_ + rx.dur) false).putResult p
          (resultWord 3 false 0 clipped 0 c true false w.second)).idleWork p)) ∧
        -- a disturbance leaves the window open
        (v = .disturbance → exec (.frameReceiveEnd p rx) s =
          .next ((u.modFramer p fun f => { f with win := some { w with start := none } }).idleWork p)) ∧
        -- an extension frame moves the window
        (∀ m, v = .accept → w.extension rx = some m → exec (.frameReceiveEnd p rx) s = .next ((u.modFramer p fun f => { f with
          waitSum := f.waitSum + (at_ + rx.dur)
          win := some { w with min := 336, wait := m * w.base, grid := false, exts := w.exts + 1
                               extSum := w.extSum + m * w.base, start := none } }).idleWork p)) ∧
        -- a reply goes into the RX FIFO without its CRC, and its result into the queue
        (v = .accept → w.extension rx = none → collides w.frm rx = false → w.dbBegin = false →
          let data := if wget w.frm 12 1 = 1 then rx.bytes.take (rx.bytes.length - 2) else rx.bytes
          let x := (((State.pushPacket p .rx data u).pset p FRMSTAT.RXDONE 1).pset p FRMSTAT.COLL 0).pset p FRMSTAT.RXBITS rx.lastBits.val
          (s.fifo p .rx).sound → exec (.frameReceiveEnd p rx) s = .next
            (((x.closeWindow p (at_ + rx.dur) true).putResult p (resultWord 1 false rx.lastBits.val clipped
              (x.pget p FRMSTAT.COLLPOS) (x.pget p FRMSTAT.VCLASS) w.viol false w.second)).idleWork p))) ∧
      -- VREP_P, VREP_X and what a violation leaves
      (s.portOn p = true → exec (.frmstatVrepP p) s = .next (s.violation p 6) ∧ exec (.frmstatVrepX p) s = .next (s.violation p 7)) ∧
      (∀ c, c < 8 → let u := s.violation p c
        u = { s with ports := u.ports } ∧ (∀ q, q ≠ p → u.port q = s.port q) ∧ u.pget p FRMSTAT.DISCARD = 1 ∧
          u.pget p FRMSTAT.VCLASS = c ∧ u.pget p (violFld c) = min 255 (s.pget p (violFld c) + 1) ∧
          (u.port p).framer = { f with win := f.win.map fun w => { w with viol := true } } ∧
          ∀ o, o ≠ FRMSTAT.reg → o ≠ (violFld c).off → (u.port p).word o = (s.port p).word o) ∧
      -- the class counters are read and cleared
      exec (.violcntRead p) s = .next (s.modPort p fun q => (q.putWord VIOLCNT.reg 0).putWord VIOLCNT1.reg 0))

/-- A phase that was asked for starts when the framer is quiet, leaves the record of each slot (onset, phase, presence,
sent bit) with ABSENT and LATE counted, and ends with DONE and its result. DB_RUN and DB_CAL are judged in order and
start with free random bytes once the TRNG delivers. DB_VERDICT gives every slot its class from its record, decides
aborted, silent, MAC failure, relay or pass, logs all but a pass and answers with the counts and the limits in force.
(R229, R230, R234, R235, R238, R240, R242, R244, R246, R517) -/
def Obligations.DistanceRunsRecordTheirSlotsAndAreJudged : Prop :=
  (
    ∀ (s : State) (p : PortNum), s.raised = [] →
      let f := (s.port p).framer
      -- a phase that was asked for, with its DB_BEGIN granted, starts once the framer is quiet
      (0 < f.rapidN → f.reserved = true → f.rapidOn = false → s.pget p TXCTL.RAPID_EN = 1 → f.tx = none → f.win = none → s.fieldState p = 2 →
        exec (.rapidPhaseStart p) s = .next ((s.modFramer p fun f => { f with rapidOn := true, rapidSlot := 0 }).pset p DBRES.NSLOTS f.rapidN)) ∧
      (f.rapidN = 0 ∨ f.reserved = false ∨ f.rapidOn = true ∨ s.pget p TXCTL.RAPID_EN = 0 ∨ s.fieldState p ≠ 2 →
        exec (.rapidPhaseStart p) s = .next s) ∧
      -- a slot leaves its record, and no other slot's record changes
      (∀ sent b, f.rapidOn = true → f.rapidSlot < f.rapidN → f.rapidN ≤ 64 → ∃ t, exec (.dbChallengeSlot p sent b) s = .next t ∧
        t = { s with ports := t.ports } ∧ (∀ q, q ≠ p → t.port q = s.port q) ∧
        (t.port p).framer = { f with rapidSlot := f.rapidSlot + 1 } ∧
        t.dbRec p f.rapidSlot = (match b with
          | some b => b.onset.toNat + 2048 + 4096 * bit b.phase + 8192 * bit sent
          | none => 8192 * bit sent) ∧
        (∀ j, j < 64 → j ≠ f.rapidSlot → t.dbRec p j = s.dbRec p j) ∧
        (s.pget p DBRES.ABSENT < 127 → t.pget p DBRES.ABSENT = s.pget p DBRES.ABSENT + bit b.isNone) ∧
        (s.pget p DBRES.LATE < 127 → t.pget p DBRES.LATE = s.pget p DBRES.LATE + lateOf s p b) ∧
        ((t.port p).tim.onsets = (s.port p).tim.onsets ++ (b.map (·.onset.toNat)).toList) ∧
        ∀ o, o < DBREC.reg → o ≠ DBRES.reg → (t.port p).word o = (s.port p).word o) ∧
      (∀ sent b, f.rapidOn = false ∨ f.rapidN ≤ f.rapidSlot → exec (.dbChallengeSlot p sent b) s = .next s) ∧
      -- the end of a phase: DONE, its result in the queue, the reservation released
      (f.rapidOn = true → f.rapidSlot = f.rapidN → f.reqs = 0 → (s.port p).svc.db = none → (s.port p).tim.excess = [] →
        exec (.rapidPhaseEnd p) s = .next ((((s.pset p DBRES.DONE 1).modFramer p fun f =>
          { f with rapidOn := false, rapidN := 0, rapidSlot := 0, reserved := false }).putResult p 1).idleWork p)) ∧
      (f.rapidOn = false ∨ f.rapidSlot ≠ f.rapidN → exec (.rapidPhaseEnd p) s = .next s) ∧
      -- LOCK
      (s.portOn p = true → exec (.dbctlLock p) s = .next (s.pset p DBCTL.LOCK 1))) ∧
  (
    (∀ (s : State) (h : HostCmd),
      let b := byteAt h.payload
      let p := toPort h.target.toNat
      let v := (s.port p).svc
      -- DB_RUN
      (63 < b 1 ∨ 1 < b 2 → RepliesAs (.dbRun h) s opDbRun h s St.BAD_PARAM []) ∧
      (b 1 ≤ 63 → b 2 ≤ 1 → v.session = none → RepliesAs (.dbRun h) s opDbRun h s St.NO_TAG []) ∧
      (b 1 ≤ 63 → b 2 ≤ 1 → ∀ x, v.session = some x →
        (x.bounds = false ∨ b 0 < 16 ∨ byteAt x.info 5 < b 0 → RepliesAs (.dbRun h) s opDbRun h s St.BAD_PARAM []) ∧
        (x.bounds = true → 16 ≤ b 0 → b 0 ≤ byteAt x.info 5 →
          (s.keyFor (b 1) [1] 0 = none → RepliesAs (.dbRun h) s opDbRun h s St.SECURITY_DENIED []) ∧
          ((s.keyFor (b 1) [1] 0).isSome = true → s.calGet CALSTAT.NOSET = 1 →
            RepliesAs (.dbRun h) s opDbRun h s St.INTERNAL_ERROR []) ∧
          ((s.keyFor (b 1) [1] 0).isSome = true → s.calGet CALSTAT.NOSET ≠ 1 →
            StartsRun (.dbRun h) s opDbRun h (DbRun.fresh false (b 0) (b 1) (b 2 == 1) 0)))) ∧
      -- DB_CAL
      (v.session = none → RepliesAs (.dbCal h) s opDbCal h s St.NO_TAG []) ∧
      (∀ x, v.session = some x →
        (x.bounds = false → RepliesAs (.dbCal h) s opDbCal h s St.BAD_PARAM []) ∧
        (x.bounds = true → byteAt x.info 5 < 16 ∨ 64 < byteAt x.info 5 → RepliesAs (.dbCal h) s opDbCal h s St.PROTOCOL_ERROR []) ∧
        (x.bounds = true → 16 ≤ byteAt x.info 5 → byteAt x.info 5 ≤ 64 →
          (s.pget p DBCTL.LOCK = 1 → RepliesAs (.dbCal h) s opDbCal h s St.SECURITY_DENIED []) ∧
          (s.pget p DBCTL.LOCK ≠ 1 → StartsRun (.dbCal h) s opDbCal h
            (DbRun.fresh true (calChallenges (byteAt x.info 5)) 0 false (leAt h.payload 0 2)))))) ∧
    (∀ (s : State) (p : PortNum) (reply : DbReply),
      -- DB_VERDICT waits for a run whose phase is over and whose engine has answered
      (s.raised = [] → s.findJob (dbOf p) = none → exec (.dbVerdict p reply) s = .next s) ∧
      (∀ r d, s.findJob (dbOf p) = some r → (s.port p).svc.db = some d →
        (s.raised = [] → d.cal = true ∨ d.answered = false ∨ d.phaseDone = false → exec (.dbVerdict p reply) s = .next s) ∧
        (d.cal = false → d.answered = true → d.phaseDone = true →
          let ends := fun st => (({ s with running := dropFirst (dbOf p) s.running } : State).respond r.cmd st).dropDb p
          (reply = .silent → Leaves (.dbVerdict p reply) s (ends St.TIMEOUT)) ∧
          (reply ≠ .silent → s.keyFor d.slot [1] 0 = none → Leaves (.dbVerdict p reply) s (ends St.SECURITY_DENIED)) ∧
          (∀ st crx mac k, reply = .answered st crx mac → s.keyFor d.slot [1] 0 = some k →
            let cls := s.classes p d (Config.aes128 k.key (d.nr ++ d.nt)) reply
            let cnt := fun x => (cls.filter (· == x)).length
            let allowed := min (s.dbK p) (d.n / 8)
            let macOk := (Config.aesCmac k.key (d.nr ++ d.nt ++ leBytes 1 d.n ++ crx)).take 8 == mac
            let out := decideRun ((List.range d.n).all fun i => recSent (s.dbRec p i) == bitOf d.chal i) (st == 0)
              (cnt .absent == d.n) macOk (failedSlots cls) allowed
            let sums := leBytes 1 (cnt .absent) ++ leBytes 1 (cnt .wrong) ++ leBytes 1 (cnt .late) ++ leBytes 1 (cnt .good)
              ++ leBytes 2 (s.pget p DBEXC.MEDIAN) ++ leBytes 2 (s.pget p DBEXC.MAX)
            let lims := leBytes 2 (s.dbThresh p) ++ leBytes 2 (s.pget p DBDLY.TAGDLY) ++ leBytes 2 (s.pget p DBDLY.OFS)
            let dint := leBytes 2 (s.pget p DBINT.DINT)
            let uid := ((s.port p).svc.session.map (·.uid)).getD []
            let u := if out = .pass then s else s.ash 0x0040 p.val (padTo 8 uid ++ leBytes 1 (s.antenna p) ++ leBytes 1 d.n
              ++ leBytes 1 allowed ++ leBytes 1 out.code ++ sums ++ lims ++ dint)
            let t := (u.dbEntry (keyOf 3 8 uid) out).dropDb p
            Leaves (.dbVerdict p reply) s (({ t with running := t.running.filter fun r => r.job != Job.db p } : State).respond r.cmd
              out.status (leBytes 1 out.code ++ leBytes 1 d.n ++ leBytes 1 allowed ++ [0] ++ sums ++ leBytes 1 (s.pget p DBSNR.SNR)
                ++ [0] ++ dint ++ lims ++ (if d.record then d.chal ++ (List.range 32).flatMap fun m =>
                  wordBytes ((s.port p).word (DBREC.reg + 4 * m)) else []))))))) ∧
    -- the class of a slot, and the outcome of a run
    (∀ r chal a crx late,
      (recPres r = false → slotClass r chal a crx late = .absent) ∧
      (recPres r = true → recPhase r ≠ (chal != a) ∨ (∃ x, crx = some x ∧ x ≠ chal) → slotClass r chal a crx late = .wrong) ∧
      (recPres r = true → recPhase r = (chal != a) → crx = none ∨ crx = some chal →
        slotClass r chal a crx late = if late then .late else .good)) ∧
    (∀ sent answered absent mac failed k,
      (sent = false → decideRun sent answered absent mac failed k = .aborted) ∧
      (sent = true → answered = false ∨ absent = true → decideRun sent answered absent mac failed k = .silent) ∧
      (sent = true → answered = true → absent = false → mac = false → decideRun sent answered absent mac failed k = .macfail) ∧
      (sent = true → answered = true → absent = false → mac = true →
        decideRun sent answered absent mac failed k = if failed ≤ k then .pass else .relay)))

/-- CAL_RUN is judged and begun with its parameters or the defaults; its measurements move it on step by step, the
capacitor sweep keeping the smallest phase. CAL_EXPORT answers the blob of R299 with its CRC; CAL_IMPORT makes its
checks in order and applies its sections; CAL_COUPLING measures two or more open idle ports, freezes the receivers and
repeats a disturbed source up to eight times. A cross-check beyond 0.5 dB fails, is logged and told; staged values are
taken at idle points. (R278, R284, R286, R287, R290, R291, R292, R296, R299, R300, R301) -/
def Obligations.CalibrationCommandsMeasureStoreAndCheck : Prop :=
  (∀ (s : State) (h : HostCmd),
    let b := byteAt h.payload
    let p := toPort h.target.toNat
    -- CAL_RUN with its parameters, or with the defaults of the inventory list
    (∀ steps ref level ants, (h.payload ≠ [] → steps = b 0 ∧ ref = b 1 ∧ level = leAt h.payload 2 2 ∧ ants = leAt h.payload 4 8) →
      (h.payload = [] → steps = 15 ∧ ants = leAt ((s.port p).svc.invNext.getD (s.port p).svc.inv) 0 8 ∧
        ref = (maskAnts ants).headD 0 ∧ level = s.pget p TXAMP.LEVEL) →
      let bad := ants = 0 ∨ steps = 0 ∨ 15 < steps ∨ 63 < ref ∨ (h.payload ≠ [] ∧ (level < 1 ∨ 1023 < level))
      (bad → RepliesAs (.calRun h) s opCalRun h s St.BAD_PARAM []) ∧
      (¬bad → (s.port p).field.lockout = true → RepliesAs (.calRun h) s opCalRun h s St.THERMAL_LIMIT []) ∧
      (¬bad → (s.port p).field.lockout = false → Runs (.calRun h) s opCalRun h
        ((s.opened (opCalRun.cmd h)).calBegin p (opCalRun.cmd h) { steps := steps, refAnt := ref, level := level, ants := maskAnts ants, todo := maskAnts ants, capNow := 0, bestCap := 0, bestPhase := 0, levels := [] }))) ∧
    -- CAL_EXPORT: the blob of R299 with its CRC
    (let recs := (allPorts.filter fun q => nbit (b 0) q.val).flatMap s.calRecord
     let body := [0x1B, 0xCA, 1, 0] ++ leBytes 2 (290 + recs.length) ++ [0xC1] ++ leBytes 1 (b 0) ++ dieBytes ++ [0]
       ++ leBytes 4 s.seconds ++ leBytes 1 (s.coordGet CPLCTL.VALID) ++ [0, 0, 0] ++ wordsBytes (matrixWords s.coord.matrix)
       ++ leBytes 2 (matrixCrc s.coord.matrix).toNat ++ [0, 0] ++ recs
     Replies (.calExport h) s opCalExport h s (body ++ CrcKind.crcO.bytes body)) ∧
    -- CAL_IMPORT: the order of its checks
    (let l := h.payload.drop 4
     let short := leAt l 4 2 ≠ l.length ∨ l.length ≠ 290 + 176 * popCount 8 (byteAt l 7)
     let bad := 31 < b 0 ∨ 1 < b 1 ∨ blobBad l (b 0) = true
     let foreign := b 1 = 0 ∧ (l.drop 8).take 11 ≠ dieBytes
     let busy := (∃ q ∈ s.calPorts, nbit (byteAt l 7) q.val = true) ∨ s.couplingSet ≠ []
     (short → RepliesAs (.calImport h) s opCalImport h s St.BAD_LENGTH []) ∧
     (¬short → bad → RepliesAs (.calImport h) s opCalImport h s St.BAD_PARAM []) ∧
     (¬short → ¬bad → 0xC1 < byteAt l 6 → RepliesAs (.calImport h) s opCalImport h s St.IMAGE_INVALID []) ∧
     (¬short → ¬bad → byteAt l 6 ≤ 0xC1 → foreign → RepliesAs (.calImport h) s opCalImport h s St.BAD_PARAM []) ∧
     (¬short → ¬bad → byteAt l 6 ≤ 0xC1 → ¬foreign → busy → RepliesAs (.calImport h) s opCalImport h s St.BUSY []) ∧
     (¬short → ¬bad → byteAt l 6 ≤ 0xC1 → ¬foreign → ¬busy →
       Runs (.calImport h) s opCalImport h ((s.opened (opCalImport.cmd h)).calApply (opCalImport.cmd h) (b 0) l))) ∧
    -- CAL_COUPLING measures two or more open ports on which nothing runs
    (let set := (List.range 8).filter fun i => nbit (b 0) i
     let ants := (List.range 8).map fun i => b (4 + i)
     let idle := ∀ n ∈ set, (s.port (toPort n)).svc.svc = .opened ∧ s.portBusy (toPort n) = false ∧
       (s.port (toPort n)).svc.pass = none ∧ (s.port (toPort n)).svc.series = false
     let bad := set.length < 2 ∨ ∃ n ∈ set, 63 < ants.getD n 0
     (bad → RepliesAs (.calCoupling h) s opCalCoupling h s St.BAD_PARAM []) ∧
     (¬bad → ¬idle → RepliesAs (.calCoupling h) s opCalCoupling h s St.BUSY []) ∧
     (¬bad → idle → Runs (.calCoupling h) s opCalCoupling h
       ((s.opened (opCalCoupling.cmd h)).cplBegin (opCalCoupling.cmd h) set ants)))) ∧
  (∀ (s : State) (p : PortNum), s.raised = [] →
    -- XCHK_RUN: a deviation beyond 0.5 dB fails, is logged and told to the owner
    (∀ dev : Int, s.xchkPend.contains p.val = true → s.fieldState p = 0 → s.portOn p = true →
      let d := unsigned 16 (clampInt (-32768) 32767 dev)
      let u := ((({ s with xchkPend := s.xchkPend.filter (· ≠ p.val) } : State).calSet (ADCX.DEV.nth p.val) d).calSet
        (ADCX.VALID.nth p.val) 1)
      let u := u.calSet (ADCX.CHECKS.nth p.val) (min 255 (u.calGet (ADCX.CHECKS.nth p.val) + 1))
      (-50 ≤ dev → dev ≤ 50 → exec (.xchkRun p dev) s = .next u) ∧
      (dev < -50 ∨ 50 < dev → exec (.xchkRun p dev) s = .next (((u.calSet (ADCX.FAIL.nth p.val) 1).ash 0x0071 p.val
        (leBytes 2 d)).toldOwner p.val 0x0782 ([BitVec.ofNat 8 p.val, 0] ++ leBytes 2 d)))) ∧
    (∀ dev : Int, s.xchkPend.contains p.val = false ∨ s.fieldState p ≠ 0 → exec (.xchkRun p dev) s = .next s) ∧
    -- RECAL_APPLY: staged values are taken at an idle point, by T with no field session
    (s.idleOrOff p = true → exec (.recalApply (some p)) s = .next (s.takeTrims p.val)) ∧
    (s.idleOrOff p = false → exec (.recalApply (some p)) s = .next s) ∧
    (s.xget XSTAT.SESSION = 0 → exec (.recalApply none) s = .next (s.takeTrims 8)) ∧
    (s.xget XSTAT.SESSION ≠ 0 → exec (.recalApply none) s = .next s) ∧
    (∀ n, (s.staged.find? (·.1 == n)) = none → s.takeTrims n = s) ∧
    (∀ n v, s.staged.find? (·.1 == n) = some v → (s.takeTrims n).trims = assocPut n v.2 s.trims ∧
      (s.takeTrims n).staged = s.staged.filter (·.1 ≠ n)) ∧
    -- CAL_MEASUREMENT_END moves the run on by one measurement of the step it is in
    (s.findJob (calRunOf p) = none → ∀ m, exec (.calMeasurementEnd p m) s = .next s) ∧
    (∀ r q c, s.findJob (calRunOf p) = some r → r.job = .calRun q c →
      (∀ dev, nbit c.steps 2 = true → s.fieldState p = 0 →
        Leaves (.calMeasurementEnd p (.crossCheck dev)) s ((s.crossCheck p dev).calNext p { c with steps := c.steps &&& 0xB })) ∧
      (∀ phase, nbit c.steps 2 = false → nbit c.steps 0 = true → s.idlePoint p = true →
        let c1 := c.tuned phase
        (c1.capNow ≠ 64 → exec (.calMeasurementEnd p (.tuneStep phase)) s = .next (s.calGoOn p c1)) ∧
        (c1.capNow = 64 → Leaves (.calMeasurementEnd p (.tuneStep phase)) s
          ((((s.calSet (TUNE.CAP.nth p.val) c1.bestCap).calSet (TUNE.APPLIED.nth p.val) c1.bestCap).fieldDown p).calNext p
            { c1 with steps := c1.steps &&& 0xA }))) ∧
      (∀ mag a l, nbit c.steps 2 = false → nbit c.steps 0 = false → nbit c.steps 1 = true → s.idlePoint p = true → c.todo = a :: l →
        let c1 := { c with todo := l, levels := c.levels ++ [(a, levelKey mag (s.pget p DAMPER.ATTEN))] }
        Leaves (.calMeasurementEnd p (.antenna mag)) s
          ((s.fieldDown p).calNext p (if l.isEmpty then { c1 with steps := c.steps &&& 0x8 } else c1)))) ∧
    -- the sweep of the tuning capacitor keeps the setting with the smallest phase, the lower of two alike
    (∀ c : CalRun, ∀ phase : Int, (c.tuned phase).capNow = c.capNow + 1 ∧
      (c.capNow = 0 ∨ phase.natAbs < c.bestPhase.natAbs → (c.tuned phase).bestCap = c.capNow ∧ (c.tuned phase).bestPhase = phase) ∧
      (c.capNow ≠ 0 → c.bestPhase.natAbs ≤ phase.natAbs →
        (c.tuned phase).bestCap = c.bestCap ∧ (c.tuned phase).bestPhase = c.bestPhase)) ∧
    -- COUPLING_SOURCE_END: the receivers freeze once all fields are up, then each source is measured
    (s.findJob couples = none → ∀ m, exec (.couplingSourceEnd m) s = .next s) ∧
    (∀ r c, s.findJob couples = some r → r.job = .coupling c →
      let up := ∀ n ∈ c.set, s.fieldState (toPort n) = 2
      (up → c.frozen = false → exec (.couplingSourceEnd .freeze) s = .next (s.cplGoOn { c with frozen := true })) ∧
      (up → c.frozen = true → ∀ v e, Leaves (.couplingSourceEnd (.source v e)) s (s.cplSource c v e)) ∧
      (up → c.frozen = true → c.repeats < 8 →
        exec (.couplingSourceEnd .disturbed) s = .next (s.cplGoOn { c with repeats := c.repeats + 1 })) ∧
      (up → c.frozen = true → 8 ≤ c.repeats → Leaves (.couplingSourceEnd .disturbed) s (s.stopCoupling St.TIMEOUT)) ∧
      (¬up → ∀ m, exec (.couplingSourceEnd m) s = .next s)))

/-- A pass of a series takes the parameters written since the last one, visits the antennas of ANTLIST in ascending order,
each once, hands each slot to the engine, and ends complete, stopped between two slots or by a fault, with INV_DONE
(after INV_CENSUS for a census) to the owner. What a pass cannot do changes nothing. (R175, R176, R177, R190, R191,
R192) -/
def Obligations.PassesVisitTheirAntennasAndReport : Prop :=
  ∀ (s : State) (p : PortNum), s.raised = [] →
    let v := (s.port p).svc
    -- the next pass of a series takes the parameters written since the last one
    (v.series = true → v.pass = none → v.svc = .opened → s.portBusy p = false →
      exec (.invPassStart p) s = .next (s.modSvc p fun v => { v with
        inv := v.invNext.getD v.inv
        invNext := none
        series := leAt (v.invNext.getD v.inv) 28 2 != 0
        passNum := (v.passNum + 1) % 2 ^ 32
        censusDue := false
        pass := some { num := (v.passNum + 1) % 2 ^ 32, left := invAnts (v.invNext.getD v.inv), slot := none
                       counts := [0, 0, 0, 0], untracked := 0, census := v.censusDue && !s.ttCensusEvents, stop := false
                       fault := none, visited := [], halted := [] } })) ∧
    (v.series = false ∨ v.pass ≠ none ∨ v.svc ≠ .opened ∨ s.portBusy p = true → exec (.invPassStart p) s = .next s) ∧
    -- the antennas come in ascending order, each once
    ((invAnts v.inv).Pairwise (· < ·) ∧ ∀ a, a ∈ invAnts v.inv ↔ a < 64 ∧ nbit (leAt v.inv 0 8) a = true) ∧
    -- the next slot: its antenna and the pass number go to the engine with the parameters
    (∀ x ant rest, v.pass = some x → x.slot = none → x.left = ant :: rest → x.stop = false → x.fault = none → v.svc = .opened →
      let u := s.modSvc p fun v => { v with pass := some { x with slot := some ant, left := rest, halted := [] } }
      exec (.invSlotStart p) s = .next ((u.putMbox p v.inv).ringEngine p
        [BitVec.ofNat 32 (ant + 64 * leAt v.inv 8 2), 3, BitVec.ofNat 32 x.num])) ∧
    (∀ x, v.pass = some x → x.slot ≠ none ∨ x.left = [] ∨ x.stop = true → exec (.invSlotStart p) s = .next s) ∧
    -- the end of a pass: complete, stopped between two slots, or ended by a fault
    (∀ x, v.pass = some x → x.slot = none →
      let ends := fun (reason status : Nat) (goOn : Bool) =>
        let u := s.modSvc p fun v => { v with pass := none, prevSlots := x.visited, series := v.series && goOn }
        let done := leBytes 1 p.val ++ leBytes 1 reason ++ leBytes 4 x.num ++ x.counts.flatMap (leBytes 1 ·) ++
          leBytes 2 x.untracked ++ leBytes 2 status
        (x.census = false → exec (.invPassEnd p) s = .next (u.toldOwner p.val 0x0386 done)) ∧
        (x.census = true → Leaves (.invPassEnd p) s
          ((u.raiseOwner p.val 0x0385 (leBytes 1 p.val ++ [0] ++ leBytes 2 (s.presentOn p) ++ leBytes 2 x.untracked)).raiseOwner
            p.val 0x0386 done))
      (x.fault = none → x.left = [] → ends 0 0 (!x.stop)) ∧
      (x.fault = none → x.left ≠ [] → x.stop = true → ends 1 0 false) ∧
      (∀ st, x.fault = some st → ends 2 st false) ∧
      (x.fault = none → x.left ≠ [] → x.stop = false → exec (.invPassEnd p) s = .next s)) ∧
    (v.pass = none → exec (.invPassEnd p) s = .next s)

/-- A sighting outside a slot is acknowledged only. In a slot a weak sighting elsewhere only counts; at its place the
level is smoothed; APPEAR sightings make a tag present and tell the owner, in a census at once and silently; a present
tag that moves is told; a full table leaves it untracked. A slot end counts its status, a COMPLETE one counts misses
(DISAPPEAR of them clear PRESENT), and a new COLLIDED or OVERFULL slot raises SLOT_ALERT. (R196, R199, R203, R204,
R205) -/
def Obligations.SightingsAndSlotEndsKeepTheTagTable : Prop :=
  (
    ∀ (s : State) (p : PortNum), s.raised = [] → MessageWaits s p 2 →
      let m := s.sightingMsg p
      let v := (s.port p).svc
      let u := s.pset p DBH_RING.RING 0
      -- outside a slot it is acknowledged only
      ((∀ x, v.pass = some x → x.slot = none) → exec (.sighting p) s = .next u) ∧
      (∀ x ant, SlotOn s p x ant → m.halted = false →
        -- a tag that has an entry
        (∀ i e, s.ttLookup m.key = (.found i, s) → s.ttEntry i = e →
          -- a weaker sighting elsewhere than where the entry stands only counts
          (e.port ≠ p.val ∨ e.ant ≠ m.ant → m.rssi < e.rssi - 4 * (byteAt v.inv 25 : Int) →
            exec (.sighting p) s = .next (u.ttStore i { e with last := s.seconds, seen := min 65535 (e.seen + 1) })) ∧
          -- at its place the level is smoothed by a quarter
          (e.port = p.val → e.ant = m.ant → nbit e.flags 0 = true →
            exec (.sighting p) s = .next (u.ttStore i
              (seenEntry s p m { e with rssi := e.rssi + (m.rssi - e.rssi + 2) / 4 }))) ∧
          -- APPEAR sightings make it present, and the owner hears of it
          (e.port = p.val → e.ant = m.ant → nbit e.flags 0 = false → x.census = false →
            let f := seenEntry s p m { e with rssi := e.rssi + (m.rssi - e.rssi + 2) / 4 }
            let g := { f with appear := min 15 (e.appear + 1) }
            (g.appear < byteAt v.inv 23 → exec (.sighting p) s = .next (u.ttStore i g)) ∧
            (byteAt v.inv 23 ≤ g.appear →
              let h := { g with flags := bitsOn f.flags 1 }
              exec (.sighting p) s = .next ((u.ttStore i h).toldOwner p.val 0x0380
                (tagHead h ++ leBytes 2 (unsigned 16 h.rssi))))) ∧
          -- in a census it is present at once, without an event
          (e.port = p.val → e.ant = m.ant → nbit e.flags 0 = false → x.census = true →
            let f := seenEntry s p m { e with rssi := e.rssi + (m.rssi - e.rssi + 2) / 4 }
            exec (.sighting p) s = .next (u.ttStore i { f with flags := bitsOn f.flags 1 })) ∧
          -- a present tag that moves: its owner hears of it
          (e.port = p.val → e.ant ≠ m.ant → e.rssi - 4 * (byteAt v.inv 25 : Int) ≤ m.rssi → nbit e.flags 0 = true →
            let f := { e with ant := m.ant, rssi := m.rssi }
            exec (.sighting p) s = .next ((u.ttStore i (seenEntry s p m f)).toldOwner p.val 0x0382
              (keyOf e.proto e.uidlen e.uid ++ leBytes 1 p.val ++ leBytes 1 e.ant ++ leBytes 1 p.val ++ leBytes 1 m.ant ++
                leBytes 2 (unsigned 16 m.rssi))))) ∧
        -- a table that is full and keeps its entries leaves the tag untracked
        (s.ttLookup m.key = (.full, s) → s.ttFullPolicy = false → exec (.sighting p) s = .next (u.modSvc p fun v => { v with
          untracked := min (2 ^ 32 - 1) (v.untracked + 1)
          pass := v.pass.map fun x => { x with untracked := min 65535 (x.untracked + 1) } })))) ∧
  (
    ∀ (s : State) (p : PortNum), s.raised = [] → MessageWaits s p 3 →
      let m1 := (s.port p).word (DBH_MSG.reg + 4)
      let ant := wget m1 0 6
      let st := wget m1 8 2
      let v := (s.port p).svc
      let u := s.pset p DBH_RING.RING 0
      -- the slot named is not in progress: the message is acknowledged only
      ((∀ x, v.pass = some x → x.slot ≠ some ant) → exec (.slotEnd p) s = .next u) ∧
      -- a slot that ends other than FAULTED ends the antenna's run of faults; COMPLETE counts the misses
      (∀ x, SlotOn s p x ant →
        let ended := fun t : State => t.modSvc p fun v => { v with
          pass := some { x with slot := none, halted := [], counts := x.counts.set st (x.counts.getD st 0 + 1)
                                visited := x.visited ++ [(ant, st)] }
          faultRuns := v.faultRuns.filter (·.1 ≠ ant) }
        (st = 0 → (∀ e ∈ s.table, usedBytes e.2 = true → (entryOf e.2).port ≠ p.val ∨ (entryOf e.2).ant ≠ ant) → x.halted = [] →
          exec (.slotEnd p) s = .next (ended u)) ∧
        (st = 1 ∨ st = 2 → alertNew v.prevSlots ant = false → exec (.slotEnd p) s = .next (ended u)) ∧
        (st = 1 ∨ st = 2 → alertNew v.prevSlots ant = true → exec (.slotEnd p) s = .next ((ended u).toldOwner p.val 0x0384
          (leBytes 1 p.val ++ leBytes 1 ant ++ leBytes 1 st)))) ∧
      -- what a COMPLETE slot does to an entry of its antenna that it did not sight
      (∀ (d n : Nat) (e : Entry),
        (nbit e.flags 0 = false → missEntry d n e = ({ e with passseq := n % 256, appear := 0 }, false)) ∧
        (nbit e.flags 0 = true → e.miss + 1 < d → e.miss < 15 →
          missEntry d n e = ({ e with passseq := n % 256, miss := e.miss + 1 }, false)) ∧
        (nbit e.flags 0 = true → d ≤ e.miss + 1 → d ≤ 15 →
          missEntry d n e = ({ e with passseq := n % 256, flags := bitsOff e.flags 1, sec := 0, appear := 0, miss := 0 }, true))))

/-- A tag command whose fields and preconditions hold is put into the engine's mailbox with its request message in DBE_MSG
and goes on as outstanding; one longer than the mailbox ends with BAD_LENGTH; one without its session or PICC with
NO_TAG. AL_SELECT of another tag ends the session. Nothing else of the state changes. (R362, R363, R364, R365, R371,
R372, R375, R449, R451, R598) -/
def Obligations.RequestsAreShippedToTheEngineOfTheirPort : Prop :=
  (
    ∀ (i : Instr) (s : State) (o : Op) (h : HostCmd), hostOp i = some (o, h) →
      let p := toPort h.target.toNat
      (ShipReady s p i → h.payload.length ≤ s.mboxLen p →
        Begins i s o h (s.asked p (o.cmd h) h.payload) (.shipped p)) ∧
      (ShipReady s p i → s.mboxLen p < h.payload.length → RepliesAs i s o h s St.BAD_LENGTH []) ∧
      (NeedsTag s p i → RepliesAs i s o h s St.NO_TAG []) ∧
      -- the message stands in DBE_MSG, the ring in DBE_RING, the payload in the mailbox area
      (h.payload.length ≤ s.mboxLen p →
        let t := s.asked p (o.cmd h) h.payload
        t.pget p DBE_RING.RING = 1 ∧ (t.port p).word DBE_MSG.reg = BitVec.ofNat 32 (o.opcode % 65536 + h.payload.length * 65536) ∧
          (t.port p).word (DBE_MSG.reg + 4) = BitVec.ofNat 32 (1 + h.hp.val * 256 + h.seq.toNat * 65536) ∧
          (t.port p).word (DBE_MSG.reg + 8) = 0 ∧ (t.port p).word (DBE_MSG.reg + 12) = 0 ∧
          (t.eng p).data.bytes (s.mboxOfs p) h.payload.length = h.payload ∧ t = { s with ports := t.ports } ∧
          (∀ q, q ≠ p → t.port q = s.port q) ∧
          t.port p = { s.port p with regs := (t.port p).regs, eng := { s.eng p with data := (s.eng p).data.putBytes (s.mboxOfs p) h.payload } } ∧
          RegsKept s t p [DBE_RING.reg, DBE_MSG.reg, DBE_MSG.reg + 4, DBE_MSG.reg + 8, DBE_MSG.reg + 12])) ∧
  (
    ∀ (s : State) (h : HostCmd) (x : Session), let p := toPort h.target.toNat
      byteAt h.payload 8 &&& 0xFD = 0 → (s.port p).svc.session = some x → x.uid ≠ h.payload.take 8 →
        h.payload.length ≤ s.mboxLen p →
        Begins (.alSelect h) s opAlSelect h
          ((s.modSvc p fun v => { v with session := none }).asked p (opAlSelect.cmd h) h.payload) (.shipped p))

/-- The ready message opens the port and answers what waits with the image's name; an engine that does not report in time
is halted; a response ends the shipped command with its status and payload, AL_SELECT OK opening its session; a
response that does not come resets the port. An image is checked in the order of R455, the first failure is logged and
ends with IMAGE_INVALID; a closed port keeps a good image. (R356, R372, R391, R449, R451, R453, R454, R455, R456) -/
def Obligations.EnginesReportReadyAndAnswerOrAreReplaced : Prop :=
  (
    ∀ (s : State) (p : PortNum), s.raised = [] →
      let v := (s.port p).svc
      let ack := s.pset p DBH_RING.RING 0
      let m0 := (s.port p).word DBH_MSG.reg
      -- the ready message opens the port and answers PORT_OPEN or ENGINE_RELOAD with the image's name
      (MessageWaits s p 0 → wget m0 8 1 = 0 → v.ready = false → Ungrouped s p → DomainOn s p →
        (∀ r, s.findJob (engineStartOf p) = some r → r.cmd.opcode = 0x0100 ∨ r.cmd.opcode = 0x0A03 →
          exec (.engineReady p) s = .next ((ack.modSvc p fun v => { v with ready := true, svc := .opened }).ended (engineStartOf p) r St.OK
            (wordsBytes [s.imgWord p 8, s.imgWord p 12]))) ∧
        (s.findJob (engineStartOf p) = none → v.svc = .opened →
          exec (.engineReady p) s = .next (ack.modSvc p fun v => { v with ready := true }))) ∧
      -- the stopped message, and a ready message that nothing waits for, are acknowledged only
      (MessageWaits s p 0 → wget m0 8 1 = 1 ∨ v.ready = true → exec (.engineReady p) s = .next ack) ∧
      (s.pget p DBH_RING.RING = 0 → exec (.engineReady p) s = .next s ∧ exec (.engineResponse p) s = .next s) ∧
      -- an engine that does not report in time is halted
      (v.ready = false → v.svc = .opened → DomainOn s p →
        let u := ((s.pset p ENG_CTL.HALT 1).setEngState p 3).modEng p fun e => { e with waitOn := none, stall := none }
        (s.findJob (engineStartOf p) = none → exec (.engineStartTimeout p) s = .next u) ∧
        (∀ r, s.findJob (engineStartOf p) = some r →
          exec (.engineStartTimeout p) s = .next (u.ended (engineStartOf p) r St.INTERNAL_ERROR []))) ∧
      (v.ready = true → exec (.engineStartTimeout p) s = .next s) ∧
      -- a response ends the command that was shipped, with its status and its payload from the mailbox
      (∀ r, MessageWaits s p 1 → s.findJob (engineServes p) = some r → r.job = .shipped p → v.customer = true →
        suspectDue r.cmd (s.engReply p) = false →
        let m := s.engReply p
        m.payload.length ≤ 4092 →
        (r.cmd.opcode = 0x0200 → exec (.engineResponse p) s = .next (ack.ended (shippedTo p) r m.status m.payload)) ∧
        -- AL_SELECT with OK opens the session of its tag; a table without the tag stays as it is
        (r.cmd.opcode = 0x0401 → m.status = St.OK → byteAt m.payload 0 ≠ 4 →
          s.slotAt (homeOf (keyOf 3 8 (r.cmd.payload.take 8))) = none →
          exec (.engineResponse p) s = .next ((ack.modSvc p fun v =>
            { v with session := some { uid := r.cmd.payload.take 8, info := (m.payload.drop 1).take 7 } }).ended (shippedTo p) r m.status m.payload)) ∧
        (r.cmd.opcode = 0x0401 → m.status ≠ St.OK → byteAt m.payload 0 ≠ 4 →
          exec (.engineResponse p) s = .next (ack.ended (shippedTo p) r m.status m.payload))) ∧
      -- a response that does not come in time resets the port
      ((∃ r ∈ s.running, r.job = .shipped p) ∨ (∃ x ant, SlotOn s p x ant) →
        Leaves (.engineResponseTimeout p) s (s.portReset p).2) ∧
      ((∀ r ∈ s.running, r.job ≠ .shipped p ∧ r.job ≠ .db p) → (∀ x, v.pass = some x → x.slot = none) →
        exec (.engineResponseTimeout p) s = .next s)) ∧
  (
    ∀ (s : State), s.raised = [] →
      (s.findJob reloads = none → exec .engineImageVerdict s = .next s) ∧
      (∀ r p l, s.findJob reloads = some r → r.job = .reload p l →
        -- the first check that fails is logged; nothing is loaded
        (∀ k, s.imgCheck l = some k → exec .engineImageVerdict s = .next
          ((s.ash 0x0010 0x10 (leBytes 1 1 ++ leBytes 1 p.val ++ leBytes 1 k ++ leBytes 4 (imgNum l 12 4) ++ leBytes 4 (imgNum l 8 4))).ended
            reloads r St.IMAGE_INVALID [])) ∧
        -- a closed port keeps a good image for its next opening
        (s.imgCheck l = none → (s.port p).svc.svc = .closed →
          let u := s.keepImage p l (imgNum l 6 1 = 1)
          exec .engineImageVerdict s = .next (u.ended reloads r St.OK (wordsBytes [u.imgWord p 8, u.imgWord p 12])))) ∧
      -- the order of the checks
      (∀ l, imgFieldsOk l = false → s.imgCheck l = some 1) ∧
      (∀ l, imgFieldsOk l = true → 0x00C1 < imgNum l 16 2 → s.imgCheck l = some 2) ∧
      (∀ l, imgFieldsOk l = true → imgNum l 16 2 ≤ 0x00C1 → s.imgKey l = none → s.imgCheck l = some 3) ∧
      (∀ l k, imgFieldsOk l = true → imgNum l 16 2 ≤ 0x00C1 → s.imgKey l = some k →
        (Config.ecdsaVerify k (Config.sha256 (l.take 196)) ((l.drop 196).take 64) = false → s.imgCheck l = some 3) ∧
        (Config.ecdsaVerify k (Config.sha256 (l.take 196)) ((l.drop 196).take 64) = true → imgHashesOk l = false → s.imgCheck l = some 4) ∧
        (Config.ecdsaVerify k (Config.sha256 (l.take 196)) ((l.drop 196).take 64) = true → imgHashesOk l = true → s.imgCheck l = none)))

/-- Accepted, each query answers OK with its layout taken from the state and changes nothing else (DIAG_COUNTERS clears
its counts when told to); KEY_INFO and DIAG_COUNTERS refuse values out of range. (R346, R349, R350, R351, R355, R357,
R367, R377, R382, R386, R388, R395) -/
def Obligations.QueriesReportAndChangeNothing : Prop :=
  (
    ∀ (s : State) (h : HostCmd),
      Replies (.info h) s opInfo h s (leBytes 2 880 ++ [0x43, 0x31] ++ leBytes 1 (bit s.dev.full) ++ [8]
        ++ leBytes 4 Config.romVersion.toNat ++ leBytes 4 (if s.dev.full then s.imageNum s.kiln.active 8 4 else 0)
        ++ leBytes 2 (if s.dev.full then s.imageNum s.kiln.active 6 2 else 0)) ∧
      Replies (.ident h) s opIdent h s (padTo 8 Config.otpLot ++ [Config.otpWafer, Config.otpDieX, Config.otpDieY, 0]
        ++ leBytes 4 Config.otpTestDate.toNat ++ leBytes 2 (Config.certificate.take 1024).length
        ++ Config.certificate.take 1024) ∧
      Replies (.ownQuery h) s opOwnQuery h s (s.owner.toList.map (fun o => match o with
        | some q => BitVec.ofNat 8 q.val
        | none => 0xFF) ++ [s.devOwn.setWidth 8]) ∧
      Replies (.timebaseRead h) s opTimebaseRead h s (leBytes 8 s.dev.timebase) ∧
      Replies (.gpioRead h) s opGpioRead h s (leBytes 4 ((List.range 24).map fun i => bit (s.gpioLevel i) * 2 ^ i).sum) ∧
      Replies (.pwrStatus h) s opPwrStatus h s (leBytes 1 s.dev.power.code ++ leBytes 1 (s.aonGet RSTCAUSE.LAST)
        ++ leBytes 2 s.domains ++ leBytes 2 (s.aonGet WKCAUSE.SOURCES)) ∧
      Replies (.imageInfo h) s opImageInfo h s (leBytes 1 s.kiln.active ++ s.slotInfo 0 ++ s.slotInfo 1) ∧
      Replies (.calStatus h) s opCalStatus h s
        (wordsBytes ([CALSTAT.reg, CALTEMP.reg, CALTEMP.reg + 4, CALTEMP.reg + 8, CALTEMP.reg + 12, CALTEMP.reg + 16,
            ADCX.reg, ADCX.reg + 4, ADCX.reg + 8, ADCX.reg + 12, ADCX.reg + 16, ADCX.reg + 20, ADCX.reg + 24,
            ADCX.reg + 28].map (Cells.word .cal s.cal) ++ [Cells.word .coord s.coord.regs CPLCTL.reg])) ∧
      (byteAt h.payload 0 ≤ 3 → Replies (.groupQuery h) s opGroupQuery h s
        (wordsBytes [Cells.word .coord s.coord.regs (GRPCFG.reg + 16 * byteAt h.payload 0),
          Cells.word .coord s.coord.regs (GRPTIME.reg + 16 * byteAt h.payload 0), s.grpStat (byteAt h.payload 0)])) ∧
      (byteAt h.payload 0 ≤ 63 → Replies (.keyInfo h) s opKeyInfo h s (match s.keyAt (byteAt h.payload 0) with
        | some k => leBytes 1 k.type ++ leBytes 2 k.usage ++ [if byteAt h.payload 0 ≤ 2 then 2 else 1]
        | none => [0, 0, 0, 0])) ∧
      (63 < byteAt h.payload 0 → RepliesAs (.keyInfo h) s opKeyInfo h s St.BAD_PARAM [])) ∧
  (
    ∀ (s : State) (h : HostCmd),
      let p := toPort h.target.toNat
      let v := (s.port p).svc
      let word := fun off => if s.portOn p then s.portWord p off else 0
      Replies (.invQuery h) s opInvQuery h s (v.invNext.getD v.inv) ∧
      Replies (.portStatus h) s opPortStatus h s (leBytes 1 v.svc.code ++ leBytes 1 (bit v.pass.isSome)
        ++ (match s.groupOf p with
          | some g => leBytes 1 g
          | none => [0xFF])
        ++ [0] ++ wordsBytes [s.imgWord p 8, s.imgWord p 12]
        ++ wordsBytes [word TXSTAT.reg, word TXMON.reg, word FRMSTAT.reg]) ∧
      (byteAt h.payload 0 ≤ 1 → Replies (.diagCounters h) s opDiagCounters h
        (if byteAt h.payload 0 = 1 then s.modSvc p fun v =>
            { v with viol := List.replicate 8 0, holds := 0, overrides := 0, faults := 0, untracked := 0 } else s)
        (v.viol.flatMap (leBytes 2 ·) ++ leBytes 2 v.holds ++ leBytes 2 v.overrides ++ leBytes 2 v.faults
          ++ leBytes 4 v.untracked)) ∧
      (1 < byteAt h.payload 0 → RepliesAs (.diagCounters h) s opDiagCounters h s St.BAD_PARAM []))

/-- Accepted, each setting command writes its fields and nothing else and answers its layout, and refuses values out of
range with BAD_PARAM: GPIO_CONFIG, WAKE_CONFIG, CAL_CONFIG, TT_CONFIG, INV_CONFIG, GPIO_WRITE, PWR_ENTER, HOST_CONFIG
(HP2's rate follows the response), HOST_STATUS (HPERR cleared), DB_CONFIG with its LOCK, and TMR_CONFIG, TMR_ARM and
TMR_READ on the channel they name. (R354, R367, R370, R377, R382, R383, R394, R458, R598) -/
def Obligations.SettingCommandsWriteTheirBlocks : Prop :=
  (
    ∀ (s : State) (h : HostCmd),
      let b := byteAt h.payload
      let n := fun o k => leAt h.payload o k
      -- GPIO_CONFIG: FUNC, DIR and PULL of one pin
      (b 0 ≤ 23 → gpioOffers (b 0) (b 1) = true → b 2 ≤ 1 → b 3 ≤ 2 → Replies (.gpioConfig h) s opGpioConfig h
        { s with dev := { s.dev with
            gpioFunc := s.dev.gpioFunc.set (b 0) (b 1)
            gpioPull := s.dev.gpioPull.set (b 0) (b 3)
            gpioDir := if b 2 = 1 then s.dev.gpioDir ||| BitVec.ofNat 24 (2 ^ b 0)
              else s.dev.gpioDir &&& ~~~(BitVec.ofNat 24 (2 ^ b 0)) } } []) ∧
      (23 < b 0 ∨ gpioOffers (b 0) (b 1) = false ∨ 1 < b 2 ∨ 2 < b 3 →
        RepliesAs (.gpioConfig h) s opGpioConfig h s St.BAD_PARAM []) ∧
      -- WAKE_CONFIG
      (n 0 2 < 1024 → n 2 4 < 2 ^ 24 → n 6 4 < 2 ^ 24 → n 10 4 < 2 ^ 24 →
        (∀ i < 24, nbit (n 2 4) i = true → s.gpioFn i = 4) → Replies (.wakeConfig h) s opWakeConfig h
          ((((s.aonSet WKEN.SOURCES (n 0 2)).aonSet WKGPEN.V (n 2 4)).aonSet WKGPEDGE.V (n 6 4)).aonSet WKGPPOL.V (n 10 4))
          (leBytes 2 (n 0 2))) ∧
      (1024 ≤ n 0 2 ∨ (∃ i < 24, nbit (n 2 4) i = true ∧ s.gpioFn i ≠ 4) →
        RepliesAs (.wakeConfig h) s opWakeConfig h s St.BAD_PARAM []) ∧
      -- CAL_CONFIG
      (b 0 = 1 → b 1 ≤ 31 → b 2 ≤ 3 → Replies (.calConfig h) s opCalConfig h
        (((s.calSet CALCFG.DT (b 1)).calSet CALCFG.AUTO (b 2 % 2)).calSet CALCFG.XCHK (b 2 / 2)) (leBytes 1 (b 1) ++ leBytes 1 (b 2))) ∧
      (b 0 = 0 → Replies (.calConfig h) s opCalConfig h s
        (leBytes 1 (s.calGet CALCFG.DT) ++ leBytes 1 (s.calGet CALCFG.AUTO + 2 * s.calGet CALCFG.XCHK))) ∧
      (1 < b 0 ∨ (b 0 = 1 ∧ (31 < b 1 ∨ 3 < b 2)) → RepliesAs (.calConfig h) s opCalConfig h s St.BAD_PARAM []) ∧
      -- TT_CONFIG
      (b 0 = 1 → b 1 ≤ 1 → b 2 ≤ 1 → Replies (.ttConfig h) s opTtConfig h
        { s with ttFullPolicy := b 1 == 1, ttCensusEvents := b 2 == 1 }
        (leBytes 1 (b 1) ++ leBytes 1 (b 2) ++ leBytes 2 s.ttUsed)) ∧
      (b 0 = 0 → Replies (.ttConfig h) s opTtConfig h s
        (leBytes 1 (bit s.ttFullPolicy) ++ leBytes 1 (bit s.ttCensusEvents) ++ leBytes 2 s.ttUsed)) ∧
      (1 < b 0 ∨ (b 0 = 1 ∧ (1 < b 1 ∨ 1 < b 2)) → RepliesAs (.ttConfig h) s opTtConfig h s St.BAD_PARAM []) ∧
      -- INV_CONFIG: held until the next pass; the reserved byte reads 0
      (invOk h.payload = true → Replies (.invConfig h) s opInvConfig h
        (s.modSvc (toPort h.target.toNat) fun v => { v with invNext := some (h.payload.set 27 0) }) []) ∧
      (invOk h.payload = false → RepliesAs (.invConfig h) s opInvConfig h s St.BAD_PARAM []) ∧
      -- GPIO_WRITE: pins of FUNC 0 alone
      (n 0 4 < 2 ^ 24 → n 4 4 < 2 ^ 24 →
        let m : BitVec 24 :=
          BitVec.ofNat 24 ((List.range 24).map fun i => if nbit (n 0 4) i && s.gpioFn i == 0 then 2 ^ i else 0).sum
        Replies (.gpioWrite h) s opGpioWrite h
          { s with dev := { s.dev with gpioOut := (s.dev.gpioOut &&& ~~~m) ||| (BitVec.ofNat 24 (n 4 4) &&& m) } } []) ∧
      (2 ^ 24 ≤ n 0 4 ∨ 2 ^ 24 ≤ n 4 4 → RepliesAs (.gpioWrite h) s opGpioWrite h s St.BAD_PARAM []) ∧
      -- PWR_ENTER: IDLE at once, the others wait for their entry
      (b 0 = 1 → Replies (.pwrEnter h) s opPwrEnter h s []) ∧
      (2 ≤ b 0 → b 0 ≤ 4 → s.aonGet WKEN.SOURCES &&& 0x3C3 ≠ 0 → Replies (.pwrEnter h) s opPwrEnter h
        { s with dev := { s.dev with entry := some (b 0), hold := true } } []) ∧
      (b 0 < 1 ∨ 4 < b 0 ∨ (3 ≤ b 0 ∧ s.aonGet WKEN.SOURCES = 0) →
        RepliesAs (.pwrEnter h) s opPwrEnter h s St.BAD_PARAM [])) ∧
  (
    ∀ (s : State) (h : HostCmd),
      let b := byteAt h.payload
      let n := fun o k => leAt h.payload o k
      let p := toPort h.target.toNat
      -- HOST_CONFIG writes HPCFG of the sender; on HP2 the rate follows the response
      (b 0 ≤ 3 → n 2 2 ≤ 1023 → ∀ baud, (n 4 4 < 96 → baud = 96) → (120000 < n 4 4 → baud = 120000) →
        (96 ≤ n 4 4 → n 4 4 ≤ 120000 → baud = n 4 4) → Accepted s opHostConfig h →
        exec (.hostConfig h) s = .next ((s.modHost h.hp fun x =>
            (((x.set HPCFG.IRQ_RESP (b 0 % 2)).set HPCFG.IRQ_EVT (b 0 / 2)).set HPCFG.BAUD baud).set HPCFG.EVMASK
              (n 2 2)).answeredPkts (opHostConfig.cmd h) St.OK [[]] (if h.hp = 2 then some baud else none))) ∧
      (3 < b 0 ∨ 1023 < n 2 2 → RepliesAs (.hostConfig h) s opHostConfig h s St.BAD_PARAM []) ∧
      -- HOST_STATUS reports HPSTAT, HPERR and LOST of the sender and clears HPERR
      (Accepted s opHostStatus h → exec (.hostStatus h) s = .next ((s.modHost h.hp fun x =>
          { x with regs := Cells.put .host x.regs HPERR.reg 0 }).answered (opHostStatus.cmd h) St.OK
            (wordBytes (s.host h.hp).stat ++ wordBytes (Cells.word .host (s.host h.hp).regs HPERR.reg)
              ++ leBytes 2 (s.host h.hp).lost))) ∧
      -- DB_CONFIG writes the fields of its WRITE bits, LOCK last, and reports the values in force
      (let u0 := if nbit (b 0) 0 then s.pset p DBCTL.THRESH (n 2 2) else s
       let u1 := if nbit (b 0) 1 then u0.pset p DBCTL.K (b 4) else u0
       let u2 := if nbit (b 0) 2 then u1.pset p DBDLY.TAGDLY (n 6 2) else u1
       let u3 := if nbit (b 0) 3 then u2.pset p DBDLY.OFS (n 8 2) else u2
       let u := if nbit (b 0) 4 then u3.pset p DBCTL.LOCK 1 else u3
       b 0 ≤ 31 → (nbit (b 0) 0 = true → n 2 2 ≤ 511) → (nbit (b 0) 1 = true → b 4 ≤ 15) →
        (nbit (b 0) 2 = true → n 6 2 ≤ 511) → (b 0 = 0 ∨ s.pget p DBCTL.LOCK ≠ 1) →
        Replies (.dbConfig h) s opDbConfig h u (leBytes 2 (u.pget p DBCTL.THRESH) ++ leBytes 1 (u.pget p DBCTL.K)
          ++ leBytes 1 (u.pget p DBCTL.LOCK) ++ leBytes 2 (u.pget p DBDLY.TAGDLY) ++ leBytes 2 (u.pget p DBDLY.OFS))) ∧
      (b 0 ≤ 31 → b 0 ≠ 0 → n 2 2 ≤ 511 → b 4 ≤ 15 → n 6 2 ≤ 511 → s.pget p DBCTL.LOCK = 1 →
        RepliesAs (.dbConfig h) s opDbConfig h s St.SECURITY_DENIED []) ∧
      -- the timer commands act on the channel they name
      (∀ ch, s.tmrChannel (opTmrConfig.cmd h) = .ok ch → b 1 ≤ 7 → b 2 ≤ 127 →
        Replies (.tmrConfig h) s opTmrConfig h (s.setChan ch (Cells.put .tmr (Cells.put .tmr (Cells.put .tmr
          (tset (tset (tset (tset (tset (s.chan ch) TMR_STAT.ARMED 0) TMR_STAT.CMP 0) TMR_STAT.OVR 0) TMR_STAT.MISSED 0)
            TMR_STAT.CAPV 0)
          TMR_CTL.reg (BitVec.ofNat 32 (b 1 + 8 * b 2))) TMR_PRESC.reg (wordAt h.payload 4)) TMR_CMPV.reg
          (wordAt h.payload 8))) []) ∧
      (∀ ch, s.tmrChannel (opTmrArm.cmd h) = .ok ch → 0 < (wordAt h.payload 4).toNat →
        Replies (.tmrArm h) s opTmrArm h (s.setChan ch (tset (tset (tset (tset (tset
          (Cells.put .tmr (s.chan ch) TMR_CMPV.reg (wordAt h.payload 4)) TMR_COUNT.V 0) TMR_PACC.V 0) TMR_STAT.CMP 0)
          TMR_STAT.MISSED 0) TMR_STAT.ARMED 1)) []) ∧
      (∀ ch, s.tmrChannel (opTmrRead.cmd h) = .ok ch →
        Replies (.tmrRead h) s opTmrRead h s (leBytes 4 (tget (s.chan ch) TMR_COUNT.V)
          ++ leBytes 4 (tget (s.chan ch) TMR_CAP.V)
          ++ leBytes 1 (tget (s.chan ch) TMR_STAT.ARMED + 2 * tget (s.chan ch) TMR_STAT.OVR
            + 4 * tget (s.chan ch) TMR_STAT.MISSED) ++ [0, 0, 0] ++ leBytes 4 (tget (s.chan ch) TMR_MAKEUP.V))) ∧
      -- channels of a port are 0 to 3, the first two only while a customer image runs; global channels are 0 to 7
      (∀ st, s.tmrChannel (opTmrRead.cmd h) = .error st ↔
        (st = St.BAD_PARAM ∧ (if h.target.toNat = 15 then 8 ≤ b 0 else 4 ≤ b 0)) ∨
          (st = St.BUSY ∧ h.target.toNat ≠ 15 ∧ b 0 < 2 ∧ (s.port p).svc.customer = false)) ∧
      (∀ st, s.tmrChannel (opTmrRead.cmd h) = .error st → RepliesAs (.tmrRead h) s opTmrRead h s st []))

/-- A claim or release that R335 allows moves the owner, or adds a co-owner, and OWN_CHANGED goes to the old and the new
owner but the sender; any other ends with NOT_OWNER and changes nothing. HOST and FORCE out of range end with
BAD_PARAM. DEV_RESET with its key answers OK and the reset follows; KINDLING_SCAN reports up to four tags whose bytes
no rule states. (R335, R336, R348, R352) -/
def Obligations.ClaimsAndReleasesMoveOwnershipAndTellTheOwners : Prop :=
  ∀ (s : State) (h : HostCmd), (∀ q, ∀ x ∈ (s.host q).chains, x.target ≠ h.target) →
    let old := s.ownerOf h.target.toNat
    let told := fun (new : Option HostNum) => allHosts.filter fun q => q ≠ h.hp && (old == some q || new == some q)
    let moved := fun (new : Option HostNum) (c : Cmd) =>
      ((({ s with owner := s.owner.set (Fin.ofNat 9 h.target.toNat) new } : State).answered c St.OK []).told (told new)
        h.target 0x0003 [ownCode old, ownCode new, BitVec.ofNat 8 h.hp.val])
    -- a port or T
    (∀ q, hostNamed h = some q → byteAt h.payload 1 ≤ 1 → h.target.toNat < 9 → Accepted s opOwnClaim h →
      (MayClaim s h q → old ≠ some q → exec (.ownClaim h) s = .next (moved (some q) (opOwnClaim.cmd h))) ∧
      (MayClaim s h q → old = some q → exec (.ownClaim h) s = .next (s.answered (opOwnClaim.cmd h) St.OK [])) ∧
      (¬MayClaim s h q → exec (.ownClaim h) s = .next (s.answered (opOwnClaim.cmd h) St.NOT_OWNER []))) ∧
    (∀ q, hostNamed h = some q → h.target.toNat < 9 → Accepted s opOwnRelease h →
      (old = some h.hp ∨ s.devOwn.getLsbD h.hp.val = true → old ≠ none →
        exec (.ownRelease h) s = .next (moved none (opOwnRelease.cmd h))) ∧
      (¬(old = some h.hp ∨ s.devOwn.getLsbD h.hp.val = true) →
        exec (.ownRelease h) s = .next (s.answered (opOwnRelease.cmd h) St.NOT_OWNER []))) ∧
    -- the device has a set of co-owners
    (∀ q, hostNamed h = some q → byteAt h.payload 1 ≤ 1 → h.target.toNat = 15 → Accepted s opOwnClaim h →
      let new := s.devOwn ||| BitVec.ofNat 4 (2 ^ q.val)
      ((s.devOwn = 0 ∧ q = h.hp) ∨ s.devOwn.getLsbD h.hp.val = true → new ≠ s.devOwn →
        exec (.ownClaim h) s = .next ((({ s with devOwn := new } : State).answered (opOwnClaim.cmd h) St.OK []).told
          (allHosts.filter fun q => q ≠ h.hp && (s.devOwn.getLsbD q.val || new.getLsbD q.val)) h.target 0x0003
          [s.devOwn.setWidth 8, new.setWidth 8, BitVec.ofNat 8 h.hp.val])) ∧
      (¬((s.devOwn = 0 ∧ q = h.hp) ∨ s.devOwn.getLsbD h.hp.val = true) →
        exec (.ownClaim h) s = .next (s.answered (opOwnClaim.cmd h) St.NOT_OWNER []))) ∧
    -- HOST out of range, and FORCE above 1
    (hostNamed h = none → RepliesAs (.ownClaim h) s opOwnClaim h s St.BAD_PARAM [] ∧
      RepliesAs (.ownRelease h) s opOwnRelease h s St.BAD_PARAM []) ∧
    (1 < byteAt h.payload 1 → RepliesAs (.ownClaim h) s opOwnClaim h s St.BAD_PARAM []) ∧
    -- DEV_RESET answers OK, the reset follows as a job
    (leAt h.payload 0 2 = 0xD0D0 → Accepted s opDevReset h →
      exec (.devReset h) s = .next ((s.answered (opDevReset.cmd h) St.OK []).begin (opDevReset.cmd h) .devReset)) ∧
    (leAt h.payload 0 2 ≠ 0xD0D0 → RepliesAs (.devReset h) s opDevReset h s St.BAD_PARAM []) ∧
    -- KINDLING_SCAN reports 0 to 4 tags, each in 12 bytes that no rule states
    (s.pcrGet CLKCTL.XTAL_OK = 1 → Accepted s opKindlingScan h → ∃ n l k, n ≤ 4 ∧ l.length = 12 * n ∧
      exec (.kindlingScan h) s = .next (({ s with free := k } : State).answered (opKindlingScan.cmd h) St.OK
        (leBytes 1 n ++ l))) ∧
    (s.pcrGet CLKCTL.XTAL_OK = 0 → RepliesAs (.kindlingScan h) s opKindlingScan h s St.FIELD_FAULT [])

/-- SPI transactions, UART bytes and I2C transfers land a whole packet, store one in progress, count junk, truncation and
overrun, and take bytes of the first outbound packet; the last byte takes the packet, which ends its command and frees
a slot for EVT_LOST. A chain that expires leaves its mark, and an image being loaded becomes invalid. Only the host
port named changes. (R309, R310, R311, R312, R313, R315, R316, R318, R319, R326, R331) -/
def Obligations.TransportsCarryTheirBytesAndPackets : Prop :=
  (
    ∀ (s : State) (hp : SpiPort), s.raised = [] → s.dev.inReset = false →
      let q := spiNum hp
      let h := s.host q
      (h.spi = .idle → HostBecomes (.spiCsFall hp) s q { h with spi := .first }) ∧
      (h.spi = .first → HostBecomes (.spiStatus hp) s q { h with spi := .ignored }) ∧
      (∀ b n, h.spi = .first → b ≠ 0x02 → b ≠ 0x03 → b ≠ 0x05 →
        HostBecomes (.spiInvalidTransfer hp b n) s q { h.counted HPERR.JUNK n with spi := .ignored }) ∧
      (h.part = [] → h.refused = false → HostBecomes (.spiCsRise hp) s q { h with spi := .idle }) ∧
      (h.part ≠ [] ∨ h.refused = true →
        HostBecomes (.spiCsRise hp) s q { h.counted HPERR.TRUNC 1 with part := [], refused := false, count := 0, spi := .idle }) ∧
      -- a READ takes bytes of the first packet, and none when none is available
      (∀ n, (h.spi = .first ∨ h.spi = .read) → h.awake = true →
        (h.out = [] → HostBecomes (.spiRead hp n) s q { h with spi := .read }) ∧
        (∀ p r, h.out = p :: r → h.taken + n < p.bytes.length →
          HostBecomes (.spiRead hp n) s q { h with spi := .read, taken := h.taken + n }) ∧
        (∀ p r, h.out = p :: r → h.taken + n = p.bytes.length → 0 < n → p.isEvent = false ∨ h.lost = 0 →
          HostBecomes (.spiRead hp n) s q { h.took p r with spi := .read })) ∧
      -- a WRITE of one whole packet lands it; while the port wakes, its bytes are lost
      (∀ flags seq target opcode payload, (h.spi = .first ∨ h.spi = .write) → payload.length ≤ 4092 →
        h.part = [] → h.refused = false →
        let l := cmdBytes flags seq target opcode payload
        (h.awake = true → h.inUse + l.length ≤ 8192 →
          HostBecomes (.spiWrite hp l) s q { h with spi := .write, landed := h.landed ++ [l], count := 0 }) ∧
        (h.awake = false → HostBecomes (.spiWrite hp [0x5C]) s q
          { h.counted HPERR.OVERRUN 1 with spi := .write, refused := true, count := h.count + 1 }))) ∧
  (
    ∀ (s : State), s.raised = [] → s.dev.inReset = false →
      let u := s.host 2
      let w := s.host 3
      -- the UART: a byte that completes a packet lands it, one inside a packet is stored, one outside is junk
      (u.awake = true → s.pcrGet CLKCTL.XTAL_OK = 1 → u.refused = false → u.inUse < 8192 →
        (∀ b flags seq target opcode payload, payload.length ≤ 4092 →
          u.part ++ [b] = cmdBytes flags seq target opcode payload →
          HostBecomes (.uartByteReceived b) s 2 { u with part := [], count := 0, landed := u.landed ++ [u.part ++ [b]] }) ∧
        (∀ b, (u.part ≠ [] ∨ b = 0x5C) → (u.part.length < 7 ∨ 8 ≤ u.part.length ∧ u.part.length + 1 < 10 + leAt (u.part ++ [b]) 2 2) →
          HostBecomes (.uartByteReceived b) s 2 { u with part := u.part ++ [b], count := u.count + 1 }) ∧
        (∀ b, u.part = [] → b ≠ 0x5C → HostBecomes (.uartByteReceived b) s 2 (u.counted HPERR.JUNK 1))) ∧
      (s.pcrGet CLKCTL.XTAL_OK = 0 → ∀ b, HostBecomes (.uartByteReceived b) s 2 (u.counted HPERR.JUNK 1)) ∧
      (u.part = [] → u.refused = false → HostBecomes .uartGapTimeout s 2 u ∧ HostBecomes .uartBreak s 2 u) ∧
      (u.part ≠ [] ∨ u.refused = true →
        let v := { u.counted HPERR.TRUNC 1 with part := [], refused := false, count := 0 }
        HostBecomes .uartGapTimeout s 2 v ∧ HostBecomes .uartBreak s 2 v) ∧
      (u.awake = true → ∀ p r, u.out = p :: r → u.taken + 1 < p.bytes.length →
        HostBecomes .uartByteSent s 2 { u with taken := u.taken + 1 }) ∧
      -- the I2C target
      (w.awake = true → w.part = [] → w.refused = false →
        (∀ rd, HostBecomes (.i2cAddressMatch rd) s 3 { w with i2c := some rd, i2cFirst := true }) ∧
        HostBecomes .i2cStop s 3 { w with i2c := none }) ∧
      (w.awake = true → w.part ≠ [] ∨ w.refused = true →
        let v := { w.counted HPERR.TRUNC 1 with part := [], refused := false, count := 0 }
        (∀ rd, HostBecomes (.i2cAddressMatch rd) s 3 { v with i2c := some rd, i2cFirst := true }) ∧
        HostBecomes .i2cStop s 3 { v with i2c := none }) ∧
      (w.awake = true → w.i2c = some false → w.refused = false → w.inUse < 8192 →
        (∀ b flags seq target opcode payload, payload.length ≤ 4092 →
          w.part ++ [b] = cmdBytes flags seq target opcode payload →
          HostBecomes (.i2cWriteByte b) s 3 { w with part := [], count := 0, landed := w.landed ++ [w.part ++ [b]] }) ∧
        (∀ b, (w.part ≠ [] ∨ b = 0x5C) → (w.part.length < 7 ∨ 8 ≤ w.part.length ∧ w.part.length + 1 < 10 + leAt (w.part ++ [b]) 2 2) →
          HostBecomes (.i2cWriteByte b) s 3 { w with part := w.part ++ [b], count := w.count + 1 })) ∧
      (w.awake = true → w.i2c = some true →
        (w.i2cFirst = true → HostBecomes .i2cReadByte s 3 { w with i2cFirst := false }) ∧
        (w.i2cFirst = false → ∀ p r, w.out = p :: r → w.taken + 1 < p.bytes.length →
          HostBecomes .i2cReadByte s 3 { w with taken := w.taken + 1 }))) ∧
  (
    ∀ (s : State) (q : HostNum), s.raised = [] → s.hostRuns q = true →
      let h := s.host q
      (∀ p r, h.out = p :: r → p.isEvent = false ∨ h.lost = 0 →
        HostBecomes (.hostTakesPacket q) s q (h.took p r)) ∧
      -- the slot that becomes free takes EVT_LOST
      (∀ p r, h.out = p :: r → p.isEvent = true → h.lost ≠ 0 → (r.filter (·.isEvent)).length < 16 →
        HostBecomes (.hostTakesPacket q) s q
          { h.took p r with
            lost := 0
            eseq := h.eseq + 1
            out := r ++ [{ bytes := packetBytes 0xE5 0 h.eseq 0x0F 0x0002
                             (leBytes 2 h.lost ++ leBytes 2 h.lostFirst.toNat ++ leBytes 2 h.lostLast.toNat),
                           isEvent := true, isFinal := false, target := 0x0F, baud := none }] }) ∧
      (∀ p r, h.more = p :: r → HostBecomes (.responseNextPacket q) s q { h with out := h.out ++ [p], more := r }) ∧
      -- the last byte of a packet takes the packet
      (∀ p r, h.out = p :: r → h.taken + 1 = p.bytes.length →
        (q = 2 → exec .uartByteSent s = exec (.hostTakesPacket 2) s) ∧
        (q = 3 → h.i2c = some true → h.i2cFirst = false → exec .i2cReadByte s = exec (.hostTakesPacket 3) s)) ∧
      -- a chain that expires leaves its mark, and an image being loaded becomes invalid
      (∀ t ch, h.chains.find? (fun x => x.target == t) = some ch → ch.expired = false →
        exec (.chainExpiry q t) s = .next
          { s with
            hosts := s.hosts.set q
              { h with chains := ({ ch with data := [], expired := true } : Chain) :: h.chains.filter fun x => x.target ≠ t }
            flashState := if ch.opcode = 0x0A00 then s.flashState.set s.loadSlot 2 else s.flashState }))

/-- ARM clears and arms a channel and fires at once with a compare of 0; a write of TMR_CMPV at or below the count fires
at once; the compare fires after as many source periods as the prescaler asks for; a capture takes COUNT and marks an
overrun; the make-up of a stop interval advances COUNT and marks a missed compare. A compare that fires clears ARMED,
sets CMP and tells the owner with EVT = 1. (R458, R459, R460, R461, R462, R463, R466, R472) -/
def Obligations.TimerChannelsCountCompareAndCapture : Prop :=
  ∀ (s : State) (ch : Channel), s.raised = [] →
    let t := s.chan ch
    let armed := tset (tset (tset (tset (tset t TMR_COUNT.V 0) TMR_PACC.V 0) TMR_STAT.CMP 0) TMR_STAT.MISSED 0) TMR_STAT.ARMED 1
    (s.chanOn ch = true →
      (0 < tget t TMR_CMPV.V → ChanBecomes (.tmrArmBit ch) s ch armed) ∧
      (tget t TMR_CMPV.V = 0 → ChanFires (.tmrArmBit ch) s ch armed) ∧
      ChanBecomes (.tmrStopBit ch) s ch (tset t TMR_STAT.ARMED 0) ∧
      (∀ w, ChanBecomes (.tmrPrescWrite ch w) s ch (Cells.put .tmr t TMR_PRESC.reg w)) ∧
      (∀ w, tget t TMR_STAT.ARMED = 0 ∨ tget t TMR_COUNT.V < w.toNat →
        ChanBecomes (.tmrCmpvWrite ch w) s ch (Cells.put .tmr t TMR_CMPV.reg w)) ∧
      (∀ w, tget t TMR_STAT.ARMED = 1 → w.toNat ≤ tget t TMR_COUNT.V →
        ChanFires (.tmrCmpvWrite ch w) s ch (Cells.put .tmr t TMR_CMPV.reg w))) ∧
    -- the count comes to the compare after as many source periods as the prescaler asks for
    (tget t TMR_STAT.ARMED = 1 → tget t TMR_STAT.SRCSTOP = 0 → s.chanFrozen ch = false →
      tget t TMR_COUNT.V ≤ tget t TMR_CMPV.V → tget t TMR_PACC.V < tmrPresc t →
      ∃ k, let need := (tget t TMR_CMPV.V - tget t TMR_COUNT.V) * tmrPresc t
        let total := tget t TMR_PACC.V + 65536 * k
        need ≤ total ∧ (k = 0 ∨ total < need + 65536) ∧
        ChanFires (.tmrCompare ch) s ch (tset (tset t TMR_COUNT.V (tget t TMR_CMPV.V)) TMR_PACC.V (total - need))) ∧
    -- a capture takes COUNT and marks an overrun; a read of TMR_CAP clears CAPV
    (∀ rising, s.chanOn ch = true → s.pllLocked = true → 1 ≤ tget t TMR_CTL.CAPSEL → tget t TMR_CTL.CAPSEL ≤ 4 →
      (if rising then tget t TMR_CTL.CAPEDGE ≠ 1 else tget t TMR_CTL.CAPEDGE ≠ 0) →
      ChanBecomes (.tmrCapture ch rising) s ch
        (tset (tset (if tget t TMR_STAT.CAPV = 1 then tset t TMR_STAT.OVR 1 else t) TMR_CAP.V (tget t TMR_COUNT.V))
          TMR_STAT.CAPV 1)) ∧
    ChanBecomes (.tmrCapRead ch) s ch (tset t TMR_STAT.CAPV 0) ∧
    ChanBecomes (.timerSourceStop ch) s ch (tset t TMR_STAT.SRCSTOP 1) ∧
    -- the make-up of a stop interval
    (∀ e, tget t TMR_STAT.SRCSTOP = 1 →
      let z := tset t TMR_STAT.SRCSTOP 0
      let total := tget t TMR_PACC.V + e * tmrFactor (tget t TMR_CTL.SRC)
      let ticks := total / tmrPresc t
      let made := tset (tset z TMR_PACC.V (total % tmrPresc t)) TMR_MAKEUP.V (min 0xFFFFFFFF ticks)
      (tget t TMR_STAT.ARMED = 0 ∨ s.chanFrozen ch = true → ChanBecomes (.timerMakeup ch e) s ch z) ∧
      (tget t TMR_STAT.ARMED = 1 → s.chanFrozen ch = false →
        (tget t TMR_COUNT.V + ticks < tget t TMR_CMPV.V →
          ChanBecomes (.timerMakeup ch e) s ch (tset made TMR_COUNT.V (tget t TMR_COUNT.V + ticks))) ∧
        (tget t TMR_CMPV.V ≤ tget t TMR_COUNT.V + ticks →
          ChanFires (.timerMakeup ch e) s ch (tset (tset made TMR_COUNT.V (tget t TMR_CMPV.V)) TMR_STAT.MISSED 1)))) ∧
    -- a write of the compare's high half loads both halves
    (∀ w, exec (.wkcmpHiWrite w) s = .next { s.aonSet WKCMP_HI.V w.toNat with
      dev := { s.dev with wkcmp := w.toNat * 2 ^ 32 + s.aonGet WKCMP_LO.V } })

/-- Accepted, PORT_OPEN powers the domain and starts the engine from the kept image or ends with IMAGE_INVALID; PORT_CLOSE
closes; PORT_RESET resets the port it names and waits for its engine; PORT_ISOLATE takes a port out of service and
gives it back closed; ENGINE_RELOAD hands an image to Kiln. An isolated port answers BUSY, and values out of range
BAD_PARAM. (R20, R356, R359, R391, R392, R456) -/
def Obligations.PortsOpenCloseResetAndIsolate : Prop :=
  ∀ (s : State) (h : HostCmd),
    let b := byteAt h.payload
    let p := toPort h.target.toNat
    let v := (s.port p).svc
    -- PORT_OPEN starts the engine from the kept image; the ready message answers
    (v.svc = .opened ∨ v.svc = .reloading →
      Replies (.portOpen h) s opPortOpen h s (wordsBytes [s.imgWord p 8, s.imgWord p 12])) ∧
    (v.svc = .isolated → RepliesAs (.portOpen h) s opPortOpen h s St.BUSY []) ∧
    (v.svc = .closed → s.imgStarts p = false → RepliesAs (.portOpen h) s opPortOpen h s St.IMAGE_INVALID []) ∧
    (v.svc = .closed → s.imgStarts p = true →
      let on := fun (t : State) q => t.modSvc q fun v => { v with powered := true }
      let t := (on (on s p) (sibling p)).engStart p
      Begins (.portOpen h) s opPortOpen h t (.engineStart p) ∧ t.pc p = 0 ∧ t.engState p = 1 ∧ t.portOn p = true ∧
        (t.eng p).codeLen = (s.imgWord p 20).toNat ∧ (t.port p).svc.ready = false ∧ t = { s with ports := t.ports }) ∧
    -- PORT_CLOSE
    (v.svc = .closed ∨ v.svc = .isolated → Replies (.portClose h) s opPortClose h s []) ∧
    (v.svc = .opened ∨ v.svc = .reloading →
      Runs (.portClose h) s opPortClose h (((s.opened (opPortClose.cmd h)).portClose p .closed).respond (opPortClose.cmd h) St.OK)) ∧
    -- PORT_RESET, of the target or, to the device, of the port it names
    (let n := if h.target.toNat = 15 then b 0 else h.target.toNat
     let q := toPort n
     let c := opPortReset.cmd h
     (7 < n → RepliesAs (.portReset h) s opPortReset h s St.BAD_PARAM []) ∧
     (n ≤ 7 → (s.port q).svc.svc = .isolated → RepliesAs (.portReset h) s opPortReset h s St.BUSY []) ∧
     (n ≤ 7 → (s.port q).svc.svc ≠ .isolated → ∀ ok t, (s.opened c).portReset q = (ok, t) →
       (ok = false → Runs (.portReset h) s opPortReset h (t.respond c St.INTERNAL_ERROR)) ∧
       (ok = true → (t.port q).svc.svc = .opened → Runs (.portReset h) s opPortReset h (t.begin c (.engineStart q))) ∧
       (ok = true → (t.port q).svc.svc ≠ .opened → Runs (.portReset h) s opPortReset h (t.respond c St.OK)))) ∧
    -- PORT_ISOLATE takes a port out of service and gives it back closed
    (7 < b 0 ∨ 1 < b 1 → RepliesAs (.portIsolate h) s opPortIsolate h s St.BAD_PARAM []) ∧
    (b 0 ≤ 7 →
      let q := toPort (b 0)
      let c := opPortIsolate.cmd h
      let w := s.opened c
      (b 1 = 1 → (s.port q).svc.svc = .isolated → Replies (.portIsolate h) s opPortIsolate h s []) ∧
      (b 1 = 1 → (s.port q).svc.svc ≠ .isolated → Runs (.portIsolate h) s opPortIsolate h
        (((((w.stopWork q St.INTERNAL_ERROR).dropChains (b 0)).passReset q).portClose q .isolated).respond c St.OK)) ∧
      (b 1 = 0 → (s.port q).svc.svc ≠ .isolated → Replies (.portIsolate h) s opPortIsolate h s []) ∧
      (b 1 = 0 → (s.port q).svc.svc = .isolated → Runs (.portIsolate h) s opPortIsolate h
        (((w.modSvc q fun v => { v with svc := .closed }).powerSync q).respond c St.OK))) ∧
    -- ENGINE_RELOAD hands Kiln the image that follows its header, or the standard one
    (let n := if h.target.toNat = 15 then b 1 else h.target.toNat
     let q := toPort n
     (7 < n ∨ 1 < b 0 → RepliesAs (.engineReload h) s opEngineReload h s St.BAD_PARAM []) ∧
     (n ≤ 7 → b 0 ≤ 1 → (s.port q).svc.svc = .isolated → RepliesAs (.engineReload h) s opEngineReload h s St.BUSY []) ∧
     (n ≤ 7 → b 0 = 0 → (s.port q).svc.svc ≠ .isolated →
       Begins (.engineReload h) s opEngineReload h s (.reload q (h.payload.drop (if h.target.toNat = 15 then 4 else 3)))) ∧
     (n ≤ 7 → b 0 = 1 → (s.port q).svc.svc ≠ .isolated →
       (Config.pageOk q.val = true →
         Begins (.engineReload h) s opEngineReload h s (.reload q (Config.standardImage q.val))) ∧
       (Config.pageOk q.val = false → RepliesAs (.engineReload h) s opEngineReload h
         (s.ash 0x0010 0x10 (leBytes 1 1 ++ leBytes 1 q.val ++ leBytes 1 6 ++ leBytes 4 0 ++ leBytes 4 0)) St.IMAGE_INVALID [])))

/-- Accepted, PORT_SET judges every entry before it writes the first; PORT_GET reads in order; FIELD_ON answers, waits or
ends with THERMAL_LIMIT as the field stands; FIELD_OFF ends the active tag; GRATE_SELECT writes GRATE and waits for
the shift while the field is off; GROUP_SET refuses a port that another group has. (R220, R357, R358, R359, R360,
R361, R598) -/
def Obligations.PortSettingsAndFieldsFollowTheirCommands : Prop :=
  ∀ (s : State) (h : HostCmd),
    let b := byteAt h.payload
    let n := fun o k => leAt h.payload o k
    let p := toPort h.target.toNat
    -- PORT_SET: every entry is judged before the first is written
    (h.payload.length ≠ 2 + 10 * b 0 → RepliesAs (.portSet h) s opPortSet h s St.BAD_LENGTH []) ∧
    (h.payload.length = 2 + 10 * b 0 →
      let l := (List.range (b 0)).map (setEntry h.payload)
      ((∃ e ∈ l, portSetOk e.1 = false ∨ e.2.1 &&& ~~~(writableBits e.1) ≠ 0) →
        RepliesAs (.portSet h) s opPortSet h s St.BAD_PARAM []) ∧
      ((∀ e ∈ l, portSetOk e.1 = true ∧ e.2.1 &&& ~~~(writableBits e.1) = 0) →
        Runs (.portSet h) s opPortSet h ((l.foldl (fun (t : State) e =>
          if t.placeOn (.port p e.1) then
            t.hearthWrite p e.1 ((t.portWord p e.1 &&& ~~~(actionBits e.1) &&& ~~~e.2.1) ||| (e.2.2 &&& e.2.1))
          else t) (s.opened (opPortSet.cmd h))).respond (opPortSet.cmd h) St.OK))) ∧
    -- PORT_GET reads in order; the violation counters are not read this way
    (h.payload.length ≠ 2 + 2 * b 0 → RepliesAs (.portGet h) s opPortGet h s St.BAD_LENGTH []) ∧
    (h.payload.length = 2 + 2 * b 0 →
      let l := (List.range (b 0)).map fun i => n (2 + 2 * i) 2
      ((∃ o ∈ l, 0x9FF < o ∨ o = VIOLCNT.reg ∨ o = VIOLCNT1.reg) → RepliesAs (.portGet h) s opPortGet h s St.BAD_PARAM []) ∧
      ((∀ o ∈ l, o ≤ 0x9FF ∧ o ≠ VIOLCNT.reg ∧ o ≠ VIOLCNT1.reg) → ∀ r t, getWords p l (s.opened (opPortGet.cmd h)) = (r, t) →
        Runs (.portGet h) s opPortGet h (t.respond (opPortGet.cmd h) St.OK r))) ∧
    -- FIELD_ON
    (1000 < n 0 2 → RepliesAs (.fieldOn h) s opFieldOn h s St.BAD_PARAM []) ∧
    (n 0 2 ≤ 1000 → (s.port p).field.lockout = true → Runs (.fieldOn h) s opFieldOn h
      (((s.opened (opFieldOn.cmd h)).writeFieldEn p true).respond (opFieldOn.cmd h) St.THERMAL_LIMIT)) ∧
    (n 0 2 ≤ 1000 → (s.port p).field.lockout = false → s.pget p TXCTL.FIELD_EN = 1 → s.fieldState p = 2 →
      (∀ r ∈ s.running, r.job ≠ .fieldOn p (s.dev.timebase + (n 0 2 * 32768 + 999) / 1000)) →
      Replies (.fieldOn h) s opFieldOn h s [2, BitVec.ofNat 8 (s.pget p TXSTAT.HELD)]) ∧
    (0 < n 0 2 → n 0 2 ≤ 1000 → s.pget p TXCTL.FIELD_EN = 0 → s.fieldState p = 0 → (s.port p).field.lockout = false →
      s.fieldBlocked p = true → Begins (.fieldOn h) s opFieldOn h
        ((s.pset p TXCTL.FIELD_EN 1).pset p TXSTAT.HELD 1) (.fieldOn p (s.dev.timebase + (n 0 2 * 32768 + 999) / 1000))) ∧
    (0 < n 0 2 → n 0 2 ≤ 1000 → s.pget p TXCTL.FIELD_EN = 0 → s.fieldState p = 0 → MayRamp s p → (s.port p).field.vtxUv = false →
      Begins (.fieldOn h) s opFieldOn h ((((s.pset p TXCTL.FIELD_EN 1).pset p TXSTAT.STATE 1).pset p TXSTAT.HELD 0).takeLeff p)
        (.fieldOn p (s.dev.timebase + (n 0 2 * 32768 + 999) / 1000))) ∧
    -- FIELD_OFF ends the tag that was active
    (let ended := fun v : PortSvc => { v with session := none, picc := none, osgil := none }
     (FieldIdle s p → Replies (.fieldOff h) s opFieldOff h (s.modSvc p ended) []) ∧
     (AirIdle s p → s.pget p TXCTL.FIELD_EN = 1 → s.fieldState p = 2 → Begins (.fieldOff h) s opFieldOff h
       ((((s.pset p TXCTL.FIELD_EN 0).pset p TXSTAT.HELD 0).pset p TXSTAT.STATE 3).modSvc p ended) (.fieldOff p)) ∧
     -- GRATE_SELECT: shifted while the field is off, held while it is on
     (63 < b 0 ∨ 1023 < n 2 2 → RepliesAs (.grateSelect h) s opGrateSelect h s St.BAD_PARAM []) ∧
     (b 0 ≤ 63 → n 2 2 ≤ 1023 →
       let u0 := if b 0 = s.antenna p then s else s.modSvc p ended
       let u := u0.grateWrite p (BitVec.ofNat 32 (b 0 + 64 * n 2 2))
       (s.fieldState p = 0 → Begins (.grateSelect h) s opGrateSelect h u (.grate p)) ∧
       (s.fieldState p ≠ 0 → Replies (.grateSelect h) s opGrateSelect h u [1]))) ∧
    -- GROUP_SET: a port belongs to one group
    (let g := b 0
     let cfg := wordAt h.payload 4
     let taken := ∃ k ∈ [0, 1, 2, 3], k ≠ g ∧ s.coordGet (GRPCFG.MEMBERS.nth k 16) &&& wget cfg 0 8 ≠ 0
     (3 < g ∨ cfg &&& 0x0000FE00 ≠ 0 ∨ taken → RepliesAs (.groupSet h) s opGroupSet h s St.BAD_PARAM []) ∧
     (g ≤ 3 → cfg &&& 0x0000FE00 = 0 → ¬taken → Runs (.groupSet h) s opGroupSet h
       ((((s.opened (opGroupSet.cmd h)).coordWrite (GRPTIME.reg + 16 * g) (wordAt h.payload 8)).coordWrite (GRPCFG.reg + 16 * g)
         cfg).respond (opGroupSet.cmd h) St.OK)))

/-- Accepted, INV_START begins a pass and INV_STOP ends the series after the slot in progress; TT_READ lists the entries
from START on; the commands that name a tag by its key find it or end with NO_TAG; TT_CLEAR empties the table and
makes every next pass a census; TT_SET_FLAGS sets and clears HALTED and SEPARATED alone. (R175, R190, R199, R201,
R366, R368, R369) -/
def Obligations.InventoryAndTableCommandsDoTheirWork : Prop :=
  ∀ (s : State) (h : HostCmd),
    let b := byteAt h.payload
    let p := toPort h.target.toNat
    let v := (s.port p).svc
    let ended := fun v : PortSvc => { v with session := none, picc := none, osgil := none }
    -- INV_START begins a pass, INV_STOP ends the series after the slot in progress
    (v.series = true → RepliesAs (.invStart h) s opInvStart h s St.BUSY []) ∧
    (v.series = false → Replies (.invStart h) s opInvStart h ((s.modSvc p ended).passStart p) (leBytes 4 ((v.passNum + 1) % 2 ^ 32))) ∧
    Replies (.invStop h) s opInvStop h (s.modSvc p fun v => { v with
      series := false
      pass := v.pass.map fun x => { x with stop := true } }) [] ∧
    -- TT_READ lists entries from START on
    (b 2 < 1 ∨ 120 < b 2 ∨ 3 < b 3 ∨ 8191 < leAt h.payload 0 2 → RepliesAs (.ttRead h) s opTtRead h s St.BAD_PARAM []) ∧
    (1 ≤ b 2 → b 2 ≤ 120 → b 3 ≤ 3 → leAt h.payload 0 2 ≤ 8191 → ∀ l next t,
      State.ttScan (opTtRead.cmd h) (b 3) 16385 (leAt h.payload 0 2) (b 2) [] (s.opened (opTtRead.cmd h)) = (l, next, t) →
      Runs (.ttRead h) s opTtRead h (t.respond (opTtRead.cmd h) St.OK (leBytes 2 next ++ leBytes 2 t.ttGen ++ leBytes 1 l.length
        ++ [0] ++ l.flatMap fun x => leBytes 2 x.1 ++ x.2))) ∧
    -- the rows that name a tag by its key
    (keyOk h.payload = false → RepliesAs (.ttFind h) s opTtFind h s St.BAD_PARAM [] ∧
      RepliesAs (.ttDelete h) s opTtDelete h s St.BAD_PARAM []) ∧
    (keyOk h.payload = true → ∀ q t, (∀ i, q ≠ .found i) →
      ((s.opened (opTtFind.cmd h)).ttLookup h.payload = (q, t) →
        Runs (.ttFind h) s opTtFind h (t.respond (opTtFind.cmd h) St.NO_TAG)) ∧
      ((s.opened (opTtDelete.cmd h)).ttLookup h.payload = (q, t) →
        Runs (.ttDelete h) s opTtDelete h (t.respond (opTtDelete.cmd h) St.NO_TAG))) ∧
    (keyOk h.payload = true → ∀ i t,
      ((s.opened (opTtFind.cmd h)).ttLookup h.payload = (.found i, t) →
        let e := (Sparse.find t.table i).getD []
        (h.target.toNat = 15 ∨ byteAt e 11 % 8 = h.target.toNat →
          Runs (.ttFind h) s opTtFind h (t.respond (opTtFind.cmd h) St.OK (leBytes 2 i ++ e))) ∧
        (¬(h.target.toNat = 15 ∨ byteAt e 11 % 8 = h.target.toNat) →
          Runs (.ttFind h) s opTtFind h (t.respond (opTtFind.cmd h) St.NO_TAG))) ∧
      ((s.opened (opTtDelete.cmd h)).ttLookup h.payload = (.found i, t) →
        Runs (.ttDelete h) s opTtDelete h ((t.ttRemove i).respond (opTtDelete.cmd h) St.OK))) ∧
    -- TT_CLEAR makes every port's next pass a census
    Replies (.ttClear h) s opTtClear h (allPorts.foldl (fun t p => t.modSvc p fun v => { v with censusDue := true })
      { s with table := [], ttGen := (s.ttGen + 1) % 65536 }) [] ∧
    -- TT_SET_FLAGS
    (let k := h.payload.take 12
     let ok := keyOk k = true ∧ b 12 &&& 0xF9 = 0 ∧ b 13 &&& 0xF9 = 0 ∧ b 12 &&& b 13 = 0
     (¬ok → RepliesAs (.ttSetFlags h) s opTtSetFlags h s St.BAD_PARAM []) ∧
     (ok → ∀ q t, (∀ i, q ≠ .found i) → (s.opened (opTtSetFlags.cmd h)).ttLookup k = (q, t) →
       Runs (.ttSetFlags h) s opTtSetFlags h (t.respond (opTtSetFlags.cmd h) St.NO_TAG)) ∧
     (ok → ∀ i t, (s.opened (opTtSetFlags.cmd h)).ttLookup k = (.found i, t) →
       let e := { t.ttEntry i with flags := bitsOn (bitsOff (t.ttEntry i).flags (b 13)) (b 12) }
       Runs (.ttSetFlags h) s opTtSetFlags h ((t.ttStore i e).respond (opTtSetFlags.cmd h) St.OK (leBytes 1 e.flags))))

/-- Accepted, each of Kiln's commands makes its checks in order and then goes on as a Kiln operation, or takes random
bytes at once; a slot command is judged by range, by slots 0-2, by key lock, by a run that uses the slot, and by what
the slot holds. DEBUG_UNLOCK spends its nonce and counts the attempt before it is verified. (R353, R384, R385, R386,
R387, R389, R390, R507, R509, R517, R528) -/
def Obligations.KilnCommandsAreJudgedBeforeKilnWorks : Prop :=
  (∀ (s : State) (h : HostCmd),
    let b := byteAt h.payload
    let n := fun o k => leAt h.payload o k
    -- GET_LOG
    (n 4 2 < 1 ∨ 4096 < n 4 2 → RepliesAs (.getLog h) s opGetLog h s St.BAD_PARAM []) ∧
    (1 ≤ n 4 2 → n 4 2 ≤ 4096 → Begins (.getLog h) s opGetLog h s .kiln) ∧
    -- KEY_GEN, KEY_IMPORT and KEY_DELETE
    (let fits := b 1 != 5 && usageFits (b 1) (n 2 2)
     (∀ st, s.keyOrder (b 0) fits true = some st → RepliesAs (.keyGen h) s opKeyGen h s st []) ∧
     (s.keyOrder (b 0) fits true = none → Begins (.keyGen h) s opKeyGen h s .kiln)) ∧
    (let order := s.keyOrder (b 0) (usageFits (b 1) (n 2 2)) true
     let shape := State.wrapShape (opKeyImport.cmd h)
     let noKek := b 1 ≠ 5 ∧ s.wrapKey (h.payload.drop 4) = none
     (∀ st, order = some st → RepliesAs (.keyImport h) s opKeyImport h s st []) ∧
     (order = none → ∀ st, shape = some st → RepliesAs (.keyImport h) s opKeyImport h s st []) ∧
     (order = none → shape = none → noKek → RepliesAs (.keyImport h) s opKeyImport h s St.SECURITY_DENIED []) ∧
     (order = none → shape = none → ¬noKek → Begins (.keyImport h) s opKeyImport h s .kiln)) ∧
    (let order := s.keyOrder (b 0) true false
     (∀ st, order = some st → RepliesAs (.keyDelete h) s opKeyDelete h s st []) ∧
     (order = none → s.keyAt (b 0) = none → Replies (.keyDelete h) s opKeyDelete h s []) ∧
     (order = none → (s.keyAt (b 0)).isSome = true → Begins (.keyDelete h) s opKeyDelete h s .kiln)) ∧
    -- KEY_EXPORT wraps an exportable user key under a wrapping key
    (63 < b 0 ∨ 63 < b 1 → RepliesAs (.keyExport h) s opKeyExport h s St.BAD_PARAM []) ∧
    (b 0 ≤ 63 → b 1 ≤ 63 → (b 0 ≤ 2 ∨ s.keyAt (b 0) = none ∨ (∃ k, s.keyAt (b 0) = some k ∧ nbit k.usage 6 = false) ∨
      s.keyLock = true ∨ s.keyFor (b 1) [1, 2] 5 = none) → RepliesAs (.keyExport h) s opKeyExport h s St.SECURITY_DENIED []) ∧
    (3 ≤ b 0 → b 0 ≤ 63 → b 1 ≤ 63 → ∀ k w, s.keyAt (b 0) = some k → nbit k.usage 6 = true → s.keyLock = false →
      s.keyFor (b 1) [1, 2] 5 = some w →
      let hdr := [1, 0] ++ leBytes 1 (b 1) ++ leBytes 1 k.type ++ leBytes 2 k.usage ++ leBytes 2 (keyLen k.type)
      TakesRandom (.keyExport h) s opKeyExport h 12 (fun _ => s.keyChange (b 0) 3 k.type k.usage (b 1) h.hp) fun iv =>
        hdr ++ iv ++ padTo (keyLen k.type) (Config.gcmSeal w.key iv hdr k.key).1 ++ padTo 16 (Config.gcmSeal w.key iv hdr k.key).2) ∧
    -- KILN_RANDOM, KILN_CHALLENGE and KILN_SIGN
    (n 0 2 < 1 ∨ 4092 < n 0 2 → RepliesAs (.kilnRandom h) s opKilnRandom h s St.BAD_PARAM []) ∧
    (1 ≤ n 0 2 → n 0 2 ≤ 4092 → TakesRandom (.kilnRandom h) s opKilnRandom h (n 0 2) (fun _ => s) id) ∧
    (b 0 < 1 ∨ 2 < b 0 → RepliesAs (.kilnChallenge h) s opKilnChallenge h s St.BAD_PARAM []) ∧
    (b 0 = 1 → TakesRandom (.kilnChallenge h) s opKilnChallenge h 16
      (fun l => { s with kiln := { s.kiln with nonceX := some (l, s.seconds) } }) id) ∧
    (b 0 = 2 → TakesRandom (.kilnChallenge h) s opKilnChallenge h 16
      (fun l => { s with kiln := { s.kiln with nonceD := some (l, s.seconds) } }) id) ∧
    (63 < b 0 → RepliesAs (.kilnSign h) s opKilnSign h s St.BAD_PARAM []) ∧
    (b 0 ≤ 63 → s.keyFor (b 0) [3, 4] 3 = none → RepliesAs (.kilnSign h) s opKilnSign h s St.SECURITY_DENIED []) ∧
    (b 0 ≤ 63 → (s.keyFor (b 0) [3, 4] 3).isSome = true → Begins (.kilnSign h) s opKilnSign h s .kiln) ∧
    -- DEBUG_UNLOCK spends its nonce and counts the attempt before it is verified
    (b 0 < 1 ∨ 2 < b 0 → RepliesAs (.debugUnlock h) s opDebugUnlock h s St.BAD_PARAM []) ∧
    (1 ≤ b 0 → b 0 ≤ 2 →
      let u : State := { s with kiln := { s.kiln with nonceD := none } }
      let record := fun result (key k : Nat) => ({ u with free := k } : State).ash 0x0021 0x10
        (leBytes 1 (b 0) ++ leBytes 1 result ++ leBytes 1 s.kiln.dbgFails ++ leBytes 1 key)
      (s.debugLocked = true → Accepted s opDebugUnlock h → ∃ key k, key < 256 ∧
        exec (.debugUnlock h) s = .next ((record 2 key k).answered (opDebugUnlock.cmd h) St.LOCKED_OUT [])) ∧
      (s.debugLocked = false → s.liveNonce s.kiln.nonceD = none → Accepted s opDebugUnlock h → ∃ key k, key < 256 ∧
        exec (.debugUnlock h) s = .next ((record 1 key k).answered (opDebugUnlock.cmd h) St.AUTH_FAIL [])) ∧
      (s.debugLocked = false → ∀ l, s.liveNonce s.kiln.nonceD = some l → Runs (.debugUnlock h) s opDebugUnlock h
        ((({ s.opened (opDebugUnlock.cmd h) with kiln := u.kiln } : State).setDbgFails (min 255 (s.kiln.dbgFails + 1))).begin
          { opDebugUnlock.cmd h with payload := h.payload ++ l } .kiln))) ∧
    -- IMAGE_LOAD and IMAGE_ACTIVATE
    Begins (.imageLoad h) s opImageLoad h (s.loadBytes 0 h.payload) .kiln ∧
    (1 < b 0 ∨ n 1 2 ≠ 0xD0D0 → RepliesAs (.imageActivate h) s opImageActivate h s St.BAD_PARAM []) ∧
    (b 0 ≤ 1 → n 1 2 = 0xD0D0 → s.slotState (b 0) ≠ 1 → RepliesAs (.imageActivate h) s opImageActivate h s St.IMAGE_INVALID []) ∧
    (b 0 ≤ 1 → n 1 2 = 0xD0D0 → s.slotState (b 0) = 1 → Begins (.imageActivate h) s opImageActivate h s .kiln)) ∧
  -- the order in which a slot command is judged
  (∀ (s : State) (n : Nat) (fits want : Bool),
    (63 < n ∨ fits = false → s.keyOrder n fits want = some St.BAD_PARAM) ∧
    (fits = true → n ≤ 2 → s.keyOrder n fits want = some St.SECURITY_DENIED) ∧
    (fits = true → 3 ≤ n → n ≤ 63 →
      (s.keyLock = true → s.keyOrder n fits want = some St.SECURITY_DENIED) ∧
      (s.keyLock = false → s.slotInRun n = true → s.keyOrder n fits want = some St.BUSY) ∧
      (s.keyLock = false → s.slotInRun n = false →
        s.keyOrder n fits want = if want && (s.keyAt n).isSome then some St.SECURITY_DENIED else none)))

/-- When Kiln ends an operation, a failed Kiln or TRNG answers INTERNAL_ERROR; KEY_GEN, KEY_IMPORT and KEY_DELETE write
the slot with their record; KILN_SIGN answers an HMAC or a signature with a free nonce, the device key signing under
its prefix; DEBUG_UNLOCK opens its level or counts the failure; IMAGE_LOAD and IMAGE_ACTIVATE leave the slot's state
and their record. (R353, R385, R386, R387, R389, R390, R507, R515, R517, R528) -/
def Obligations.KilnOperationsEndWithTheirResults : Prop :=
  ∀ (s : State),
    (s.raised = [] → s.kilnGet KWSTAT.STATE = 0 ∨ s.kilnGet KWSTAT.HARVEST = 1 ∨ s.findJob s.kilnEnds = none →
      exec .kilnOperationDone s = .next s) ∧
    -- a failed Kiln, and a failed TRNG
    (∀ r, s.findJob s.kilnEnds = some r → s.kilnGet KWSTAT.HARVEST = 0 →
      s.kilnGet KWSTAT.STATE = 2 ∨ (s.kilnGet KWSTAT.STATE = 1 ∧ needsRandom r.cmd.opcode.toNat = true ∧ s.kilnGet KWSTAT.TRNG = 3) →
      Leaves .kilnOperationDone s (({ s with running := dropFirst s.kilnEnds s.running } : State).respond r.cmd St.INTERNAL_ERROR)) ∧
    (∀ r, let c := r.cmd
      let b := byteAt c.payload
      let n := fun o k => leAt c.payload o k
      let t : State := { s with running := dropFirst s.kilnEnds s.running }
      let ends := Leaves .kilnOperationDone s
      (KilnEnds s r 0x0004 → ends (t.getLog c)) ∧
      -- keys are generated, unwrapped and deleted, each with a record
      (KilnEnds s r 0x0901 → s.keyOrder (b 0) (b 1 != 5 && usageFits (b 1) (n 2 2)) true = none → ∃ key w k, key.length = keyLen (b 1) ∧
        w < 256 ∧ ends ((((({ t with free := k } : State).putSlot (b 0) (some ⟨b 1, n 2 2, key⟩)).keyChange (b 0) 0 (b 1) (n 2 2) w c.hp)).respond
          c St.OK (if b 1 = 4 then padTo 64 (Config.p256Public key) else []))) ∧
      (KilnEnds s r 0x0902 → s.keyImportOrder c = none → ∀ key, s.unwrapKey c = .ok key → b 1 ≠ 5 →
        ends (((t.putSlot (b 0) (some ⟨b 1, n 2 2, key⟩)).keyChange (b 0) 1 (b 1) (n 2 2) (b 6) c.hp).respond c St.OK)) ∧
      (KilnEnds s r 0x0902 → s.keyImportOrder c = none → ∀ st, s.unwrapKey c = .error st → ends (t.respond c st)) ∧
      (KilnEnds s r 0x0904 → s.keyOrder (b 0) true false = none → ∀ key, s.keyAt (b 0) = some key → ∃ w k, w < 256 ∧
        ends (((({ t with free := k } : State).putSlot (b 0) none).keyChange (b 0) 2 key.type key.usage w c.hp).respond c St.OK)) ∧
      -- random bytes, challenges, exports and distance runs that waited for the TRNG
      (KilnEnds s r 0x0903 → ends (t.keyExport c)) ∧ (KilnEnds s r 0x0905 → ends (bodyKilnRandom c t)) ∧
      (KilnEnds s r 0x0907 → ends (bodyKilnChallenge c t)) ∧ (KilnEnds s r 0x0500 → ends (bodyDbRun c t)) ∧
      (KilnEnds s r 0x0501 → ends (bodyDbCal c t)) ∧
      -- KILN_SIGN: an HMAC, or a signature with a free nonce; the device key signs under its prefix
      (KilnEnds s r 0x0906 → ∀ key, s.keyFor (b 0) [3, 4] 3 = some key →
        let digest := (c.payload.drop 4).take 32
        (key.type = 3 → ends (t.respond c St.OK (padTo 32 (Config.hmacSha256 key.key digest) ++ List.replicate 32 0))) ∧
        (key.type ≠ 3 → ∃ l k, l.length = 32 ∧ ends (({ t with free := k } : State).respond c St.OK (padTo 64
          (Config.ecdsaSign key.key (if b 0 = 0 then Config.sha256 ([0x48, 0x4F, 0x53, 0x54] ++ digest) else digest) l))))) ∧
      -- DEBUG_UNLOCK: a good signature opens the level and clears the count, a bad one leaves it counted
      (KilnEnds s r 0x0908 →
        let found := (s.debugSlots (b 0)).find? fun k =>
          Config.ecdsaVerify k.2 (Config.sha256 (debugText (b 0) (c.payload.drop 68))) ((c.payload.drop 4).take 64)
        (∀ k, found = some k → ends (((((t.setDbgFails 0).kilnSet KWSTAT.DEBUG (max (b 0) (s.kilnGet KWSTAT.DEBUG))).relock).debugRecord
          (b 0) 0 k.1).respond c St.OK)) ∧
        (found = none → ∃ w k, w < 256 ∧ ends ((({ t with kiln := { s.kiln with dbgLast := s.seconds }, free := k } : State).debugRecord
          (b 0) 1 w).respond c (if 8 ≤ s.kiln.dbgFails then St.LOCKED_OUT else St.AUTH_FAIL)))) ∧
      -- images
      (KilnEnds s r 0x0A00 → s.flashState.length = 2 →
        (s.imageCheck s.loadSlot = none → ends (({ t with flashState := s.flashState.set s.loadSlot 1 } : State).respond c St.OK
          (leBytes 1 s.loadSlot ++ leBytes 4 (s.imageNum s.loadSlot 8 4)))) ∧
        (∀ k, s.imageCheck s.loadSlot = some k → ends ((({ t with flashState := s.flashState.set s.loadSlot 2 } : State).ash 0x0010 0x10
          (leBytes 1 0 ++ leBytes 1 s.loadSlot ++ leBytes 1 k ++ leBytes 4 (s.imageNum s.loadSlot 8 4) ++ leBytes 4 0)).respond
          c St.IMAGE_INVALID))) ∧
      (KilnEnds s r 0x0A02 → ends ((({ t with kiln := { s.kiln with active := b 0 } } : State).ash 0x0011 0x10
        (leBytes 1 (b 0) ++ leBytes 4 (s.imageNum (b 0) 8 4) ++ leBytes 1 (s.imageNum (b 0) 12 1))).respond c St.OK)))

/-- The TRNG's tests move its state and log failures, the third being final; a nonce lives 300 s; a tamper input sets
level and latch, locks the keys, zeroises the user slots for TAMP1 and is logged and told, or waits until Kiln serves;
a glitch ends the operation in progress and the third within 10 s locks the keys; the temperature locks them while out
of range; the self-test and the image verdict move the start-up on. (R500, R505, R506, R512, R517, R518, R531) -/
def Obligations.KilnAlarmsLockKeysAndAreReported : Prop :=
  ∀ (s : State), s.raised = [] →
    -- the TRNG: its start-up test, and the health tests; the third failure is final
    (let fails := s.kiln.trngFails + 1
     let failed := fun i => ∃ block detail k, block < 256 ∧ detail < 2 ^ 32 ∧ exec i s = .next
       ((({ s with kiln := { s.kiln with trngFails := fails }, free := k } : State).kilnSet KWSTAT.TRNG (if 3 ≤ fails then 3 else 2)).ash
         0x0002 0x10 (leBytes 1 block ++ leBytes 4 detail))
     let starts := s.kilnGet KWSTAT.TRNG = 0 ∨ s.kilnGet KWSTAT.TRNG = 2
     (starts → exec (.trngStartDone true) s = .next (s.kilnSet KWSTAT.TRNG 1)) ∧
     (starts → failed (.trngStartDone false)) ∧
     (¬starts → ∀ pass, exec (.trngStartDone pass) s = .next s) ∧
     (s.kilnGet KWSTAT.TRNG = 1 → failed .trngHealthFail) ∧
     (s.kilnGet KWSTAT.TRNG ≠ 1 → exec .trngHealthFail s = .next s)) ∧
    -- a nonce lives 300 s
    (∀ l t, (s.kiln.nonceX = some (l, t) → exec (.nonceExpiry .xpdrUnlock) s = .next
        (if s.seconds < t + 300 then s else { s with kiln := { s.kiln with nonceX := none } })) ∧
      (s.kiln.nonceD = some (l, t) → exec (.nonceExpiry .debugUnlock) s = .next
        (if s.seconds < t + 300 then s else { s with kiln := { s.kiln with nonceD := none } }))) ∧
    -- a tamper input sets its level and its latch; TAMP1 zeroises the user slots
    (∀ i : Fin 2,
      (s.dev.vsysOk = false → ∀ on, exec (.tamperInput i on) s = .next s) ∧
      (s.dev.vsysOk = true → exec (.tamperInput i false) s = .next (s.aonSet ⟨TAMPSTAT.reg, i.val, 1⟩ 0)) ∧
      (s.dev.vsysOk = true →
        let u := (s.aonSet ⟨TAMPSTAT.reg, i.val, 1⟩ 1).aonSet ⟨TAMPSTAT.reg, 2 + i.val, 1⟩ 1
        (s.kilnServes = true → NoRuns s → exec (.tamperInput i true) s = .next
          ((({ u with kiln := { s.kiln with lockTamper := true, slots := if i = 1 then [] else s.kiln.slots } } : State).kilnSet
            KWSTAT.KEYLOCK 1).tamperTold i.val (if i = 1 then 3 else 2) (if i = 1 then s.kiln.slots.length else 0) s.dev.power.code)) ∧
        (s.kilnServes = false → exec (.tamperInput i true) s = .next { u with kiln := { s.kiln with
          deferred := s.kiln.deferred.filter (·.1 ≠ i.val) ++ [(i.val, s.dev.power.code)] } }))) ∧
    (s.kilnServes = false → exec .tamperResponseDeferred s = .next s) ∧
    (s.kilnServes = true → Leaves .tamperResponseDeferred s (s.kiln.deferred.foldl (fun t x => t.tamperRespond x.1 x.2)
      { s with kiln := { s.kiln with deferred := [] } })) ∧
    (∀ x power, s.kiln.deferred = [(x, power)] → s.kilnServes = true → NoRuns s → exec .tamperResponseDeferred s = .next
      ((({ s with kiln := { s.kiln with deferred := [], lockTamper := true, slots := if x = 1 then [] else s.kiln.slots } } : State).kilnSet
        KWSTAT.KEYLOCK 1).tamperTold x (if x = 1 then 3 else 2) (if x = 1 then s.kiln.slots.length else 0) power)) ∧
    -- a glitch ends the operation in progress; the third within 10 s locks the keys
    (∀ clock,
      let input := if clock then 3 else 2
      let u : State := { s with kiln := { s.kiln with glitchTimes := s.seconds :: s.kiln.glitchTimes.take 14 } }
      let third := 3 ≤ (u.kiln.glitchTimes.filter fun t => s.seconds < t + 10).length
      (s.findJob jobAbandons = none → ¬third → exec (.glitchDetect clock) s = .next (u.tamperTold input 1 0 s.dev.power.code)) ∧
      (s.findJob jobAbandons = none → third → NoRuns s → exec (.glitchDetect clock) s = .next
        ((({ u with kiln := { u.kiln with lockGlitch := true } } : State).kilnSet KWSTAT.KEYLOCK 1).tamperTold input 2 0 s.dev.power.code)) ∧
      (∀ r, s.findJob jobAbandons = some r → ¬third → Leaves (.glitchDetect clock) s
        ((({ u with running := dropFirst jobAbandons s.running } : State).respond r.cmd St.INTERNAL_ERROR).tamperReport input 1 0
          s.dev.power.code))) ∧
    -- the temperature range locks the keys while it is left
    (exec (.kilnTempRange s.kiln.lockHot) s = .next s) ∧
    (s.kiln.lockHot = false → NoRuns s → exec (.kilnTempRange true) s = .next
      ((({ s with kiln := { s.kiln with lockHot := true } } : State).kilnSet KWSTAT.KEYLOCK 1).tamperTold 4 2 0 s.dev.power.code)) ∧
    (s.kiln.lockHot = true → NoRuns s → exec (.kilnTempRange false) s = .next (({ s with kiln := { s.kiln with lockHot := false } } : State).kilnSet
      KWSTAT.KEYLOCK (bit (s.kiln.lockTamper || s.kiln.lockGlitch || s.kilnGet KWSTAT.DEBUG == 2)))) ∧
    -- Kiln's self-test
    (s.kilnGet KWSTAT.STATE ≠ 0 → ∀ pass, exec (.kilnSelfTestDone pass) s = .next s) ∧
    (s.kilnGet KWSTAT.STATE = 0 → s.kiln.deferred = [] → exec (.kilnSelfTestDone true) s = .next (s.kilnSet KWSTAT.STATE 1)) ∧
    (s.kilnGet KWSTAT.STATE = 0 → s.kindling = false ∨ s.dev.imgStat ≠ 3 →
      exec (.kilnSelfTestDone false) s = .next (s.kilnSet KWSTAT.STATE 2)) ∧
    (s.kilnGet KWSTAT.STATE = 0 → s.kindling = true → s.dev.imgStat = 3 →
      exec (.kilnSelfTestDone false) s = .next ((s.kilnSet KWSTAT.STATE 2).readyTold 0 2)) ∧
    -- Kiln's verdict on the firmware image
    (s.kindling = false ∨ s.dev.imgStat ≠ 3 ∨ s.kilnGet KWSTAT.STATE ≠ 1 → exec .kilnImageVerdict s = .next s) ∧
    (s.kindling = true → s.dev.imgStat = 3 → s.kilnGet KWSTAT.STATE = 1 → s.kiln.active < s.flashState.length →
      (∀ k, s.imageCheck s.kiln.active = some k → exec .kilnImageVerdict s = .next
        ((({ s with flashState := s.flashState.set s.kiln.active 2 } : State).ash 0x0010 0x10 (leBytes 1 0 ++ leBytes 1 s.kiln.active
          ++ leBytes 1 k ++ leBytes 4 (s.imageNum s.kiln.active 8 4) ++ leBytes 4 0)).readyTold 0 2)) ∧
      (s.imageCheck s.kiln.active = none →
        let u : State := { s with flashState := s.flashState.set s.kiln.active 1 }
        (s.dev.boot0 = true ∨ Config.lifecycleDone = false → exec .kilnImageVerdict s = .next (u.readyTold 0 0)) ∧
        (s.dev.boot0 = false → Config.lifecycleDone = true → exec .kilnImageVerdict s = .next
          (({ u with dev := { s.dev with imgStat := 0 } } : State).pcrSet CLKCTL.PLL_EN 1))))

/-- The record taken is T's oldest, else the oldest. A fault record beyond 16 in 60 s is counted and not committed; every
other record is appended with its SEQ and chain value, the oldest of 4,096 giving its chain value to the anchor; the
record of a tamper input clears its latch. The SUPPRESSED record tells what was counted. In harvest mode records wait
for the commit reserve. (R25, R533, R535, R536, R537) -/
def Obligations.RecordsAreCommittedInOrderAndChained : Prop :=
  ∀ (s : State), s.raised = [] →
    let may := s.kilnGet KWSTAT.HARVEST = 0 ∨ s.xpdr.reserve = true
    let room := (s.kiln.faultTimes.filter fun t => s.seconds < t + 60).length < 16
    (s.kiln.queue = [] ∨ ¬may → exec .ashCommit s = .next s) ∧
    -- the record taken: T's oldest one, else the oldest
    (∀ i l, may → (s.kiln.queue = i :: l ∧ (i.source = 8 ∨ ∀ j ∈ l, j.source ≠ 8) ∨
        ∃ a b, s.kiln.queue = a ++ i :: b ∧ l = a ++ b ∧ i.source = 8 ∧ ∀ j ∈ a, j.source ≠ 8) →
      let u : State := { s with kiln := { s.kiln with queue := l } }
      -- a fault record beyond 16 in 60 s is counted
      (isFaultRecord i.type = true → ¬room → exec .ashCommit s = .next { u with kiln := { u.kiln with
        supCount := min 65535 (s.kiln.supCount + 1)
        supFirst := if s.kiln.supCount = 0 then i.type else s.kiln.supFirst
        supLast := i.type } }) ∧
      (isFaultRecord i.type = true → room → exec .ashCommit s = .next
        (({ u with kiln := { u.kiln with faultTimes := (s.seconds :: s.kiln.faultTimes).take 16 } } : State).logged i)) ∧
      (isFaultRecord i.type = false → i.type ≠ 0x0030 → exec .ashCommit s = .next (u.logged i)) ∧
      -- the record of a tamper input clears the input's latch
      (i.type = 0x0030 → byteAt i.data 0 < 2 → exec .ashCommit s = .next
        ((u.logged i).aonSet ⟨TAMPSTAT.reg, 2 + byteAt i.data 0, 1⟩ 0)) ∧
      (i.type = 0x0030 → 2 ≤ byteAt i.data 0 → exec .ashCommit s = .next (u.logged i))) ∧
    -- the SUPPRESSED record tells what was counted
    (s.kiln.supCount = 0 ∨ ¬room ∨ ¬may → exec .suppressedCommit s = .next s) ∧
    (s.kiln.supCount ≠ 0 → room → may → ∃ i, i.type = 0x0003 ∧ i.source = 0x10 ∧
      i.data = leBytes 2 s.kiln.supCount ++ leBytes 2 s.kiln.supFirst ++ leBytes 2 s.kiln.supLast ∧
      exec .suppressedCommit s = .next { s.logged i with kiln := { (s.logged i).kiln with supCount := 0, supFirst := 0, supLast := 0 } })

/-- A SYS reset clears host ports, ownership, commands, port registers, FIFOs, memories and Kiln's volatile state, keeps
flash, keys, log, T's records, TIMEBASE and the always-on registers, and records its cause. Power-on reset clears the
always-on domain too; brown-outs, RST_N by its width, the watchdog and DEV_RESET cause it when they must; when VSYS
goes, T goes on where its field feeds it. (R492, R493, R494, R496, R502, R504) -/
def Obligations.ResetsClearWhatTheyMustAndKeepTheRest : Prop :=
  (∀ (s : State) (c : Nat), c ≤ 5 →
    let t := s.sysReset c
    Cleared t ∧
    (NoKilnWork s → NvmKept s t ∧ t.xpdr.st = s.xpdr.st ∧ t.xpdr.deferred = [] ∧ t.xget XSTAT.SESSION = s.xget XSTAT.SESSION ∧
      t.xget XEOSTAT.FIRED = 0 ∧ t.xget XSTAT.RECFAULT = 0 ∧ t.dev.timebase = s.dev.timebase ∧ t.dev.wkcmp = s.dev.wkcmp ∧
      t.dev.gpioIn = s.dev.gpioIn ∧ (∀ p, (t.port p).grate.kept = (s.port p).grate.kept) ∧
      (∀ o, o ≠ RSTCAUSE.reg → Cells.word .aon t.aon o = Cells.word .aon s.aon o) ∧
      t.aonGet RSTCAUSE.FLAGS = s.aonGet RSTCAUSE.FLAGS ||| 2 ^ c ∧
      -- LAST: the first of the causes of this reset in the order POR, BOR, pin, watchdog, DEV_RESET, OFF wake
      (s.dev.inReset = false → t.aonGet RSTCAUSE.LAST = c) ∧
      (s.dev.inReset = true → t.dev.resetCauses = c :: s.dev.resetCauses ∧
        ∀ d, [0, 2, 1, 3, 4, 5].find? (c :: s.dev.resetCauses).contains = some d → t.aonGet RSTCAUSE.LAST = d))) ∧
  (∀ (s : State), s.raised = [] →
    -- the always-on domain's own reset
    Answers .powerOnReset s (fun t => Cleared t ∧ (NoKilnWork s → NvmKept s t) ∧ t.aon = [] ∧ t.dev.timebase = 0 ∧
      t.dev.wkcmp = 2 ^ 64 - 1 ∧ t.dev.resetCauses = [0] ∧ t.dev.vsysOk = true ∧ t.kiln.deferred = [] ∧ t.xpdr.vsysLow = false) ∧
    -- the supplies' brown-out detectors: in SLEEP and OFF that of VSYS only
    (∀ b : BitVec 3,
      let seen := if s.dev.power = .sleep ∨ s.dev.power = .off then b.toNat % 2 else b.toNat
      (s.dev.vsysOk = true → seen ≠ 0 → Leaves (.brownOut b) s ((s.sysReset 2).aonSet RSTCAUSE.BOR seen)) ∧
      (s.dev.vsysOk = false ∨ seen = 0 → exec (.brownOut b) s = .next s)) ∧
    -- RST_N: below 100 ns never, from 1 us on always, between the two perhaps
    (s.dev.vsysOk = true → ∀ w, (1000 ≤ w → Leaves (.rstNReset w) s (s.sysReset 1)) ∧
      (w < 100 → exec (.rstNReset w) s = .next s) ∧
      (100 ≤ w → w < 1000 → ∃ k, exec (.rstNReset w) s = .next { s with free := k } ∨
        Leaves (.rstNReset w) s (({ s with free := k } : State).sysReset 1))) ∧
    (s.dev.vsysOk = false → ∀ w, exec (.rstNReset w) s = .next s) ∧
    -- the watchdog
    (s.dev.inReset = false → exec (.wdtKick 0xA5) s = .next { s with dev := { s.dev with wdtCount := 0 } }) ∧
    (s.dev.inReset = false → ∀ k, k ≠ 0xA5 → Leaves (.wdtKick k) s (s.sysReset 3)) ∧
    (s.dev.inReset = true → (∀ k, exec (.wdtKick k) s = .next s) ∧ exec .wdtctlLock s = .next s) ∧
    (s.dev.inReset = false → exec .wdtctlLock s = .next (s.pcrSet WDTCTL.LOCK 1)) ∧
    (let counts := s.pcrGet WDTCTL.EN = 1 ∧ s.dev.jtagHalt = false ∧ s.dev.inReset = false ∧ s.dev.power ≠ .sleep ∧ s.dev.power ≠ .off
     (counts → Leaves .wdtExpiry s (s.sysReset 3)) ∧ (¬counts → exec .wdtExpiry s = .next s)) ∧
    -- DEV_RESET once its response is out
    ((∃ r ∈ s.running, r.job = .devReset) → Leaves .devResetFire s (s.sysReset 4)) ∧
    ((∀ r ∈ s.running, r.job ≠ .devReset) → exec .devResetFire s = .next s) ∧
    -- VSYS goes: T goes on where its field feeds it
    (s.dev.vsysOk = false → exec .vsysRemoved s = .next s) ∧
    (s.dev.vsysOk = true →
      let fed := s.xget XSTAT.FIELD = 1 ∧ s.xget XSTAT.SUPPLY ≠ 0 ∧ 15 ≤ s.xget XSTAT.H
      Answers .vsysRemoved s fun t => Cleared t ∧ (NoKilnWork s → NvmKept s t) ∧ t.aon = [] ∧ t.dev.timebase = 0 ∧
        t.dev.vsysOk = false ∧ t.dev.vioOk = false ∧
        (NoKilnWork s → fed → t.xget XSTAT.SUPPLY = (if s.xget XSTAT.SUPPLY = 1 then 2 else s.xget XSTAT.SUPPLY) ∧ t.xget XSTAT.FIELD = 1) ∧
        (NoKilnWork s → ¬fed → t.xpdr.st = .off ∧ t.xget XSTAT.FIELD = 0 ∧ t.xget XSTAT.SUPPLY = 0 ∧ t.xget XSTAT.SESSION = 0 ∧
          t.xget XEOSTAT.ARMED = 0)) ∧
    -- VIO in SLEEP and OFF
    (let asleep := s.dev.power = .sleep ∨ s.dev.power = .off
     (asleep → exec .vioLoss s = .next { s with dev := { s.dev with vioOk := false } } ∧
       exec .vioReturn s = .next { s with dev := { s.dev with vioOk := true } }) ∧
     (¬asleep → exec .vioLoss s = .next s ∧ exec .vioReturn s = .next s)))

/-- The release of SYS reset samples the straps, checks the image header and tells DEV_READY; full service starts at lock
(or without a crystal) once Kindling has nothing in progress, and raises SECVER to the image's. PLL lock and loss, the
crystal, writes of CLKCTL (clocks in use stay on) and the slow clock move their bits and stop or start what depends on
them. (R29, R30, R333, R465, R486, R487, R488, R498, R499, R500, R522) -/
def Obligations.TheDeviceBootsAndItsClocksFollowTheirSources : Prop :=
  ∀ (s : State), s.raised = [] →
    -- the release of SYS reset
    (s.dev.inReset = false ∨ s.dev.vsysOk = false → ∀ b0 b1, exec (.sysResetRelease b0 b1) s = .next s) ∧
    (s.dev.inReset = true → s.dev.vsysOk = true → ∀ b0 b1,
      let u := (s.released b0 b1).lockedBy (s.aonGet TAMPSTAT.LEVEL0 == 1 || s.aonGet TAMPSTAT.LEVEL1 == 1)
      let told := s.dev.resetCauses.contains 2 || s.dev.resetCauses.contains 3
      let v := if told then u.ash 0x0001 0x0F (leBytes 1 (s.aonGet RSTCAUSE.LAST) ++ leBytes 1 (s.aonGet RSTCAUSE.BOR)) else u
      let magic := s.imageNum s.kiln.active 0 4
      -- the image header's first checks fill DEV_READY's IMGSTAT
      (magic ≠ 0x31545248 → exec (.sysResetRelease b0 b1) s = .next (v.readyTold 0 1)) ∧
      (magic = 0x31545248 → ∀ k, s.imageCheck s.kiln.active = some k → k ≤ 3 → exec (.sysResetRelease b0 b1) s = .next
        ((({ v with flashState := s.flashState.set s.kiln.active 2 } : State).ash 0x0010 0x10 (leBytes 1 0 ++ leBytes 1 s.kiln.active
          ++ leBytes 1 k ++ leBytes 4 (s.imageNum s.kiln.active 8 4) ++ leBytes 4 0)).readyTold 0 2)) ∧
      (magic = 0x31545248 → (∀ k, s.imageCheck s.kiln.active = some k → 3 < k) →
        exec (.sysResetRelease b0 b1) s = .next (v.readyTold 0 3))) ∧
    -- full service starts at lock, or without a crystal, once nothing of Kindling is in progress
    (let may := s.kindling = true ∧ s.dev.imgStat = 0 ∧ s.dev.boot0 = false ∧ Config.lifecycleDone = true ∧
        (s.pllLocked = true ∨ s.pcrGet CLKCTL.XTAL_OK = 0) ∧ s.running = []
     (¬may → exec .fullServiceStart s = .next s) ∧
     (may →
       let off := (((s.pset 0 TXCTL.FIELD_EN 0).pset 0 TXSTAT.HELD 0).cutAir 0).fieldIsOff 0
       let full := off.modDev fun d => { d with full := true }
       let clean := allHosts.foldl (fun (t : State) h => t.modHost h fun x => { x with kept := [] }) (full.pcrSet CLKCTL.HSRC (bit off.pllLocked))
       Leaves .fullServiceStart s (((allPorts.foldl State.keepStandard clean).readSets.raiseSecver).devReady 1 0))) ∧
    -- the rollback floor follows the image in service and never falls
    (let new := s.imageNum s.kiln.active 12 1
     (s.raiseSecver).kiln.secver = max s.kiln.secver new ∧
     (new ≤ s.kiln.secver → s.raiseSecver = s) ∧
     (s.kiln.secver < new → s.raiseSecver = ({ s with kiln := { s.kiln with secver := new } } : State).ash 0x0012 0x10
       (leBytes 1 s.kiln.secver ++ leBytes 1 new))) ∧
    -- the PLL
    (s.pllLocked = false → exec .pllUnlock s = .next s) ∧
    (s.pllLocked = true →
      let u := (((s.pcrSet CLKCTL.PLL_LOCK 0).pcrSet CLKCTL.UNLOCK 1).pcrSet CLKCTL.HSRC 0).stopSources srcPll
      Leaves .pllUnlock s (allPorts.foldl (fun t p => t.fieldFault p .pll) u) ∧
      ((∀ p, FieldIdle s p) → exec .pllUnlock s = .next u)) ∧
    (let may := s.pcrGet CLKCTL.PLL_EN = 1 ∧ s.pcrGet CLKCTL.XTAL_OK = 1 ∧ s.pllLocked = false
     (¬may → exec .pllLock s = .next s) ∧
     (may → (∀ r ∈ s.running, r.job ≠ .lock) →
       let u := s.pcrSet CLKCTL.PLL_LOCK 1
       (∀ l, s.dev.wokeAt = some l → exec .pllLock s = .next
         (({ u with pcr := Cells.set .pcr u.pcr CLKCTL.HSRC 1, dev := { s.dev with wokeAt := none } } : State).toldDev 0x0880 (leBytes 2 l))) ∧
       (s.dev.wokeAt = none → s.dev.full = true → exec .pllLock s = .next
         (({ u with dev := { s.dev with power := if s.dev.power = .doze then .run else s.dev.power } } : State).pcrSet CLKCTL.HSRC 1)) ∧
       (s.dev.wokeAt = none → s.dev.full = false → exec .pllLock s = .next u)) ∧
     -- the commands that waited for the lock run in their order
     (may →
       let v := (s.pcrSet CLKCTL.PLL_LOCK 1).afterLock
       Leaves .pllLock s ((v.running.filter isLock).foldl State.runLocked { v with running := v.running.filter fun r => !isLock r }))) ∧
    -- the crystal
    (s.pcrGet CLKCTL.XTAL_EN = 1 → exec .xtalOk s = .next (s.pcrSet CLKCTL.XTAL_OK 1)) ∧
    (s.pcrGet CLKCTL.XTAL_EN = 0 → exec .xtalOk s = .next s) ∧
    (s.pcrGet CLKCTL.XTAL_OK = 0 → exec .xtalFail s = .next s) ∧
    (s.pcrGet CLKCTL.XTAL_OK = 1 →
      let u := s.pcrSet CLKCTL.XTAL_OK 0
      Leaves .xtalFail s (if u.pllLost.kindling then (u.pllLost.fieldFault 0 .pll).endPort 0 St.FIELD_FAULT else u.pllLost) ∧
      (s.pllLocked = false → s.kindling = false ∨ (FieldIdle s 0 ∧ NoWork s 0) → exec .xtalFail s = .next u)) ∧
    -- a write of CLKCTL: clocks in use stay on
    (s.dev.inReset = true → ∀ w, exec (.clkctlWrite w) s = .next s) ∧
    (s.dev.inReset = false → ∀ w, ∃ pcr, exec (.clkctlWrite w) s = .next { s with pcr } ∧
      (∀ o, o ≠ CLKCTL.reg → Cells.word .pcr pcr o = Cells.word .pcr s.pcr o) ∧
      let get := Cells.get .pcr pcr
      let hsrc := if wget w 0 1 = 1 then (if s.pllLocked then 1 else s.pcrGet CLKCTL.HSRC) else 0
      let keep := (∃ p, (s.port p).svc.svc = .opened) ∨ hsrc = 1
      get CLKCTL.HSRC = hsrc ∧ get CLKCTL.PLL_LOCK = s.pcrGet CLKCTL.PLL_LOCK ∧ get CLKCTL.XTAL_OK = s.pcrGet CLKCTL.XTAL_OK ∧
      get CLKCTL.UNLOCK = (if wget w 5 1 = 1 then 0 else s.pcrGet CLKCTL.UNLOCK) ∧
      (wget w 1 1 = 1 → get CLKCTL.PLL_EN = 1) ∧ (wget w 3 1 = 1 → get CLKCTL.XTAL_EN = 1) ∧
      (wget w 1 1 = 0 → (keep → get CLKCTL.PLL_EN = s.pcrGet CLKCTL.PLL_EN) ∧ (¬keep → get CLKCTL.PLL_EN = 0)) ∧
      (wget w 3 1 = 0 → (keep → get CLKCTL.XTAL_EN = s.pcrGet CLKCTL.XTAL_EN) ∧ (¬keep → get CLKCTL.XTAL_EN = 0))) ∧
    -- the slow clock
    (s.dev.vsysOk = false → ∀ b, exec (.slowclkSwitch b) s = .next s) ∧
    (s.dev.vsysOk = true →
      (s.aonGet SLOWCLK.FORCE_RC = 0 → exec (.slowclkSwitch true) s = .next ((s.aonSet SLOWCLK.SRC 1).aonSet SLOWCLK.XDET 1)) ∧
      (s.aonGet SLOWCLK.FORCE_RC = 1 → exec (.slowclkSwitch true) s = .next s) ∧
      (s.aonGet SLOWCLK.SRC = 0 → exec (.slowclkSwitch false) s = .next s) ∧
      (s.aonGet SLOWCLK.SRC = 1 → s.aonGet SLOWCLK.FORCE_RC = 1 → exec (.slowclkSwitch false) s = .next (s.aonSet SLOWCLK.SRC 0)) ∧
      (s.aonGet SLOWCLK.SRC = 1 → s.aonGet SLOWCLK.FORCE_RC = 0 → exec (.slowclkSwitch false) s = .next
        (((s.aonSet SLOWCLK.SRC 0).aonSet SLOWCLK.XDET 0).aonSet SLOWCLK.FAIL 1)))

/-- Banking starts when nothing is in progress, an enabled edge abandons it with PWR_WAKE, its end stops the oscillators;
an entry that waits too long is given up. An enabled source wakes the device from DOZE or SLEEP, and from OFF by a
reset; the wake compare sets WKF once. (R478, R480, R481, R482, R483, R484, R485) -/
def Obligations.PowerStatesAreEnteredBankedAndLeft : Prop :=
  ∀ (s : State), s.raised = [] →
    -- banking starts when nothing is in progress: fields off, Ember antennas selected; DOZE stops the PLL
    (s.dev.entry = none → exec .bankingStart s = .next s) ∧
    (∀ st, s.dev.entry = some st →
      (s.dev.banking = true ∨ s.entryClear st = false → exec .bankingStart s = .next s) ∧
      (s.dev.banking = false → s.entryClear st = true →
        let u := s.allFieldsOff.emberGrate.modDev fun d => { d with hold := false }
        (st ≠ 2 → Leaves .bankingStart s (u.modDev fun d => { d with banking := true })) ∧
        (st = 2 → Leaves .bankingStart s
          (((((u.pcrSet CLKCTL.HSRC 0).pcrSet CLKCTL.PLL_LOCK 0).pcrSet CLKCTL.PLL_EN 0).stopSources fun n => false || srcPll n).modDev
            fun d => { d with power := .doze, entry := none })))) ∧
    -- banking done: the oscillators stop and the device sleeps, or is off
    (s.dev.banking = false → exec .bankingDone s = .next s) ∧
    (s.dev.banking = true → ∃ t, exec .bankingDone s = .next t ∧
      t.dev = { s.dev with power := if s.dev.entry = some 4 then .off else .sleep, entry := none, banking := false } ∧
      t.hosts = s.hosts.map (fun x => { x with awake := false }) ∧
      t.pcrGet CLKCTL.HSRC = 0 ∧ t.pcrGet CLKCTL.PLL_LOCK = 0 ∧ t.pcrGet CLKCTL.PLL_EN = 0 ∧ t.pcrGet CLKCTL.XTAL_EN = 0 ∧
      t.pcrGet CLKCTL.XTAL_OK = 0 ∧ t.aon = s.aon ∧ t.kiln = s.kiln ∧ t.xpdr = s.xpdr ∧ t.sram = s.sram ∧ t.table = s.table ∧
      ∀ p, t.port p = { s.port p with tmr := (t.port p).tmr }) ∧
    -- an enabled edge abandons it
    (∀ b : BitVec 10,
      let fired := b.toNat &&& s.aonGet WKEN.SOURCES
      (s.dev.banking = false ∨ fired = 0 → exec (.bankingAbandoned b) s = .next s) ∧
      (s.dev.banking = true → fired ≠ 0 → exec (.bankingAbandoned b) s = .next
        (((({ s with dev := { s.dev with entry := none, banking := false, power := .run, embBase := [], embRepeat := [] } } : State).aonSet
          WKCAUSE.SOURCES fired).aonSet WKCAUSE.BANKAB 1).toldDev 0x0880 (leBytes 2 fired)))) ∧
    -- an entry that waits too long is given up
    (let waits := s.dev.entry.isSome = true ∧ s.dev.banking = false
     (¬waits → exec .entryTimeout s = .next s) ∧
     (waits → exec .entryTimeout s = .next
       (({ s with dev := { s.dev with entry := none, hold := false } } : State).toldDev 0x0880 [0, 0]))) ∧
    -- wake from DOZE or SLEEP, and the cold start from OFF
    (∀ b,
      let asleep := s.dev.power = .sleep ∨ s.dev.power = .doze
      (s.seen b ≠ 0 → asleep → exec (.wakeEvent b) s = .next (s.woken (s.seen b))) ∧
      (s.seen b = 0 ∨ ¬asleep → exec (.wakeEvent b) s = .next s) ∧
      (s.seen b &&& 0x3C3 ≠ 0 → s.dev.power = .off → s.dev.vsysOk = true →
        Leaves (.offWake b) s ((s.aonSet WKCAUSE.SOURCES (s.seen b &&& 0x3C3)).sysReset 5)) ∧
      (s.seen b &&& 0x3C3 = 0 ∨ s.dev.power ≠ .off ∨ s.dev.vsysOk = false → exec (.offWake b) s = .next s)) ∧
    -- the wake compare
    (let due := s.dev.vsysOk = true ∧ s.aonGet WKCTL.EN = 1 ∧ s.dev.wkcmp ≤ s.dev.timebase
     (due → exec .wakeCompare s = .next ((s.aonSet WKCTL.WKF 1).aonSet WKCTL.EN 0)) ∧
     (¬due → exec .wakeCompare s = .next s))

/-- Ember's first probe is the baseline; a probe within the thresholds moves it an eighth; one beyond asks for a repeat,
which wakes the device with TRIG or counts UNCONF. EMBER_CONFIG writes its registers but the ports that are isolated.
Hearth halts for JTAG at level 2 alone. A pin change is held; an input of FUNC 0 tells GPIO_EDGE, a TIN counts. (R383,
R469, R489, R490, R491, R557) -/
def Obligations.EmberDetectsTagsAndPinsAreFollowed : Prop :=
  ∀ (s : State), s.raised = [] →
    -- Ember's first probe is the baseline, the others follow it, one beyond a threshold asks for a repeat
    (∀ p amp phase,
      (¬EmberOn s p → exec (.emberProbe p amp phase) s = .next s ∧ exec (.emberRepeatProbe p amp phase) s = .next s) ∧
      (EmberOn s p →
        let u := s.probed
        (s.emberBase p = none → exec (.emberProbe p amp phase) s = .next
          { u with dev := { s.dev with embBase := assocPut p.val (amp, phase) s.dev.embBase } }) ∧
        (∀ b, s.emberBase p = some b →
          (¬Exceeds s b amp phase →
            let near := (b.1 + (amp - b.1) / 8, b.2 + phaseDiff phase b.2 / 8)
            exec (.emberProbe p amp phase) s = .next { u with dev := { s.dev with embBase := assocPut p.val near s.dev.embBase } }) ∧
          (Exceeds s b amp phase → exec (.emberProbe p amp phase) s = .next
            { u with dev := { s.dev with embRepeat := p.val :: s.dev.embRepeat.filter (· ≠ p.val) } }) ∧
          -- the repeat confirms a tag, which wakes the device, or counts as unconfirmed
          (p.val ∈ s.dev.embRepeat →
            let v : State := { u with dev := { s.dev with embRepeat := s.dev.embRepeat.filter (· ≠ p.val) } }
            let w := v.aonSet EMBSTAT.TRIG (s.aonGet EMBSTAT.TRIG ||| 2 ^ p.val)
            (Exceeds s b amp phase → s.dev.power ≠ .off → exec (.emberRepeatProbe p amp phase) s = .next (w.woken 64)) ∧
            (Exceeds s b amp phase → s.dev.power = .off → Leaves (.emberRepeatProbe p amp phase) s ((w.aonSet WKCAUSE.SOURCES 64).sysReset 5)) ∧
            (¬Exceeds s b amp phase → exec (.emberRepeatProbe p amp phase) s = .next
              (v.aonSet EMBSTAT.UNCONF (min 255 (s.aonGet EMBSTAT.UNCONF + 1)))))) ∧
        (p.val ∉ s.dev.embRepeat → exec (.emberRepeatProbe p amp phase) s = .next s))) ∧
    -- EMBER_CONFIG
    (∀ h, let l := h.payload
      let bad := leAt l 2 2 < 8 ∨ 2000 < leAt l 2 2 ∨ (∃ i < 8, 63 < byteAt l (4 + i)) ∨ (byteAt l 12 = 0 ∧ byteAt l 13 = 0)
      (bad → RepliesAs (.emberConfig h) s opEmberConfig h s St.BAD_PARAM []) ∧
      (¬bad → ∃ ports, (∀ i : PortNum, nbit ports i.val = (nbit (byteAt l 0) i.val && (s.port i).svc.svc != .isolated)) ∧ ports < 256 ∧
        let u := ((((s.opened (opEmberConfig.cmd h)).aonSet EMBCTL.PORTS ports).aonSet EMBCTL.INTERVAL (leAt l 2 2)).aonSet EMBTH.AMP_TH (byteAt l 12)).aonSet
          EMBTH.PHASE_TH (byteAt l 13)
        let v : State := { u with aon := Cells.put .aon (Cells.put .aon u.aon 0x048 (wordAt l 4)) 0x04C (wordAt l 8) }
        Runs (.emberConfig h) s opEmberConfig h ((allPorts.foldl State.powerSync v).respond (opEmberConfig.cmd h) St.OK))) ∧
    -- Hearth's debug halt needs level 2
    (s.kilnGet KWSTAT.DEBUG = 2 → exec (.hearthJtagHalt true) s = .next { s with dev := { s.dev with jtagHalt := true } }) ∧
    (s.kilnGet KWSTAT.DEBUG ≠ 2 → exec (.hearthJtagHalt true) s = .next s) ∧
    (exec (.hearthJtagHalt false) s = .next { s with dev := { s.dev with jtagHalt := false } }) ∧
    -- a GPIO pin: its level is held; an input of FUNC 0 tells of the edge, a TIN counts it
    (∀ (pin : Fin 24) (level : Bool),
      (s.dev.gpioIn.getLsbD pin.val = level → exec (.gpioPinChange pin level) s = .next s) ∧
      (s.dev.gpioIn.getLsbD pin.val ≠ level → ∃ w : BitVec 24, (∀ i : Fin 24, w.getLsbD i.val = if i = pin then level else s.dev.gpioIn.getLsbD i.val) ∧
        let u : State := { s with dev := { s.dev with gpioIn := w } }
        let tin := s.dev.gpioFunc.getD pin.val 0 = 1 ∧ pin.val < 4 ∧ level = true ∧ s.pllLocked = true
        let tells := s.dev.gpioFunc.getD pin.val 0 = 0 ∧ s.dev.gpioDir.getLsbD pin.val = false ∧ s.dev.full = true ∧ s.hostOn = true
        (tells → exec (.gpioPinChange pin level) s = .next (u.toldDev 0x0B81 (leBytes 1 pin.val ++ leBytes 1 (bit level)))) ∧
        (tin → Leaves (.gpioPinChange pin level) s (u.tinEdge pin.val)) ∧
        (tin → (∀ ch, tget (s.chan ch) TMR_CTL.SRC ≠ 4 + pin.val) → exec (.gpioPinChange pin level) s = .next u) ∧
        (¬tells → ¬tin → exec (.gpioPinChange pin level) s = .next u)))

/-- For every row of the command reference whose packet arrives alone: target, offer, reserved flags, owner, a held target
and the length are judged in this order, the first that fails giving its status and nothing else changing; where the
PLL is needed and not locked the command waits for it. (R305, R322, R323, R334, R347, R480, R596) -/
def Obligations.CommandsAreJudgedInTheOrderOfTheChecks : Prop :=
  ∀ (i : Instr) (o : Op) (h : HostCmd) (s : State), hostOp i = some (o, h) → Arrives s o h →
    let ends := fun st => exec i s = .next (s.answered (o.cmd h) st [])
    let t := h.target.toNat
    let mode := (if s.dev.full then o.full else o.kindling) = true
    -- checks 2 to 6: the target, what the mode offers, the reserved flags, the owner
    (t ∉ o.targets → ends St.BAD_PARAM) ∧
    (t ∈ o.targets → s.dev.full = false → o.kindling = false → ends St.BUSY) ∧
    (t ∈ o.targets → s.dev.full = true → o.full = false → ends St.BAD_PARAM) ∧
    (t ∈ o.targets → mode → 4 ≤ h.flags.toNat → ends St.BAD_PARAM) ∧
    (t ∈ o.targets → mode → h.flags.toNat < 4 → o.anyHost = false → s.owns h.hp t = false → ends St.NOT_OWNER) ∧
    -- check 8: the target is held; check 9: the length; then, where the PLL is needed, its lock
    (EarlyOk s o h → h.flags = 0 → NoChain s h →
      (¬TargetFree s o h → ends St.BUSY) ∧
      (TargetFree s o h →
        let fits := o.lens t h.payload.length = true ∧ h.payload.length ≤ o.bound
        (¬fits → ends St.BAD_LENGTH) ∧
        (fits → (o.needsPll (o.cmd h) && s.pllAwaited) = true →
          exec i s = .next ((s.pcrSet CLKCTL.PLL_EN 1).waiting (o.cmd h) .lock))))

/-- A host port that does not run takes nothing; before DEV_READY packets wait; the packet of a command in progress does
nothing and one of a kept exchange gets its packets again; a second command on a busy target ends with BUSY. The
packets of a tick are decided claims first, in the order of the host ports, a bad CRC is counted and answered, and the
second of two that contend ends with CONFLICT. (R319, R321, R323, R324, R329, R333, R337) -/
def Obligations.PacketsAreHeldRepeatedOrIgnored : Prop :=
  (∀ (i : Instr) (o : Op) (h : HostCmd) (s : State), hostOp i = some (o, h) → s.raised = [] → (∀ q, (s.host q).landed = []) →
    let x := s.host h.hp
    let raw := (o.cmd h).raw
    -- a host port that does not run takes nothing; a packet beyond 4,092 bytes is counted; before DEV_READY packets wait
    (s.hostRuns h.hp = false → exec i s = .next s) ∧
    (s.hostRuns h.hp = true → 4092 < h.payload.length → HostBecomes i s h.hp (x.counted HPERR.TRUNC 1)) ∧
    (s.hostRuns h.hp = true → h.payload.length ≤ 4092 → x.ready = false → HostBecomes i s h.hp { x with landed := [raw] }) ∧
    (s.hostRuns h.hp = true → h.payload.length ≤ 4092 → x.ready = true →
      -- the packet of a command in progress again: nothing; of a kept exchange: its packets again
      ((∃ y ∈ x.open_, y.raw = raw) → exec i s = .next s) ∧
      ((∀ y ∈ x.open_, y.raw ≠ raw) → x.more = [] →
        (∀ k, x.kept.find? (fun y => y.target = h.target && y.raw == raw) = some k → k.pkts ≠ [] → HostBecomes i s h.hp { x with
          open_ := x.open_ ++ [⟨h.target, raw, true⟩], out := x.out ++ k.pkts.take 1, more := k.pkts.drop 1 }) ∧
        -- a second command on a target while one is outstanding: BUSY
        ((∀ y ∈ x.kept, y.raw ≠ raw) → (∃ y ∈ x.open_, y.target = h.target) → EarlyOk s o h →
          exec i s = .next (s.answered (o.cmd h) St.BUSY []))))) ∧
  -- the packets of a tick: claims and releases first, then the others, each in the order of the host ports
  (∀ (s : State), s.raised = [] →
    ((∀ q, (s.host q).landed = []) → exec .tickDecide s = .next s) ∧
    (let cmds := s.landedCmds
     let clear := cmds.foldl (fun (t : State) c => t.modHost c.hp fun x => { x with landed := [] }) s
     Leaves .tickDecide s (((cmds.filter isClaimCmd ++ cmds.filter fun c => !isClaimCmd c).foldl (fun x c =>
       if CrcKind.crcO.ok c.raw then x.2.decideCmd x.1 (opOf c.opcode) c else (x.1, x.2.badCrc c)) (⟨[], none⟩, clear)).2)) ∧
    -- one packet whose CRC fails: counted and answered, with no command outstanding
    (∀ q raw, s.dev.inReset = false → (s.host q).ready = true → (s.host q).awake = true → (s.host q).landed = [raw] → (s.host q).more = [] →
      (∀ p, p ≠ q → (s.host p).landed = []) → CrcKind.crcO.ok raw = false → HostBecomes .tickDecide s q
        { ({ s.host q with landed := [] } : HostPort).counted HPERR.CRC 1 with
          out := (s.host q).out ++ [respPkt (cmdOf q raw) St.BAD_CRC [] 0 false none] })) ∧
  -- the second of two that contend ends with CONFLICT: claims of one target, and device commands of two co-owners
  (∀ (s : State) (k : Contest) (o : Op) (c : Cmd), (∀ y ∈ (s.host c.hp).open_, y.raw ≠ c.raw) → (∀ y ∈ (s.host c.hp).kept, y.raw ≠ c.raw) →
    s.checkEarly (some o) c = none →
    let clash := if isClaim o.opcode then ∃ x ∈ k.claims, x.1 = c.target.toNat ∧ x.2 ≠ c.hp
      else c.target.toNat = 15 ∧ o.anyHost = false ∧ ∃ q, k.device = some q ∧ q ≠ c.hp
    (clash → s.decideCmd k (some o) c = (k, (s.opened c).respond c St.CONFLICT)) ∧
    (¬clash → s.decideCmd k (some o) c =
      (k.add o c, (s.opened c).decideOp o c ((s.host c.hp).open_.any fun y => y.target == c.target))))

/-- A segment is acknowledged and its bytes join the chain; an empty one, one beyond the bound, one of another opcode and
one of an expired chain end with their statuses; an abort drops the chain, a cut image load leaving its slot invalid;
the last segment runs the command with the bytes of them all. A code that is no command ends with UNKNOWN_OPCODE, on a
target that is none with BAD_PARAM. (R322, R326, R327, R328) -/
def Obligations.ChainsCarryTheirSegments : Prop :=
  (∀ (h : HostCmd) (op : Half) (o : Op) (s : State), opOf op = some o → BitVec.ofNat 16 o.opcode = op →
    -- a segment
    (let c := o.cmd (segOf h)
     let i := Instr.chainSegment h op
     Arrives s o (segOf h) → EarlyOk s o (segOf h) → h.flags.getLsbD 1 = false → TargetFree s o (segOf h) →
      (NoChain s h → h.payload = [] → exec i s = .next (s.answered c St.BAD_LENGTH [])) ∧
      (NoChain s h → h.payload ≠ [] → o.bound < h.payload.length → exec i s = .next (s.answered c St.BAD_LENGTH [])) ∧
      (NoChain s h → h.payload ≠ [] → h.payload.length ≤ o.bound → (∀ u n, o.onSegment c n u = u) →
        exec i s = .next ((s.chained h.hp h.target op h.payload).acked c)) ∧
      (∀ x, (s.host h.hp).chainOf h.target = some x → x.expired = false →
        (x.opcode ≠ op → exec i s = .next (s.answered c St.BUSY [])) ∧
        (x.opcode = op → h.payload = [] → exec i s = .next (s.answered c St.BAD_LENGTH [])) ∧
        (x.opcode = op → h.payload ≠ [] → o.bound < x.data.length + h.payload.length → op ≠ 0x0A00 →
          exec i s = .next ((s.unchained h.hp h.target).answered c St.BAD_LENGTH [])) ∧
        (x.opcode = op → h.payload ≠ [] → x.data.length + h.payload.length ≤ o.bound → (∀ u n, o.onSegment c n u = u) →
          exec i s = .next ((s.chained h.hp h.target op (x.data ++ h.payload)).acked c))) ∧
      (∀ x, (s.host h.hp).chainOf h.target = some x → x.expired = true → x.opcode = op →
        exec i s = .next ((s.unchained h.hp h.target).answered c St.TIMEOUT []))) ∧
    -- an abort
    (let c := o.cmd (abortOf h)
     let i := Instr.chainAbort h op
     Arrives s o (abortOf h) → EarlyOk s o (abortOf h) →
      (NoChain s h → exec i s = .next (s.answered c St.OK [])) ∧
      (∀ x, (s.host h.hp).chainOf h.target = some x → x.expired = false →
        (x.opcode ≠ op → exec i s = .next (s.answered c St.BUSY [])) ∧
        (x.opcode = op → op ≠ 0x0A00 → exec i s = .next ((s.unchained h.hp h.target).answered c St.OK []))))) ∧
  -- an image load that is cut leaves its slot without a valid image
  (∀ (h : HostCmd) (s : State), Arrives s opImageLoad (abortOf h) → EarlyOk s opImageLoad (abortOf h) →
    ∀ x, (s.host h.hp).chainOf h.target = some x → x.expired = false → x.opcode = 0x0A00 →
      exec (.chainAbort h 0x0A00) s = .next
        (({ s.unchained h.hp h.target with flashState := s.flashState.set s.loadSlot 2 } : State).answered (opImageLoad.cmd (abortOf h)) St.OK [])) ∧
  -- the last segment runs the command with the bytes of them all
  (∀ (i : Instr) (o : Op) (h : HostCmd) (s : State), hostOp i = some (o, h) → Arrives s o h → EarlyOk s o h → h.flags = 0 →
    TargetFree s o h → (o.needsPll (o.cmd h) && s.pllAwaited) = false → (∀ u n, o.onSegment (o.cmd h) n u = u) →
    ∀ x, (s.host h.hp).chainOf h.target = some x → x.expired = false → x.opcode = BitVec.ofNat 16 o.opcode →
      x.data.length + h.payload.length ≤ o.bound → o.lens h.target.toNat (x.data.length + h.payload.length) = true →
      Leaves i s (o.body { o.cmd h with payload := x.data ++ h.payload } ((s.opened (o.cmd h)).modHost h.hp fun y => y.endChain h.target))) ∧
  -- a code that is no command
  (∀ (h : HostCmd) (op : Half) (s : State), opOf op = none → s.raised = [] → (∀ q, (s.host q).landed = []) → s.hostRuns h.hp = true →
    (s.host h.hp).ready = true → h.payload.length ≤ 4092 → (s.host h.hp).more = [] →
    let raw := cmdBytes (segOf h).flags h.seq h.target op h.payload
    let c : Cmd := { hp := h.hp, seq := h.seq, flags := (segOf h).flags, target := h.target, opcode := op, payload := h.payload, raw }
    (∀ y ∈ (s.host h.hp).open_, y.raw ≠ raw) → (∀ y ∈ (s.host h.hp).kept, y.raw ≠ raw) →
    (h.target.toNat ∈ ownTargets → exec (.chainSegment h op) s = .next (s.answered c St.UNKNOWN_OPCODE [])) ∧
    (h.target.toNat ∉ ownTargets → exec (.chainSegment h op) s = .next (s.answered c St.BAD_PARAM [])))

/-- DBG_READ and DBG_WRITE take aligned words all of which are allowed, else none is touched; the words refused are those
of no place, of NVM and Kiln's window, and of engine memories that may not be reached. DBG_ENGINE halts, starts or
steps and reports. A register write reaches the register, the SRAM or the memory word at its address and nothing else,
an engine reaching its own port alone. (R12, R13, R396, R447, R527, R598) -/
def Obligations.DebugCommandsAndRegisterWritesReachTheirPlaces : Prop :=
  ∀ (h : HostCmd) (s : State),
    -- DBG_READ and DBG_WRITE: aligned words, every one of them allowed, else none is touched
    (let a := leAt h.payload 0 4
     let n := leAt h.payload 4 2
     let l := (List.range n).map fun i => a + 4 * i
     let c := opDbgRead.cmd h
     let w := opDbgWrite.cmd h
     (a % 4 ≠ 0 ∨ n < 1 ∨ 4096 < n → RepliesAs (.dbgRead h) s opDbgRead h s St.BAD_PARAM []) ∧
     (a % 4 = 0 → 1 ≤ n → n ≤ 4096 →
       (∀ st, l.findSome? (s.dbgRefusal false) = some st → RepliesAs (.dbgRead h) s opDbgRead h s st []) ∧
       (l.findSome? (s.dbgRefusal false) = none → Runs (.dbgRead h) s opDbgRead h
         (let x := dbgReadWords l (s.opened c); x.2.respondPkts c St.OK (dbgPackets a x.1 5)))) ∧
     (h.payload.length ≠ 8 + 4 * n → RepliesAs (.dbgWrite h) s opDbgWrite h s St.BAD_LENGTH []) ∧
     (h.payload.length = 8 + 4 * n → a % 4 ≠ 0 → RepliesAs (.dbgWrite h) s opDbgWrite h s St.BAD_PARAM []) ∧
     (h.payload.length = 8 + 4 * n → a % 4 = 0 →
       (∀ st, l.findSome? (s.dbgRefusal true) = some st → RepliesAs (.dbgWrite h) s opDbgWrite h s st []) ∧
       (l.findSome? (s.dbgRefusal true) = none →
         let u := dbgWriteWords h.payload 0 l (s.opened w)
         Runs (.dbgWrite h) s opDbgWrite h (if u.dev.inReset then u else u.respond w St.OK))) ∧
     -- one word of SRAM
     (0x20000000 ≤ a → a < 0x20100000 → a % 4 = 0 → n = 1 →
       Replies (.dbgRead h) s opDbgRead h s (leBytes 4 a ++ [1, 0, 0, 0] ++ wordBytes (s.sram.word a)) ∧
       (h.payload.length = 12 → s.dev.inReset = false →
         Replies (.dbgWrite h) s opDbgWrite h { s with sram := s.sram.putWord a (wordAt h.payload 8) } []))) ∧
    -- which words are refused
    (∀ a write,
      (placeOf a = none → s.dbgRefusal write a = some St.BAD_PARAM) ∧
      (∀ off, placeOf a = some (.nvm off) → s.dbgRefusal write a =
        if write = true ∨ ¬((0x3000 ≤ off ∧ off < 0x4800) ∨ (0x5000 ≤ off ∧ off < 0x17000)) then some St.SECURITY_DENIED else none) ∧
      (∀ off, placeOf a = some (.kiln off) → s.dbgRefusal write a = if write then some St.SECURITY_DENIED else none) ∧
      (∀ p off, placeOf a = some (.engCode p off) → s.dbgRefusal write a =
        if s.portOn p = false ∨ (write = true ∧ (s.engState p = 1 ∨ s.engState p = 2)) then some St.BUSY else none) ∧
      (∀ p off, placeOf a = some (.engData p off) → s.dbgRefusal write a = if s.portOn p then none else some St.BUSY)) ∧
    -- DBG_ENGINE
    (let c := opDbgEngine.cmd h
     let p := c.port
     let act := byteAt h.payload 0
     (3 < act → RepliesAs (.dbgEngine h) s opDbgEngine h s St.BAD_PARAM []) ∧
     (act ≤ 3 → s.kilnGet KWSTAT.DEBUG = 0 → RepliesAs (.dbgEngine h) s opDbgEngine h s St.SECURITY_DENIED []) ∧
     (act ≤ 3 → s.kilnGet KWSTAT.DEBUG ≠ 0 →
       let u := s.opened c
       let v := if act = 0 then u.haltWrite p true else if act = 1 then u.haltWrite p false else if act = 2 then u.stepOnce p else u
       Runs (.dbgEngine h) s opDbgEngine h (v.respond c St.OK
         (leBytes 1 (v.engState p) ++ [0, 0, 0] ++ wordBytes (v.portWord p ENG_PC.reg) ++ wordsBytes (v.eng p).g.toList ++ wordBytes (v.eswWord p))))) ∧
    -- a register write from Hearth or an engine
    (s.raised = [] → ∀ (addr w : Word) side,
      (addr.toNat % 4 ≠ 0 ∨ placeOf addr.toNat = none → exec (.registerWrite addr w side) s = .next s) ∧
      (addr.toNat % 4 = 0 → ∀ pl, placeOf addr.toNat = some pl →
        (s.placeOn pl = false → exec (.registerWrite addr w side) s = .next s) ∧
        (s.placeOn pl = true →
          Leaves (.registerWrite addr w .hearth) s (s.placeWrite pl w) ∧
          (∀ p off, pl = .port p off → s.portOn p = true → Leaves (.registerWrite addr w .engine) s (s.portWrite p .engine off w)) ∧
          ((∀ p off, pl = .port p off → s.portOn p = false) → exec (.registerWrite addr w .engine) s = .next s) ∧
          (∀ off, pl = .sram off → exec (.registerWrite addr w .hearth) s = .next { s with sram := s.sram.putWord off w }) ∧
          (∀ off, pl = .spill off → exec (.registerWrite addr w .hearth) s = .next { s with spill := s.spill.putWord off w }) ∧
          (∀ p off, pl = .engData p off → exec (.registerWrite addr w .hearth) s =
            .next (s.modEng p fun e => { e with data := e.data.putWord off w })) ∧
          (∀ off, pl = .xpdr off → exec (.registerWrite addr w .hearth) s =
            .next { s with xpdr := { s.xpdr with regs := Cells.write .xpdr s.xpdr.regs off false w } }) ∧
          (∀ off, pl = .rom off ∨ pl = .nvm off ∨ pl = .kiln off → exec (.registerWrite addr w .hearth) s = .next s))))

/-- The commands that change T's records are judged, wait behind a field session with PENDING, and are else committed by
Kiln, whose end answers by the outcome; XPDR_READ, XPDR_CNT_READ, XPDR_AREA_INFO and XPDR_STATUS report the committed
records; XPDR_UNLOCK is judged by area, lockout, keys and nonce, which is spent. (R172, R259, R264, R266, R267, R273,
R379, R380, R381) -/
def Obligations.HostCommandsOnPortTAreJudgedDeferredOrCommitted : Prop :=
  (∀ (s : State) (h : HostCmd),
    let l := h.payload
    let b := byteAt l
    let n := fun o k => leAt l o k
    -- the commands that change records
    (¬XpdrConfigFits s l → RepliesAs (.xpdrConfig h) s opXpdrConfig h s St.BAD_PARAM []) ∧
    (XpdrConfigFits s l → Changes (.xpdrConfig h) s opXpdrConfig h) ∧
    (l.length ≠ 4 + 8 * b 0 → RepliesAs (.xpdrAreaSet h) s opXpdrAreaSet h s St.BAD_LENGTH []) ∧
    (l.length = 4 + 8 * b 0 → ¬AreaSetFits s l → RepliesAs (.xpdrAreaSet h) s opXpdrAreaSet h s St.BAD_PARAM []) ∧
    (l.length = 4 + 8 * b 0 → AreaSetFits s l → Changes (.xpdrAreaSet h) s opXpdrAreaSet h) ∧
    (l.length ≠ 4 + 16 * b 2 → RepliesAs (.xpdrWrite h) s opXpdrWrite h s St.BAD_LENGTH []) ∧
    (l.length = 4 + 16 * b 2 → b 2 < 1 ∨ 16 < b 2 ∨ 1024 < n 0 2 + b 2 → RepliesAs (.xpdrWrite h) s opXpdrWrite h s St.BAD_PARAM []) ∧
    (l.length = 4 + 16 * b 2 → 1 ≤ b 2 → b 2 ≤ 16 → n 0 2 + b 2 ≤ 1024 → Changes (.xpdrWrite h) s opXpdrWrite h) ∧
    (15 < b 0 ∨ n 4 4 = 0 → RepliesAs (.xpdrCntInc h) s opXpdrCntInc h s St.BAD_PARAM []) ∧
    (b 0 ≤ 15 → n 4 4 ≠ 0 → Changes (.xpdrCntInc h) s opXpdrCntInc h) ∧
    -- XPDR_READ: the last committed data, at most 255 blocks a packet
    (n 2 2 < 1 ∨ 1024 < n 2 2 ∨ 1024 < n 0 2 + n 2 2 → RepliesAs (.xpdrRead h) s opXpdrRead h s St.BAD_PARAM []) ∧
    (1 ≤ n 2 2 → n 2 2 ≤ 1024 → n 0 2 + n 2 2 ≤ 1024 →
      ((∃ i, i < n 2 2 ∧ s.nvRead (blockKey (n 0 2 + i)) = none) → RepliesAs (.xpdrRead h) s opXpdrRead h s St.INTERNAL_ERROR []) ∧
      ((∀ i, i < n 2 2 → s.nvRead (blockKey (n 0 2 + i)) ≠ none) →
        let data := (List.range (n 2 2)).flatMap fun i => padTo 16 (s.nvData (blockKey (n 0 2 + i)))
        (n 2 2 ≤ 255 → Replies (.xpdrRead h) s opXpdrRead h s (leBytes 2 (n 0 2) ++ leBytes 1 (n 2 2) ++ [0] ++ data)) ∧
        (Runs (.xpdrRead h) s opXpdrRead h ((s.opened (opXpdrRead.cmd h)).respondPkts (opXpdrRead.cmd h) St.OK
          (readPackets (n 0 2) data 5 (n 2 2)))))) ∧
    -- XPDR_CNT_READ, XPDR_AREA_INFO and XPDR_STATUS
    (15 < b 0 → RepliesAs (.xpdrCntRead h) s opXpdrCntRead h s St.BAD_PARAM []) ∧
    (b 0 ≤ 15 → s.nvRead (counterKey (b 0)) = none → RepliesAs (.xpdrCntRead h) s opXpdrCntRead h s St.INTERNAL_ERROR []) ∧
    (b 0 ≤ 15 → ∀ r, s.nvRead (counterKey (b 0)) = some r → Replies (.xpdrCntRead h) s opXpdrCntRead h s (padTo 5 r.data)) ∧
    ((∃ i, i < s.areaCount ∧ s.nvRead (areaKey i) = none) → RepliesAs (.xpdrAreaInfo h) s opXpdrAreaInfo h s St.INTERNAL_ERROR []) ∧
    ((∀ i, i < s.areaCount → s.nvRead (areaKey i) ≠ none) → Replies (.xpdrAreaInfo h) s opXpdrAreaInfo h s
      (leBytes 1 s.areaCount ++ (List.range s.areaCount).flatMap fun i => (s.area i).take 7 ++ leBytes 1 (bit (areaLocked (s.area i))))) ∧
    Replies (.xpdrStatus h) s opXpdrStatus h s (wordsBytes ([0, 4, 8, 12, 16, 20].map s.xWord) ++ s.tUid) ∧
    -- XPDR_UNLOCK: the area, its lockout, a key, then the nonce, which is spent
    (s.areaCount ≤ b 0 → RepliesAs (.xpdrUnlock h) s opXpdrUnlock h s St.BAD_PARAM []) ∧
    (b 0 < s.areaCount →
      (s.nvRead (areaKey (b 0)) = none → RepliesAs (.xpdrUnlock h) s opXpdrUnlock h s St.INTERNAL_ERROR []) ∧
      (s.nvRead (areaKey (b 0)) ≠ none →
        (areaLocked (s.area (b 0)) = false ∨ s.unlockKeys = [] → RepliesAs (.xpdrUnlock h) s opXpdrUnlock h s St.SECURITY_DENIED []) ∧
        (areaLocked (s.area (b 0)) = true → s.unlockKeys ≠ [] →
          let u : State := { s with kiln := { s.kiln with nonceX := none } }
          let c := opXpdrUnlock.cmd h
          (s.liveNonce s.kiln.nonceX = none → Accepted s opXpdrUnlock h → ∃ x k, x < 256 ∧ exec (.xpdrUnlock h) s = .next
            ((({ u with free := k } : State).ash 0x0050 8 (leBytes 1 (b 0) ++ leBytes 1 (areaLimit (s.area (b 0))) ++ leBytes 1 x ++ [2, 2]
              ++ leBytes 1 h.hp.val)).answered c St.AUTH_FAIL [])) ∧
          (∀ m, s.liveNonce s.kiln.nonceX = some m → Runs (.xpdrUnlock h) s opXpdrUnlock h
            (({ s.opened c with kiln := u.kiln } : State).begin { c with payload := l ++ m } .kiln)))))) ∧
  -- what Kiln's end of such a command answers
  (∀ (s : State) (r : Running), KilnEndsT s r →
    let c := r.cmd
    let t : State := { s with running := dropFirst s.kilnEnds s.running }
    let ends := Leaves .kilnOperationDone s
    (c.opcode ≠ 0x0607 →
      (∀ e, s.hostPlan c = .error e → ends (t.respond c (hostStatus e))) ∧
      (∀ plan, s.hostPlan c = .ok plan →
        let x := t.commitAll plan 0
        (x.1 ≠ 0 → ends (x.2.2.respond c (hostStatus x.1))) ∧
        (x.1 = 0 → c.opcode = 0x0601 → ends (x.2.2.respond c St.OK)) ∧
        (x.1 = 0 → c.opcode = 0x0603 → ends (x.2.2.respond c St.OK (leBytes 1 x.2.1))) ∧
        (x.1 = 0 → c.opcode = 0x0605 → ends (x.2.2.respond c St.OK ((x.2.2.nvData (counterKey (byteAt c.payload 0))).take 4))) ∧
        (x.1 = 0 → c.opcode = 0x0600 → x.2.2.tSession = true →
          ends (({ x.2.2 with xpdr := { x.2.2.xpdr with cfgNext := true } } : State).respond c St.OK)) ∧
        (x.1 = 0 → c.opcode = 0x0600 → x.2.2.tSession = false →
          ends (({ x.2.2 with xpdr := { x.2.2.xpdr with cfg := x.2.2.readCfg, cfgNext := false } } : State).respond c St.OK)))) ∧
    (c.opcode = 0x0607 →
      let area := byteAt c.payload 0
      let good := ∃ k ∈ s.unlockKeys, Config.ecdsaVerify k (Config.sha256 ([0x55, BitVec.ofNat 8 area] ++ c.payload.drop 68 ++ s.tUid))
        ((c.payload.drop 4).take 64) = true
      let x := t.clearArea area
      (good → x.1 = true → ends ((x.2.lockoutRecord area none (some 1) (some 2) (some c.hp.val)).respond c St.OK)) ∧
      (good → x.1 = false → ends (x.2.respond c St.INTERNAL_ERROR)) ∧
      (¬good → ends ((t.lockoutRecord area none (some 2) (some 2) (some c.hp.val)).respond c St.AUTH_FAIL)))) ∧
  -- the records that a command commits: the blocks written in turn, the counter raised, or why there are none
  (∀ (s : State) (c : Cmd),
    (c.opcode = 0x0603 → s.hostPlan c = .ok ((List.range (byteAt c.payload 2)).map fun i =>
      (blockKey (leAt c.payload 0 2 + i), (c.payload.drop (4 + 16 * i)).take 16))) ∧
    (c.opcode = 0x0605 →
      let k := counterKey (byteAt c.payload 0)
      let d := leAt c.payload 4 4
      (s.nvRead k = none → s.hostPlan c = .error 3) ∧
      (∀ r, s.nvRead k = some r → 2 ^ 32 ≤ r.value + d → s.hostPlan c = .error 4) ∧
      (∀ r, s.nvRead k = some r → r.value + d < 2 ^ 32 → s.hostPlan c = .ok [(k, leBytes 4 (r.value + d) ++ r.data.drop 4)])))

/-- A frame that T does not hear changes nothing but its last answer; one that is heard starts the session and fixes the
protocol. A field of enough strength is taken, in battery or harvest mode by the supply; a gap below 1 ms does
nothing, from 5 ms T loses all but its memory, between them either may happen; the end of a session lets a waiting
configuration take effect. (R135, R143, R171, R250, R253, R255, R256, R257, R495) -/
def Obligations.FramesAndFieldsReachPortT : Prop :=
  -- frames that are not heard, and those whose CRC fails
  (∀ (i : Instr) (p : LinkProto) (body : List Byte) (s : State), airFrame i = some (p, body) → s.raised = [] → ¬Hears s p body →
    exec i s = .next { s with xpdr := { s.xpdr with reply := [], replyExt := 0, burst := none } }) ∧
  (∀ (s : State), s.raised = [] →
    exec .xpdrFrameDiscard s = .next { s with xpdr := { s.xpdr with reply := [], replyExt := 0, burst := none } }) ∧
  -- frames that are heard: the session, the protocol, DB_ARMED
  (∀ (s : State) (p : LinkProto) (fits nvm : Bool), (nvm = true → s.tCommitting = false ∧ s.kilnGet KWSTAT.STATE ≠ 0) →
    let v := s.heard p fits nvm
    v = { s with xpdr := { s.xpdr with
      regs := v.xpdr.regs, reply := [], replyExt := 0, burst := none
      spoke := if fits then some p else s.xpdr.spoke
      st := if fits ∧ p = .osgil ∧ s.xpdr.st ≠ .secured then .opened else s.xpdr.st
      dbArmed := s.xpdr.dbArmed && s.xpdr.dbSync && s.xpdr.crx.length == s.xpdr.dbN } } ∧
    v.xget XSTAT.SESSION = (if fits then 1 else s.xget XSTAT.SESSION) ∧
    v.xget XSTAT.PROTO = (if fits ∧ s.xget XSTAT.SESSION ≠ 1 then protoCode p else s.xget XSTAT.PROTO) ∧
    (∀ f : Fld, f.fits → XSTAT.SESSION.apart f → XSTAT.PROTO.apart f → v.xget f = s.xget f)) ∧
  (∀ (s : State), s.raised = [] →
    let F := s.xget XSTAT.FIELD
    -- a field appears: its strength decides whether T takes it, and battery or harvest mode follows from the supply
    (∀ (h : Byte) (battery : Bool),
      let bat := battery = true ∧ s.dev.vsysOk = true
      let i := Instr.xpdrFieldAppear h battery
      let v := ((if s.dev.vsysOk = false ∨ s.dev.power = .off then s.tColdStart else s).xset XSTAT.FIELD 1).xset XSTAT.H h.toNat
      let w (low : Bool) : State := { v with xpdr := { v.xpdr with vsysLow := low } }
      (F = 1 → exec i s = .next (s.xset XSTAT.H h.toNat)) ∧
      (F ≠ 1 → h.toNat < (if battery = true ∧ s.dev.vsysOk = true then 3 else 15) → exec i s = .next s) ∧
      (F ≠ 1 → (if battery = true ∧ s.dev.vsysOk = true then 3 else 15) ≤ h.toNat →
        (v.tEn = false → exec i s = .next (w (!battery && s.dev.vsysOk))) ∧
        (v.tEn = true → bat → Answers i s fun t => ∃ x k, t = { w false with xpdr := x, kiln := k } ∧
          t.xget XSTAT.SUPPLY = 1 ∧ t.xget XSTAT.FIELD = 1 ∧ t.xget XSTAT.H = h.toNat ∧ t.kilnGet KWSTAT.HARVEST = 0 ∧
          t.xpdr.recs = v.xpdr.recs ∧ t.xpdr.st = if v.tOsgil = true ∧ v.tAelyr = false then .opened else .idle) ∧
        (v.tEn = true → ¬bat → Answers i s fun t => ∃ x k, t = { w s.dev.vsysOk with xpdr := x, kiln := k } ∧
          t.xget XSTAT.SUPPLY = 2 ∧ t.xget XSTAT.FIELD = 1 ∧ t.xget XSTAT.H = h.toNat ∧ t.kilnGet KWSTAT.HARVEST = 1 ∧
          t.xpdr.reserve = false ∧ t.xpdr.recs = v.xpdr.recs ∧
          t.xpdr.st = if v.tOsgil = true ∧ v.tAelyr = false then .opened else .idle))) ∧
    -- a gap: below 1 ms nothing, from 5 ms T loses all but its memory, and between them either
    (∀ gap, F = 0 ∨ gap < 1000 → exec (.xpdrFieldLost gap) s = .next s) ∧
    (∀ gap, F ≠ 0 → 5000 ≤ gap → exec (.xpdrFieldLost gap) s = .next s.tFieldGone) ∧
    (∀ gap, F ≠ 0 → 1000 ≤ gap → gap < 5000 → ∃ k, exec (.xpdrFieldLost gap) s = .next { s with free := k } ∨
      exec (.xpdrFieldLost gap) s = .next ({ s with free := k } : State).tFieldGone) ∧
    -- the end of a session: a waiting configuration takes effect, and battery mode returns when VSYS is back
    (s.xget XSTAT.SESSION ≠ 1 → exec .xpdrSessionIdleEnd s = .next s) ∧
    (s.xget XSTAT.SESSION = 1 →
      let u := (s.xset XSTAT.SESSION 0).xset XSTAT.PROTO 0
      let v : State := { u with xpdr := { u.xpdr with cfg := if s.xpdr.cfgNext then u.readCfg else s.xpdr.cfg, cfgNext := false } }
      let back := s.xget XSTAT.SUPPLY = 2 ∧ s.dev.vsysOk = true ∧ s.xpdr.vsysLow = false
      (¬back → exec .xpdrSessionIdleEnd s = .next v) ∧
      (back → Answers .xpdrSessionIdleEnd s fun t => ∃ x k, t = { v with xpdr := x, kiln := k } ∧ x.recs = v.xpdr.recs ∧ x.cfg = v.xpdr.cfg ∧
        t.xget XSTAT.SUPPLY = 1 ∧ t.xget XSTAT.SESSION = 0 ∧ t.kilnGet KWSTAT.HARVEST = 0 ∧ x.closed ∧
        x.st = if s.xpdr.st = .off then .off else if s.xpdr.st = .opened ∨ s.xpdr.st = .secured then .opened else .idle)) ∧
    -- VSYS falls away under T: harvest mode in a field of 1.5 A/m or more, where T starts again; else the field is lost
    (s.xget XSTAT.SUPPLY ≠ 1 → exec .xpdrSupplyDrop s = .next { s with xpdr := { s.xpdr with vsysLow := true } }) ∧
    (s.xget XSTAT.SUPPLY = 1 → s.xget XSTAT.H < 15 →
      exec .xpdrSupplyDrop s = .next ({ s with xpdr := { s.xpdr with vsysLow := true } } : State).tFieldGone) ∧
    (s.xget XSTAT.SUPPLY = 1 → 15 ≤ s.xget XSTAT.H → Answers .xpdrSupplyDrop s fun t => ∃ x k, t = { s with xpdr := x, kiln := k } ∧
      x.recs = s.xpdr.recs ∧ x.vsysLow = true ∧ x.reserve = false ∧ t.xget XSTAT.SUPPLY = 2 ∧ t.xget XSTAT.SESSION = 0 ∧
      t.kilnGet KWSTAT.HARVEST = 1 ∧ x.closed ∧
      x.st = if s.xpdr.st = .off then .off else if s.xpdr.st = .opened ∨ s.xpdr.st = .secured then .opened else .idle)) ∧
  -- what the loss of the field leaves
  (∀ (s : State), ∃ x k, s.tFieldGone = { s with xpdr := x, kiln := k } ∧ x.recs = s.xpdr.recs ∧ x.deferred = s.xpdr.deferred ∧
    x.journal = s.xpdr.journal ∧ x.closed ∧ x.st = .off ∧ x.spoke = none ∧ x.reply = [] ∧ x.burst = none ∧ x.reserve = false ∧
    x.cfgNext = false ∧ (s.xpdr.cfgNext = false → x.cfg = s.xpdr.cfg) ∧
    let t := s.tFieldGone
    t.xget XSTAT.FIELD = 0 ∧ t.xget XSTAT.SUPPLY = 0 ∧ t.xget XSTAT.SESSION = 0 ∧ t.xget XSTAT.PROTO = 0 ∧ t.xget XSTAT.H = 0 ∧
      t.xget XEOSTAT.ARMED = 0 ∧ t.xget XEOSTAT.CHARGING = 0) ∧
  -- a cold start: T's and Kiln's registers as after reset but VSTORE, the committed configuration in force
  (∀ (s : State), s.tColdStart = { s with
    kiln := { s.kiln with regs := [] }
    xpdr := { s.xpdr with regs := s.tColdStart.xpdr.regs, cfg := s.readCfg, cfgNext := false } } ∧
    s.tColdStart.xget XEOSTAT.VSTORE = s.xget XEOSTAT.VSTORE)

/-- A commit writes both copies with SEQ one up, or ends with a record fault that leaves one copy whole; of two valid
copies the counter's higher value, else the newer SEQ, is in force. A field commit overtakes the deferred commands
that write the same record; a command's records are committed in order until a locked block or a failure; a cut is
repaired at the next start or with the reserve. (R264, R267, R268, R269, R270, R271, R272, R273) -/
def Obligations.CommitsWriteARecordsTwoCopiesInTurn : Prop :=
  -- a commit: both copies, or a record fault that leaves one of them whole
  (∀ (s : State) (k : Nat) (data : List Byte) (locked : Bool),
    (¬MayCommit s → s.commit k data locked = (false, s)) ∧
    (MayCommit s →
      let u := s.repair
      let new := u.newCopy k data locked
      let torn : NvCopy := { new with ok := false }
      ∃ n, let v : State := { u with free := n }
        s.commit k data locked = (true, v.recordIs k ⟨new, new⟩) ∨
        s.commit k data locked = (false, (v.recordIs k ⟨torn, (u.nvRec k).backup⟩).nvFault k) ∨
        s.commit k data locked = (false, (v.recordIs k ⟨new, torn⟩).nvFault k))) ∧
  -- what is read back, and the other records
  (∀ (s : State) (k : Nat) (r : NvRec), (s.recordIs k r).nvRec k = r ∧ ∀ j, j ≠ k → (s.recordIs k r).nvRec j = s.nvRec j) ∧
  (∀ (s : State) (k : Nat), s.nvFault k = { s with xpdr := { s.xpdr with regs := (s.xset XSTAT.RECFAULT 1).xpdr.regs }, kiln := (s.nvFault k).kiln } ∧
    (s.nvFault k).xget XSTAT.RECFAULT = 1) ∧
  -- which copy is in force: one that is valid; of two a counter's higher value, else the newer, the primary where they are equal
  (∀ (counter : Bool) (p b : NvCopy),
    (p.ok = false → b.ok = false → selectCopy counter ⟨p, b⟩ = none) ∧ (p.ok = true → b.ok = false → selectCopy counter ⟨p, b⟩ = some p) ∧
    (p.ok = false → b.ok = true → selectCopy counter ⟨p, b⟩ = some b) ∧
    (p.ok = true → b.ok = true →
      (counter = true → p.value < b.value → selectCopy counter ⟨p, b⟩ = some b) ∧
      (counter = true → b.value < p.value → selectCopy counter ⟨p, b⟩ = some p) ∧
      (counter = false ∨ p.value = b.value → selectCopy counter ⟨p, b⟩ = some (if b.seq ≤ p.seq then p else b)))) ∧
  -- a commit for the field overtakes the deferred commands that write the same record
  (∀ (s : State) (k : Nat) (data : List Byte) (locked : Bool),
    let x := s.commit k data locked
    (x.1 = false → s.fieldCommit k data locked = (false, x.2)) ∧
    (x.1 = true → s.fieldCommit k data locked = (true, { x.2 with xpdr := { x.2.xpdr with
      deferred := x.2.xpdr.deferred.map fun d => if d.touches k then { d with overtaken := true } else d } }))) ∧
  -- the records of one command, in order: a locked block and a failed commit end them
  (∀ (s : State) (n k : Nat) (data : List Byte) (l : List (Nat × List Byte)),
    let x := s.commit k data false
    let locked := k < 1024 ∧ ∃ c, s.nvRead k = some c ∧ c.locked = true
    s.commitAll [] n = (0, n, s) ∧ (locked → s.commitAll ((k, data) :: l) n = (2, n, s)) ∧
    (¬locked → x.1 = true → s.commitAll ((k, data) :: l) n = x.2.commitAll l (n + 1)) ∧
    (¬locked → x.1 = false → s.commitAll ((k, data) :: l) n = (3, n, x.2))) ∧
  -- the rows: a deferred command committed and reported, the repair after a cut, and the reserve met
  (∀ (s : State),
    (s.raised = [] → s.xpdr.deferred = [] → exec .xpdrDeferredCommit s = .next s) ∧
    (∀ d r, s.xpdr.deferred = d :: r →
      let x := ({ s with xpdr := { s.xpdr with deferred := r } } : State).hostCommit d.cmd
      Leaves .xpdrDeferredCommit s (x.2.2.raiseTo d.cmd.hp 8 0x0680 ([d.cmd.seq] ++ leBytes 1 (deferredOutcome d.overtaken x.1)
        ++ leBytes 2 d.cmd.opcode.toNat ++ leBytes 1 (if d.cmd.opcode = 0x0603 then x.2.1 else 0)))) ∧
    (s.raised = [] → exec .journalCheck s = .next s.repair) ∧
    (s.xpdr.journal = none → s.repair = { s with xpdr := { s.xpdr with repairDue := false } }) ∧
    (∀ k q, s.xpdr.journal = some (k, q) →
      (s.ashMay = false → s.repair = { s with xpdr := { s.xpdr with repairDue := true } }) ∧
      (s.ashMay = true →
        let done (u : State) : State := { u with xpdr := { u.xpdr with journal := none, repairDue := false } }
        (∀ c, s.nvRead k = some c → s.repair = done (s.recordIs k ⟨c, c⟩)) ∧
        (s.nvRead k = none → s.repair = done (s.nvFault k)))) ∧
    (s.raised = [] → s.kilnGet KWSTAT.HARVEST = 0 ∨ s.xget XSTAT.FIELD = 0 → exec .commitReserveMet s = .next s) ∧
    (s.raised = [] → s.kilnGet KWSTAT.HARVEST ≠ 0 → s.xget XSTAT.FIELD ≠ 0 →
      let u : State := { s with xpdr := { s.xpdr with reserve := true } }
      exec .commitReserveMet s = .next (if s.xpdr.repairDue then u.repair else u)))

/-- For every frame that T hears: SCAN, SELECT and HALT move the state and answer as the table of R145 says, malformed
frames and unknown codes are answered in ACTIVE alone, and the other commands are silent outside ACTIVE. Leaving
ACTIVE closes all areas and drops DB_ARMED, the kept exchange and the nonce. (R145, R146, R147, R150, R152) -/
def Obligations.AelyrFramesMoveTheProtocolState : Prop :=
  (∀ (s : State) (body : List Byte), s.raised = [] → Hears s .aelyr body →
    let v := s.heard .aelyr true false
    let w := s.heard .aelyr false false
    let st := s.xpdr.st
    let x : State := { v with xpdr := { v.xpdr with sibarm := false } }
    let bit0 := nbit (byteAt body 0) 0 = true
    -- a frame that does not fit its command: PARAM in ACTIVE, silence elsewhere
    let malformed := fun i => (st = .active → exec i s = .next (w.tReply [1])) ∧ (st ≠ .active → exec i s = .next w)
    -- SCAN: a match answers the UID and goes to READY, even from HALTED where it asks for all
    (let i := Instr.scan body
     let len := byteAt body 1
     let fits := prefixFits s.tUid (body.drop 2) len = true
     (2 ≤ body.length → 63 < len → exec i s = .next w) ∧
     (body.length < 2 ∨ (len ≤ 63 ∧ body.length ≠ 2 + (len + 7) / 8) → malformed i) ∧
     (len ≤ 63 → body.length = 2 + (len + 7) / 8 →
       (st = .halted → ¬(bit0 ∧ fits) → exec i s = .next x) ∧
       (st = .halted → bit0 → fits → exec i s = .next ((x.tGo .ready).tReply s.tUid)) ∧
       (st ≠ .halted → st ≠ .active → fits → exec i s = .next ((x.tGo .ready).tReply s.tUid)) ∧
       (st = .active → fits → exec i s = .next ((x.leaveActive.tGo .ready).tReply s.tUid)) ∧
       (st = .active → ¬fits → exec i s = .next (x.leaveActive.tGo .ready)) ∧
       (st ≠ .halted → st ≠ .active → ¬fits → exec i s = .next (x.tGo (if st = .idle then .idle else .ready))))) ∧
    -- SELECT: its own UID makes T active and answers T's information; another one's leaves ACTIVE, and arms a sibling in READY
    (let i := Instr.select body
     (body.length ≠ 9 → malformed i) ∧
     (body.length = 9 → body.drop 1 = s.tUid →
       (st = .halted → nbit (byteAt body 0) 1 = false → exec i s = .next x) ∧
       (st ≠ .halted ∨ nbit (byteAt body 0) 1 = true → exec i s = .next ((x.leaveActive.tGo .active).tReply x.tInfo))) ∧
     (body.length = 9 → body.drop 1 ≠ s.tUid →
       (st = .ready → exec i s = .next { v with xpdr := { v.xpdr with
         sibarm := nbit (byteAt body 0) 0 && body.drop 1 == siblingUid s.tUid } }) ∧
       (st = .active → exec i s = .next (x.leaveActive.tGo .ready)) ∧
       (st ≠ .ready → st ≠ .active → exec i s = .next x))) ∧
    -- HALT: from ACTIVE to HALTED with OK; NEXT makes an armed sibling active
    (let i := Instr.aelyrHalt body
     let y := if nbit (byteAt body 0) 0 then x else v
     (body.length ≠ 1 → malformed i) ∧
     (body.length = 1 →
       (st = .active → exec i s = .next ((y.leaveActive.tGo .halted).tReply [0])) ∧
       (st = .ready → bit0 → s.xpdr.sibarm = true → exec i s = .next ((x.tGo .active).tReply x.tInfo)) ∧
       (st ≠ .active → ¬(st = .ready ∧ bit0 ∧ s.xpdr.sibarm = true) → exec i s = .next y))) ∧
    -- a code that T does not know: UNSUPPORTED in ACTIVE, silence elsewhere
    (∀ code, (st = .active → exec (.unknownCode .aelyr code body) s = .next (w.tReply [7])) ∧
      (st ≠ .active → exec (.unknownCode .aelyr code body) s = .next w))) ∧
  -- the commands of ACTIVE elsewhere, and with a wrong length
  (∀ (s : State) (i : Instr) (body : List Byte) (len : Nat), activeCmd i = some (body, len) → Hears s .aelyr body →
    let v := s.heard .aelyr (body.length == len) true
    (v.xpdr.st ≠ .active → Leaves i s v.tQuiet) ∧
    (v.xpdr.st = .active → body.length ≠ len → Leaves i s (v.tReply [1]))) ∧
  -- what leaving ACTIVE ends
  (∀ (s : State), s.leaveActive = { s with xpdr := { s.xpdr with
    opens := [], dbArmed := false, dbSync := false, keptReq := [], keptRsp := [], nonce := none } })

/-- In ACTIVE each command answers its status in the order of its checks, with the data of the records or after its
commit; the repeat-safe ones answer a repeat from the kept exchange. A password attempt is counted before it is
compared, success clears the count and opens the area, LIMIT locks it out. (R147, R155, R156, R157, R158, R159, R161,
R258, R260, R261) -/
def Obligations.CommandsInActiveAnswerTheirStatus : Prop :=
  (∀ (s : State) (body : List Byte), Hears s .aelyr body →
    let v := s.heard .aelyr true true
    v.xpdr.st = .active →
    let b := leAt body 0 2
    let a := byteAt body 0
    let tells := fun i r => Leaves i s (v.tReply r)
    let bad := fun k => v.nvRead k = none
    -- READ
    (body.length = 3 →
      let n := byteAt body 2
      let i := Instr.read body
      (n = 0 ∨ 4 < n ∨ 1024 < b + n → tells i [1]) ∧
      (1 ≤ n → n ≤ 4 → b + n ≤ 1024 →
        ((∃ j, j < n ∧ bad (areaKey (v.areaOf (b + j)))) → tells i [6]) ∧
        ((∀ j, j < n → ¬bad (areaKey (v.areaOf (b + j)))) →
          ((∃ j, j < n ∧ v.areaShut (b + j) 0 = true) → tells i [2]) ∧
          ((∀ j, j < n → v.areaShut (b + j) 0 = false) →
            ((∃ j, j < n ∧ bad (blockKey (b + j))) → tells i [6]) ∧
            ((∀ j, j < n → ¬bad (blockKey (b + j))) → tells i ([0] ++ (List.range n).flatMap fun j => v.blockData (b + j))))))) ∧
    -- WRITE and LOCK_BLOCK
    (body.length = 18 →
      (∀ st, v.writeStop b = some st → tells (.write body) [st]) ∧
      (v.writeStop b = none → let x := v.fieldCommit (blockKey b) (body.drop 2) false
        Leaves (.write body) s (x.2.tReply [if x.1 then 0 else 6]))) ∧
    (body.length = 2 →
      (∀ st, v.writeStop b = some st → tells (.lockBlock body) [st]) ∧
      (v.writeStop b = none → let x := v.fieldCommit (blockKey b) (v.blockData b) true
        Leaves (.lockBlock body) s (x.2.tReply [if x.1 then 0 else 6]))) ∧
    -- AREA_INFO and READ_CNT
    (body.length = 1 →
      (v.areaCount ≤ a → tells (.areaInfo body) [1]) ∧
      (a < v.areaCount → bad (areaKey a) → tells (.areaInfo body) [6]) ∧
      (a < v.areaCount → ¬bad (areaKey a) → tells (.areaInfo body) ([0] ++ (v.area a).take 4
        ++ leBytes 1 (areaFlags (v.area a) % 4 + 4 * bit (areaLocked (v.area a)) + 8 * bit (v.areaOpen a)) ++ ((v.area a).drop 5).take 2)) ∧
      (16 ≤ a → tells (.readCnt body) [1]) ∧ (a < 16 → bad (counterKey a) → tells (.readCnt body) [6]) ∧
      (a < 16 → ∀ r, v.nvRead (counterKey a) = some r → tells (.readCnt body) ([0] ++ r.data.take 4 ++ leBytes 1 (v.tGuard a)))) ∧
    -- INC_CNT: checked against its guard, its sum below 2^32
    (body.length = 4 →
      let n := leAt body 2 2
      let i := Instr.incCnt body
      let req := 0x29 :: body
      (v.xpdr.keptReq = req → tells i v.xpdr.keptRsp) ∧
      (v.xpdr.keptReq ≠ req →
        let ends := fun (u : State) => Leaves i s (u.keeping req)
        (16 ≤ a ∨ n = 0 → ends (v.tReply [1])) ∧
        (a < 16 → n ≠ 0 →
          (v.tGuard a ≠ 0xFF → v.areaOpen (v.tGuard a) = false → ends (v.tReply [2])) ∧
          (v.tGuard a = 0xFF ∨ v.areaOpen (v.tGuard a) = true →
            (bad (counterKey a) → ends (v.tReply [6])) ∧
            (∀ r, v.nvRead (counterKey a) = some r →
              (2 ^ 32 ≤ r.value + n → ends (v.tReply [5])) ∧
              (r.value + n < 2 ^ 32 → let x := v.fieldCommit (counterKey a) (leBytes 4 (r.value + n) ++ r.data.drop 4) false
                ends (x.2.tReply (if x.1 then [0] ++ leBytes 4 (r.value + n) else [6])))))))) ∧
    -- AUTH_PWD and SET_PWD
    (body.length = 6 →
      (let i := Instr.authPwd body
       let req := 0x20 :: body
       (v.xpdr.keptReq = req → tells i v.xpdr.keptRsp) ∧
       (v.xpdr.keptReq ≠ req →
         (v.areaCount ≤ a → Leaves i s ((v.tReply [1]).keeping req)) ∧
         (a < v.areaCount → let x := v.password a 1 (body.drop 2)
           let y := x.2.attempts a
           Leaves i s ((y.2.tReply ([if x.1 = .ok then 0 else if x.1 = .wrong then 3 else if x.1 = .locked then 4 else 6]
             ++ leBytes 1 y.1)).keeping req)))) ∧
      (let i := Instr.setPwd body
       let req := 0x21 :: body
       (v.xpdr.keptReq = req → tells i v.xpdr.keptRsp) ∧
       (v.xpdr.keptReq ≠ req →
         let ends := fun (u : State) => Leaves i s (u.keeping req)
         (v.areaCount ≤ a → ends (v.tReply [1])) ∧
         (a < v.areaCount → bad (areaKey a) → ends (v.tReply [6])) ∧
         (a < v.areaCount → ¬bad (areaKey a) → v.areaOpen a = false → ends (v.tReply [2])) ∧
         (a < v.areaCount → ¬bad (areaKey a) → v.areaOpen a = true →
           let x := v.fieldCommit (areaKey a) ((v.area a).take 8 ++ body.drop 2) false
           ends (x.2.tReply [if x.1 then 0 else 6]))))) ∧
    -- GET_NONCE
    (body.length = 0 →
      (v.kilnGet KWSTAT.TRNG = 3 ∨ v.kilnGet KWSTAT.STATE = 2 → tells (.getNonce body) [6]) ∧
      (v.kilnGet KWSTAT.STATE ≠ 2 → v.kilnGet KWSTAT.TRNG ≠ 3 → ∃ n k e, n.length = 8 ∧
        (v.kilnGet KWSTAT.TRNG = 1 → e = v.xpdr.replyExt) ∧ (v.kilnGet KWSTAT.TRNG ≠ 1 → 1 ≤ e ∧ e ≤ 8) ∧
        Leaves (.getNonce body) s { v with free := k, xpdr := { v.xpdr with nonce := some n, replyExt := e, reply := [0] ++ n } }))) ∧
  -- what stops a WRITE or LOCK_BLOCK
  (∀ (s : State) (b : Nat),
    (1024 ≤ b → s.writeStop b = some 1) ∧
    (b < 1024 → s.nvRead (areaKey (s.areaOf b)) = none → s.writeStop b = some 6) ∧
    (b < 1024 → s.nvRead (areaKey (s.areaOf b)) ≠ none →
      (s.areaShut b 1 = true → s.writeStop b = some 2) ∧
      (s.areaShut b 1 = false →
        (s.nvRead (blockKey b) = none → s.writeStop b = some 6) ∧
        (∀ c, s.nvRead (blockKey b) = some c → s.writeStop b = if c.locked then some 2 else none)))) ∧
  -- a password attempt: counted before it is compared, the count cleared by success, lockout at LIMIT
  (∀ (s : State) (i proto : Nat) (pwd : List Byte),
    let d := s.area i
    let f := min 255 (areaFails d + 1)
    let p := s.password i proto pwd
    let put := fun (u : State) (fails : Nat) (lock : Bool) =>
      u.fieldCommit (areaKey i) ((u.area i).take 6 ++ leBytes 1 fails ++ leBytes 1 (bit lock) ++ (u.area i).drop 8) false
    let x := put s f false
    (s.nvRead (areaKey i) = none → p = (.memfail, s)) ∧
    (s.nvRead (areaKey i) ≠ none → areaLocked d = true → p = (.locked, s)) ∧
    (s.nvRead (areaKey i) ≠ none → areaLocked d = false →
      (x.1 = false → p = (.memfail, x.2)) ∧
      (x.1 = true → pwd = areaPwd d → let y := put x.2 0 false
        p = if y.1 then (.ok, { y.2 with xpdr := { y.2.xpdr with opens := i :: y.2.xpdr.opens.filter (· ≠ i) } }) else (.memfail, y.2)) ∧
      (x.1 = true → pwd ≠ areaPwd d → areaLimit d ≤ f → let y := put x.2 f true
        p = if y.1 then (.locked, y.2.enterLockout i proto) else (.memfail, y.2)) ∧
      (x.1 = true → pwd ≠ areaPwd d → f < areaLimit d → p = (.wrong, x.2)))) ∧
  (∀ (s : State) (i : Nat),
    (s.nvRead (areaKey i) = none → ∃ n k, n < 256 ∧ s.attempts i = (n, { s with free := k })) ∧
    (s.nvRead (areaKey i) ≠ none → s.attempts i = (if areaLocked (s.area i) then 0 else areaLimit (s.area i) - areaFails (s.area i), s)))

/-- UNLOCK checks its key, area and nonce, which is spent; a correct one clears FAILS and the lockout, and of the
opening's area arms T, its record first. With VSTORE charged the opening follows: its counter, its record, then
EMOPEN; where one cannot be committed the arming ends. The charge, the arming's expiry and the pulse's end move
XEOSTAT. (R159, R160, R263, R274, R275, R276, R277) -/
def Obligations.UnlocksArmAndOpenTheLatch : Prop :=
  -- UNLOCK
  (∀ (s : State) (body : List Byte), Hears s .aelyr body → body.length = 10 →
    let v := s.heard .aelyr true true
    v.xpdr.st = .active →
    let a := byteAt body 0
    let req := 0x23 :: body
    let ends := fun (u : State) => Leaves (.unlock body) s (u.keeping req)
    (v.xpdr.keptReq = req → Leaves (.unlock body) s (v.tReply v.xpdr.keptRsp)) ∧
    (v.xpdr.keptReq ≠ req →
      (v.unlockKey a = none → ends (v.tReply [2])) ∧
      (∀ key, v.unlockKey a = some key →
        (v.areaCount ≤ a → ends (v.tReply [1])) ∧
        (a < v.areaCount → v.nvRead (areaKey a) = none → ends (v.tReply [6])) ∧
        (a < v.areaCount → v.nvRead (areaKey a) ≠ none →
          (v.xpdr.nonce = none → ends (v.tReply [2])) ∧
          (∀ n, v.xpdr.nonce = some n →
            let u : State := { v with xpdr := { v.xpdr with nonce := none } }
            let good := padTo 8 (Config.aesCmac key ([0x23] ++ v.tUid ++ body.take 1 ++ n)) = body.drop 2
            (good → ends (u.unlockOk a)) ∧ (¬good → ends (u.tReply [3]))))))) ∧
  (∀ (s : State) (a : Nat),
    -- its key: the service key for the opening's area, else the admin key
    (s.eoEn = true → a = s.cfgByte 15 → s.unlockKey a = (s.keyFor (s.cfgByte 3) [1] 2).map (·.key)) ∧
    (s.eoEn = false ∨ a ≠ s.cfgByte 15 → s.unlockKey a = (s.keyFor (s.cfgByte 2) [1] 1).map (·.key)) ∧
    -- what a correct one does: it clears FAILS and lockout; of the opening's area it arms, its record first
    (let put := fun (u : State) => u.fieldCommit (areaKey a) ((u.area a).take 6 ++ [0, 0] ++ (u.area a).drop 8) false
     let clears := fun (u : State) (t : Bool × State) => t.1 = (put u).1 ∧
       t.2 = if (put u).1 = true ∧ areaLocked (u.area a) = true then (put u).2.lockoutRecord a (some 1) (some 1) (some 1) (some 0xFF) else (put u).2
     let arms := s.eoEn = true ∧ a = s.cfgByte 15 ∧ s.xget XEOSTAT.FIRING = 0
     let r := s.ashCommit { type := 0x0051, source := 8, flags := s.ashFlags, time := s.ashTime, data := s.tUid ++ leBytes 1 a ++ leBytes 1 (s.xget XSTAT.SUPPLY) }
     (¬arms → ∃ t, clears s t ∧ s.unlockOk a = t.2.tReply [if t.1 then 0 else 6]) ∧
     (arms → ¬MayCommit s → s.unlockOk a = s.tReply [6]) ∧
     (arms → MayCommit s → ∃ t, clears r t ∧ s.unlockOk a = if t.1 then t.2.eoArm.tReply [0] else t.2.tReply [6])) ∧
    -- the arming: VTH, PULSE and the counter are latched; the opening follows at once where VSTORE is charged
    (let u : State := { s with xpdr := { s.xpdr with
       eoVth := 200 + 5 * min 50 (s.cfgByte 17), eoPulse := max 1 (min 100 (s.cfgByte 18)),
       eoCnt := if s.eoCntEn then some (s.cfgByte 16) else none } }
     let w := u.xset XEOSTAT.ARMED 1
     (u.xpdr.eoVth ≤ s.xget XEOSTAT.VSTORE → s.eoArm = w.eoOpen) ∧
     (s.xget XEOSTAT.VSTORE < u.xpdr.eoVth → s.eoArm = w.xset XEOSTAT.CHARGING 1)) ∧
    -- the opening: its counter first, then its record, then EMOPEN
    (s.xpdr.eoCnt = none → ∃ value cnt k, value < 2 ^ 32 ∧ cnt < 256 ∧ ({ s with free := k } : State).openedWith value cnt s.eoOpen) ∧
    (s.xpdr.eoCnt = some a → s.nvRead (counterKey a) = none → s.eoOpen = s.eoDisarm) ∧
    (s.xpdr.eoCnt = some a → ∀ r, s.nvRead (counterKey a) = some r →
      let x := s.fieldCommit (counterKey a) (leBytes 4 (r.value + 1) ++ r.data.drop 4) false
      (2 ^ 32 ≤ r.value + 1 → s.eoOpen = s.eoDisarm) ∧
      (r.value + 1 < 2 ^ 32 → x.1 = false → s.eoOpen = x.2.eoDisarm) ∧
      (r.value + 1 < 2 ^ 32 → x.1 = true → x.2.openedWith (r.value + 1) a s.eoOpen)) ∧
    s.eoDisarm = (s.xset XEOSTAT.ARMED 0).xset XEOSTAT.CHARGING 0) ∧
  -- the charge reached, the arming's end, the pulse's end
  (∀ (s : State) (vs : BitVec 10),
    let go := s.xget XEOSTAT.ARMED = 1 ∧ s.xget XSTAT.FIELD = 1 ∧ s.xpdr.eoVth ≤ vs.toNat
    (go → Leaves (.eoVthReached vs) s (s.xset XEOSTAT.VSTORE vs.toNat).eoOpen) ∧
    (¬go → s.raised = [] → exec (.eoVthReached vs) s = .next s) ∧
    (s.raised = [] → s.xget XEOSTAT.ARMED = 0 → exec .eoArmExpiry s = .next s) ∧
    (s.raised = [] → s.xget XEOSTAT.ARMED ≠ 0 → s.ashMay = false → exec .eoArmExpiry s = .next s.eoDisarm) ∧
    (s.raised = [] → s.xget XEOSTAT.ARMED ≠ 0 → s.ashMay = true →
      exec .eoArmExpiry s = .next (s.eoDisarm.ash 0x0053 8 (leBytes 2 (s.xget XEOSTAT.VSTORE)))) ∧
    (s.raised = [] → s.xget XEOSTAT.FIRING = 1 →
      exec (.emopenPulseEnd vs) s = .next ((s.xset XEOSTAT.VSTORE vs.toNat).xset XEOSTAT.FIRING 0)) ∧
    (s.raised = [] → s.xget XEOSTAT.FIRING ≠ 1 → exec (.emopenPulseEnd vs) s = .next s))

/-- DB_BEGIN draws a free nonce and derives the answer bits; the sync starts the phase; each challenge is answered by
itself XOR the next answer bit and recorded; DB_END returns the recorded challenges with their MAC; DB_ARMED ends as
R166 says. With distance bounding off both commands are UNSUPPORTED. (R162, R163, R164, R165, R166, R167) -/
def Obligations.TheTagAnswersTheRapidPhase : Prop :=
  -- DB_BEGIN and DB_END
  (∀ (s : State) (body : List Byte), Hears s .aelyr body →
    let v := s.heard .aelyr true true
    (s.tDb = false → ∀ i, i = .dbBegin body ∨ i = .dbEnd body →
      (v.xpdr.st = .active → Leaves i s (v.tReply [7])) ∧ (v.xpdr.st ≠ .active → Leaves i s v.tQuiet)) ∧
    (s.tDb = true →
      (∀ i n, i = .dbBegin body ∧ n = 9 ∨ i = .dbEnd body ∧ n = 0 →
        let w := s.heard .aelyr (body.length == n) true
        (w.xpdr.st ≠ .active → Leaves i s w.tQuiet) ∧ (w.xpdr.st = .active → body.length ≠ n → Leaves i s (w.tReply [1]))) ∧
      (v.xpdr.st = .active → body.length = 9 →
        let n := byteAt body 0
        let i := Instr.dbBegin body
        let nr := body.drop 1
        (n < 16 ∨ 64 < n → Leaves i s (v.tReply [1])) ∧
        (16 ≤ n → n ≤ 64 →
          (v.kilnGet KWSTAT.TRNG = 3 ∨ v.kilnGet KWSTAT.STATE = 2 → Leaves i s (v.tReply [6])) ∧
          (v.kilnGet KWSTAT.STATE ≠ 2 → v.kilnGet KWSTAT.TRNG ≠ 3 → ∃ nt k e, nt.length = 8 ∧
            (v.kilnGet KWSTAT.TRNG = 1 → e = v.xpdr.replyExt) ∧ (v.kilnGet KWSTAT.TRNG ≠ 1 → 1 ≤ e ∧ e ≤ 8) ∧
            Leaves i s { v with free := k, xpdr := { v.xpdr with
              dbArmed := true, dbSync := false, dbN := n, nr := nr, nt := nt, crx := [], replyExt := e, reply := [0] ++ nt,
              a := Config.aes128 (v.tDbKey.getD []) (nr ++ nt) } }))) ∧
      (v.xpdr.st = .active → body.length = 0 →
        let x := v.xpdr
        (x.dbArmed = false → Leaves (.dbEnd body) s (v.tReply [1])) ∧
        (x.dbArmed = true → Leaves (.dbEnd body) s (v.tReply ([0] ++ crxBytes x.crx
          ++ padTo 8 (Config.aesCmac (v.tDbKey.getD []) (x.nr ++ x.nt ++ leBytes 1 x.dbN ++ crxBytes x.crx)))))))) ∧
  -- the sync, the challenges, the end of DB_ARMED
  (∀ (s : State), s.raised = [] →
    let x := s.xpdr
    let q := s.tQuiet
    (∀ pilot, x.dbArmed = false → exec (.rapidSync pilot) s = .next q) ∧
    (∀ pilot, x.dbArmed = true → x.dbSync = true → exec (.rapidSync pilot) s =
      .next { q with xpdr := { q.xpdr with dbArmed := decide (x.crx.length = x.dbN) } }) ∧
    (x.dbArmed = true → x.dbSync = false → exec (.rapidSync true) s = .next { q with xpdr := { q.xpdr with dbSync := true } }) ∧
    (x.dbArmed = true → x.dbSync = false → ∃ keep k, exec (.rapidSync false) s =
      .next { q with free := k, xpdr := { q.xpdr with dbArmed := keep } }) ∧
    (∀ c, x.dbArmed = true → x.dbSync = true → x.crx.length < x.dbN →
      let ai := (x.a.getD (x.crx.length / 8) 0).getLsbD (x.crx.length % 8)
      exec (.rapidAnswer c) s = .next { q with xpdr := { q.xpdr with crx := x.crx ++ [c], burst := some (xor c ai) } }) ∧
    (∀ c, x.dbArmed = false ∨ x.dbSync = false ∨ x.dbN ≤ x.crx.length → exec (.rapidAnswer c) s = .next q) ∧
    (x.dbArmed = true → x.dbSync = false → exec .dbArmedTimeout s = .next { s with xpdr := { x with dbArmed := false } }) ∧
    (x.dbArmed = false ∨ x.dbSync = true → exec .dbArmedTimeout s = .next s))

/-- Each Osgil command reads or commits the quarter of the block that its page maps to, or answers its NAK; pages 16-63
and every write need SECURED; LOGIN checks area 1's password. A wrong length or an unknown code is answered or not,
free, since no rule says. (R168, R169, R170, R172) -/
def Obligations.OsgilFramesReachBlocksAndAreaOne : Prop :=
  (∀ (s : State) (body : List Byte), Hears s .osgil body →
    let v := s.heard .osgil true true
    let p := byteAt body 0
    let k := 4 * (p % 4)
    let bad := fun n => v.nvRead n = none
    let d := v.blockData (p / 4)
    let answers := fun i r => Leaves i s (v.tReply r)
    let ends := fun i (x : Bool × State) => Leaves i s (x.2.tReply [if x.1 then 0 else 0x0A])
    -- a wrong length and a code that T does not know: no answer or a status, free
    (∀ i n, (i = .getId body ∨ i = .logout body) ∧ n = 0 ∨ (i = .readPage body ∨ i = .lockPage body) ∧ n = 1 ∨
        (i = .login body ∨ i = .setPassword body) ∧ n = 4 ∨ i = .writePage body ∧ n = 5 → body.length ≠ n →
      let w := s.heard .osgil false true
      ∃ (yes : Bool) (st f : Nat), st < 256 ∧ Leaves i s { w with free := f, xpdr := { w.xpdr with reply := if yes then leBytes 1 st else w.xpdr.reply } }) ∧
    (∀ code, let w := s.heard .osgil false false
      ∃ (yes : Bool) (st f : Nat), st < 256 ∧ Leaves (.unknownCode .osgil code body) s
        { w with free := f, xpdr := { w.xpdr with reply := if yes then leBytes 1 st else w.xpdr.reply } }) ∧
    (body.length = 0 →
      answers (.getId body) (v.tUid.take 5) ∧
      (v.xpdr.st = .secured → Leaves (.logout body) s
        (({ v with xpdr := { v.xpdr with opens := v.xpdr.opens.filter (· ≠ 1), st := .opened } } : State).tReply [0])) ∧
      (v.xpdr.st ≠ .secured → answers (.logout body) [0x0A])) ∧
    (body.length = 1 →
      (63 < p → answers (.readPage body) [0x0B]) ∧
      (16 ≤ p → p ≤ 63 → v.xpdr.st ≠ .secured → answers (.readPage body) [0x0A]) ∧
      (p ≤ 63 → v.blockFault (p / 4) = true → answers (.readPage body) [0x0A]) ∧
      (p < 16 ∨ p ≤ 63 ∧ v.xpdr.st = .secured → v.blockFault (p / 4) = false →
        answers (.readPage body) ([0] ++ (d.drop k).take 4)) ∧
      (∀ st, v.pageStop p = some st → answers (.lockPage body) [st]) ∧
      (v.pageStop p = none → ends (.lockPage body) (v.fieldCommit (blockKey (p / 4)) d true))) ∧
    (body.length = 5 →
      (∀ st, v.pageStop p = some st → answers (.writePage body) [st]) ∧
      (v.pageStop p = none → ends (.writePage body)
        (v.fieldCommit (blockKey (p / 4)) (d.take k ++ body.drop 1 ++ d.drop (k + 4)) false))) ∧
    -- the password is area 1's
    (body.length = 4 →
      (let x := v.password 1 2 body
       (x.1 = .ok → Leaves (.login body) s ((x.2.tGo .secured).tReply [0])) ∧
       (x.1 = .wrong → Leaves (.login body) s (x.2.tReply [0x0D])) ∧
       (x.1 = .locked → Leaves (.login body) s (x.2.tReply [0x0C])) ∧
       (x.1 = .memfail → Leaves (.login body) s (x.2.tReply [0x0A]))) ∧
      (v.xpdr.st ≠ .secured ∨ bad (areaKey 1) → answers (.setPassword body) [0x0A]) ∧
      (v.xpdr.st = .secured → ¬bad (areaKey 1) →
        ends (.setPassword body) (v.fieldCommit (areaKey 1) ((v.area 1).take 8 ++ body) false)))) ∧
  -- what stops a page command
  (∀ (s : State) (p : Nat),
    (63 < p → s.pageStop p = some 0x0B) ∧
    (p ≤ 63 → p < 2 ∨ s.xpdr.st ≠ .secured ∨ s.nvRead (blockKey (p / 4)) = none → s.pageStop p = some 0x0A) ∧
    (2 ≤ p → p ≤ 63 → s.xpdr.st = .secured → ∀ c, s.nvRead (blockKey (p / 4)) = some c →
      s.pageStop p = if c.locked then some 0x0A else none))
end

