-- ==== Sys2Proof/Laws/Sparse.lean ====
section
/-! SUPPORT. Memories and register files: a write keeps the canonical form, reads back at its key, and leaves every
other key. -/

namespace Sys2Proof.Machine

variable {α : Type} [DecidableEq α] (d : Nat → α)

/-- Every key of a list lies above a number. -/
def Sparse.above (k : Nat) (c : List (Nat × α)) : Prop := ∀ x ∈ c, k < x.1

theorem Sparse.wf_cons (a : Nat) (v : α) (c : List (Nat × α)) :
    Sparse.wf d ((a, v) :: c) = true ↔ v ≠ d a ∧ Sparse.above a c ∧ Sparse.wf d c = true := by
  induction c generalizing a v with
  | nil => simp [Sparse.wf, Sparse.above]
  | cons x c ih =>
    obtain ⟨b, w⟩ := x
    have h := ih b w
    simp only [Sparse.wf, Bool.and_eq_true, decide_eq_true_eq]
    constructor
    · rintro ⟨⟨hv, hab⟩, hw⟩
      refine ⟨hv, ?_, hw⟩
      intro y hy
      rcases List.mem_cons.1 hy with rfl | hy
      · exact hab
      · exact Nat.lt_trans hab ((h.1 hw).2.1 y hy)
    · rintro ⟨hv, ha, hw⟩
      exact ⟨⟨hv, ha (b, w) (List.mem_cons_self ..)⟩, hw⟩

omit [DecidableEq α] in
theorem Sparse.above_put (k a : Nat) (v : α) (c : List (Nat × α)) (h : Sparse.above k c) (hk : k < a) :
    Sparse.above k (Sparse.put c a v) := by
  induction c with
  | nil => intro x hx; simp [Sparse.put] at hx; subst hx; exact hk
  | cons y c ih =>
    obtain ⟨b, w⟩ := y
    have hc : Sparse.above k c := fun x hx => h x (List.mem_cons_of_mem _ hx)
    have hb : k < b := h (b, w) (List.mem_cons_self ..)
    unfold Sparse.put
    split
    · intro x hx; rcases List.mem_cons.1 hx with rfl | hx
      · exact hk
      · exact h x hx
    · split
      · intro x hx; rcases List.mem_cons.1 hx with rfl | hx
        · exact hk
        · exact hc x hx
      · intro x hx; rcases List.mem_cons.1 hx with rfl | hx
        · exact hb
        · exact ih hc x hx

omit [DecidableEq α] in
theorem Sparse.above_del (k a : Nat) (c : List (Nat × α)) (h : Sparse.above k c) : Sparse.above k (Sparse.del c a) := by
  induction c with
  | nil => exact h
  | cons y c ih =>
    obtain ⟨b, w⟩ := y
    have hc : Sparse.above k c := fun x hx => h x (List.mem_cons_of_mem _ hx)
    unfold Sparse.del
    split
    · exact ih hc
    · intro x hx; rcases List.mem_cons.1 hx with rfl | hx
      · exact h (b, w) (List.mem_cons_self ..)
      · exact ih hc x hx

/-- A write keeps the canonical form. -/
theorem Sparse.wf_set (c : List (Nat × α)) (k : Nat) (v : α) (h : Sparse.wf d c = true) :
    Sparse.wf d (Sparse.set d c k v) = true := by
  unfold Sparse.set
  split
  · rename_i hv
    induction c with
    | nil => exact h
    | cons y c ih =>
      obtain ⟨b, w⟩ := y
      obtain ⟨h1, h2, h3⟩ := (Sparse.wf_cons d b w c).1 h
      unfold Sparse.del
      split
      · exact ih h3
      · exact (Sparse.wf_cons d b w _).2 ⟨h1, Sparse.above_del b k c h2, ih h3⟩
  · rename_i hv
    induction c with
    | nil => simpa [Sparse.put, Sparse.wf] using hv
    | cons y c ih =>
      obtain ⟨b, w⟩ := y
      obtain ⟨h1, h2, h3⟩ := (Sparse.wf_cons d b w c).1 h
      unfold Sparse.put
      split
      · rename_i hb
        refine (Sparse.wf_cons d k v _).2 ⟨hv, ?_, h⟩
        intro x hx; rcases List.mem_cons.1 hx with rfl | hx
        · exact hb
        · exact Nat.lt_trans hb (h2 x hx)
      · split
        · rename_i hk; subst hk; exact (Sparse.wf_cons d k v c).2 ⟨hv, h2, h3⟩
        · refine (Sparse.wf_cons d b w _).2 ⟨h1, Sparse.above_put b k v c h2 (by omega), ih h3⟩

omit [DecidableEq α] in
theorem Sparse.find_del (c : List (Nat × α)) (k j : Nat) :
    Sparse.find (Sparse.del c k) j = if j = k then none else Sparse.find c j := by
  induction c with
  | nil => simp [Sparse.del, Sparse.find]
  | cons y c ih =>
    obtain ⟨b, w⟩ := y
    by_cases hb : b = k <;> by_cases hj : j = k <;> by_cases h : b = j <;> simp_all [Sparse.del, Sparse.find]

omit [DecidableEq α] in
theorem Sparse.find_put (c : List (Nat × α)) (k j : Nat) (v : α) :
    Sparse.find (Sparse.put c k v) j = if j = k then some v else Sparse.find c j := by
  induction c with
  | nil => simp [Sparse.put, Sparse.find, eq_comm]
  | cons y c ih =>
    obtain ⟨b, w⟩ := y
    unfold Sparse.put
    split
    · by_cases h : k = j
      · simp [Sparse.find, h]
      · have : ¬ j = k := fun e => h e.symm
        simp [Sparse.find, h, this]
    · split
      · rename_i h1 h2; subst h2
        by_cases h : k = j
        · simp [Sparse.find, h]
        · have : ¬ j = k := fun e => h e.symm
          simp [Sparse.find, h, this]
      · by_cases h : b = j
        · subst h; rename_i h1 h2; have : ¬ b = k := fun e => h2 e.symm
          simp [Sparse.find, this]
        · simp [Sparse.find, h, ih]

/-- A write reads back. -/
@[simp] theorem Sparse.get_set (c : List (Nat × α)) (k : Nat) (v : α) : Sparse.get d (Sparse.set d c k v) k = v := by
  unfold Sparse.get Sparse.set
  split
  · rename_i h; simp [Sparse.find_del, h]
  · simp [Sparse.find_put]

/-- A write leaves every other key. -/
@[simp] theorem Sparse.get_set_ne (c : List (Nat × α)) (k j : Nat) (v : α) (h : j ≠ k) :
    Sparse.get d (Sparse.set d c k v) j = Sparse.get d c j := by
  unfold Sparse.get Sparse.set
  split <;> simp [Sparse.find_del, Sparse.find_put, h]

/-! ## Byte memories -/

theorem Mem.wf_nil : Mem.wf [] = true := rfl

/-- Writing a byte keeps the canonical form. -/
theorem Mem.wf_write (m : Mem) (a : Nat) (b : Byte) (h : Mem.wf m = true) : Mem.wf (m.write a b) = true :=
  Sparse.wf_set Mem.dflt m a b h

@[simp] theorem Mem.read_write (m : Mem) (a : Nat) (b : Byte) : (m.write a b).read a = b := Sparse.get_set ..

@[simp] theorem Mem.read_write_ne (m : Mem) (a c : Nat) (b : Byte) (h : c ≠ a) : (m.write a b).read c = m.read c :=
  Sparse.get_set_ne _ _ _ _ _ h

/-- Writing bytes keeps the canonical form. -/
theorem Mem.wf_putBytes (m : Mem) (a : Nat) (l : List Byte) (h : Mem.wf m = true) : Mem.wf (m.putBytes a l) = true := by
  induction l generalizing m a with
  | nil => exact h
  | cons b r ih => exact ih _ _ (Mem.wf_write m a b h)

/-- Writing a word keeps the canonical form. -/
theorem Mem.wf_putWord (m : Mem) (a : Nat) (w : Word) (h : Mem.wf m = true) : Mem.wf (m.putWord a w) = true :=
  Mem.wf_putBytes m a _ h

/-- Bytes outside those written are left. -/
theorem Mem.read_putBytes_out (m : Mem) (a c : Nat) (l : List Byte) (h : c < a ∨ a + l.length ≤ c) :
    (m.putBytes a l).read c = m.read c := by
  induction l generalizing m a with
  | nil => rfl
  | cons b r ih =>
    simp only [List.length_cons] at h
    rw [Mem.putBytes, ih _ _ (by omega), Mem.read_write_ne _ _ _ _ (by omega)]

/-- Bytes written read back. -/
theorem Mem.bytes_putBytes (m : Mem) (a : Nat) (l : List Byte) : (m.putBytes a l).bytes a l.length = l := by
  induction l generalizing m a with
  | nil => rfl
  | cons b r ih =>
    simp only [List.length_cons, Mem.bytes, Mem.putBytes, ih]
    rw [Mem.read_putBytes_out _ _ _ _ (by omega), Mem.read_write]

/-! ## Register blocks -/

/-- A write keeps a block's canonical form. -/
theorem Cells.wf_put (b : Block) (c : Cells) (off : Nat) (w : Word) (h : Sparse.wf (resetWord b) c = true) :
    Sparse.wf (resetWord b) (Cells.put b c off w) = true := Sparse.wf_set _ c off w h

@[simp] theorem Cells.word_put (b : Block) (c : Cells) (off : Nat) (w : Word) : Cells.word b (Cells.put b c off w) off = w :=
  Sparse.get_set ..

@[simp] theorem Cells.word_put_ne (b : Block) (c : Cells) (off o : Nat) (w : Word) (h : o ≠ off) :
    Cells.word b (Cells.put b c off w) o = Cells.word b c o := Sparse.get_set_ne _ _ _ _ _ h

end Sys2Proof.Machine
end

