-- ==== Sys2Proof/Laws/State.lean ====
section
/-! SUPPORT. One lemma per field per update of the state, so that no proof unfolds a record update. -/

namespace Sys2Proof.Machine

/-! State.setPort changes `ports` alone. -/

@[simp] theorem State.setPort_pending (s : State) (p : PortNum) (q : Port) : (s.setPort p q).pending = s.pending := rfl
@[simp] theorem State.setPort_raised (s : State) (p : PortNum) (q : Port) : (s.setPort p q).raised = s.raised := rfl
@[simp] theorem State.setPort_free (s : State) (p : PortNum) (q : Port) : (s.setPort p q).free = s.free := rfl
@[simp] theorem State.setPort_gtmr (s : State) (p : PortNum) (q : Port) : (s.setPort p q).gtmr = s.gtmr := rfl
@[simp] theorem State.setPort_hosts (s : State) (p : PortNum) (q : Port) : (s.setPort p q).hosts = s.hosts := rfl
@[simp] theorem State.setPort_owner (s : State) (p : PortNum) (q : Port) : (s.setPort p q).owner = s.owner := rfl
@[simp] theorem State.setPort_devOwn (s : State) (p : PortNum) (q : Port) : (s.setPort p q).devOwn = s.devOwn := rfl
@[simp] theorem State.setPort_running (s : State) (p : PortNum) (q : Port) : (s.setPort p q).running = s.running := rfl
@[simp] theorem State.setPort_coord (s : State) (p : PortNum) (q : Port) : (s.setPort p q).coord = s.coord := rfl
@[simp] theorem State.setPort_table (s : State) (p : PortNum) (q : Port) : (s.setPort p q).table = s.table := rfl
@[simp] theorem State.setPort_ttGen (s : State) (p : PortNum) (q : Port) : (s.setPort p q).ttGen = s.ttGen := rfl
@[simp] theorem State.setPort_ttFullPolicy (s : State) (p : PortNum) (q : Port) : (s.setPort p q).ttFullPolicy = s.ttFullPolicy := rfl
@[simp] theorem State.setPort_ttCensusEvents (s : State) (p : PortNum) (q : Port) : (s.setPort p q).ttCensusEvents = s.ttCensusEvents := rfl
@[simp] theorem State.setPort_cal (s : State) (p : PortNum) (q : Port) : (s.setPort p q).cal = s.cal := rfl
@[simp] theorem State.setPort_xchkPend (s : State) (p : PortNum) (q : Port) : (s.setPort p q).xchkPend = s.xchkPend := rfl
@[simp] theorem State.setPort_calDue (s : State) (p : PortNum) (q : Port) : (s.setPort p q).calDue = s.calDue := rfl
@[simp] theorem State.setPort_trims (s : State) (p : PortNum) (q : Port) : (s.setPort p q).trims = s.trims := rfl
@[simp] theorem State.setPort_staged (s : State) (p : PortNum) (q : Port) : (s.setPort p q).staged = s.staged := rfl
@[simp] theorem State.setPort_imports (s : State) (p : PortNum) (q : Port) : (s.setPort p q).imports = s.imports := rfl
@[simp] theorem State.setPort_pcr (s : State) (p : PortNum) (q : Port) : (s.setPort p q).pcr = s.pcr := rfl
@[simp] theorem State.setPort_aon (s : State) (p : PortNum) (q : Port) : (s.setPort p q).aon = s.aon := rfl
@[simp] theorem State.setPort_kiln (s : State) (p : PortNum) (q : Port) : (s.setPort p q).kiln = s.kiln := rfl
@[simp] theorem State.setPort_xpdr (s : State) (p : PortNum) (q : Port) : (s.setPort p q).xpdr = s.xpdr := rfl
@[simp] theorem State.setPort_dev (s : State) (p : PortNum) (q : Port) : (s.setPort p q).dev = s.dev := rfl
@[simp] theorem State.setPort_flash (s : State) (p : PortNum) (q : Port) : (s.setPort p q).flash = s.flash := rfl
@[simp] theorem State.setPort_flashState (s : State) (p : PortNum) (q : Port) : (s.setPort p q).flashState = s.flashState := rfl
@[simp] theorem State.setPort_sram (s : State) (p : PortNum) (q : Port) : (s.setPort p q).sram = s.sram := rfl
@[simp] theorem State.setPort_spill (s : State) (p : PortNum) (q : Port) : (s.setPort p q).spill = s.spill := rfl

/-! State.modPort changes `ports` alone. -/

@[simp] theorem State.modPort_pending (s : State) (p : PortNum) (f : Port → Port) : (s.modPort p f).pending = s.pending := rfl
@[simp] theorem State.modPort_raised (s : State) (p : PortNum) (f : Port → Port) : (s.modPort p f).raised = s.raised := rfl
@[simp] theorem State.modPort_free (s : State) (p : PortNum) (f : Port → Port) : (s.modPort p f).free = s.free := rfl
@[simp] theorem State.modPort_gtmr (s : State) (p : PortNum) (f : Port → Port) : (s.modPort p f).gtmr = s.gtmr := rfl
@[simp] theorem State.modPort_hosts (s : State) (p : PortNum) (f : Port → Port) : (s.modPort p f).hosts = s.hosts := rfl
@[simp] theorem State.modPort_owner (s : State) (p : PortNum) (f : Port → Port) : (s.modPort p f).owner = s.owner := rfl
@[simp] theorem State.modPort_devOwn (s : State) (p : PortNum) (f : Port → Port) : (s.modPort p f).devOwn = s.devOwn := rfl
@[simp] theorem State.modPort_running (s : State) (p : PortNum) (f : Port → Port) : (s.modPort p f).running = s.running := rfl
@[simp] theorem State.modPort_coord (s : State) (p : PortNum) (f : Port → Port) : (s.modPort p f).coord = s.coord := rfl
@[simp] theorem State.modPort_table (s : State) (p : PortNum) (f : Port → Port) : (s.modPort p f).table = s.table := rfl
@[simp] theorem State.modPort_ttGen (s : State) (p : PortNum) (f : Port → Port) : (s.modPort p f).ttGen = s.ttGen := rfl
@[simp] theorem State.modPort_ttFullPolicy (s : State) (p : PortNum) (f : Port → Port) : (s.modPort p f).ttFullPolicy = s.ttFullPolicy := rfl
@[simp] theorem State.modPort_ttCensusEvents (s : State) (p : PortNum) (f : Port → Port) : (s.modPort p f).ttCensusEvents = s.ttCensusEvents := rfl
@[simp] theorem State.modPort_cal (s : State) (p : PortNum) (f : Port → Port) : (s.modPort p f).cal = s.cal := rfl
@[simp] theorem State.modPort_xchkPend (s : State) (p : PortNum) (f : Port → Port) : (s.modPort p f).xchkPend = s.xchkPend := rfl
@[simp] theorem State.modPort_calDue (s : State) (p : PortNum) (f : Port → Port) : (s.modPort p f).calDue = s.calDue := rfl
@[simp] theorem State.modPort_trims (s : State) (p : PortNum) (f : Port → Port) : (s.modPort p f).trims = s.trims := rfl
@[simp] theorem State.modPort_staged (s : State) (p : PortNum) (f : Port → Port) : (s.modPort p f).staged = s.staged := rfl
@[simp] theorem State.modPort_imports (s : State) (p : PortNum) (f : Port → Port) : (s.modPort p f).imports = s.imports := rfl
@[simp] theorem State.modPort_pcr (s : State) (p : PortNum) (f : Port → Port) : (s.modPort p f).pcr = s.pcr := rfl
@[simp] theorem State.modPort_aon (s : State) (p : PortNum) (f : Port → Port) : (s.modPort p f).aon = s.aon := rfl
@[simp] theorem State.modPort_kiln (s : State) (p : PortNum) (f : Port → Port) : (s.modPort p f).kiln = s.kiln := rfl
@[simp] theorem State.modPort_xpdr (s : State) (p : PortNum) (f : Port → Port) : (s.modPort p f).xpdr = s.xpdr := rfl
@[simp] theorem State.modPort_dev (s : State) (p : PortNum) (f : Port → Port) : (s.modPort p f).dev = s.dev := rfl
@[simp] theorem State.modPort_flash (s : State) (p : PortNum) (f : Port → Port) : (s.modPort p f).flash = s.flash := rfl
@[simp] theorem State.modPort_flashState (s : State) (p : PortNum) (f : Port → Port) : (s.modPort p f).flashState = s.flashState := rfl
@[simp] theorem State.modPort_sram (s : State) (p : PortNum) (f : Port → Port) : (s.modPort p f).sram = s.sram := rfl
@[simp] theorem State.modPort_spill (s : State) (p : PortNum) (f : Port → Port) : (s.modPort p f).spill = s.spill := rfl

/-! State.pset changes `ports` alone. -/

@[simp] theorem State.pset_pending (s : State) (p : PortNum) (f : Fld) (v : Nat) : (s.pset p f v).pending = s.pending := rfl
@[simp] theorem State.pset_raised (s : State) (p : PortNum) (f : Fld) (v : Nat) : (s.pset p f v).raised = s.raised := rfl
@[simp] theorem State.pset_free (s : State) (p : PortNum) (f : Fld) (v : Nat) : (s.pset p f v).free = s.free := rfl
@[simp] theorem State.pset_gtmr (s : State) (p : PortNum) (f : Fld) (v : Nat) : (s.pset p f v).gtmr = s.gtmr := rfl
@[simp] theorem State.pset_hosts (s : State) (p : PortNum) (f : Fld) (v : Nat) : (s.pset p f v).hosts = s.hosts := rfl
@[simp] theorem State.pset_owner (s : State) (p : PortNum) (f : Fld) (v : Nat) : (s.pset p f v).owner = s.owner := rfl
@[simp] theorem State.pset_devOwn (s : State) (p : PortNum) (f : Fld) (v : Nat) : (s.pset p f v).devOwn = s.devOwn := rfl
@[simp] theorem State.pset_running (s : State) (p : PortNum) (f : Fld) (v : Nat) : (s.pset p f v).running = s.running := rfl
@[simp] theorem State.pset_coord (s : State) (p : PortNum) (f : Fld) (v : Nat) : (s.pset p f v).coord = s.coord := rfl
@[simp] theorem State.pset_table (s : State) (p : PortNum) (f : Fld) (v : Nat) : (s.pset p f v).table = s.table := rfl
@[simp] theorem State.pset_ttGen (s : State) (p : PortNum) (f : Fld) (v : Nat) : (s.pset p f v).ttGen = s.ttGen := rfl
@[simp] theorem State.pset_ttFullPolicy (s : State) (p : PortNum) (f : Fld) (v : Nat) : (s.pset p f v).ttFullPolicy = s.ttFullPolicy := rfl
@[simp] theorem State.pset_ttCensusEvents (s : State) (p : PortNum) (f : Fld) (v : Nat) : (s.pset p f v).ttCensusEvents = s.ttCensusEvents := rfl
@[simp] theorem State.pset_cal (s : State) (p : PortNum) (f : Fld) (v : Nat) : (s.pset p f v).cal = s.cal := rfl
@[simp] theorem State.pset_xchkPend (s : State) (p : PortNum) (f : Fld) (v : Nat) : (s.pset p f v).xchkPend = s.xchkPend := rfl
@[simp] theorem State.pset_calDue (s : State) (p : PortNum) (f : Fld) (v : Nat) : (s.pset p f v).calDue = s.calDue := rfl
@[simp] theorem State.pset_trims (s : State) (p : PortNum) (f : Fld) (v : Nat) : (s.pset p f v).trims = s.trims := rfl
@[simp] theorem State.pset_staged (s : State) (p : PortNum) (f : Fld) (v : Nat) : (s.pset p f v).staged = s.staged := rfl
@[simp] theorem State.pset_imports (s : State) (p : PortNum) (f : Fld) (v : Nat) : (s.pset p f v).imports = s.imports := rfl
@[simp] theorem State.pset_pcr (s : State) (p : PortNum) (f : Fld) (v : Nat) : (s.pset p f v).pcr = s.pcr := rfl
@[simp] theorem State.pset_aon (s : State) (p : PortNum) (f : Fld) (v : Nat) : (s.pset p f v).aon = s.aon := rfl
@[simp] theorem State.pset_kiln (s : State) (p : PortNum) (f : Fld) (v : Nat) : (s.pset p f v).kiln = s.kiln := rfl
@[simp] theorem State.pset_xpdr (s : State) (p : PortNum) (f : Fld) (v : Nat) : (s.pset p f v).xpdr = s.xpdr := rfl
@[simp] theorem State.pset_dev (s : State) (p : PortNum) (f : Fld) (v : Nat) : (s.pset p f v).dev = s.dev := rfl
@[simp] theorem State.pset_flash (s : State) (p : PortNum) (f : Fld) (v : Nat) : (s.pset p f v).flash = s.flash := rfl
@[simp] theorem State.pset_flashState (s : State) (p : PortNum) (f : Fld) (v : Nat) : (s.pset p f v).flashState = s.flashState := rfl
@[simp] theorem State.pset_sram (s : State) (p : PortNum) (f : Fld) (v : Nat) : (s.pset p f v).sram = s.sram := rfl
@[simp] theorem State.pset_spill (s : State) (p : PortNum) (f : Fld) (v : Nat) : (s.pset p f v).spill = s.spill := rfl

/-! State.modSvc changes `ports` alone. -/

@[simp] theorem State.modSvc_pending (s : State) (p : PortNum) (f : PortSvc → PortSvc) : (s.modSvc p f).pending = s.pending := rfl
@[simp] theorem State.modSvc_raised (s : State) (p : PortNum) (f : PortSvc → PortSvc) : (s.modSvc p f).raised = s.raised := rfl
@[simp] theorem State.modSvc_free (s : State) (p : PortNum) (f : PortSvc → PortSvc) : (s.modSvc p f).free = s.free := rfl
@[simp] theorem State.modSvc_gtmr (s : State) (p : PortNum) (f : PortSvc → PortSvc) : (s.modSvc p f).gtmr = s.gtmr := rfl
@[simp] theorem State.modSvc_hosts (s : State) (p : PortNum) (f : PortSvc → PortSvc) : (s.modSvc p f).hosts = s.hosts := rfl
@[simp] theorem State.modSvc_owner (s : State) (p : PortNum) (f : PortSvc → PortSvc) : (s.modSvc p f).owner = s.owner := rfl
@[simp] theorem State.modSvc_devOwn (s : State) (p : PortNum) (f : PortSvc → PortSvc) : (s.modSvc p f).devOwn = s.devOwn := rfl
@[simp] theorem State.modSvc_running (s : State) (p : PortNum) (f : PortSvc → PortSvc) : (s.modSvc p f).running = s.running := rfl
@[simp] theorem State.modSvc_coord (s : State) (p : PortNum) (f : PortSvc → PortSvc) : (s.modSvc p f).coord = s.coord := rfl
@[simp] theorem State.modSvc_table (s : State) (p : PortNum) (f : PortSvc → PortSvc) : (s.modSvc p f).table = s.table := rfl
@[simp] theorem State.modSvc_ttGen (s : State) (p : PortNum) (f : PortSvc → PortSvc) : (s.modSvc p f).ttGen = s.ttGen := rfl
@[simp] theorem State.modSvc_ttFullPolicy (s : State) (p : PortNum) (f : PortSvc → PortSvc) : (s.modSvc p f).ttFullPolicy = s.ttFullPolicy := rfl
@[simp] theorem State.modSvc_ttCensusEvents (s : State) (p : PortNum) (f : PortSvc → PortSvc) : (s.modSvc p f).ttCensusEvents = s.ttCensusEvents := rfl
@[simp] theorem State.modSvc_cal (s : State) (p : PortNum) (f : PortSvc → PortSvc) : (s.modSvc p f).cal = s.cal := rfl
@[simp] theorem State.modSvc_xchkPend (s : State) (p : PortNum) (f : PortSvc → PortSvc) : (s.modSvc p f).xchkPend = s.xchkPend := rfl
@[simp] theorem State.modSvc_calDue (s : State) (p : PortNum) (f : PortSvc → PortSvc) : (s.modSvc p f).calDue = s.calDue := rfl
@[simp] theorem State.modSvc_trims (s : State) (p : PortNum) (f : PortSvc → PortSvc) : (s.modSvc p f).trims = s.trims := rfl
@[simp] theorem State.modSvc_staged (s : State) (p : PortNum) (f : PortSvc → PortSvc) : (s.modSvc p f).staged = s.staged := rfl
@[simp] theorem State.modSvc_imports (s : State) (p : PortNum) (f : PortSvc → PortSvc) : (s.modSvc p f).imports = s.imports := rfl
@[simp] theorem State.modSvc_pcr (s : State) (p : PortNum) (f : PortSvc → PortSvc) : (s.modSvc p f).pcr = s.pcr := rfl
@[simp] theorem State.modSvc_aon (s : State) (p : PortNum) (f : PortSvc → PortSvc) : (s.modSvc p f).aon = s.aon := rfl
@[simp] theorem State.modSvc_kiln (s : State) (p : PortNum) (f : PortSvc → PortSvc) : (s.modSvc p f).kiln = s.kiln := rfl
@[simp] theorem State.modSvc_xpdr (s : State) (p : PortNum) (f : PortSvc → PortSvc) : (s.modSvc p f).xpdr = s.xpdr := rfl
@[simp] theorem State.modSvc_dev (s : State) (p : PortNum) (f : PortSvc → PortSvc) : (s.modSvc p f).dev = s.dev := rfl
@[simp] theorem State.modSvc_flash (s : State) (p : PortNum) (f : PortSvc → PortSvc) : (s.modSvc p f).flash = s.flash := rfl
@[simp] theorem State.modSvc_flashState (s : State) (p : PortNum) (f : PortSvc → PortSvc) : (s.modSvc p f).flashState = s.flashState := rfl
@[simp] theorem State.modSvc_sram (s : State) (p : PortNum) (f : PortSvc → PortSvc) : (s.modSvc p f).sram = s.sram := rfl
@[simp] theorem State.modSvc_spill (s : State) (p : PortNum) (f : PortSvc → PortSvc) : (s.modSvc p f).spill = s.spill := rfl

/-! State.modFramer changes `ports` alone. -/

@[simp] theorem State.modFramer_pending (s : State) (p : PortNum) (f : Framer → Framer) : (s.modFramer p f).pending = s.pending := rfl
@[simp] theorem State.modFramer_raised (s : State) (p : PortNum) (f : Framer → Framer) : (s.modFramer p f).raised = s.raised := rfl
@[simp] theorem State.modFramer_free (s : State) (p : PortNum) (f : Framer → Framer) : (s.modFramer p f).free = s.free := rfl
@[simp] theorem State.modFramer_gtmr (s : State) (p : PortNum) (f : Framer → Framer) : (s.modFramer p f).gtmr = s.gtmr := rfl
@[simp] theorem State.modFramer_hosts (s : State) (p : PortNum) (f : Framer → Framer) : (s.modFramer p f).hosts = s.hosts := rfl
@[simp] theorem State.modFramer_owner (s : State) (p : PortNum) (f : Framer → Framer) : (s.modFramer p f).owner = s.owner := rfl
@[simp] theorem State.modFramer_devOwn (s : State) (p : PortNum) (f : Framer → Framer) : (s.modFramer p f).devOwn = s.devOwn := rfl
@[simp] theorem State.modFramer_running (s : State) (p : PortNum) (f : Framer → Framer) : (s.modFramer p f).running = s.running := rfl
@[simp] theorem State.modFramer_coord (s : State) (p : PortNum) (f : Framer → Framer) : (s.modFramer p f).coord = s.coord := rfl
@[simp] theorem State.modFramer_table (s : State) (p : PortNum) (f : Framer → Framer) : (s.modFramer p f).table = s.table := rfl
@[simp] theorem State.modFramer_ttGen (s : State) (p : PortNum) (f : Framer → Framer) : (s.modFramer p f).ttGen = s.ttGen := rfl
@[simp] theorem State.modFramer_ttFullPolicy (s : State) (p : PortNum) (f : Framer → Framer) : (s.modFramer p f).ttFullPolicy = s.ttFullPolicy := rfl
@[simp] theorem State.modFramer_ttCensusEvents (s : State) (p : PortNum) (f : Framer → Framer) : (s.modFramer p f).ttCensusEvents = s.ttCensusEvents := rfl
@[simp] theorem State.modFramer_cal (s : State) (p : PortNum) (f : Framer → Framer) : (s.modFramer p f).cal = s.cal := rfl
@[simp] theorem State.modFramer_xchkPend (s : State) (p : PortNum) (f : Framer → Framer) : (s.modFramer p f).xchkPend = s.xchkPend := rfl
@[simp] theorem State.modFramer_calDue (s : State) (p : PortNum) (f : Framer → Framer) : (s.modFramer p f).calDue = s.calDue := rfl
@[simp] theorem State.modFramer_trims (s : State) (p : PortNum) (f : Framer → Framer) : (s.modFramer p f).trims = s.trims := rfl
@[simp] theorem State.modFramer_staged (s : State) (p : PortNum) (f : Framer → Framer) : (s.modFramer p f).staged = s.staged := rfl
@[simp] theorem State.modFramer_imports (s : State) (p : PortNum) (f : Framer → Framer) : (s.modFramer p f).imports = s.imports := rfl
@[simp] theorem State.modFramer_pcr (s : State) (p : PortNum) (f : Framer → Framer) : (s.modFramer p f).pcr = s.pcr := rfl
@[simp] theorem State.modFramer_aon (s : State) (p : PortNum) (f : Framer → Framer) : (s.modFramer p f).aon = s.aon := rfl
@[simp] theorem State.modFramer_kiln (s : State) (p : PortNum) (f : Framer → Framer) : (s.modFramer p f).kiln = s.kiln := rfl
@[simp] theorem State.modFramer_xpdr (s : State) (p : PortNum) (f : Framer → Framer) : (s.modFramer p f).xpdr = s.xpdr := rfl
@[simp] theorem State.modFramer_dev (s : State) (p : PortNum) (f : Framer → Framer) : (s.modFramer p f).dev = s.dev := rfl
@[simp] theorem State.modFramer_flash (s : State) (p : PortNum) (f : Framer → Framer) : (s.modFramer p f).flash = s.flash := rfl
@[simp] theorem State.modFramer_flashState (s : State) (p : PortNum) (f : Framer → Framer) : (s.modFramer p f).flashState = s.flashState := rfl
@[simp] theorem State.modFramer_sram (s : State) (p : PortNum) (f : Framer → Framer) : (s.modFramer p f).sram = s.sram := rfl
@[simp] theorem State.modFramer_spill (s : State) (p : PortNum) (f : Framer → Framer) : (s.modFramer p f).spill = s.spill := rfl

/-! State.modEng changes `ports` alone. -/

@[simp] theorem State.modEng_pending (s : State) (p : PortNum) (f : Engine → Engine) : (s.modEng p f).pending = s.pending := rfl
@[simp] theorem State.modEng_raised (s : State) (p : PortNum) (f : Engine → Engine) : (s.modEng p f).raised = s.raised := rfl
@[simp] theorem State.modEng_free (s : State) (p : PortNum) (f : Engine → Engine) : (s.modEng p f).free = s.free := rfl
@[simp] theorem State.modEng_gtmr (s : State) (p : PortNum) (f : Engine → Engine) : (s.modEng p f).gtmr = s.gtmr := rfl
@[simp] theorem State.modEng_hosts (s : State) (p : PortNum) (f : Engine → Engine) : (s.modEng p f).hosts = s.hosts := rfl
@[simp] theorem State.modEng_owner (s : State) (p : PortNum) (f : Engine → Engine) : (s.modEng p f).owner = s.owner := rfl
@[simp] theorem State.modEng_devOwn (s : State) (p : PortNum) (f : Engine → Engine) : (s.modEng p f).devOwn = s.devOwn := rfl
@[simp] theorem State.modEng_running (s : State) (p : PortNum) (f : Engine → Engine) : (s.modEng p f).running = s.running := rfl
@[simp] theorem State.modEng_coord (s : State) (p : PortNum) (f : Engine → Engine) : (s.modEng p f).coord = s.coord := rfl
@[simp] theorem State.modEng_table (s : State) (p : PortNum) (f : Engine → Engine) : (s.modEng p f).table = s.table := rfl
@[simp] theorem State.modEng_ttGen (s : State) (p : PortNum) (f : Engine → Engine) : (s.modEng p f).ttGen = s.ttGen := rfl
@[simp] theorem State.modEng_ttFullPolicy (s : State) (p : PortNum) (f : Engine → Engine) : (s.modEng p f).ttFullPolicy = s.ttFullPolicy := rfl
@[simp] theorem State.modEng_ttCensusEvents (s : State) (p : PortNum) (f : Engine → Engine) : (s.modEng p f).ttCensusEvents = s.ttCensusEvents := rfl
@[simp] theorem State.modEng_cal (s : State) (p : PortNum) (f : Engine → Engine) : (s.modEng p f).cal = s.cal := rfl
@[simp] theorem State.modEng_xchkPend (s : State) (p : PortNum) (f : Engine → Engine) : (s.modEng p f).xchkPend = s.xchkPend := rfl
@[simp] theorem State.modEng_calDue (s : State) (p : PortNum) (f : Engine → Engine) : (s.modEng p f).calDue = s.calDue := rfl
@[simp] theorem State.modEng_trims (s : State) (p : PortNum) (f : Engine → Engine) : (s.modEng p f).trims = s.trims := rfl
@[simp] theorem State.modEng_staged (s : State) (p : PortNum) (f : Engine → Engine) : (s.modEng p f).staged = s.staged := rfl
@[simp] theorem State.modEng_imports (s : State) (p : PortNum) (f : Engine → Engine) : (s.modEng p f).imports = s.imports := rfl
@[simp] theorem State.modEng_pcr (s : State) (p : PortNum) (f : Engine → Engine) : (s.modEng p f).pcr = s.pcr := rfl
@[simp] theorem State.modEng_aon (s : State) (p : PortNum) (f : Engine → Engine) : (s.modEng p f).aon = s.aon := rfl
@[simp] theorem State.modEng_kiln (s : State) (p : PortNum) (f : Engine → Engine) : (s.modEng p f).kiln = s.kiln := rfl
@[simp] theorem State.modEng_xpdr (s : State) (p : PortNum) (f : Engine → Engine) : (s.modEng p f).xpdr = s.xpdr := rfl
@[simp] theorem State.modEng_dev (s : State) (p : PortNum) (f : Engine → Engine) : (s.modEng p f).dev = s.dev := rfl
@[simp] theorem State.modEng_flash (s : State) (p : PortNum) (f : Engine → Engine) : (s.modEng p f).flash = s.flash := rfl
@[simp] theorem State.modEng_flashState (s : State) (p : PortNum) (f : Engine → Engine) : (s.modEng p f).flashState = s.flashState := rfl
@[simp] theorem State.modEng_sram (s : State) (p : PortNum) (f : Engine → Engine) : (s.modEng p f).sram = s.sram := rfl
@[simp] theorem State.modEng_spill (s : State) (p : PortNum) (f : Engine → Engine) : (s.modEng p f).spill = s.spill := rfl

/-! State.coordSet changes `coord` alone. -/

@[simp] theorem State.coordSet_pending (s : State) (f : Fld) (v : Nat) : (s.coordSet f v).pending = s.pending := rfl
@[simp] theorem State.coordSet_raised (s : State) (f : Fld) (v : Nat) : (s.coordSet f v).raised = s.raised := rfl
@[simp] theorem State.coordSet_free (s : State) (f : Fld) (v : Nat) : (s.coordSet f v).free = s.free := rfl
@[simp] theorem State.coordSet_ports (s : State) (f : Fld) (v : Nat) : (s.coordSet f v).ports = s.ports := rfl
@[simp] theorem State.coordSet_gtmr (s : State) (f : Fld) (v : Nat) : (s.coordSet f v).gtmr = s.gtmr := rfl
@[simp] theorem State.coordSet_hosts (s : State) (f : Fld) (v : Nat) : (s.coordSet f v).hosts = s.hosts := rfl
@[simp] theorem State.coordSet_owner (s : State) (f : Fld) (v : Nat) : (s.coordSet f v).owner = s.owner := rfl
@[simp] theorem State.coordSet_devOwn (s : State) (f : Fld) (v : Nat) : (s.coordSet f v).devOwn = s.devOwn := rfl
@[simp] theorem State.coordSet_running (s : State) (f : Fld) (v : Nat) : (s.coordSet f v).running = s.running := rfl
@[simp] theorem State.coordSet_table (s : State) (f : Fld) (v : Nat) : (s.coordSet f v).table = s.table := rfl
@[simp] theorem State.coordSet_ttGen (s : State) (f : Fld) (v : Nat) : (s.coordSet f v).ttGen = s.ttGen := rfl
@[simp] theorem State.coordSet_ttFullPolicy (s : State) (f : Fld) (v : Nat) : (s.coordSet f v).ttFullPolicy = s.ttFullPolicy := rfl
@[simp] theorem State.coordSet_ttCensusEvents (s : State) (f : Fld) (v : Nat) : (s.coordSet f v).ttCensusEvents = s.ttCensusEvents := rfl
@[simp] theorem State.coordSet_cal (s : State) (f : Fld) (v : Nat) : (s.coordSet f v).cal = s.cal := rfl
@[simp] theorem State.coordSet_xchkPend (s : State) (f : Fld) (v : Nat) : (s.coordSet f v).xchkPend = s.xchkPend := rfl
@[simp] theorem State.coordSet_calDue (s : State) (f : Fld) (v : Nat) : (s.coordSet f v).calDue = s.calDue := rfl
@[simp] theorem State.coordSet_trims (s : State) (f : Fld) (v : Nat) : (s.coordSet f v).trims = s.trims := rfl
@[simp] theorem State.coordSet_staged (s : State) (f : Fld) (v : Nat) : (s.coordSet f v).staged = s.staged := rfl
@[simp] theorem State.coordSet_imports (s : State) (f : Fld) (v : Nat) : (s.coordSet f v).imports = s.imports := rfl
@[simp] theorem State.coordSet_pcr (s : State) (f : Fld) (v : Nat) : (s.coordSet f v).pcr = s.pcr := rfl
@[simp] theorem State.coordSet_aon (s : State) (f : Fld) (v : Nat) : (s.coordSet f v).aon = s.aon := rfl
@[simp] theorem State.coordSet_kiln (s : State) (f : Fld) (v : Nat) : (s.coordSet f v).kiln = s.kiln := rfl
@[simp] theorem State.coordSet_xpdr (s : State) (f : Fld) (v : Nat) : (s.coordSet f v).xpdr = s.xpdr := rfl
@[simp] theorem State.coordSet_dev (s : State) (f : Fld) (v : Nat) : (s.coordSet f v).dev = s.dev := rfl
@[simp] theorem State.coordSet_flash (s : State) (f : Fld) (v : Nat) : (s.coordSet f v).flash = s.flash := rfl
@[simp] theorem State.coordSet_flashState (s : State) (f : Fld) (v : Nat) : (s.coordSet f v).flashState = s.flashState := rfl
@[simp] theorem State.coordSet_sram (s : State) (f : Fld) (v : Nat) : (s.coordSet f v).sram = s.sram := rfl
@[simp] theorem State.coordSet_spill (s : State) (f : Fld) (v : Nat) : (s.coordSet f v).spill = s.spill := rfl

/-! State.pcrSet changes `pcr` alone. -/

@[simp] theorem State.pcrSet_pending (s : State) (f : Fld) (v : Nat) : (s.pcrSet f v).pending = s.pending := rfl
@[simp] theorem State.pcrSet_raised (s : State) (f : Fld) (v : Nat) : (s.pcrSet f v).raised = s.raised := rfl
@[simp] theorem State.pcrSet_free (s : State) (f : Fld) (v : Nat) : (s.pcrSet f v).free = s.free := rfl
@[simp] theorem State.pcrSet_ports (s : State) (f : Fld) (v : Nat) : (s.pcrSet f v).ports = s.ports := rfl
@[simp] theorem State.pcrSet_gtmr (s : State) (f : Fld) (v : Nat) : (s.pcrSet f v).gtmr = s.gtmr := rfl
@[simp] theorem State.pcrSet_hosts (s : State) (f : Fld) (v : Nat) : (s.pcrSet f v).hosts = s.hosts := rfl
@[simp] theorem State.pcrSet_owner (s : State) (f : Fld) (v : Nat) : (s.pcrSet f v).owner = s.owner := rfl
@[simp] theorem State.pcrSet_devOwn (s : State) (f : Fld) (v : Nat) : (s.pcrSet f v).devOwn = s.devOwn := rfl
@[simp] theorem State.pcrSet_running (s : State) (f : Fld) (v : Nat) : (s.pcrSet f v).running = s.running := rfl
@[simp] theorem State.pcrSet_coord (s : State) (f : Fld) (v : Nat) : (s.pcrSet f v).coord = s.coord := rfl
@[simp] theorem State.pcrSet_table (s : State) (f : Fld) (v : Nat) : (s.pcrSet f v).table = s.table := rfl
@[simp] theorem State.pcrSet_ttGen (s : State) (f : Fld) (v : Nat) : (s.pcrSet f v).ttGen = s.ttGen := rfl
@[simp] theorem State.pcrSet_ttFullPolicy (s : State) (f : Fld) (v : Nat) : (s.pcrSet f v).ttFullPolicy = s.ttFullPolicy := rfl
@[simp] theorem State.pcrSet_ttCensusEvents (s : State) (f : Fld) (v : Nat) : (s.pcrSet f v).ttCensusEvents = s.ttCensusEvents := rfl
@[simp] theorem State.pcrSet_cal (s : State) (f : Fld) (v : Nat) : (s.pcrSet f v).cal = s.cal := rfl
@[simp] theorem State.pcrSet_xchkPend (s : State) (f : Fld) (v : Nat) : (s.pcrSet f v).xchkPend = s.xchkPend := rfl
@[simp] theorem State.pcrSet_calDue (s : State) (f : Fld) (v : Nat) : (s.pcrSet f v).calDue = s.calDue := rfl
@[simp] theorem State.pcrSet_trims (s : State) (f : Fld) (v : Nat) : (s.pcrSet f v).trims = s.trims := rfl
@[simp] theorem State.pcrSet_staged (s : State) (f : Fld) (v : Nat) : (s.pcrSet f v).staged = s.staged := rfl
@[simp] theorem State.pcrSet_imports (s : State) (f : Fld) (v : Nat) : (s.pcrSet f v).imports = s.imports := rfl
@[simp] theorem State.pcrSet_aon (s : State) (f : Fld) (v : Nat) : (s.pcrSet f v).aon = s.aon := rfl
@[simp] theorem State.pcrSet_kiln (s : State) (f : Fld) (v : Nat) : (s.pcrSet f v).kiln = s.kiln := rfl
@[simp] theorem State.pcrSet_xpdr (s : State) (f : Fld) (v : Nat) : (s.pcrSet f v).xpdr = s.xpdr := rfl
@[simp] theorem State.pcrSet_dev (s : State) (f : Fld) (v : Nat) : (s.pcrSet f v).dev = s.dev := rfl
@[simp] theorem State.pcrSet_flash (s : State) (f : Fld) (v : Nat) : (s.pcrSet f v).flash = s.flash := rfl
@[simp] theorem State.pcrSet_flashState (s : State) (f : Fld) (v : Nat) : (s.pcrSet f v).flashState = s.flashState := rfl
@[simp] theorem State.pcrSet_sram (s : State) (f : Fld) (v : Nat) : (s.pcrSet f v).sram = s.sram := rfl
@[simp] theorem State.pcrSet_spill (s : State) (f : Fld) (v : Nat) : (s.pcrSet f v).spill = s.spill := rfl

/-! State.aonSet changes `aon` alone. -/

@[simp] theorem State.aonSet_pending (s : State) (f : Fld) (v : Nat) : (s.aonSet f v).pending = s.pending := rfl
@[simp] theorem State.aonSet_raised (s : State) (f : Fld) (v : Nat) : (s.aonSet f v).raised = s.raised := rfl
@[simp] theorem State.aonSet_free (s : State) (f : Fld) (v : Nat) : (s.aonSet f v).free = s.free := rfl
@[simp] theorem State.aonSet_ports (s : State) (f : Fld) (v : Nat) : (s.aonSet f v).ports = s.ports := rfl
@[simp] theorem State.aonSet_gtmr (s : State) (f : Fld) (v : Nat) : (s.aonSet f v).gtmr = s.gtmr := rfl
@[simp] theorem State.aonSet_hosts (s : State) (f : Fld) (v : Nat) : (s.aonSet f v).hosts = s.hosts := rfl
@[simp] theorem State.aonSet_owner (s : State) (f : Fld) (v : Nat) : (s.aonSet f v).owner = s.owner := rfl
@[simp] theorem State.aonSet_devOwn (s : State) (f : Fld) (v : Nat) : (s.aonSet f v).devOwn = s.devOwn := rfl
@[simp] theorem State.aonSet_running (s : State) (f : Fld) (v : Nat) : (s.aonSet f v).running = s.running := rfl
@[simp] theorem State.aonSet_coord (s : State) (f : Fld) (v : Nat) : (s.aonSet f v).coord = s.coord := rfl
@[simp] theorem State.aonSet_table (s : State) (f : Fld) (v : Nat) : (s.aonSet f v).table = s.table := rfl
@[simp] theorem State.aonSet_ttGen (s : State) (f : Fld) (v : Nat) : (s.aonSet f v).ttGen = s.ttGen := rfl
@[simp] theorem State.aonSet_ttFullPolicy (s : State) (f : Fld) (v : Nat) : (s.aonSet f v).ttFullPolicy = s.ttFullPolicy := rfl
@[simp] theorem State.aonSet_ttCensusEvents (s : State) (f : Fld) (v : Nat) : (s.aonSet f v).ttCensusEvents = s.ttCensusEvents := rfl
@[simp] theorem State.aonSet_cal (s : State) (f : Fld) (v : Nat) : (s.aonSet f v).cal = s.cal := rfl
@[simp] theorem State.aonSet_xchkPend (s : State) (f : Fld) (v : Nat) : (s.aonSet f v).xchkPend = s.xchkPend := rfl
@[simp] theorem State.aonSet_calDue (s : State) (f : Fld) (v : Nat) : (s.aonSet f v).calDue = s.calDue := rfl
@[simp] theorem State.aonSet_trims (s : State) (f : Fld) (v : Nat) : (s.aonSet f v).trims = s.trims := rfl
@[simp] theorem State.aonSet_staged (s : State) (f : Fld) (v : Nat) : (s.aonSet f v).staged = s.staged := rfl
@[simp] theorem State.aonSet_imports (s : State) (f : Fld) (v : Nat) : (s.aonSet f v).imports = s.imports := rfl
@[simp] theorem State.aonSet_pcr (s : State) (f : Fld) (v : Nat) : (s.aonSet f v).pcr = s.pcr := rfl
@[simp] theorem State.aonSet_kiln (s : State) (f : Fld) (v : Nat) : (s.aonSet f v).kiln = s.kiln := rfl
@[simp] theorem State.aonSet_xpdr (s : State) (f : Fld) (v : Nat) : (s.aonSet f v).xpdr = s.xpdr := rfl
@[simp] theorem State.aonSet_dev (s : State) (f : Fld) (v : Nat) : (s.aonSet f v).dev = s.dev := rfl
@[simp] theorem State.aonSet_flash (s : State) (f : Fld) (v : Nat) : (s.aonSet f v).flash = s.flash := rfl
@[simp] theorem State.aonSet_flashState (s : State) (f : Fld) (v : Nat) : (s.aonSet f v).flashState = s.flashState := rfl
@[simp] theorem State.aonSet_sram (s : State) (f : Fld) (v : Nat) : (s.aonSet f v).sram = s.sram := rfl
@[simp] theorem State.aonSet_spill (s : State) (f : Fld) (v : Nat) : (s.aonSet f v).spill = s.spill := rfl

/-! State.calSet changes `cal` alone. -/

@[simp] theorem State.calSet_pending (s : State) (f : Fld) (v : Nat) : (s.calSet f v).pending = s.pending := rfl
@[simp] theorem State.calSet_raised (s : State) (f : Fld) (v : Nat) : (s.calSet f v).raised = s.raised := rfl
@[simp] theorem State.calSet_free (s : State) (f : Fld) (v : Nat) : (s.calSet f v).free = s.free := rfl
@[simp] theorem State.calSet_ports (s : State) (f : Fld) (v : Nat) : (s.calSet f v).ports = s.ports := rfl
@[simp] theorem State.calSet_gtmr (s : State) (f : Fld) (v : Nat) : (s.calSet f v).gtmr = s.gtmr := rfl
@[simp] theorem State.calSet_hosts (s : State) (f : Fld) (v : Nat) : (s.calSet f v).hosts = s.hosts := rfl
@[simp] theorem State.calSet_owner (s : State) (f : Fld) (v : Nat) : (s.calSet f v).owner = s.owner := rfl
@[simp] theorem State.calSet_devOwn (s : State) (f : Fld) (v : Nat) : (s.calSet f v).devOwn = s.devOwn := rfl
@[simp] theorem State.calSet_running (s : State) (f : Fld) (v : Nat) : (s.calSet f v).running = s.running := rfl
@[simp] theorem State.calSet_coord (s : State) (f : Fld) (v : Nat) : (s.calSet f v).coord = s.coord := rfl
@[simp] theorem State.calSet_table (s : State) (f : Fld) (v : Nat) : (s.calSet f v).table = s.table := rfl
@[simp] theorem State.calSet_ttGen (s : State) (f : Fld) (v : Nat) : (s.calSet f v).ttGen = s.ttGen := rfl
@[simp] theorem State.calSet_ttFullPolicy (s : State) (f : Fld) (v : Nat) : (s.calSet f v).ttFullPolicy = s.ttFullPolicy := rfl
@[simp] theorem State.calSet_ttCensusEvents (s : State) (f : Fld) (v : Nat) : (s.calSet f v).ttCensusEvents = s.ttCensusEvents := rfl
@[simp] theorem State.calSet_xchkPend (s : State) (f : Fld) (v : Nat) : (s.calSet f v).xchkPend = s.xchkPend := rfl
@[simp] theorem State.calSet_calDue (s : State) (f : Fld) (v : Nat) : (s.calSet f v).calDue = s.calDue := rfl
@[simp] theorem State.calSet_trims (s : State) (f : Fld) (v : Nat) : (s.calSet f v).trims = s.trims := rfl
@[simp] theorem State.calSet_staged (s : State) (f : Fld) (v : Nat) : (s.calSet f v).staged = s.staged := rfl
@[simp] theorem State.calSet_imports (s : State) (f : Fld) (v : Nat) : (s.calSet f v).imports = s.imports := rfl
@[simp] theorem State.calSet_pcr (s : State) (f : Fld) (v : Nat) : (s.calSet f v).pcr = s.pcr := rfl
@[simp] theorem State.calSet_aon (s : State) (f : Fld) (v : Nat) : (s.calSet f v).aon = s.aon := rfl
@[simp] theorem State.calSet_kiln (s : State) (f : Fld) (v : Nat) : (s.calSet f v).kiln = s.kiln := rfl
@[simp] theorem State.calSet_xpdr (s : State) (f : Fld) (v : Nat) : (s.calSet f v).xpdr = s.xpdr := rfl
@[simp] theorem State.calSet_dev (s : State) (f : Fld) (v : Nat) : (s.calSet f v).dev = s.dev := rfl
@[simp] theorem State.calSet_flash (s : State) (f : Fld) (v : Nat) : (s.calSet f v).flash = s.flash := rfl
@[simp] theorem State.calSet_flashState (s : State) (f : Fld) (v : Nat) : (s.calSet f v).flashState = s.flashState := rfl
@[simp] theorem State.calSet_sram (s : State) (f : Fld) (v : Nat) : (s.calSet f v).sram = s.sram := rfl
@[simp] theorem State.calSet_spill (s : State) (f : Fld) (v : Nat) : (s.calSet f v).spill = s.spill := rfl

/-! State.kilnSet changes `kiln` alone. -/

@[simp] theorem State.kilnSet_pending (s : State) (f : Fld) (v : Nat) : (s.kilnSet f v).pending = s.pending := rfl
@[simp] theorem State.kilnSet_raised (s : State) (f : Fld) (v : Nat) : (s.kilnSet f v).raised = s.raised := rfl
@[simp] theorem State.kilnSet_free (s : State) (f : Fld) (v : Nat) : (s.kilnSet f v).free = s.free := rfl
@[simp] theorem State.kilnSet_ports (s : State) (f : Fld) (v : Nat) : (s.kilnSet f v).ports = s.ports := rfl
@[simp] theorem State.kilnSet_gtmr (s : State) (f : Fld) (v : Nat) : (s.kilnSet f v).gtmr = s.gtmr := rfl
@[simp] theorem State.kilnSet_hosts (s : State) (f : Fld) (v : Nat) : (s.kilnSet f v).hosts = s.hosts := rfl
@[simp] theorem State.kilnSet_owner (s : State) (f : Fld) (v : Nat) : (s.kilnSet f v).owner = s.owner := rfl
@[simp] theorem State.kilnSet_devOwn (s : State) (f : Fld) (v : Nat) : (s.kilnSet f v).devOwn = s.devOwn := rfl
@[simp] theorem State.kilnSet_running (s : State) (f : Fld) (v : Nat) : (s.kilnSet f v).running = s.running := rfl
@[simp] theorem State.kilnSet_coord (s : State) (f : Fld) (v : Nat) : (s.kilnSet f v).coord = s.coord := rfl
@[simp] theorem State.kilnSet_table (s : State) (f : Fld) (v : Nat) : (s.kilnSet f v).table = s.table := rfl
@[simp] theorem State.kilnSet_ttGen (s : State) (f : Fld) (v : Nat) : (s.kilnSet f v).ttGen = s.ttGen := rfl
@[simp] theorem State.kilnSet_ttFullPolicy (s : State) (f : Fld) (v : Nat) : (s.kilnSet f v).ttFullPolicy = s.ttFullPolicy := rfl
@[simp] theorem State.kilnSet_ttCensusEvents (s : State) (f : Fld) (v : Nat) : (s.kilnSet f v).ttCensusEvents = s.ttCensusEvents := rfl
@[simp] theorem State.kilnSet_cal (s : State) (f : Fld) (v : Nat) : (s.kilnSet f v).cal = s.cal := rfl
@[simp] theorem State.kilnSet_xchkPend (s : State) (f : Fld) (v : Nat) : (s.kilnSet f v).xchkPend = s.xchkPend := rfl
@[simp] theorem State.kilnSet_calDue (s : State) (f : Fld) (v : Nat) : (s.kilnSet f v).calDue = s.calDue := rfl
@[simp] theorem State.kilnSet_trims (s : State) (f : Fld) (v : Nat) : (s.kilnSet f v).trims = s.trims := rfl
@[simp] theorem State.kilnSet_staged (s : State) (f : Fld) (v : Nat) : (s.kilnSet f v).staged = s.staged := rfl
@[simp] theorem State.kilnSet_imports (s : State) (f : Fld) (v : Nat) : (s.kilnSet f v).imports = s.imports := rfl
@[simp] theorem State.kilnSet_pcr (s : State) (f : Fld) (v : Nat) : (s.kilnSet f v).pcr = s.pcr := rfl
@[simp] theorem State.kilnSet_aon (s : State) (f : Fld) (v : Nat) : (s.kilnSet f v).aon = s.aon := rfl
@[simp] theorem State.kilnSet_xpdr (s : State) (f : Fld) (v : Nat) : (s.kilnSet f v).xpdr = s.xpdr := rfl
@[simp] theorem State.kilnSet_dev (s : State) (f : Fld) (v : Nat) : (s.kilnSet f v).dev = s.dev := rfl
@[simp] theorem State.kilnSet_flash (s : State) (f : Fld) (v : Nat) : (s.kilnSet f v).flash = s.flash := rfl
@[simp] theorem State.kilnSet_flashState (s : State) (f : Fld) (v : Nat) : (s.kilnSet f v).flashState = s.flashState := rfl
@[simp] theorem State.kilnSet_sram (s : State) (f : Fld) (v : Nat) : (s.kilnSet f v).sram = s.sram := rfl
@[simp] theorem State.kilnSet_spill (s : State) (f : Fld) (v : Nat) : (s.kilnSet f v).spill = s.spill := rfl

/-! State.xset changes `xpdr` alone. -/

@[simp] theorem State.xset_pending (s : State) (f : Fld) (v : Nat) : (s.xset f v).pending = s.pending := rfl
@[simp] theorem State.xset_raised (s : State) (f : Fld) (v : Nat) : (s.xset f v).raised = s.raised := rfl
@[simp] theorem State.xset_free (s : State) (f : Fld) (v : Nat) : (s.xset f v).free = s.free := rfl
@[simp] theorem State.xset_ports (s : State) (f : Fld) (v : Nat) : (s.xset f v).ports = s.ports := rfl
@[simp] theorem State.xset_gtmr (s : State) (f : Fld) (v : Nat) : (s.xset f v).gtmr = s.gtmr := rfl
@[simp] theorem State.xset_hosts (s : State) (f : Fld) (v : Nat) : (s.xset f v).hosts = s.hosts := rfl
@[simp] theorem State.xset_owner (s : State) (f : Fld) (v : Nat) : (s.xset f v).owner = s.owner := rfl
@[simp] theorem State.xset_devOwn (s : State) (f : Fld) (v : Nat) : (s.xset f v).devOwn = s.devOwn := rfl
@[simp] theorem State.xset_running (s : State) (f : Fld) (v : Nat) : (s.xset f v).running = s.running := rfl
@[simp] theorem State.xset_coord (s : State) (f : Fld) (v : Nat) : (s.xset f v).coord = s.coord := rfl
@[simp] theorem State.xset_table (s : State) (f : Fld) (v : Nat) : (s.xset f v).table = s.table := rfl
@[simp] theorem State.xset_ttGen (s : State) (f : Fld) (v : Nat) : (s.xset f v).ttGen = s.ttGen := rfl
@[simp] theorem State.xset_ttFullPolicy (s : State) (f : Fld) (v : Nat) : (s.xset f v).ttFullPolicy = s.ttFullPolicy := rfl
@[simp] theorem State.xset_ttCensusEvents (s : State) (f : Fld) (v : Nat) : (s.xset f v).ttCensusEvents = s.ttCensusEvents := rfl
@[simp] theorem State.xset_cal (s : State) (f : Fld) (v : Nat) : (s.xset f v).cal = s.cal := rfl
@[simp] theorem State.xset_xchkPend (s : State) (f : Fld) (v : Nat) : (s.xset f v).xchkPend = s.xchkPend := rfl
@[simp] theorem State.xset_calDue (s : State) (f : Fld) (v : Nat) : (s.xset f v).calDue = s.calDue := rfl
@[simp] theorem State.xset_trims (s : State) (f : Fld) (v : Nat) : (s.xset f v).trims = s.trims := rfl
@[simp] theorem State.xset_staged (s : State) (f : Fld) (v : Nat) : (s.xset f v).staged = s.staged := rfl
@[simp] theorem State.xset_imports (s : State) (f : Fld) (v : Nat) : (s.xset f v).imports = s.imports := rfl
@[simp] theorem State.xset_pcr (s : State) (f : Fld) (v : Nat) : (s.xset f v).pcr = s.pcr := rfl
@[simp] theorem State.xset_aon (s : State) (f : Fld) (v : Nat) : (s.xset f v).aon = s.aon := rfl
@[simp] theorem State.xset_kiln (s : State) (f : Fld) (v : Nat) : (s.xset f v).kiln = s.kiln := rfl
@[simp] theorem State.xset_dev (s : State) (f : Fld) (v : Nat) : (s.xset f v).dev = s.dev := rfl
@[simp] theorem State.xset_flash (s : State) (f : Fld) (v : Nat) : (s.xset f v).flash = s.flash := rfl
@[simp] theorem State.xset_flashState (s : State) (f : Fld) (v : Nat) : (s.xset f v).flashState = s.flashState := rfl
@[simp] theorem State.xset_sram (s : State) (f : Fld) (v : Nat) : (s.xset f v).sram = s.sram := rfl
@[simp] theorem State.xset_spill (s : State) (f : Fld) (v : Nat) : (s.xset f v).spill = s.spill := rfl

/-! State.modHost changes `hosts` alone. -/

@[simp] theorem State.modHost_pending (s : State) (h : HostNum) (f : HostPort → HostPort) : (s.modHost h f).pending = s.pending := rfl
@[simp] theorem State.modHost_raised (s : State) (h : HostNum) (f : HostPort → HostPort) : (s.modHost h f).raised = s.raised := rfl
@[simp] theorem State.modHost_free (s : State) (h : HostNum) (f : HostPort → HostPort) : (s.modHost h f).free = s.free := rfl
@[simp] theorem State.modHost_ports (s : State) (h : HostNum) (f : HostPort → HostPort) : (s.modHost h f).ports = s.ports := rfl
@[simp] theorem State.modHost_gtmr (s : State) (h : HostNum) (f : HostPort → HostPort) : (s.modHost h f).gtmr = s.gtmr := rfl
@[simp] theorem State.modHost_owner (s : State) (h : HostNum) (f : HostPort → HostPort) : (s.modHost h f).owner = s.owner := rfl
@[simp] theorem State.modHost_devOwn (s : State) (h : HostNum) (f : HostPort → HostPort) : (s.modHost h f).devOwn = s.devOwn := rfl
@[simp] theorem State.modHost_running (s : State) (h : HostNum) (f : HostPort → HostPort) : (s.modHost h f).running = s.running := rfl
@[simp] theorem State.modHost_coord (s : State) (h : HostNum) (f : HostPort → HostPort) : (s.modHost h f).coord = s.coord := rfl
@[simp] theorem State.modHost_table (s : State) (h : HostNum) (f : HostPort → HostPort) : (s.modHost h f).table = s.table := rfl
@[simp] theorem State.modHost_ttGen (s : State) (h : HostNum) (f : HostPort → HostPort) : (s.modHost h f).ttGen = s.ttGen := rfl
@[simp] theorem State.modHost_ttFullPolicy (s : State) (h : HostNum) (f : HostPort → HostPort) : (s.modHost h f).ttFullPolicy = s.ttFullPolicy := rfl
@[simp] theorem State.modHost_ttCensusEvents (s : State) (h : HostNum) (f : HostPort → HostPort) : (s.modHost h f).ttCensusEvents = s.ttCensusEvents := rfl
@[simp] theorem State.modHost_cal (s : State) (h : HostNum) (f : HostPort → HostPort) : (s.modHost h f).cal = s.cal := rfl
@[simp] theorem State.modHost_xchkPend (s : State) (h : HostNum) (f : HostPort → HostPort) : (s.modHost h f).xchkPend = s.xchkPend := rfl
@[simp] theorem State.modHost_calDue (s : State) (h : HostNum) (f : HostPort → HostPort) : (s.modHost h f).calDue = s.calDue := rfl
@[simp] theorem State.modHost_trims (s : State) (h : HostNum) (f : HostPort → HostPort) : (s.modHost h f).trims = s.trims := rfl
@[simp] theorem State.modHost_staged (s : State) (h : HostNum) (f : HostPort → HostPort) : (s.modHost h f).staged = s.staged := rfl
@[simp] theorem State.modHost_imports (s : State) (h : HostNum) (f : HostPort → HostPort) : (s.modHost h f).imports = s.imports := rfl
@[simp] theorem State.modHost_pcr (s : State) (h : HostNum) (f : HostPort → HostPort) : (s.modHost h f).pcr = s.pcr := rfl
@[simp] theorem State.modHost_aon (s : State) (h : HostNum) (f : HostPort → HostPort) : (s.modHost h f).aon = s.aon := rfl
@[simp] theorem State.modHost_kiln (s : State) (h : HostNum) (f : HostPort → HostPort) : (s.modHost h f).kiln = s.kiln := rfl
@[simp] theorem State.modHost_xpdr (s : State) (h : HostNum) (f : HostPort → HostPort) : (s.modHost h f).xpdr = s.xpdr := rfl
@[simp] theorem State.modHost_dev (s : State) (h : HostNum) (f : HostPort → HostPort) : (s.modHost h f).dev = s.dev := rfl
@[simp] theorem State.modHost_flash (s : State) (h : HostNum) (f : HostPort → HostPort) : (s.modHost h f).flash = s.flash := rfl
@[simp] theorem State.modHost_flashState (s : State) (h : HostNum) (f : HostPort → HostPort) : (s.modHost h f).flashState = s.flashState := rfl
@[simp] theorem State.modHost_sram (s : State) (h : HostNum) (f : HostPort → HostPort) : (s.modHost h f).sram = s.sram := rfl
@[simp] theorem State.modHost_spill (s : State) (h : HostNum) (f : HostPort → HostPort) : (s.modHost h f).spill = s.spill := rfl

/-! State.modX changes `xpdr` alone. -/

@[simp] theorem State.modX_pending (s : State) (f : Xpdr → Xpdr) : (s.modX f).pending = s.pending := rfl
@[simp] theorem State.modX_raised (s : State) (f : Xpdr → Xpdr) : (s.modX f).raised = s.raised := rfl
@[simp] theorem State.modX_free (s : State) (f : Xpdr → Xpdr) : (s.modX f).free = s.free := rfl
@[simp] theorem State.modX_ports (s : State) (f : Xpdr → Xpdr) : (s.modX f).ports = s.ports := rfl
@[simp] theorem State.modX_gtmr (s : State) (f : Xpdr → Xpdr) : (s.modX f).gtmr = s.gtmr := rfl
@[simp] theorem State.modX_hosts (s : State) (f : Xpdr → Xpdr) : (s.modX f).hosts = s.hosts := rfl
@[simp] theorem State.modX_owner (s : State) (f : Xpdr → Xpdr) : (s.modX f).owner = s.owner := rfl
@[simp] theorem State.modX_devOwn (s : State) (f : Xpdr → Xpdr) : (s.modX f).devOwn = s.devOwn := rfl
@[simp] theorem State.modX_running (s : State) (f : Xpdr → Xpdr) : (s.modX f).running = s.running := rfl
@[simp] theorem State.modX_coord (s : State) (f : Xpdr → Xpdr) : (s.modX f).coord = s.coord := rfl
@[simp] theorem State.modX_table (s : State) (f : Xpdr → Xpdr) : (s.modX f).table = s.table := rfl
@[simp] theorem State.modX_ttGen (s : State) (f : Xpdr → Xpdr) : (s.modX f).ttGen = s.ttGen := rfl
@[simp] theorem State.modX_ttFullPolicy (s : State) (f : Xpdr → Xpdr) : (s.modX f).ttFullPolicy = s.ttFullPolicy := rfl
@[simp] theorem State.modX_ttCensusEvents (s : State) (f : Xpdr → Xpdr) : (s.modX f).ttCensusEvents = s.ttCensusEvents := rfl
@[simp] theorem State.modX_cal (s : State) (f : Xpdr → Xpdr) : (s.modX f).cal = s.cal := rfl
@[simp] theorem State.modX_xchkPend (s : State) (f : Xpdr → Xpdr) : (s.modX f).xchkPend = s.xchkPend := rfl
@[simp] theorem State.modX_calDue (s : State) (f : Xpdr → Xpdr) : (s.modX f).calDue = s.calDue := rfl
@[simp] theorem State.modX_trims (s : State) (f : Xpdr → Xpdr) : (s.modX f).trims = s.trims := rfl
@[simp] theorem State.modX_staged (s : State) (f : Xpdr → Xpdr) : (s.modX f).staged = s.staged := rfl
@[simp] theorem State.modX_imports (s : State) (f : Xpdr → Xpdr) : (s.modX f).imports = s.imports := rfl
@[simp] theorem State.modX_pcr (s : State) (f : Xpdr → Xpdr) : (s.modX f).pcr = s.pcr := rfl
@[simp] theorem State.modX_aon (s : State) (f : Xpdr → Xpdr) : (s.modX f).aon = s.aon := rfl
@[simp] theorem State.modX_kiln (s : State) (f : Xpdr → Xpdr) : (s.modX f).kiln = s.kiln := rfl
@[simp] theorem State.modX_dev (s : State) (f : Xpdr → Xpdr) : (s.modX f).dev = s.dev := rfl
@[simp] theorem State.modX_flash (s : State) (f : Xpdr → Xpdr) : (s.modX f).flash = s.flash := rfl
@[simp] theorem State.modX_flashState (s : State) (f : Xpdr → Xpdr) : (s.modX f).flashState = s.flashState := rfl
@[simp] theorem State.modX_sram (s : State) (f : Xpdr → Xpdr) : (s.modX f).sram = s.sram := rfl
@[simp] theorem State.modX_spill (s : State) (f : Xpdr → Xpdr) : (s.modX f).spill = s.spill := rfl

/-! State.modDev changes `dev` alone. -/

@[simp] theorem State.modDev_pending (s : State) (f : Device → Device) : (s.modDev f).pending = s.pending := rfl
@[simp] theorem State.modDev_raised (s : State) (f : Device → Device) : (s.modDev f).raised = s.raised := rfl
@[simp] theorem State.modDev_free (s : State) (f : Device → Device) : (s.modDev f).free = s.free := rfl
@[simp] theorem State.modDev_ports (s : State) (f : Device → Device) : (s.modDev f).ports = s.ports := rfl
@[simp] theorem State.modDev_gtmr (s : State) (f : Device → Device) : (s.modDev f).gtmr = s.gtmr := rfl
@[simp] theorem State.modDev_hosts (s : State) (f : Device → Device) : (s.modDev f).hosts = s.hosts := rfl
@[simp] theorem State.modDev_owner (s : State) (f : Device → Device) : (s.modDev f).owner = s.owner := rfl
@[simp] theorem State.modDev_devOwn (s : State) (f : Device → Device) : (s.modDev f).devOwn = s.devOwn := rfl
@[simp] theorem State.modDev_running (s : State) (f : Device → Device) : (s.modDev f).running = s.running := rfl
@[simp] theorem State.modDev_coord (s : State) (f : Device → Device) : (s.modDev f).coord = s.coord := rfl
@[simp] theorem State.modDev_table (s : State) (f : Device → Device) : (s.modDev f).table = s.table := rfl
@[simp] theorem State.modDev_ttGen (s : State) (f : Device → Device) : (s.modDev f).ttGen = s.ttGen := rfl
@[simp] theorem State.modDev_ttFullPolicy (s : State) (f : Device → Device) : (s.modDev f).ttFullPolicy = s.ttFullPolicy := rfl
@[simp] theorem State.modDev_ttCensusEvents (s : State) (f : Device → Device) : (s.modDev f).ttCensusEvents = s.ttCensusEvents := rfl
@[simp] theorem State.modDev_cal (s : State) (f : Device → Device) : (s.modDev f).cal = s.cal := rfl
@[simp] theorem State.modDev_xchkPend (s : State) (f : Device → Device) : (s.modDev f).xchkPend = s.xchkPend := rfl
@[simp] theorem State.modDev_calDue (s : State) (f : Device → Device) : (s.modDev f).calDue = s.calDue := rfl
@[simp] theorem State.modDev_trims (s : State) (f : Device → Device) : (s.modDev f).trims = s.trims := rfl
@[simp] theorem State.modDev_staged (s : State) (f : Device → Device) : (s.modDev f).staged = s.staged := rfl
@[simp] theorem State.modDev_imports (s : State) (f : Device → Device) : (s.modDev f).imports = s.imports := rfl
@[simp] theorem State.modDev_pcr (s : State) (f : Device → Device) : (s.modDev f).pcr = s.pcr := rfl
@[simp] theorem State.modDev_aon (s : State) (f : Device → Device) : (s.modDev f).aon = s.aon := rfl
@[simp] theorem State.modDev_kiln (s : State) (f : Device → Device) : (s.modDev f).kiln = s.kiln := rfl
@[simp] theorem State.modDev_xpdr (s : State) (f : Device → Device) : (s.modDev f).xpdr = s.xpdr := rfl
@[simp] theorem State.modDev_flash (s : State) (f : Device → Device) : (s.modDev f).flash = s.flash := rfl
@[simp] theorem State.modDev_flashState (s : State) (f : Device → Device) : (s.modDev f).flashState = s.flashState := rfl
@[simp] theorem State.modDev_sram (s : State) (f : Device → Device) : (s.modDev f).sram = s.sram := rfl
@[simp] theorem State.modDev_spill (s : State) (f : Device → Device) : (s.modDev f).spill = s.spill := rfl

/-! State.begin changes `running` alone. -/

@[simp] theorem State.begin_pending (s : State) (c : Cmd) (j : Job) : (s.begin c j).pending = s.pending := rfl
@[simp] theorem State.begin_raised (s : State) (c : Cmd) (j : Job) : (s.begin c j).raised = s.raised := rfl
@[simp] theorem State.begin_free (s : State) (c : Cmd) (j : Job) : (s.begin c j).free = s.free := rfl
@[simp] theorem State.begin_ports (s : State) (c : Cmd) (j : Job) : (s.begin c j).ports = s.ports := rfl
@[simp] theorem State.begin_gtmr (s : State) (c : Cmd) (j : Job) : (s.begin c j).gtmr = s.gtmr := rfl
@[simp] theorem State.begin_hosts (s : State) (c : Cmd) (j : Job) : (s.begin c j).hosts = s.hosts := rfl
@[simp] theorem State.begin_owner (s : State) (c : Cmd) (j : Job) : (s.begin c j).owner = s.owner := rfl
@[simp] theorem State.begin_devOwn (s : State) (c : Cmd) (j : Job) : (s.begin c j).devOwn = s.devOwn := rfl
@[simp] theorem State.begin_coord (s : State) (c : Cmd) (j : Job) : (s.begin c j).coord = s.coord := rfl
@[simp] theorem State.begin_table (s : State) (c : Cmd) (j : Job) : (s.begin c j).table = s.table := rfl
@[simp] theorem State.begin_ttGen (s : State) (c : Cmd) (j : Job) : (s.begin c j).ttGen = s.ttGen := rfl
@[simp] theorem State.begin_ttFullPolicy (s : State) (c : Cmd) (j : Job) : (s.begin c j).ttFullPolicy = s.ttFullPolicy := rfl
@[simp] theorem State.begin_ttCensusEvents (s : State) (c : Cmd) (j : Job) : (s.begin c j).ttCensusEvents = s.ttCensusEvents := rfl
@[simp] theorem State.begin_cal (s : State) (c : Cmd) (j : Job) : (s.begin c j).cal = s.cal := rfl
@[simp] theorem State.begin_xchkPend (s : State) (c : Cmd) (j : Job) : (s.begin c j).xchkPend = s.xchkPend := rfl
@[simp] theorem State.begin_calDue (s : State) (c : Cmd) (j : Job) : (s.begin c j).calDue = s.calDue := rfl
@[simp] theorem State.begin_trims (s : State) (c : Cmd) (j : Job) : (s.begin c j).trims = s.trims := rfl
@[simp] theorem State.begin_staged (s : State) (c : Cmd) (j : Job) : (s.begin c j).staged = s.staged := rfl
@[simp] theorem State.begin_imports (s : State) (c : Cmd) (j : Job) : (s.begin c j).imports = s.imports := rfl
@[simp] theorem State.begin_pcr (s : State) (c : Cmd) (j : Job) : (s.begin c j).pcr = s.pcr := rfl
@[simp] theorem State.begin_aon (s : State) (c : Cmd) (j : Job) : (s.begin c j).aon = s.aon := rfl
@[simp] theorem State.begin_kiln (s : State) (c : Cmd) (j : Job) : (s.begin c j).kiln = s.kiln := rfl
@[simp] theorem State.begin_xpdr (s : State) (c : Cmd) (j : Job) : (s.begin c j).xpdr = s.xpdr := rfl
@[simp] theorem State.begin_dev (s : State) (c : Cmd) (j : Job) : (s.begin c j).dev = s.dev := rfl
@[simp] theorem State.begin_flash (s : State) (c : Cmd) (j : Job) : (s.begin c j).flash = s.flash := rfl
@[simp] theorem State.begin_flashState (s : State) (c : Cmd) (j : Job) : (s.begin c j).flashState = s.flashState := rfl
@[simp] theorem State.begin_sram (s : State) (c : Cmd) (j : Job) : (s.begin c j).sram = s.sram := rfl
@[simp] theorem State.begin_spill (s : State) (c : Cmd) (j : Job) : (s.begin c j).spill = s.spill := rfl

/-! ## Vectors -/

@[simp] theorem vget_set {α : Type} {n : Nat} (v : Vector α n) (i : Fin n) (x : α) : (v.set i.val x).get i = x := by
  show (v.set i.val x)[i.val] = x
  simp

@[simp] theorem vget_set_ne {α : Type} {n : Nat} (v : Vector α n) (i j : Fin n) (x : α) (h : j ≠ i) :
    (v.set i.val x).get j = v.get j := by
  have : i.val ≠ j.val := fun e => h (Fin.ext e.symm)
  show (v.set i.val x)[j.val] = v[j.val]
  simp [this]

@[simp] theorem vset_set {α : Type} {n : Nat} (v : Vector α n) (i : Fin n) (x y : α) :
    (v.set i.val x).set i.val y = v.set i.val y := by simp

@[simp] theorem vset_get {α : Type} {n : Nat} (v : Vector α n) (i : Fin n) : v.set i.val (v.get i) = v := by
  show v.set i.val v[i.val] = v
  simp

/-! ## What the changed field holds -/

@[simp] theorem State.setPort_port (s : State) (p : PortNum) (q : Port) : (s.setPort p q).port p = q := by
  simp [State.setPort, State.port]

@[simp] theorem State.setPort_port_ne (s : State) (p r : PortNum) (q : Port) (h : r ≠ p) :
    (s.setPort p q).port r = s.port r := by
  simp [State.setPort, State.port, h]

@[simp] theorem State.setPort_setPort (s : State) (p : PortNum) (q r : Port) :
    (s.setPort p q).setPort p r = s.setPort p r := by
  simp [State.setPort]

@[simp] theorem State.setPort_self (s : State) (p : PortNum) : s.setPort p (s.port p) = s := by
  simp [State.setPort, State.port]

@[simp] theorem State.modPort_port (s : State) (p : PortNum) (f : Port → Port) :
    (s.modPort p f).port p = f (s.port p) := by simp [State.modPort]

@[simp] theorem State.modPort_port_ne (s : State) (p r : PortNum) (f : Port → Port) (h : r ≠ p) :
    (s.modPort p f).port r = s.port r := by simp [State.modPort, h]

@[simp] theorem State.modPort_modPort (s : State) (p : PortNum) (f g : Port → Port) :
    (s.modPort p f).modPort p g = s.modPort p (fun q => g (f q)) := by simp [State.modPort]

@[simp] theorem State.modEng_port (s : State) (p : PortNum) (f : Engine → Engine) :
    (s.modEng p f).port p = { s.port p with eng := f (s.port p).eng } := by simp [State.modEng]

@[simp] theorem State.modEng_port_ne (s : State) (p r : PortNum) (f : Engine → Engine) (h : r ≠ p) :
    (s.modEng p f).port r = s.port r := by simp [State.modEng, h]

@[simp] theorem State.modSvc_port (s : State) (p : PortNum) (f : PortSvc → PortSvc) :
    (s.modSvc p f).port p = { s.port p with svc := f (s.port p).svc } := by simp [State.modSvc]

@[simp] theorem State.modSvc_port_ne (s : State) (p r : PortNum) (f : PortSvc → PortSvc) (h : r ≠ p) :
    (s.modSvc p f).port r = s.port r := by simp [State.modSvc, h]

@[simp] theorem State.modFramer_port (s : State) (p : PortNum) (f : Framer → Framer) :
    (s.modFramer p f).port p = { s.port p with framer := f (s.port p).framer } := by simp [State.modFramer]

@[simp] theorem State.modFramer_port_ne (s : State) (p r : PortNum) (f : Framer → Framer) (h : r ≠ p) :
    (s.modFramer p f).port r = s.port r := by simp [State.modFramer, h]

@[simp] theorem State.pset_port (s : State) (p : PortNum) (f : Fld) (v : Nat) :
    (s.pset p f v).port p = (s.port p).set f v := by simp [State.pset]

@[simp] theorem State.pset_port_ne (s : State) (p r : PortNum) (f : Fld) (v : Nat) (h : r ≠ p) :
    (s.pset p f v).port r = s.port r := by simp [State.pset, h]

@[simp] theorem State.modHost_host (s : State) (h : HostNum) (f : HostPort → HostPort) :
    (s.modHost h f).host h = f (s.host h) := by
  simp [State.modHost, State.host]

@[simp] theorem State.modHost_host_ne (s : State) (h g : HostNum) (f : HostPort → HostPort) (e : g ≠ h) :
    (s.modHost h f).host g = s.host g := by
  simp [State.modHost, State.host, e]

@[simp] theorem State.modHost_modHost (s : State) (h : HostNum) (f g : HostPort → HostPort) :
    (s.modHost h f).modHost h g = s.modHost h (fun x => g (f x)) := by
  simp [State.modHost, State.host]

@[simp] theorem State.modDev_dev (s : State) (f : Device → Device) : (s.modDev f).dev = f s.dev := rfl
@[simp] theorem State.modX_xpdr (s : State) (f : Xpdr → Xpdr) : (s.modX f).xpdr = f s.xpdr := rfl
@[simp] theorem State.begin_running (s : State) (c : Cmd) (j : Job) : (s.begin c j).running = s.running ++ [⟨c, j⟩] := rfl

end Sys2Proof.Machine
end

