-- ==== Sys2Proof/Laws/Fields.lean ====
section
/-! SUPPORT. Fields of a word and of a register block: a write reads back, and leaves every other field. -/

namespace Sys2Proof.Machine

theorem wmask_bit (lo len i : Nat) (h : lo + len ≤ 32) :
    (wmask lo len).getLsbD i = (decide (lo ≤ i) && decide (i < lo + len)) := by
  unfold wmask
  simp only [BitVec.getLsbD_ofNat, Nat.testBit_shiftLeft, Nat.testBit_two_pow_sub_one]
  by_cases h1 : lo ≤ i
  · by_cases h2 : i < lo + len
    · simp [h1, h2]; omega
    · have : ¬ (i - lo < len) := by omega
      simp [h2, this]
  · simp [h1]

/-- A bit of a word with a field replaced. -/
theorem wset_bit (w : Word) (lo len v i : Nat) (h : lo + len ≤ 32) :
    (wset w lo len v).getLsbD i = if lo ≤ i ∧ i < lo + len then v.testBit (i - lo) else w.getLsbD i := by
  unfold wset
  simp only [BitVec.getLsbD_or, BitVec.getLsbD_and, BitVec.getLsbD_not, wmask_bit _ _ _ h, BitVec.getLsbD_ofNat,
    Nat.testBit_shiftLeft, Nat.testBit_mod_two_pow]
  by_cases h1 : lo ≤ i <;> by_cases h2 : i < lo + len
  · have h3 : i - lo < len := by omega
    have h4 : i < 32 := by omega
    simp [h1, h2, h3, h4]
  · have h3 : ¬ (i - lo < len) := by omega
    by_cases h4 : i < 32
    · simp [h2, h3, h4]
    · have : w.getLsbD i = false := BitVec.getLsbD_of_ge w i (by omega)
      simp [h2, h3, this]
  · by_cases h4 : i < 32
    · simp [h1, h4]
    · omega
  · by_cases h4 : i < 32
    · simp [h1, h4]
    · have : w.getLsbD i = false := BitVec.getLsbD_of_ge w i (by omega)
      simp [h1, this]

theorem wget_testBit (w : Word) (lo len i : Nat) :
    (wget w lo len).testBit i = (decide (i < len) && w.getLsbD (lo + i)) := by
  unfold wget
  rw [Nat.testBit_mod_two_pow, Nat.testBit_shiftRight, BitVec.testBit_toNat]

/-- A field reads back what was written, cut to its width. -/
theorem wget_wset (w : Word) (lo len v : Nat) (h : lo + len ≤ 32) : wget (wset w lo len v) lo len = v % 2 ^ len := by
  apply Nat.eq_of_testBit_eq
  intro i
  rw [wget_testBit, wset_bit _ _ _ _ _ h, Nat.testBit_mod_two_pow]
  by_cases hi : i < len
  · have : lo + i < lo + len := by omega
    simp [hi]
  · simp [hi]

/-- A field that lies apart is left. -/
theorem wget_wset_ne (w : Word) (lo len v lo' len' : Nat) (h : lo + len ≤ 32) (hd : lo' + len' ≤ lo ∨ lo + len ≤ lo') :
    wget (wset w lo len v) lo' len' = wget w lo' len' := by
  apply Nat.eq_of_testBit_eq
  intro i
  rw [wget_testBit, wget_testBit, wset_bit _ _ _ _ _ h]
  by_cases hi : i < len'
  · have : ¬ (lo ≤ lo' + i ∧ lo' + i < lo + len) := by omega
    simp [this]
  · simp [hi]

/-! ## Register blocks -/

theorem Cells.get_set (b : Block) (c : Cells) (f : Fld) (v : Nat) (h : f.fits) :
    Cells.get b (Cells.set b c f v) f = v % 2 ^ f.len := by
  simp [Cells.get, Cells.set, wget_wset _ _ _ _ h]

theorem Cells.get_set_ne (b : Block) (c : Cells) (f g : Fld) (v : Nat) (h : g.fits) (hd : f.apart g) :
    Cells.get b (Cells.set b c g v) f = Cells.get b c f := by
  unfold Cells.get Cells.set
  by_cases e : f.off = g.off
  · rw [e, Cells.word_put]
    exact wget_wset_ne _ _ _ _ _ _ h (hd.resolve_left (by simp [e]))
  · rw [Cells.word_put_ne _ _ _ _ _ e]

theorem Cells.word_set_ne (b : Block) (c : Cells) (f : Fld) (v o : Nat) (h : o ≠ f.off) :
    Cells.word b (Cells.set b c f v) o = Cells.word b c o := by
  unfold Cells.set; rw [Cells.word_put_ne _ _ _ _ _ h]

/-- A field of a port reads back. -/
theorem State.pget_pset (s : State) (p : PortNum) (f : Fld) (v : Nat) (h : f.fits) :
    (s.pset p f v).pget p f = v % 2 ^ f.len := by
  simp [State.pget, Port.get, Port.set, Cells.get_set _ _ _ _ h]

/-- A field of a port that lies apart is left. -/
theorem State.pget_pset_ne (s : State) (p : PortNum) (f g : Fld) (v : Nat) (h : g.fits) (hd : f.apart g) :
    (s.pset p g v).pget p f = s.pget p f := by
  simp [State.pget, Port.get, Port.set, Cells.get_set_ne _ _ _ _ _ h hd]

/-- Another port is left. -/
@[simp] theorem State.pget_pset_port (s : State) (p r : PortNum) (f g : Fld) (v : Nat) (h : r ≠ p) :
    (s.pset p g v).pget r f = s.pget r f := by
  simp [State.pget, h]

end Sys2Proof.Machine
end

