-- ==== Sys2Proof/Laws/Run.lean ====
section
/-! SUPPORT. How a step ends: what it made ready goes to the host ports, and nothing else changes. -/

namespace Sys2Proof.Machine

theorem postResponses_eq (all l : List OutItem) (s : State) :
    postResponses all l s = { s with hosts := (postResponses all l s).hosts } := by
  induction l generalizing s with
  | nil => rfl
  | cons i l ih =>
    cases i with
    | event => exact ih s
    | response hp pkts =>
      simp only [postResponses]
      conv => lhs; rw [ih]
      rfl

theorem postEvents_eq (l : List OutItem) (s : State) : postEvents l s = { s with hosts := (postEvents l s).hosts } := by
  induction l generalizing s with
  | nil => rfl
  | cons i l ih =>
    cases i with
    | response => exact ih s
    | event hp target code payload =>
      simp only [postEvents]
      conv => lhs; rw [ih]
      rfl

/-- What a step made ready goes to the host ports alone. -/
theorem State.flush_eq (s : State) : s.flush = { s with raised := [], hosts := s.flush.hosts } := by
  unfold State.flush
  obtain ⟨x, hx⟩ : ∃ x, postResponses s.raised s.raised { s with raised := [] } = { s with raised := [], hosts := x } :=
    ⟨_, postResponses_eq ..⟩
  obtain ⟨y, hy⟩ : ∃ y, postEvents s.raised { s with raised := [], hosts := x } = { s with raised := [], hosts := y } :=
    ⟨_, postEvents_eq ..⟩
  rw [hx, hy]

@[simp] theorem State.flush_raised (s : State) : s.flush.raised = [] := by rw [State.flush_eq]
@[simp] theorem State.flush_pending (s : State) : s.flush.pending = s.pending := by rw [State.flush_eq]
@[simp] theorem State.flush_free (s : State) : s.flush.free = s.free := by rw [State.flush_eq]
@[simp] theorem State.flush_ports (s : State) : s.flush.ports = s.ports := by rw [State.flush_eq]
@[simp] theorem State.flush_gtmr (s : State) : s.flush.gtmr = s.gtmr := by rw [State.flush_eq]
@[simp] theorem State.flush_owner (s : State) : s.flush.owner = s.owner := by rw [State.flush_eq]
@[simp] theorem State.flush_devOwn (s : State) : s.flush.devOwn = s.devOwn := by rw [State.flush_eq]
@[simp] theorem State.flush_running (s : State) : s.flush.running = s.running := by rw [State.flush_eq]
@[simp] theorem State.flush_coord (s : State) : s.flush.coord = s.coord := by rw [State.flush_eq]
@[simp] theorem State.flush_table (s : State) : s.flush.table = s.table := by rw [State.flush_eq]
@[simp] theorem State.flush_ttGen (s : State) : s.flush.ttGen = s.ttGen := by rw [State.flush_eq]
@[simp] theorem State.flush_ttFullPolicy (s : State) : s.flush.ttFullPolicy = s.ttFullPolicy := by rw [State.flush_eq]
@[simp] theorem State.flush_ttCensusEvents (s : State) : s.flush.ttCensusEvents = s.ttCensusEvents := by rw [State.flush_eq]
@[simp] theorem State.flush_cal (s : State) : s.flush.cal = s.cal := by rw [State.flush_eq]
@[simp] theorem State.flush_xchkPend (s : State) : s.flush.xchkPend = s.xchkPend := by rw [State.flush_eq]
@[simp] theorem State.flush_calDue (s : State) : s.flush.calDue = s.calDue := by rw [State.flush_eq]
@[simp] theorem State.flush_trims (s : State) : s.flush.trims = s.trims := by rw [State.flush_eq]
@[simp] theorem State.flush_staged (s : State) : s.flush.staged = s.staged := by rw [State.flush_eq]
@[simp] theorem State.flush_imports (s : State) : s.flush.imports = s.imports := by rw [State.flush_eq]
@[simp] theorem State.flush_pcr (s : State) : s.flush.pcr = s.pcr := by rw [State.flush_eq]
@[simp] theorem State.flush_aon (s : State) : s.flush.aon = s.aon := by rw [State.flush_eq]
@[simp] theorem State.flush_kiln (s : State) : s.flush.kiln = s.kiln := by rw [State.flush_eq]
@[simp] theorem State.flush_xpdr (s : State) : s.flush.xpdr = s.xpdr := by rw [State.flush_eq]
@[simp] theorem State.flush_dev (s : State) : s.flush.dev = s.dev := by rw [State.flush_eq]
@[simp] theorem State.flush_flash (s : State) : s.flush.flash = s.flash := by rw [State.flush_eq]
@[simp] theorem State.flush_flashState (s : State) : s.flush.flashState = s.flashState := by rw [State.flush_eq]
@[simp] theorem State.flush_sram (s : State) : s.flush.sram = s.sram := by rw [State.flush_eq]
@[simp] theorem State.flush_spill (s : State) : s.flush.spill = s.spill := by rw [State.flush_eq]

@[simp] theorem State.flush_port (s : State) (p : PortNum) : s.flush.port p = s.port p := by simp [State.port]

/-- A step that made nothing ready changes nothing at its end. -/
theorem State.flush_nil (s : State) (h : s.raised = []) : s.flush = s := by
  unfold State.flush
  rw [h]
  show { s with raised := [] } = s
  rw [← h]

/-- Every meaning answers a next state. -/
theorem run_next (f : State → State) (s : State) : ∃ t, run f s = .next t := ⟨_, rfl⟩

/-- What a meaning's next state holds. -/
theorem run_eq_next {f : State → State} {s t : State} (h : run f s = .next t) :
    t = { (f s).flush with pending := s.pending } := by
  unfold run at h; injection h with h; exact h.symm

/-- A meaning leaves the queue and leaves nothing unposted. -/
theorem run_frame {f : State → State} {s t : State} (h : run f s = .next t) : t.pending = s.pending ∧ t.raised = [] := by
  rw [run_eq_next h]; exact ⟨rfl, State.flush_raised _⟩

/-- A meaning that makes nothing ready and leaves the queue answers its effect. -/
theorem run_quiet (f : State → State) (s : State) (h : (f s).raised = []) (hp : (f s).pending = s.pending) :
    run f s = .next (f s) := by
  unfold run; rw [State.flush_nil _ h, ← hp]

/-- A row whose effect makes nothing ready answers that effect. -/
theorem exec_to {i : Instr} {f : State → State} {s v : State} (e : exec i = run f) (h : f s = v) (r : v.raised = [])
    (p : v.pending = s.pending) : exec i s = .next v := by
  rw [e]; unfold run; rw [h, State.flush_nil v r, ← p]

/-- A row whose effect ends with what reaches the host ports as `t` answers `t`. -/
theorem exec_flush {i : Instr} {f : State → State} {s v t : State} (e : exec i = run f) (h : f s = v) (h2 : v.flush = t)
    (p : t.pending = s.pending) : exec i s = .next t := by
  rw [e]; unfold run; rw [h, h2, ← p]

theorem pendsFor_congr {s t : State} (h : s.hosts = t.hosts) (hp : HostNum) (l : List OutItem) :
    pendsFor s hp l = pendsFor t hp l := by unfold pendsFor State.host; rw [h]

theorem State.modHost_hosts_congr {s t : State} (h : s.hosts = t.hosts) (q : HostNum) (f g : HostPort → HostPort)
    (e : f = g) : (s.modHost q f).hosts = (t.modHost q g).hosts := by
  unfold State.modHost State.host; rw [h, e]

theorem postResponses_congr (all l : List OutItem) (s t : State) (h : s.hosts = t.hosts) :
    (postResponses all l s).hosts = (postResponses all l t).hosts := by
  induction l generalizing s t with
  | nil => exact h
  | cons i l ih =>
    cases i with
    | event => exact ih s t h
    | response hp pk =>
      simp only [postResponses]
      exact ih _ _ (State.modHost_hosts_congr h _ _ _ (by rw [pendsFor_congr h]))

theorem postEvents_congr (l : List OutItem) (s t : State) (h : s.hosts = t.hosts) :
    (postEvents l s).hosts = (postEvents l t).hosts := by
  induction l generalizing s t with
  | nil => exact h
  | cons i l ih =>
    cases i with
    | response => exact ih s t h
    | event hp target code payload =>
      simp only [postEvents]
      exact ih _ _ (State.modHost_hosts_congr h _ _ _ (by rw [pendsFor_congr h]))

/-- What reaches the host ports follows from the host ports and what was made ready. -/
theorem State.flush_hosts_congr {s t : State} (h : s.hosts = t.hosts) (r : s.raised = t.raised) :
    s.flush.hosts = t.flush.hosts := by
  unfold State.flush
  rw [r]
  exact postEvents_congr _ _ _ (postResponses_congr _ _ _ _ h)

/-- The end of a step leaves a change of any other part. -/
theorem State.flush_congr {s t : State} (h : s.hosts = t.hosts) (r : s.raised = t.raised) :
    s.flush = { s with raised := [], hosts := t.flush.hosts } := by
  rw [State.flush_eq s, State.flush_hosts_congr h r]

end Sys2Proof.Machine
end

