-- ==== Sys2Proof/Laws/Engine.lean ====
section
/-! SUPPORT. What the operations of an engine change, and how an instruction is issued and leaves the engine. -/

namespace Sys2Proof.Machine

/-! ## Words of a port's registers -/

@[simp] theorem Port.word_putWord (q : Port) (o : Nat) (w : Word) : (q.putWord o w).word o = w := by
  simp [Port.word, Port.putWord]

@[simp] theorem Port.word_putWord_ne (q : Port) (o o' : Nat) (w : Word) (h : o' ≠ o) :
    (q.putWord o w).word o' = q.word o' := by simp [Port.word, Port.putWord, h]

@[simp] theorem Port.putWord_eng (q : Port) (o : Nat) (w : Word) : (q.putWord o w).eng = q.eng := rfl
@[simp] theorem Port.set_eng (q : Port) (f : Fld) (v : Nat) : (q.set f v).eng = q.eng := rfl

theorem Port.word_set_ne (q : Port) (f : Fld) (v o : Nat) (h : o ≠ f.off) : (q.set f v).word o = q.word o := by
  simp [Port.word, Port.set, Cells.word_set_ne _ _ _ _ _ h]

theorem Port.get_word (q : Port) (f : Fld) : q.get f = wget (q.word f.off) f.lo f.len := rfl

/-! ## Registers and flags -/

@[simp] theorem State.reg_setReg (s : State) (e : PortNum) (r : RegNum) (w : Word) : (s.setReg e r w).reg e r = w := by
  simp [State.setReg, State.reg, State.eng]

theorem State.reg_setReg_ne (s : State) (e : PortNum) (r j : RegNum) (w : Word) (h : j ≠ r) :
    (s.setReg e r w).reg e j = s.reg e j := by
  simp [State.setReg, State.reg, State.eng, h]

theorem State.eswBit_setEsw (s : State) (e : PortNum) (i j : Nat) (b : Bool) (h : i < 32) :
    (s.setEsw e i b).eswBit e j = if j = i then b else s.eswBit e j := by
  simp only [State.setEsw, State.eswBit, State.eng, State.modEng_port]
  rw [wset_bit _ _ _ _ _ (by omega)]
  by_cases hj : j = i
  · subst hj; cases b <;> simp [bit]
  · have : ¬ (i ≤ j ∧ j < i + 1) := by omega
    rw [if_neg this, if_neg hj]

theorem State.eswBit_optFlag (s : State) (e : PortNum) (i j : Nat) (b : Option Bool) (h : i < 32) :
    (s.optFlag e i b).eswBit e j = if j = i then b.getD (s.eswBit e j) else s.eswBit e j := by
  cases b with
  | none => simp [State.optFlag]
  | some b => simp [State.optFlag, State.eswBit_setEsw _ _ _ _ _ h]

/-! ## What an instruction moves -/

/-- `t` differs from `s` in general registers and ESW of engine `e` only. -/
def RegSide (s t : State) (e : PortNum) : Prop :=
  ∃ g w, t = s.modEng e fun x => { x with g, esw := w }

theorem RegSide.refl (s : State) (e : PortNum) : RegSide s s e :=
  ⟨(s.eng e).g, (s.eng e).esw, (State.setPort_self s e).symm⟩

theorem RegSide.setReg {s t : State} {e : PortNum} (h : RegSide s t e) (r : RegNum) (w : Word) :
    RegSide s (t.setReg e r w) e := by
  obtain ⟨g, x, rfl⟩ := h
  exact ⟨g.set r w, x, by simp [State.setReg, State.modEng]⟩

theorem RegSide.setEsw {s t : State} {e : PortNum} (h : RegSide s t e) (i : Nat) (b : Bool) :
    RegSide s (t.setEsw e i b) e := by
  obtain ⟨g, x, rfl⟩ := h
  exact ⟨g, wset x i 1 (bit b), by simp [State.setEsw, State.modEng]⟩

theorem RegSide.optFlag {s t : State} {e : PortNum} (h : RegSide s t e) (i : Nat) (b : Option Bool) :
    RegSide s (t.optFlag e i b) e := by
  cases b with
  | none => exact h
  | some b => exact h.setEsw i b

theorem RegSide.setFlags {s t : State} {e : PortNum} (h : RegSide s t e) (o : AluOut) : RegSide s (t.setFlags e o) e :=
  (((h.optFlag 0 _).optFlag 1 _).optFlag 2 _).optFlag 3 _

theorem RegSide.aluTo {s t : State} {e : PortNum} (h : RegSide s t e) (r : RegNum) (o : AluOut) :
    RegSide s (t.aluTo e r o) e := (h.setReg r _).setFlags o

/-! ## Leaving the engine -/

/-- The state after an instruction that goes on to address `a` with `k` cycles spent and `l` loaded. -/
def State.after (u : State) (e : PortNum) (k : Nat) (l : Option RegNum) (a : Word) : State :=
  ((u.spend e k).setLoad e l).setPc e a

theorem State.after_eq (u : State) (e : PortNum) (k : Nat) (l : Option RegNum) (a : Word) :
    u.after e k l a = u.modPort e fun q =>
      ({ q.putWord ENG_CYCLE.reg (q.word ENG_CYCLE.reg + BitVec.ofNat 32 k) with
          eng := { q.eng with lastLoad := l } } : Port).putWord ENG_PC.reg a := by
  simp [State.after, State.spend, State.setLoad, State.setPc, State.modEng]

@[simp] theorem State.after_reg (u : State) (e : PortNum) (k : Nat) (l : Option RegNum) (a : Word) (r : RegNum) :
    (u.after e k l a).reg e r = u.reg e r := by simp [State.after_eq, State.reg, State.eng]

@[simp] theorem State.after_eswBit (u : State) (e : PortNum) (k : Nat) (l : Option RegNum) (a : Word) (i : Nat) :
    (u.after e k l a).eswBit e i = u.eswBit e i := by simp [State.after_eq, State.eswBit, State.eng]

@[simp] theorem State.after_pc (u : State) (e : PortNum) (k : Nat) (l : Option RegNum) (a : Word) :
    (u.after e k l a).pc e = a := by simp [State.after_eq, State.pc]

@[simp] theorem State.after_raised (u : State) (e : PortNum) (k : Nat) (l : Option RegNum) (a : Word) :
    (u.after e k l a).raised = u.raised := rfl

@[simp] theorem State.after_pending (u : State) (e : PortNum) (k : Nat) (l : Option RegNum) (a : Word) :
    (u.after e k l a).pending = u.pending := rfl

theorem State.after_word (u : State) (e : PortNum) (k : Nat) (l : Option RegNum) (a : Word) (o : Nat)
    (h : o ∉ pcAndCycle) : ((u.after e k l a).port e).word o = (u.port e).word o := by
  simp only [pcAndCycle, List.mem_cons, List.not_mem_nil, or_false, not_or] at h
  rw [State.after_eq, State.modPort_port, Port.word_putWord_ne _ _ _ _ h.1]
  exact Port.word_putWord_ne _ _ _ _ h.2

theorem State.after_only (u : State) (e : PortNum) (k : Nat) (l : Option RegNum) (a : Word) :
    OnlyEngine u (u.after e k l a) e :=
  ⟨rfl, fun q h => by simp [State.after_eq, h], by simp [State.after_eq, Port.putWord]⟩

theorem State.after_mem (u : State) (e : PortNum) (k : Nat) (l : Option RegNum) (a : Word) :
    EngMemKept u (u.after e k l a) e := by simp [EngMemKept, State.after_eq, State.eng]

theorem RegSide.frame {s u : State} {e : PortNum} (h : RegSide s u e) (k : Nat) (l : Option RegNum) (a : Word) :
    RegInstrFrame s (u.after e k l a) e := by
  obtain ⟨g, w, rfl⟩ := h
  refine ⟨⟨rfl, fun q hq => ?_, ?_⟩, fun o ho => ?_, ?_⟩
  · simp [State.after_eq, hq]
  · simp [State.after_eq, Port.putWord]
  · rw [State.after_word _ _ _ _ _ _ ho]; simp [Port.word]
  · simp [EngMemKept, State.after_eq, State.eng]

theorem RegSide.word {s u : State} {e : PortNum} (h : RegSide s u e) (o : Nat) : (u.port e).word o = (s.port e).word o := by
  obtain ⟨g, w, rfl⟩ := h; simp [Port.word]

theorem State.haltCheck_run (s : State) (e : PortNum) (h : s.pget e ENG_CTL.HALT = 0) : s.haltCheck e = s := by
  simp [State.haltCheck, h]

/-- An instruction that goes on to the next address. -/
theorem issue_next {s u : State} {e : PortNum} {i : EngInstr} {cyc : Nat} (hr : EngReady s e)
    (hd : s.engDo e i = (.next, cyc, u)) (hc : cyc ≠ 0) (hh : u.pget e ENG_CTL.HALT = 0) :
    s.issue e i = u.after e (cyc + bit (s.loadStall e i)) i.loads (s.pc e + 4) := by
  obtain ⟨_, hruns, hpc, hrep, _⟩ := hr
  have hp : s.perform e i = u.after e (cyc + bit (s.loadStall e i)) i.loads (s.pc e + 4) := by
    have hb : (cyc != 0) = true := by simpa using hc
    simp [State.perform, hd, hc, hb, hrep, State.after]
  have hh' : (u.after e (cyc + bit (s.loadStall e i)) i.loads (s.pc e + 4)).pget e ENG_CTL.HALT = 0 := by
    rw [State.pget, Port.get_word, State.after_word _ _ _ _ _ _ (by decide)]; exact hh
  simp only [State.issue, hruns, if_true, hrep, if_neg (Nat.not_le.2 hpc), ne_eq, not_true_eq_false, false_and, if_false]
  rw [hp, State.haltCheck_run _ _ hh']

/-- An instruction that goes on at another address. -/
theorem issue_jump {s u : State} {e : PortNum} {i : EngInstr} {cyc : Nat} {a : Word} (hr : EngReady s e)
    (hd : s.engDo e i = (.jump a, cyc, u)) (hc : cyc ≠ 0) (hh : u.pget e ENG_CTL.HALT = 0) :
    s.issue e i = u.after e (cyc + bit (s.loadStall e i)) i.loads (a &&& ~~~3) := by
  obtain ⟨_, hruns, hpc, hrep, _⟩ := hr
  have hp : s.perform e i = u.after e (cyc + bit (s.loadStall e i)) i.loads (a &&& ~~~3) := by
    have hb : (cyc != 0) = true := by simpa using hc
    simp [State.perform, hd, hc, hb, State.after]
  have hh' : (u.after e (cyc + bit (s.loadStall e i)) i.loads (a &&& ~~~3)).pget e ENG_CTL.HALT = 0 := by
    rw [State.pget, Port.get_word, State.after_word _ _ _ _ _ _ (by decide)]; exact hh
  simp only [State.issue, hruns, if_true, hrep, if_neg (Nat.not_le.2 hpc), ne_eq, not_true_eq_false, false_and, if_false]
  rw [hp, State.haltCheck_run _ _ hh']

/-- A meaning that issues an instruction which works on registers and flags only. -/
theorem regSide_halt {s u : State} {e : PortNum} (hr : EngReady s e) (h : RegSide s u e) : u.pget e ENG_CTL.HALT = 0 := by
  rw [State.pget, Port.get_word, h.word]; exact hr.2.2.2.2

/-- The next state of a register instruction. -/
theorem run_reg {s u : State} {e : PortNum} {i : EngInstr} {cyc : Nat} (hr : EngReady s e)
    (hd : s.engDo e i = (.next, cyc, u)) (hc : cyc ≠ 0) (h : RegSide s u e) :
    ∃ k l, run (fun s => s.issue e i) s = .next (u.after e k l (s.pc e + 4)) ∧
      RegInstrFrame s (u.after e k l (s.pc e + 4)) e := by
  have hi := issue_next hr hd hc (regSide_halt hr h)
  refine ⟨cyc + bit (s.loadStall e i), i.loads, ?_, h.frame _ _ _⟩
  rw [run_quiet, hi]
  · rw [hi]; obtain ⟨g, w, rfl⟩ := h; exact hr.1
  · rw [hi]; obtain ⟨g, w, rfl⟩ := h; rfl

/-- The flags of a result. -/
theorem flagsTo_setFlags (s u : State) (e : PortNum) (o : AluOut) (h : ∀ j, u.eswBit e j = s.eswBit e j) :
    FlagsTo s (u.setFlags e o) e o.z o.n o.c o.v := by
  unfold FlagsTo State.setFlags
  refine ⟨?_, ?_, ?_, ?_, fun i hi => ?_⟩
  · simp [State.eswBit_optFlag, h]
  · simp [State.eswBit_optFlag, h]
  · simp [State.eswBit_optFlag, h]
  · simp [State.eswBit_optFlag, h]
  · have h0 : i ≠ 0 := by omega
    have h1 : i ≠ 1 := by omega
    have h2 : i ≠ 2 := by omega
    have h3 : i ≠ 3 := by omega
    simp [State.eswBit_optFlag, h, h0, h1, h2, h3]

@[simp] theorem State.eswBit_setReg (s : State) (e : PortNum) (r : RegNum) (w : Word) (j : Nat) :
    (s.setReg e r w).eswBit e j = s.eswBit e j := by simp [State.setReg, State.eswBit, State.eng]

@[simp] theorem State.reg_setEsw (s : State) (e : PortNum) (i : Nat) (b : Bool) (r : RegNum) :
    (s.setEsw e i b).reg e r = s.reg e r := by simp [State.setEsw, State.reg, State.eng]

@[simp] theorem State.reg_optFlag (s : State) (e : PortNum) (i : Nat) (b : Option Bool) (r : RegNum) :
    (s.optFlag e i b).reg e r = s.reg e r := by cases b <;> simp [State.optFlag]

@[simp] theorem State.reg_setFlags (s : State) (e : PortNum) (o : AluOut) (r : RegNum) :
    (s.setFlags e o).reg e r = s.reg e r := by simp [State.setFlags]

/-- An instruction that writes a result with its flags. -/
theorem computes_alu {s : State} {e : PortNum} {i : Instr} {ei : EngInstr} {cyc : Nat} {rd : RegNum} {o : AluOut}
    (hr : EngReady s e) (hx : exec i s = run (fun s => s.issue e ei) s)
    (hd : s.engDo e ei = (.next, cyc, s.aluTo e rd o)) (hc : cyc ≠ 0) :
    Computes i s e rd o.value (fun t => FlagsTo s t e o.z o.n o.c o.v) := by
  have hs : RegSide s (s.aluTo e rd o) e := (RegSide.refl s e).aluTo rd o
  obtain ⟨k, l, h1, h2⟩ := run_reg hr hd hc hs
  refine ⟨_, hx.trans h1, ⟨?_, fun r hne => ?_⟩, ?_, State.after_pc .., h2⟩
  · simp [State.aluTo]
  · simp [State.aluTo, State.reg_setReg_ne _ _ _ _ _ hne]
  · have := flagsTo_setFlags s (s.setReg e rd o.value) e o (by simp)
    simpa [FlagsTo, State.aluTo] using this

/-- An instruction that sets flags only. -/
theorem answers_flags {s : State} {e : PortNum} {i : Instr} {ei : EngInstr} {cyc : Nat} {o : AluOut}
    (hr : EngReady s e) (hx : exec i s = run (fun s => s.issue e ei) s)
    (hd : s.engDo e ei = (.next, cyc, s.setFlags e o)) (hc : cyc ≠ 0) :
    Answers i s fun t => RegsSame s t e ∧ FlagsTo s t e o.z o.n o.c o.v ∧ t.pc e = s.pc e + 4 ∧ RegInstrFrame s t e := by
  obtain ⟨k, l, h1, h2⟩ := run_reg hr hd hc ((RegSide.refl s e).setFlags o)
  refine ⟨_, hx.trans h1, fun r => ?_, ?_, State.after_pc .., h2⟩
  · simp
  · simpa [FlagsTo] using flagsTo_setFlags s s e o (fun _ => rfl)

/-- An instruction that writes a register and no flag. -/
theorem computes_move {s : State} {e : PortNum} {i : Instr} {ei : EngInstr} {cyc : Nat} {rd : RegNum} {w : Word}
    (hr : EngReady s e) (hx : exec i s = run (fun s => s.issue e ei) s)
    (hd : s.engDo e ei = (.next, cyc, s.setReg e rd w)) (hc : cyc ≠ 0) :
    Computes i s e rd w (fun t => FlagsKept s t e) := by
  obtain ⟨k, l, h1, h2⟩ := run_reg hr hd hc ((RegSide.refl s e).setReg rd w)
  refine ⟨_, hx.trans h1, ⟨?_, fun r hne => ?_⟩, fun j => ?_, State.after_pc .., h2⟩
  · simp
  · simp [State.reg_setReg_ne _ _ _ _ _ hne]
  · simp

/-! ## Traps -/

/-- The state after a trap outside a trap (R447). -/
theorem State.trapTo_single (u : State) (e : PortNum) (c : Nat) (a : Word) (h : u.eswBit e 6 = false) :
    u.trapTo e c a = u.modPort e fun q =>
      { (((q.putWord ENG_TPC.reg a).set ENG_STAT.CAUSE c).putWord ENG_PC.reg 4) with
          eng := { q.eng with esw := wset q.eng.esw 6 1 1, repLeft := 0 } } := by
  simp [State.trapTo, h, State.pset, State.setEsw, State.setPc, State.modEng, bit, Port.putWord, Port.set]

/-- What a trap leaves, and what it changes. -/
theorem trap_facts (u : State) (e : PortNum) (c : Nat) (a : Word) (h : u.eswBit e 6 = false) :
    let t := u.trapTo e c a
    t.pc e = 4 ∧ (t.port e).word ENG_TPC.reg = a ∧ t.pget e ENG_STAT.CAUSE = c % 16 ∧
      (∀ j, t.eswBit e j = if j = 6 then true else u.eswBit e j) ∧ (∀ r, t.reg e r = u.reg e r) ∧
      t.raised = u.raised ∧ t.pending = u.pending ∧ OnlyEngine u t e ∧ (t.eng e).code = (u.eng e).code ∧
      (t.eng e).data = (u.eng e).data ∧ (t.eng e).bits = (u.eng e).bits ∧ (t.eng e).repLeft = 0 ∧
      RegsKept u t e [ENG_PC.reg, ENG_TPC.reg, ENG_STAT.reg] := by
  rw [State.trapTo_single u e c a h]
  refine ⟨by simp [State.pc, Port.word, Port.putWord], ?_, ?_, fun j => ?_, fun r => ?_, rfl, rfl, ⟨rfl, fun q hq => ?_, ?_⟩,
    by simp [State.eng], by simp [State.eng], by simp [State.eng], by simp [State.eng], fun o ho => ?_⟩
  · have h1 : ENG_TPC.reg ≠ ENG_PC.reg := by decide
    have h2 : ENG_TPC.reg ≠ ENG_STAT.CAUSE.off := by decide
    simp [Port.word, Port.putWord, Port.set, h1, Cells.word_set_ne _ _ _ _ _ h2]
  · have h1 : ENG_STAT.CAUSE.off ≠ ENG_PC.reg := by decide
    have h2 : ENG_STAT.CAUSE.lo + ENG_STAT.CAUSE.len ≤ 32 := by decide
    simp only [State.pget, Port.get, Cells.get, Port.putWord, Port.set, State.modPort_port]
    rw [Cells.word_put_ne _ _ _ _ _ h1, Cells.set, Cells.word_put, wget_wset _ _ _ _ h2]
    rfl
  · simp only [State.eswBit, State.eng, State.modPort_port]
    rw [wset_bit _ _ _ _ _ (by decide)]
    by_cases hj : j = 6
    · subst hj; simp
    · have : ¬ (6 ≤ j ∧ j < 6 + 1) := by omega
      rw [if_neg this, if_neg hj]
  · simp [State.reg, State.eng]
  · simp [hq]
  · simp [Port.putWord, Port.set]
  · simp only [List.mem_cons, List.not_mem_nil, or_false, not_or] at ho
    have h3 : o ≠ ENG_STAT.CAUSE.off := ho.2.2
    simp [Port.word, Port.putWord, Port.set, ho.1, ho.2.1, Cells.word_set_ne _ _ _ _ _ h3]

/-- An instruction that traps, performed or not. -/
theorem issue_trap {s u : State} {e : PortNum} {i : EngInstr} {cyc c : Nat} {done : Bool} (hr : EngReady s e)
    (hd : s.engDo e i = (.trap c done, cyc, u)) (hc : cyc ≠ 0) (h : u.eswBit e 6 = false)
    (hh : u.pget e ENG_CTL.HALT = 0) :
    s.issue e i = ((u.spend e (cyc + bit (s.loadStall e i))).setLoad e i.loads).trapTo e c
      (if done then s.pc e + 4 else s.pc e) := by
  obtain ⟨_, hruns, hpc, hrep, _⟩ := hr
  have hb : (cyc != 0) = true := by simpa using hc
  have hp : s.perform e i = ((u.spend e (cyc + bit (s.loadStall e i))).setLoad e i.loads).trapTo e c
      (if done then s.pc e + 4 else s.pc e) := by
    simp only [State.perform, hd, hb, Bool.and_true, if_neg hc]
  have h6 : ((u.spend e (cyc + bit (s.loadStall e i))).setLoad e i.loads).eswBit e 6 = false := by
    simpa [State.spend, State.setLoad, State.eswBit, State.eng] using h
  have hh' : (((u.spend e (cyc + bit (s.loadStall e i))).setLoad e i.loads).trapTo e c
      (if done then s.pc e + 4 else s.pc e)).pget e ENG_CTL.HALT = 0 := by
    have hk := (trap_facts _ e c (if done then s.pc e + 4 else s.pc e) h6).2.2.2.2.2.2.2.2.2.2.2.2
    have h1 : ENG_CTL.reg ≠ ENG_CYCLE.reg := by decide
    rw [State.pget, Port.get_word, hk _ (by decide)]
    simp only [State.setLoad, State.modEng_port, State.spend, State.modPort_port]
    show wget ((u.port e).putWord ENG_CYCLE.reg _ |>.word ENG_CTL.reg) _ _ = 0
    rw [Port.word_putWord_ne _ _ _ _ h1]; exact hh
  simp only [State.issue, hruns, if_true, hrep, if_neg (Nat.not_le.2 hpc), ne_eq, not_true_eq_false, false_and, if_false]
  rw [hp, State.haltCheck_run _ _ hh']

/-- An instruction that traps before it changes anything. -/
theorem answers_trap {s : State} {e : PortNum} {i : Instr} {ei : EngInstr} {cyc c : Nat} (hr : EngReady s e)
    (hx : exec i s = run (fun s => s.issue e ei) s) (hd : s.engDo e ei = (.trap c false, cyc, s)) (hc : cyc ≠ 0)
    (hlt : c < 16) (h : s.eswBit e 6 = false) : Traps i s e c (s.pc e) := by
  have hi := issue_trap hr hd hc h hr.2.2.2.2
  simp only [Bool.false_eq_true, if_false] at hi
  generalize hu : (s.spend e (cyc + bit (s.loadStall e ei))).setLoad e ei.loads = u at hi
  have hu6 : ∀ j, u.eswBit e j = s.eswBit e j := by
    intro j; simp [← hu, State.spend, State.setLoad, State.eswBit, State.eng]
  obtain ⟨h1, h2, h3, h4, h5, h6, h7, h8, h9, h10, h11, _, h13⟩ := trap_facts u e c (s.pc e) ((hu6 6).trans h)
  have hraised : (u.trapTo e c (s.pc e)).raised = [] := by
    rw [h6, ← hu]; exact hr.1
  have hpend : (u.trapTo e c (s.pc e)).pending = s.pending := by rw [h7, ← hu]; rfl
  refine ⟨_, hx.trans (by rw [run_quiet, hi] <;> rw [hi] <;> assumption), h1, h2, ?_, ?_, fun j hj => ?_, fun r => ?_,
    ?_, ?_, ?_, ?_, fun o ho => ?_⟩
  · rw [h3]; exact Nat.mod_eq_of_lt hlt
  · rw [h4]; simp
  · rw [h4, if_neg hj, hu6]
  · rw [h5, ← hu]; simp [State.spend, State.setLoad, State.reg, State.eng]
  · obtain ⟨a1, a2, a3⟩ := h8
    refine ⟨?_, fun q hq => ?_, ?_⟩
    · conv => lhs; rw [a1]
      simp only [← hu]; rfl
    · rw [a2 q hq, ← hu]; simp [State.spend, State.setLoad, hq]
    · rw [a3, ← hu]; simp [State.spend, State.setLoad, Port.putWord]
  · rw [h9, ← hu]; simp [State.spend, State.setLoad, State.eng]
  · rw [h10, ← hu]; simp [State.spend, State.setLoad, State.eng]
  · rw [h11, ← hu]; simp [State.spend, State.setLoad, State.eng]
  · simp only [pcAndCycle, List.mem_cons, List.not_mem_nil, or_false, not_or] at ho
    rw [h13 o (by simp [ho]), ← hu]
    simp only [State.setLoad, State.modEng_port, State.spend, State.modPort_port]
    exact Port.word_putWord_ne _ _ _ _ ho.2.2.2

/-- An instruction that goes to an address. -/
theorem answers_jump {s : State} {e : PortNum} {i : Instr} {ei : EngInstr} {cyc : Nat} {u : State} {a : Word}
    (hr : EngReady s e) (hx : exec i s = run (fun s => s.issue e ei) s) (hd : s.engDo e ei = (.jump a, cyc, u))
    (hc : cyc ≠ 0) (h : RegSide s u e) :
    ∃ k l, exec i s = .next (u.after e k l (a &&& ~~~3)) ∧ RegInstrFrame s (u.after e k l (a &&& ~~~3)) e := by
  have hi := issue_jump hr hd hc (regSide_halt hr h)
  refine ⟨cyc + bit (s.loadStall e ei), ei.loads, hx.trans ?_, h.frame _ _ _⟩
  rw [run_quiet, hi]
  · rw [hi]; obtain ⟨g, w, rfl⟩ := h; exact hr.1
  · rw [hi]; obtain ⟨g, w, rfl⟩ := h; rfl

/-! ## Instructions that write data memory or bit variables -/

/-- `t` differs from `s` in general registers, ESW, data memory and bit variables of engine `e` only. -/
def EngSide (s t : State) (e : PortNum) : Prop :=
  ∃ g w d b, t = s.modEng e fun x => { x with g, esw := w, data := d, bits := b }

theorem EngSide.refl (s : State) (e : PortNum) : EngSide s s e :=
  ⟨(s.eng e).g, (s.eng e).esw, (s.eng e).data, (s.eng e).bits, (State.setPort_self s e).symm⟩

theorem EngSide.mod {s t : State} {e : PortNum} (h : EngSide s t e) (f : Engine → Engine)
    (hf : ∀ x, ∃ g w d b, f x = { x with g, esw := w, data := d, bits := b }) : EngSide s (t.modEng e f) e := by
  obtain ⟨g, w, d, b, rfl⟩ := h
  obtain ⟨g', w', d', b', h'⟩ := hf { (s.eng e) with g, esw := w, data := d, bits := b }
  refine ⟨g', w', d', b', ?_⟩
  have : (s.modEng e fun x => { x with g, esw := w, data := d, bits := b }).modEng e f
      = s.modEng e fun x => f { x with g, esw := w, data := d, bits := b } := by simp [State.modEng]
  rw [this]
  simp only [State.modEng, State.modPort]
  congr 2

theorem EngSide.setReg {s t : State} {e : PortNum} (h : EngSide s t e) (r : RegNum) (w : Word) :
    EngSide s (t.setReg e r w) e := h.mod _ fun x => ⟨x.g.set r w, x.esw, x.data, x.bits, rfl⟩

theorem EngSide.setEsw {s t : State} {e : PortNum} (h : EngSide s t e) (i : Nat) (b : Bool) :
    EngSide s (t.setEsw e i b) e := h.mod _ fun x => ⟨x.g, wset x.esw i 1 (bit b), x.data, x.bits, rfl⟩

theorem EngSide.bump {s t : State} {e : PortNum} (h : EngSide s t e) (r : RegNum) (post : Bool) (n : Nat) :
    EngSide s (t.bump e r post n) e := by
  unfold State.bump; split
  · exact h.setReg _ _
  · exact h

theorem EngSide.word {s u : State} {e : PortNum} (h : EngSide s u e) (o : Nat) :
    (u.port e).word o = (s.port e).word o := by
  obtain ⟨g, w, d, b, rfl⟩ := h; simp [Port.word]

theorem EngSide.halt {s u : State} {e : PortNum} (hr : EngReady s e) (h : EngSide s u e) :
    u.pget e ENG_CTL.HALT = 0 := by
  rw [State.pget, Port.get_word, h.word]; exact hr.2.2.2.2

theorem EngSide.frame {s u : State} {e : PortNum} (h : EngSide s u e) (k : Nat) (l : Option RegNum) (a : Word) :
    EngInstrFrame s (u.after e k l a) e := by
  obtain ⟨g, w, d, b, rfl⟩ := h
  refine ⟨⟨rfl, fun q hq => ?_, ?_⟩, fun o ho => ?_, ?_⟩
  · simp [State.after_eq, hq]
  · simp [State.after_eq, Port.putWord]
  · rw [State.after_word _ _ _ _ _ _ ho]; simp [Port.word]
  · simp [EngCtlKept, State.after_eq, State.eng]

@[simp] theorem State.after_data (u : State) (e : PortNum) (k : Nat) (l : Option RegNum) (a : Word) :
    ((u.after e k l a).eng e).data = (u.eng e).data := by simp [State.after_eq, State.eng]

@[simp] theorem State.after_bits (u : State) (e : PortNum) (k : Nat) (l : Option RegNum) (a : Word) :
    ((u.after e k l a).eng e).bits = (u.eng e).bits := by simp [State.after_eq, State.eng]

/-- The next state of an instruction that changes nothing outside the engine. -/
theorem answers_eng {s u : State} {e : PortNum} {i : Instr} {ei : EngInstr} {cyc : Nat} (hr : EngReady s e)
    (hx : exec i s = run (fun s => s.issue e ei) s) (hd : s.engDo e ei = (.next, cyc, u)) (hc : cyc ≠ 0)
    (h : EngSide s u e) :
    ∃ k l, exec i s = .next (u.after e k l (s.pc e + 4)) ∧ EngInstrFrame s (u.after e k l (s.pc e + 4)) e := by
  have hi := issue_next hr hd hc (h.halt hr)
  refine ⟨cyc + bit (s.loadStall e ei), ei.loads, hx.trans ?_, h.frame _ _ _⟩
  rw [run_quiet, hi]
  · rw [hi]; obtain ⟨g, w, d, b, rfl⟩ := h; exact hr.1
  · rw [hi]; obtain ⟨g, w, d, b, rfl⟩ := h; rfl

/-! ## Rows -/

/-- A row of the instruction set issues its instruction. -/
theorem engRow_exec {i : Instr} {e : PortNum} {x : EngInstr} (h : engRow i = some (e, x)) :
    exec i = run (fun s => s.issue e x) := by
  cases i <;> first
    | (simp only [engRow, Option.some.injEq, Prod.mk.injEq] at h; obtain ⟨rfl, rfl⟩ := h; rfl)
    | (simp only [engRow, reduceCtorEq] at h)

/-- A result named another way. -/
theorem computes_congr {i : Instr} {s : State} {e : PortNum} {rd : RegNum} {w w' : Word} {F F' : State → Prop}
    (h : Computes i s e rd w F) (hw : w = w') (hf : ∀ t, F t → F' t) : Computes i s e rd w' F' := by
  subst hw; obtain ⟨t, h1, h2, h3, h4⟩ := h; exact ⟨t, h1, h2, hf t h3, h4⟩

/-- The sum. -/
theorem addOut_value (a b : Word) (k : Nat) : (addOut a b k).value = a + b + BitVec.ofNat 32 k := by
  simp [addOut, AluOut.of, BitVec.ofNat_add]

/-- The difference. -/
theorem subOut_value (a b : Word) (k : Nat) (hk : k ≤ 1) : (subOut a b k).value = a - b - BitVec.ofNat 32 k := by
  apply BitVec.eq_of_toNat_eq
  have ha := a.isLt; have hb := b.isLt
  simp [subOut, AluOut.of]
  omega

/-- A flag that a condition cuts off. -/
theorem ite_and_flag (k : Nat) (x : Bool) : (if k = 0 then none else some (decide (k ≤ 32) && x)) = (if k = 0 then none else some (if k ≤ 32 then x else false)) := by
  split
  · rfl
  · by_cases h : k ≤ 32 <;> simp [h]

/-- An instruction that goes elsewhere and changes nothing else. -/
theorem goesTo_jump {s : State} {e : PortNum} {i : Instr} {ei : EngInstr} {cyc : Nat} {a : Word}
    (hr : EngReady s e) (hx : exec i s = run (fun s => s.issue e ei) s) (hd : s.engDo e ei = (.jump a, cyc, s))
    (hc : cyc ≠ 0) : GoesTo i s e (a &&& ~~~3) := by
  obtain ⟨k, l, h1, h2⟩ := answers_jump hr hx hd hc (RegSide.refl s e)
  exact ⟨_, h1, State.after_pc .., fun r => by simp, fun j => by simp, h2⟩

/-- An instruction that goes on and changes nothing else. -/
theorem goesTo_next {s : State} {e : PortNum} {i : Instr} {ei : EngInstr} {cyc : Nat}
    (hr : EngReady s e) (hx : exec i s = run (fun s => s.issue e ei) s) (hd : s.engDo e ei = (.next, cyc, s))
    (hc : cyc ≠ 0) : GoesTo i s e (s.pc e + 4) := by
  obtain ⟨k, l, h1, h2⟩ := run_reg hr hd hc (RegSide.refl s e)
  exact ⟨_, hx.trans h1, State.after_pc .., fun r => by simp, fun j => by simp, h2⟩

theorem RegSide.bump {s t : State} {e : PortNum} (h : RegSide s t e) (r : RegNum) (post : Bool) (n : Nat) :
    RegSide s (t.bump e r post n) e := by
  unfold State.bump; split
  · exact h.setReg _ _
  · exact h

@[simp] theorem State.eswBit_bump (s : State) (e : PortNum) (r : RegNum) (post : Bool) (n j : Nat) :
    (s.bump e r post n).eswBit e j = s.eswBit e j := by unfold State.bump; split <;> simp

theorem State.reg_bump_ne (s : State) (e : PortNum) (r x : RegNum) (post : Bool) (n : Nat) (h : x ≠ r) :
    (s.bump e r post n).reg e x = s.reg e x := by
  unfold State.bump; split
  · simp [State.reg_setReg_ne _ _ _ _ _ h]
  · rfl

theorem State.reg_bump (s : State) (e : PortNum) (r : RegNum) (post : Bool) (n : Nat) :
    (s.bump e r post n).reg e r = if post then s.reg e r + BitVec.ofNat 32 n else s.reg e r := by
  unfold State.bump; split <;> simp

/-- A load, with its base register moved on or not. -/
theorem answers_load {s : State} {e : PortNum} {i : Instr} {ei : EngInstr} {rd ra : RegNum} {post : Bool} {n cyc : Nat} {v : Word}
    (hr : EngReady s e) (hx : exec i s = run (fun s => s.issue e ei) s)
    (hd : s.engDo e ei = (.next, cyc, (s.bump e ra post n).setReg e rd v)) (hc : cyc ≠ 0) :
    Answers i s fun t => t.reg e rd = v ∧
      (ra ≠ rd → t.reg e ra = if post then s.reg e ra + BitVec.ofNat 32 n else s.reg e ra) ∧ (∀ r, r ≠ rd → r ≠ ra → t.reg e r = s.reg e r) ∧ FlagsKept s t e ∧
      t.pc e = s.pc e + 4 ∧ RegInstrFrame s t e := by
  obtain ⟨k, l, h1, h2⟩ := run_reg hr hd hc (((RegSide.refl s e).bump ra post n).setReg rd v)
  refine ⟨_, hx.trans h1, by simp, fun h => ?_, fun r h3 h4 => ?_, fun j => by simp, State.after_pc .., h2⟩
  · simp [State.reg_setReg_ne _ _ _ _ _ h, State.reg_bump]
  · simp [State.reg_setReg_ne _ _ _ _ _ h3, State.reg_bump_ne _ _ _ _ _ _ h4]

/-- An aligned address of data memory. -/
theorem dataPlace_data {x : Word} {w : MemW} (h : x.toNat < 0x2000) (h2 : x.toNat % w.size = 0) : dataPlace x w = .data x.toNat := by
  simp only [dataPlace]; rw [if_pos h, if_pos h2]

/-- A misaligned address of data memory. -/
theorem dataPlace_align {x : Word} {w : MemW} (h : x.toNat < 0x2000) (h2 : x.toNat % w.size ≠ 0) : dataPlace x w = .align := by
  simp only [dataPlace]; rw [if_pos h, if_neg h2]

/-- An address outside the ranges. -/
theorem dataPlace_bus {x : Word} {w : MemW} (h : 0x2000 ≤ x.toNat ∧ x.toNat < 0x4000 ∨ 0x5000 ≤ x.toNat) : dataPlace x w = .bus := by
  simp only [dataPlace]; rw [if_neg (by omega), if_neg (by omega)]

/-- An address in the port window. -/
theorem dataPlace_window {x : Word} {w : MemW} (h : 0x4000 ≤ x.toNat) (h2 : x.toNat < 0x5000) : dataPlace x w = .window (x.toNat - 0x4000) := by
  simp only [dataPlace]; rw [if_neg (by omega), if_pos ⟨h, h2⟩]

/-- The bytes of an access. -/
theorem memW_size (w : MemW) : (match w with | .word => 4 | .half => 2 | .byte => 1) = w.size := by cases w <;> rfl

/-- The bytes of a number. -/
theorem leBytes_length (n v : Nat) : (leBytes n v).length = n := by
  induction n generalizing v with
  | zero => rfl
  | succ n ih => simp [leBytes, ih]

/-- What else a trap leaves in the engine. -/
theorem trapTo_engine (u : State) (e : PortNum) (c : Nat) (a : Word) (h : u.eswBit e 6 = false) :
   ((u.trapTo e c a).eng e).codeLen = (u.eng e).codeLen ∧ ((u.trapTo e c a).eng e).waitOn = (u.eng e).waitOn ∧ ((u.trapTo e c a).eng e).stall = (u.eng e).stall := by
  rw [State.trapTo_single u e c a h]; simp [State.eng]

/-- One bit set. -/
theorem two_pow_bit (n k j : Nat) (hk : k < n) : (BitVec.ofNat n (2 ^ k)).getLsbD j = decide (j = k) := by
  rw [BitVec.getLsbD_ofNat, Nat.testBit_two_pow]
  by_cases h : j = k
  · subst h; simp [hk]
  · simp [h, Ne.symm h]

/-- The next state of an instruction that goes on. -/
theorem exec_next {s u : State} {e : PortNum} {i : Instr} {ei : EngInstr} {cyc : Nat} (hr : EngReady s e)
    (hx : exec i s = run (fun s => s.issue e ei) s) (hd : s.engDo e ei = (.next, cyc, u)) (hc : cyc ≠ 0)
    (hh : u.pget e ENG_CTL.HALT = 0) (h1 : u.raised = []) (h2 : u.pending = s.pending) :
    exec i s = .next (u.after e (cyc + bit (s.loadStall e ei)) ei.loads (s.pc e + 4)) := by
  have hi := issue_next hr hd hc hh
  exact hx.trans (by rw [run_quiet, hi] <;> rw [hi]; exact h1; exact h2)

/-- Apart from every listed offset. -/
theorem ne_of_not_in {o : Nat} {l : List Nat} (h : o ∉ l) (x : Nat) (hx : x ∈ l) : o ≠ x := fun he => h (he ▸ hx)

/-- REP. -/
theorem engDo_rep {s : State} {e : PortNum} {cnt : RepCount} : s.engDo e (.rep cnt) = s.doRep e (s.repCount e cnt) := rfl

/-- Fields that a trap leaves. -/
theorem trapTo_pget (u : State) (e : PortNum) (c : Nat) (a : Word) (h : u.eswBit e 6 = false) (f : Fld)
    (h1 : f.off ≠ ENG_PC.reg) (h2 : f.off ≠ ENG_TPC.reg) (h3 : f.apart ENG_STAT.CAUSE) :
    (u.trapTo e c a).pget e f = u.pget e f := by
  rw [State.trapTo_single u e c a h]
  simp only [State.pget, State.modPort_port, Port.get, Port.putWord, Port.set, Cells.get]
  rw [Cells.word_put_ne _ _ _ _ _ h1]
  have := Cells.get_set_ne .port (Cells.put Block.port (u.port e).regs ENG_TPC.reg a) f ENG_STAT.CAUSE c (by unfold Fld.fits; decide) h3
  simp only [Cells.get] at this
  rw [this, Cells.word_put_ne _ _ _ _ _ h2]

/-- Words that a field write leaves. -/
theorem State.word_pset_ne (s : State) (e : PortNum) (f : Fld) (v o : Nat) (h : o ≠ f.off) : ((s.pset e f v).port e).word o = (s.port e).word o := by
  simp [State.pset, Port.word_set_ne _ _ _ _ h]

/-- Consecutive words written. -/
theorem Port.word_putWords (l : List Word) (b : Nat) (n : Nat) (q : Port) (o : Nat) :
    ((List.range n).foldl (fun q i => q.putWord (b + 4 * i) (l.getD i 0)) q).word o =
      if b ≤ o ∧ (o - b) % 4 = 0 ∧ (o - b) / 4 < n then l.getD ((o - b) / 4) 0 else q.word o := by
  induction n with
  | zero => simp
  | succ n ih =>
    rw [List.range_succ, List.foldl_append]
    simp only [List.foldl_cons, List.foldl_nil]
    by_cases h : o = b + 4 * n
    · subst h
      rw [Port.word_putWord, if_pos (by omega)]
      congr 1; omega
    · rw [Port.word_putWord_ne _ _ _ _ h, ih]
      by_cases h2 : b ≤ o ∧ (o - b) % 4 = 0 ∧ (o - b) / 4 < n
      · rw [if_pos h2, if_pos (by omega)]
      · rw [if_neg h2, if_neg (by omega)]

/-- Consecutive words written change registers only. -/
theorem Port.putWords_regs (l : List Word) (b : Nat) (n : Nat) (q : Port) :
    ∃ r, (List.range n).foldl (fun q i => q.putWord (b + 4 * i) (l.getD i 0)) q = { q with regs := r } := by
  induction n with
  | zero => exact ⟨_, rfl⟩
  | succ n ih =>
    obtain ⟨r, h⟩ := ih
    rw [List.range_succ, List.foldl_append]
    simp only [List.foldl_cons, List.foldl_nil, h]
    exact ⟨_, rfl⟩

theorem State.eng_pset (s : State) (p : PortNum) (f : Fld) (v : Nat) : (s.pset p f v).eng p = s.eng p := by
  simp [State.pset, State.eng]

theorem State.pset_other (s : State) (p q : PortNum) (f : Fld) (v : Nat) (h : q ≠ p) : (s.pset p f v).port q = s.port q := by
  simp [State.pset, h]

end Sys2Proof.Machine
end

