-- ==== Sys2Proof/Laws/Fifo.lean ====
section
/-! SUPPORT. What pushes, reads, aborts and moves leave in a FIFO. -/

namespace Sys2Proof.Machine

/-- Words that go straight to the head keep their order. -/
theorem Fifo.settleN_facts (n : Nat) (f : Fifo) :
    (Fifo.settleN n f).row = f.row ∧ (Fifo.settleN n f).part = f.part ∧ (Fifo.settleN n f).open_ = f.open_ ∧
    (Fifo.settleN n f).pktNo = f.pktNo ∧ (Fifo.settleN n f).pkts = f.pkts ∧ (Fifo.settleN n f).cinder = f.cinder ∧
    (Fifo.settleN n f).lostWhole = f.lostWhole ∧ (Fifo.settleN n f).win = f.win ∧ (Fifo.settleN n f).desc = f.desc := by
  induction n generalizing f with
  | zero => exact ⟨rfl, rfl, rfl, rfl, rfl, rfl, rfl, rfl, rfl⟩
  | succ n ih =>
    unfold Fifo.settleN
    split
    · exact ⟨rfl, rfl, rfl, rfl, rfl, rfl, rfl, rfl, rfl⟩
    · rename_i w r ht
      split
      · rename_i hc
        have hw : f.win = [] := by
          have := (Bool.and_eq_true _ _).mp hc
          simpa using this.1
        obtain ⟨h1, h2, h3, h4, h5, h6, h7, h8, h9⟩ := ih ((({ f with tail := r, head := f.head ++ [w] } : Fifo).adv 1 1).adv 5 1)
        refine ⟨?_, h2, h3, h4, h5, h6, h7, h8, h9⟩
        rw [h1]; simp [Fifo.row, Fifo.adv, ht, hw]
      · exact ⟨rfl, rfl, rfl, rfl, rfl, rfl, rfl, rfl, rfl⟩

/-- Settling keeps the order of the words and everything beside the stores. -/
theorem Fifo.settle_facts (f : Fifo) :
    f.settle.row = f.row ∧ f.settle.part = f.part ∧ f.settle.open_ = f.open_ ∧
    f.settle.pktNo = f.pktNo ∧ f.settle.pkts = f.pkts ∧ f.settle.cinder = f.cinder ∧
    f.settle.lostWhole = f.lostWhole ∧ f.settle.win = f.win ∧ f.settle.desc = f.desc := Fifo.settleN_facts 16 f

/-- No position of a sound FIFO is bad. -/
theorem Fifo.sound_bad {f : Fifo} (h : f.sound) (l : List Nat) (hl : ∀ i ∈ l, i < 7) : f.badPos l = none := by
  induction l with
  | nil => rfl
  | cons i r ih =>
    unfold Fifo.badPos
    rw [if_pos (h i (hl i (by simp)))]
    exact ih (fun j hj => hl j (by simp [hj]))

@[simp] theorem Port.fifo_setFifo (q : Port) (d : Dir) (f : Fifo) : (q.setFifo d f).fifo d = f := by cases d <;> rfl

@[simp] theorem Port.setFifo_setFifo (q : Port) (d : Dir) (f g : Fifo) : (q.setFifo d f).setFifo d g = q.setFifo d g := by cases d <;> rfl

@[simp] theorem State.fifo_setFifo (s : State) (p : PortNum) (d : Dir) (f : Fifo) : (s.setFifo p d f).fifo p d = f := by
  simp [State.fifo, State.setFifo]

@[simp] theorem State.setFifo_setFifo (s : State) (p : PortNum) (d : Dir) (f g : Fifo) :
    (s.setFifo p d f).setFifo p d g = s.setFifo p d g := by simp [State.setFifo]

theorem State.setFifo_port_ne (s : State) (p q : PortNum) (d : Dir) (f : Fifo) (h : q ≠ p) : (s.setFifo p d f).port q = s.port q := by
  simp [State.setFifo, h]

/-- A byte that takes its place. -/
theorem placeByte_eq {s : State} {p : PortNum} {d : Dir} (h : CanPush s p d) (b : Byte) :
    s.placeByte p d b = s.setFifo p d { s.fifo p d with open_ := true, part := (s.fifo p d).part ++ [b] } := by
  obtain ⟨h1, h2, h3, h4, h5, h6, h7⟩ := h
  unfold State.placeByte
  generalize hf : s.fifo p d = f at *
  generalize hfree : s.fifoFree p d = free at *
  obtain ⟨hd, wn, tl, part, op, pk, ci, lw, pks, ds, ps⟩ := f
  simp only at h2 h3 h4 h5 h6 h7 ⊢
  subst h2 h3
  cases op with
  | true =>
    simp only [if_true, hf, Bool.false_eq_true, if_false]
    rw [if_pos]
    by_cases hp : part = []
    · simp [hp, h6 hp]
    · simp [hp]
  | false =>
    have hp : part = [] := by
      by_contra hp; exact absurd (h7 hp) (by decide)
    have h8 := h6 hp
    have h9 : ¬ free = 0 := by omega
    simp [hp, h8, h9]

/-- What a push leaves. -/
theorem pushNow_pushed {s : State} {p : PortNum} {d : Dir} (h : CanPush s p d) (b : Byte) (last : Bool) :
    ∃ g, s.pushNow p d b last = s.setFifo p d g ∧ Pushed s (s.setFifo p d g) p d b last := by
  have hb := placeByte_eq h b
  obtain ⟨h1, h2, h3, h4, h5, h6, h7⟩ := h
  let f := s.fifo p d
  let f1 : Fifo := { f with open_ := true, part := f.part ++ [b] }
  let g := (if last then (f1.closeWord last).commit else f1.closeWord last).settle
  refine ⟨g, ?_, ?_⟩
  · unfold State.pushNow
    rw [Fifo.sound_bad h1 _ (by cases last <;> decide)]
    simp only [hb, State.fifo_setFifo, State.setFifo_setFifo]; rfl
  · unfold Pushed
    simp only [State.fifo_setFifo]
    obtain ⟨g1, g2, g3, g4, g5, g6, g7, g8, g9⟩ := Fifo.settle_facts (if last then (f1.closeWord last).commit else f1.closeWord last)
    simp only [g]
    rw [g1, g2, g3, g4, g5, g6, g7]
    have hlen : ¬ ((s.fifo p d).part ++ [b]) = [] := by simp
    have f1p : f1.part = (s.fifo p d).part ++ [b] := rfl
    have f1c : f1.cinder = none := h2
    have f1l : f1.lostWhole = false := h3
    cases last with
    | true =>
      have hc : f1.closeWord true = ({ f1 with part := [] } : Fifo).putTail (packWord f1.part) f1.part.length true false := by
        unfold Fifo.closeWord; rw [if_pos (by simp [f1p]), f1c]; rfl
      simp only [if_true, hc]
      unfold Fifo.commit
      simp [Fifo.putTail, Fifo.adv, f1c, f1l, f1p, Fifo.row, packWord, f1, f, bit, h2, h3]
    | false =>
      simp only [Bool.false_eq_true, if_false]
      by_cases h8 : ((s.fifo p d).part ++ [b]).length = 4
      · have hc : f1.closeWord false = ({ f1 with part := [] } : Fifo).putTail (packWord f1.part) f1.part.length false false := by
          unfold Fifo.closeWord; rw [if_pos (by rw [f1p, h8]; rfl)]; simp only [Bool.false_and]
        rw [hc]
        simp at h8
        simp [Fifo.putTail, Fifo.adv, f1c, f1l, f1p, Fifo.row, packWord, f1, f, bit, h2, h3, h8]
      · have hc : f1.closeWord false = f1 := by
          unfold Fifo.closeWord; rw [if_neg (by simp [f1p] at *; omega)]
        rw [hc]
        simp at h8
        simp [Fifo.row, f1, f, bit, h2, h3, h8]

/-- A push that does not wait. -/
theorem pushStalls_false {s : State} {p : PortNum} {d : Dir} (h : CanPush s p d) (last : Bool) : s.pushStalls p d last = false := by
  obtain ⟨h1, h2, h3, h4, h5, h6, h7⟩ := h
  unfold State.pushStalls
  have : ¬ (16 ≤ (s.fifo p d).tail.length) := by omega
  simp [this]

/-- A FIFO belongs to its port. -/
theorem onlyPort_setFifo (s : State) (p : PortNum) (d : Dir) (g : Fifo) : OnlyPort s (s.setFifo p d g) p :=
  ⟨rfl, fun _ hq => State.setFifo_port_ne _ _ _ _ _ hq⟩

/-- A row that acts on a powered port. -/
theorem exec_powered {s : State} {p : PortNum} {i : Instr} {f : State → State} (hx : exec i s = run (fun s => if s.portOn p then f s else s) s)
    (hp : s.portOn p = true) (h0 : (f s).raised = []) (h1 : (f s).pending = s.pending) : exec i s = .next (f s) := by
  have hi : (if s.portOn p then f s else s) = f s := if_pos hp
  rw [hx, run_quiet _ _ (by show State.raised (if _ then _ else _) = _; rw [hi]; exact h0) (by show State.pending (if _ then _ else _) = _; rw [hi]; exact h1)]
  show Host.Outcome.next (if s.portOn p then f s else s) = _
  rw [hi]

theorem State.after_port (u : State) (e : PortNum) (k : Nat) (l : Option RegNum) (a : Word) :
    (u.after e k l a).port e = { u.port e with regs := ((u.after e k l a).port e).regs, eng := (u.after e k l a).eng e } := by
  simp [State.after_eq, Port.putWord, State.eng]

theorem State.after_fifo (u : State) (e : PortNum) (k : Nat) (l : Option RegNum) (a : Word) (d : Dir) :
    (u.after e k l a).fifo e d = u.fifo e d := by
  simp only [State.fifo]; rw [State.after_port]; cases d <;> rfl

theorem Pushed.congr {s t t' : State} {p : PortNum} {d : Dir} {b : Byte} {l : Bool} (h : Pushed s t p d b l) (he : t'.fifo p d = t.fifo p d) : Pushed s t' p d b l := by
  unfold Pushed at *; rw [he]; exact h

theorem State.eng_setFifo (s : State) (p : PortNum) (d : Dir) (g : Fifo) : (s.setFifo p d g).eng p = s.eng p := by
  cases d <;> simp [State.setFifo, State.eng, Port.setFifo]

theorem State.word_setFifo (s : State) (p : PortNum) (d : Dir) (g : Fifo) (o : Nat) : ((s.setFifo p d g).port p).word o = (s.port p).word o := by
  cases d <;> simp [State.setFifo, Port.setFifo, Port.word]

theorem State.after_port_ne (x : State) (e q : PortNum) (k : Nat) (l : Option RegNum) (a : Word) (hq : q ≠ e) : (x.after e k l a).port q = x.port q := by
  simp [State.after_eq, hq]

/-- What a read of the head leaves. -/
theorem takeHead_popped {s : State} {p : PortNum} {d : Dir} {w : FWord} {r : List FWord} (hh : (s.fifo p d).head = w :: r) :
    ∃ g c, s.takeHead p d w = s.setPort p { (s.port p).setFifo d g with regs := c } ∧ Popped s (s.takeHead p d w) p d w ∧
      ∀ o, o ≠ (RX_STAT.UNDER.dir d).off → ((s.takeHead p d w).port p).word o = (s.port p).word o := by
  let f := s.fifo p d
  let f1 : Fifo := ({ f with head := f.head.drop 1, pkts := if w.eop then f.pkts - 1 else f.pkts } : Fifo).adv 6 1
  obtain ⟨g1, g2, g3, g4, g5, g6, g7, g8, g9⟩ := Fifo.settle_facts f1
  have e : s.takeHead p d w = (((s.setFifo p d f1.settle).fset p d RX_STAT.LAST_VB w.vb).fset p d RX_STAT.LAST_EOP (bit w.eop)).fset p d RX_STAT.LAST_CIN (bit w.cin) := rfl
  have ef : (s.takeHead p d w).fifo p d = f1.settle := by
    rw [e]; cases d <;> simp [State.fset, State.pset, State.fifo, State.setFifo, Port.setFifo, Port.fifo, Port.set]
  have fits : (RX_STAT.LAST_VB.dir d).fits ∧ (RX_STAT.LAST_EOP.dir d).fits ∧ (RX_STAT.LAST_CIN.dir d).fits := by
    cases d <;> (refine ⟨?_, ?_, ?_⟩ <;> (unfold Fld.fits; decide))
  have apart : (RX_STAT.LAST_VB.dir d).apart (RX_STAT.LAST_EOP.dir d) ∧ (RX_STAT.LAST_VB.dir d).apart (RX_STAT.LAST_CIN.dir d) ∧ (RX_STAT.LAST_EOP.dir d).apart (RX_STAT.LAST_CIN.dir d) := by
    cases d <;> (refine ⟨?_, ?_, ?_⟩ <;> (unfold Fld.apart; decide))
  refine ⟨f1.settle, ((((s.takeHead p d w).port p)).regs), ?_, ⟨?_, ?_, ?_, ?_, ?_, ?_, ?_, ?_⟩, fun o ho => ?_⟩
  · have e2 : ∀ (q : Port) (x : Fld) (v : Nat), q.set x v = { q with regs := Cells.set .port q.regs x v } := fun _ _ _ => rfl
    rw [e]
    cases d <;> simp [State.fset, State.pset, State.setFifo, State.modPort, e2, Port.setFifo]
  · rw [ef, g1]; simp [Fifo.row, f1, Fifo.adv, f, hh]
  · rw [ef, g2]; rfl
  · rw [ef, g3]; rfl
  · rw [ef, g4]; rfl
  · rw [ef, g5]; simp only [f1, Fifo.adv]; cases w.eop <;> simp [bit, f]
  · rw [e]; simp only [State.fget, State.fset]
    rw [State.pget_pset_ne _ _ _ _ _ fits.2.2 apart.2.1, State.pget_pset_ne _ _ _ _ _ fits.2.1 apart.1, State.pget_pset _ _ _ _ fits.1]; cases d <;> rfl
  · rw [e]; simp only [State.fget, State.fset]
    rw [State.pget_pset_ne _ _ _ _ _ fits.2.2 apart.2.2, State.pget_pset _ _ _ _ fits.2.1]; cases d <;> cases w.eop <;> rfl
  · rw [e]; simp only [State.fget, State.fset]
    rw [State.pget_pset _ _ _ _ fits.2.2]; cases d <;> cases w.cin <;> rfl
  · rw [e]; simp only [State.fset]
    have h1 : o ≠ (RX_STAT.LAST_VB.dir d).off := by cases d <;> exact ho
    have h2 : o ≠ (RX_STAT.LAST_EOP.dir d).off := by cases d <;> exact ho
    have h3 : o ≠ (RX_STAT.LAST_CIN.dir d).off := by cases d <;> exact ho
    rw [State.word_pset_ne _ _ _ _ _ h3, State.word_pset_ne _ _ _ _ _ h2, State.word_pset_ne _ _ _ _ _ h1, State.word_setFifo]

/-- A read that finds a word. -/
theorem takeNow_word {s : State} {p : PortNum} {d : Dir} {w : FWord} {r : List FWord} (hs : (s.fifo p d).sound)
    (hh : (s.fifo p d).head = w :: r) (hv : w.pkt ≠ (s.fifo p d).pktNo) : s.takeNow p d = (.word w, s.takeHead p d w) := by
  unfold State.takeNow
  rw [Fifo.sound_bad hs _ (by decide)]
  have : (s.fifo p d).peek = .word w := by
    unfold Fifo.peek; rw [hh]; simp [Fifo.visible, hv]
  simp only [this]

/-- A read that finds none. -/
theorem takeNow_nothing {s : State} {p : PortNum} {d : Dir} (hs : (s.fifo p d).sound)
    (hh : (s.fifo p d).head = []) (hw : (s.fifo p d).win = []) : s.takeNow p d = (.nothing, s.fset p d RX_STAT.UNDER 1) := by
  unfold State.takeNow
  rw [Fifo.sound_bad hs _ (by decide)]
  have : (s.fifo p d).peek = .nothing := by
    unfold Fifo.peek; rw [hh, hw]
  simp only [this]

/-- RX_DATA. -/
theorem portRead_rxData (s : State) (p : PortNum) (side : Side) : s.portRead p side RX_DATA.reg = s.rxDataRead p side := rfl

theorem Popped.congr {s t t' : State} {p : PortNum} {d : Dir} {w : FWord} (h : Popped s t p d w) (he : t'.fifo p d = t.fifo p d)
    (hw : (t'.port p).word (RX_STAT.UNDER.dir d).off = (t.port p).word (RX_STAT.UNDER.dir d).off) : Popped s t' p d w := by
  unfold Popped at *
  rw [he]
  have e : ∀ f : Fld, (f.dir d).off = (RX_STAT.UNDER.dir d).off → t'.fget p d f = t.fget p d f := by
    intro f hf; simp only [State.fget, State.pget, Port.get_word, hf, hw]
  rw [e RX_STAT.LAST_VB (by cases d <;> rfl), e RX_STAT.LAST_EOP (by cases d <;> rfl), e RX_STAT.LAST_CIN (by cases d <;> rfl)]
  exact h

theorem EngSide.popFlags {s t : State} {e : PortNum} (h : EngSide s t e) (w : FWord) : EngSide s (t.popFlags e (some w)) e :=
  ((h.setEsw _ _).setEsw _ _).setEsw _ _

theorem popFlags_eswBit (t : State) (e : PortNum) (w : FWord) (j : Nat) :
    (t.popFlags e (some w)).eswBit e j = if j = 1 then w.cin else if j = 2 then w.eop else if j = 0 then false else t.eswBit e j := by
  simp only [State.popFlags]
  rw [State.eswBit_setEsw _ _ _ _ _ (by decide), State.eswBit_setEsw _ _ _ _ _ (by decide), State.eswBit_setEsw _ _ _ _ _ (by decide)]

/-- What an engine side change leaves. -/
theorem EngSide.port {s u : State} {e : PortNum} (h : EngSide s u e) :
    u = { s with ports := u.ports } ∧ (∀ q, q ≠ e → u.port q = s.port q) ∧ ∃ x, u.port e = { s.port e with eng := x } ∧ x = u.eng e ∧
      x.code = (s.eng e).code ∧ x.codeLen = (s.eng e).codeLen ∧ x.repLeft = (s.eng e).repLeft ∧ x.waitOn = (s.eng e).waitOn ∧ x.stall = (s.eng e).stall := by
  obtain ⟨g, w, d, b, rfl⟩ := h
  exact ⟨rfl, fun q hq => by simp [hq], { s.eng e with g, esw := w, data := d, bits := b }, by simp [State.eng], by simp [State.eng], rfl, rfl, rfl, rfl, rfl⟩

/-- A pop in full. -/
theorem answers_pop {s u : State} {p : PortNum} {i : Instr} {ei : EngInstr} {w : FWord} {r : List FWord} {fin : EngEnd} (hr : EngReady s p)
    (hh : (s.fifo p .rx).head = w :: r) (hx : exec i s = run (fun s => s.issue p ei) s)
    (hd : s.engDo p ei = (fin, 1, u)) (hf : fin = .next ∨ fin = .endRep) (hs : EngSide (s.takeHead p .rx w) u p) :
    ∃ k l, exec i s = .next (u.after p k l (s.pc p + 4)) ∧ Popped s (u.after p k l (s.pc p + 4)) p .rx w ∧
      OnlyPort s (u.after p k l (s.pc p + 4)) p ∧
      (u.after p k l (s.pc p + 4)).port p = { s.port p with rxf := (u.after p k l (s.pc p + 4)).fifo p .rx, regs := ((u.after p k l (s.pc p + 4)).port p).regs, eng := (u.after p k l (s.pc p + 4)).eng p } ∧
      RegsKept s (u.after p k l (s.pc p + 4)) p (RX_STAT.reg :: pcAndCycle) ∧ EngCtlKept s (u.after p k l (s.pc p + 4)) p := by
  obtain ⟨g, c, h1, h2, h3⟩ := takeHead_popped (d := .rx) hh
  obtain ⟨a1, a2, x, a3, a4, b1, b2, b3, b4, b5⟩ := hs.port
  have tport : (s.takeHead p .rx w).port p = { s.port p with rxf := g, regs := c } := by rw [h1]; simp [Port.setFifo]
  have teng : (s.takeHead p .rx w).eng p = s.eng p := by simp only [State.eng, tport]
  have hhalt : u.pget p ENG_CTL.HALT = 0 := by
    rw [State.pget, Port.get_word, hs.word, h3 _ (by decide)]; exact hr.2.2.2.2
  let k := 1 + bit (s.loadStall p ei)
  let t := u.after p k ei.loads (s.pc p + 4)
  have hi : s.issue p ei = t := by
    obtain ⟨_, hruns, hpc, hrep, _⟩ := hr
    have hp : s.perform p ei = t := by
      rcases hf with rfl | rfl <;> simp [State.perform, hd, hrep, State.after, t, k]
    have hh' : t.pget p ENG_CTL.HALT = 0 := by
      rw [State.pget, Port.get_word, State.after_word _ _ _ _ _ _ (by decide)]; exact hhalt
    simp only [State.issue, hruns, if_true, hrep, if_neg (Nat.not_le.2 hpc), ne_eq, not_true_eq_false, false_and, if_false]
    rw [hp, State.haltCheck_run _ _ hh']
  have uport : u.port p = { s.port p with rxf := g, regs := c, eng := x } := by rw [a3, tport]
  have ufifo : u.fifo p .rx = (s.takeHead p .rx w).fifo p .rx := by simp only [State.fifo, uport, tport]; rfl
  refine ⟨k, ei.loads, ?_, ?_, ⟨?_, fun q hq => ?_⟩, ?_, fun o ho => ?_, ?_⟩
  · rw [hx, run_quiet _ _ (by show State.raised (s.issue p ei) = _; rw [hi]; show u.raised = _; rw [a1, h1]; exact hr.1) (by show State.pending (s.issue p ei) = _; rw [hi]; show u.pending = _; rw [a1, h1]; rfl)]
    show Host.Outcome.next (s.issue p ei) = _; rw [hi]
  · exact h2.congr (by rw [State.after_fifo, ufifo]) (by rw [State.after_word _ _ _ _ _ _ (by decide), hs.word])
  · rw [a1, h1]; rfl
  · rw [State.after_port_ne _ _ _ _ _ _ hq, a2 q hq, h1]; simp [hq]
  · rw [State.after_port, State.after_fifo, ufifo, uport]; simp only [State.fifo, tport]; rfl
  · simp only [List.mem_cons, not_or] at ho
    rw [State.after_word _ _ _ _ _ _ ho.2, hs.word, h3 o ho.1]
  · have := State.after_mem u p k ei.loads (s.pc p + 4)
    obtain ⟨m1, m2, m3, m4, m5, m6, m7⟩ := this
    simp only [teng] at b1 b2 b3 b4 b5
    exact ⟨m1.trans (a4 ▸ b1), m4.trans (a4 ▸ b2), m5.trans (a4 ▸ b3), m6.trans (a4 ▸ b4), m7.trans (a4 ▸ b5)⟩

/-- The flags of a pop that takes nothing. -/
theorem popFlags_none (t : State) (e : PortNum) : ∃ c n, t.popFlags e none =
    { (((t.setEsw e 0 true).setEsw e 2 c).setEsw e 1 n) with free := t.free + 2 } := ⟨_, _, rfl⟩

/-- What an abort leaves. -/
theorem withdraw_row {s : State} {p : PortNum} (hsd : (s.fifo p .tx).sound) (ho : (s.fifo p .tx).open_ = true) :
    ∃ g, s.withdraw p .tx = s.setFifo p .tx g ∧ g.row = (s.fifo p .tx).row.filter (fun w => w.pkt != (s.fifo p .tx).pktNo) ∧
      g.part = [] ∧ g.open_ = false ∧ g.pkts = (s.fifo p .tx).pkts := by
  unfold State.withdraw
  simp only [Fifo.sound_bad hsd [0, 3, 5] (by decide), ho, if_true]
  refine ⟨_, rfl, ?_⟩
  obtain ⟨g1, g2, g3, g4, g5, g6, g7, g8, g9⟩ := Fifo.settle_facts (((({ s.fifo p .tx with
        head := (s.fifo p .tx).head.filter (s.fifo p .tx).visible, win := (s.fifo p .tx).win.filter (s.fifo p .tx).visible, tail := (s.fifo p .tx).tail.filter (s.fifo p .tx).visible
        part := [], open_ := false, cinder := none, lostWhole := false, desc := none } : Fifo).back 0 ((s.fifo p .tx).tail.length - ((s.fifo p .tx).tail.filter (s.fifo p .tx).visible).length)).back 3 ((s.fifo p .tx).win.length - ((s.fifo p .tx).win.filter (s.fifo p .tx).visible).length)).back 5
        ((s.fifo p .tx).head.length - ((s.fifo p .tx).head.filter (s.fifo p .tx).visible).length))
  refine ⟨?_, g2, g3, g5⟩
  refine g1.trans ?_
  simp [Fifo.row, Fifo.back, List.filter_append]; rfl

end Sys2Proof.Machine
end

