-- ==== Sys2Proof/Laws/HostCmd.lean ====
section
/-! SUPPORT. What an accepted command does: its row's meaning runs with the command outstanding, and its answer is the
one packet that the response adds. -/

namespace Sys2Proof.Machine

/-- Every row of the command reference is the host packet of its opcode. -/
theorem hostOp_exec {i : Instr} {o : Op} {h : HostCmd} (e : hostOp i = some (o, h)) :
    exec i = run (fun s => s.decideLanded.hostRow o h) := by
  cases i <;> first
    | (simp only [hostOp, Option.some.injEq, Prod.mk.injEq] at e; obtain ⟨rfl, rfl⟩ := e; rfl)
    | (simp only [hostOp, reduceCtorEq] at e)

theorem State.opened_eq (s : State) (c : Cmd) : s.opened c = { s with hosts := (s.opened c).hosts } := rfl

theorem decideLanded_quiet {s : State} (h : ∀ q, (s.host q).landed = []) : s.decideLanded = s := by
  have e : s.landedCmds = [] := by
    unfold State.landedCmds
    split
    · rfl
    · simp [allHosts, h]
  simp [State.decideLanded, e]

@[simp] theorem Op.cmd_hp (o : Op) (h : HostCmd) : (o.cmd h).hp = h.hp := rfl
@[simp] theorem Op.cmd_target (o : Op) (h : HostCmd) : (o.cmd h).target = h.target := rfl
@[simp] theorem Op.cmd_payload (o : Op) (h : HostCmd) : (o.cmd h).payload = h.payload := rfl
@[simp] theorem Op.cmd_flags (o : Op) (h : HostCmd) : (o.cmd h).flags = h.flags := rfl
@[simp] theorem Op.cmd_seq (o : Op) (h : HostCmd) : (o.cmd h).seq = h.seq := rfl
@[simp] theorem Op.cmd_opcode (o : Op) (h : HostCmd) : (o.cmd h).opcode = BitVec.ofNat 16 o.opcode := rfl

/-- A packet that arrives reaches the checks of R322. -/
theorem arrives_decides {s : State} {o : Op} {h : HostCmd} (a : Arrives s o h) :
    s.decideLanded.hostRow o h = (s.decideCmd ⟨[], none⟩ (some o) (o.cmd h)).2 := by
  rw [decideLanded_quiet a.alone]
  unfold State.hostRow State.hostPacket
  simp only [a.runs, a.ready, Bool.not_true, Bool.false_eq_true, if_false]
  rw [if_neg (by have := a.short; omega)]
  rfl

/-- No conflict within a tick of one command. -/
theorem Contest.none_conflict (o : Op) (c : Cmd) : (⟨[], none⟩ : Contest).conflict o c = false := by
  unfold Contest.conflict
  split
  · rfl
  · split <;> rfl

/-- A packet that arrives is judged by checks 2 to 6, then by check 8. -/
theorem arrives_checks {s : State} {o : Op} {h : HostCmd} (a : Arrives s o h) :
    s.decideLanded.hostRow o h = (match s.checkEarly (some o) (o.cmd h) with
      | some st => (s.opened (o.cmd h)).respond (o.cmd h) st
      | none => (s.opened (o.cmd h)).decideOp o (o.cmd h) false) := by
  rw [arrives_decides a]
  unfold State.decideCmd
  have h1 : (s.host (o.cmd h).hp).open_.any (·.raw == (o.cmd h).raw) = false := by
    rw [List.any_eq_false]; intro x hx; simpa using (a.first x hx).1
  have h2 : (s.host (o.cmd h).hp).kept.find? (fun x => x.target = (o.cmd h).target && x.raw == (o.cmd h).raw) = none := by
    rw [List.find?_eq_none]; intro x hx; simp [a.fresh x hx]
  have h3 : (s.host (o.cmd h).hp).open_.any (·.target == (o.cmd h).target) = false := by
    rw [List.any_eq_false]; intro x hx; simpa using (a.first x hx).2
  simp only [h1, h2, h3, Contest.none_conflict, Bool.false_eq_true, if_false]
  cases s.checkEarly (some o) (o.cmd h) <;> rfl

theorem State.modHost_id (s : State) (q : HostNum) (f : HostPort → HostPort) (h : f (s.host q) = s.host q) :
    s.modHost q f = s := by
  unfold State.modHost
  rw [h]
  have : s.hosts.set q (s.host q) = s.hosts := by
    ext i hi; simp [State.host]
  rw [this]

/-- The targets that exist. -/
theorem hostOp_targets {i : Instr} {o : Op} {h : HostCmd} (e : hostOp i = some (o, h)) {t : Nat} (ht : t ∈ o.targets) :
    t ∈ ownTargets := by
  cases i <;> first
    | (simp only [hostOp, reduceCtorEq] at e; done)
    | (simp only [hostOp, Option.some.injEq, Prod.mk.injEq] at e; obtain ⟨rfl, rfl⟩ := e
       revert t; decide)

@[simp] theorem State.opened_host_chains (s : State) (c : Cmd) (q : HostNum) :
    ((s.opened c).host q).chains = (s.host q).chains := by
  unfold State.opened
  by_cases e : q = c.hp
  · subst e; simp
  · rw [State.modHost_host_ne _ _ _ _ e]

theorem targetHeld_congr {s t : State} (o : Op) (c : Cmd) (h1 : t.running = s.running) (h2 : t.devOwn = s.devOwn)
    (h3 : t.owner = s.owner) (h4 : t.ports = s.ports) : t.targetHeld o c = s.targetHeld o c := by
  unfold State.targetHeld State.owns State.ownerOf State.port
  rw [h1, h2, h3, h4]

theorem checkEarly_passes {i : Instr} {s : State} {o : Op} {h : HostCmd} (e : hostOp i = some (o, h))
    (p : Passes s o h) : s.checkEarly (some o) (o.cmd h) = none := by
  unfold State.checkEarly
  have h1 := hostOp_targets e p.target
  have h2 : (o.cmd h).flags.toNat / 4 = 0 := by simp [p.flags]
  have h3 := p.mode
  rcases p.owner with ho | ho <;> cases hf : s.dev.full <;> simp_all [p.target]

/-- A command with its whole payload in one packet, of an allowed length, that waits for no lock and continues no
chain. -/
theorem conclude_body {s : State} {o : Op} {c : Cmd} (h1 : o.lens c.target.toNat c.payload.length = true)
    (h2 : c.payload.length ≤ o.bound) (h3 : (o.needsPll c && (o.onSegment c 0 s).pllAwaited) = false)
    (h4 : ∀ x ∈ ((o.onSegment c 0 s).host c.hp).chains, x.target ≠ c.target) :
    s.conclude o c [] = o.body c (o.onSegment c 0 s) := by
  show (if o.bound < c.payload.length ∨ (!o.lens c.target.toNat c.payload.length) = true then _ else
    if (o.needsPll c && ((o.onSegment c 0 s).modHost c.hp fun x => x.endChain c.target).pllAwaited) = true then _ else
      o.body c ((o.onSegment c 0 s).modHost c.hp fun x => x.endChain c.target)) = _
  have hid : (o.onSegment c 0 s).modHost c.hp (fun x => x.endChain c.target) = o.onSegment c 0 s := by
    apply State.modHost_id
    unfold HostPort.endChain
    have : ((o.onSegment c 0 s).host c.hp).chains.filter (fun x => x.target != c.target || x.expired)
        = ((o.onSegment c 0 s).host c.hp).chains := by
      rw [List.filter_eq_self]
      intro x hx
      simp [h4 x hx]
    rw [this]
  rw [if_neg (by simp [h1, h2]), hid, if_neg (by simp [h3])]

/-- An accepted command runs its row's meaning, with itself outstanding. -/
theorem accepted_body {i : Instr} {s : State} {o : Op} {h : HostCmd} (e : hostOp i = some (o, h)) (a : Accepted s o h)
    (hg : o.gate (o.cmd h) (s.opened (o.cmd h)) = o.gate (o.cmd h) s)
    (hs : ∀ c, (o.onSegment c 0 (s.opened c)).host h.hp = (s.opened c).host h.hp ∧
      (o.onSegment c 0 (s.opened c)).dev = s.dev) :
    s.decideLanded.hostRow o h = o.body (o.cmd h) (o.onSegment (o.cmd h) 0 (s.opened (o.cmd h))) := by
  obtain ⟨a, p⟩ := a
  rw [arrives_checks a, checkEarly_passes e p]
  simp only
  unfold State.decideOp
  have hc : ((s.opened (o.cmd h)).host (o.cmd h).hp).chainOf (o.cmd h).target = none := by
    unfold HostPort.chainOf
    rw [List.find?_eq_none]
    intro x hx
    rw [State.opened_host_chains] at hx
    simpa using p.noChain x hx
  have hh : (s.opened (o.cmd h)).targetHeld o (o.cmd h) = false :=
    (targetHeld_congr (s := s) o _ rfl rfl rfl rfl).trans p.held
  have hf : (o.cmd h).flags = 0 := p.flags
  rw [hc]
  simp only [hh, hf, hg, p.gate, Option.any_none, Bool.false_eq_true, if_false, Bool.false_and, Bool.or_self]
  rw [if_neg (by decide), if_neg (by decide)]
  apply conclude_body
  · exact p.lens.1
  · exact p.lens.2
  · have := p.pll
    unfold State.pllAwaited at this ⊢
    rw [(hs _).2]; exact this
  · intro x hx
    rw [Op.cmd_hp, (hs _).1, State.opened_host_chains] at hx
    exact p.noChain x hx

theorem markAnswered_last (c : Cmd) (l : List Outstanding) (h : ∀ x ∈ l, x.raw ≠ c.raw) :
    markAnswered c.raw (l ++ [⟨c.target, c.raw, false⟩]) = l ++ [⟨c.target, c.raw, true⟩] := by
  induction l with
  | nil => simp [markAnswered]
  | cons x l ih =>
    have h1 := h x (by simp)
    simp only [List.cons_append, markAnswered, h1, false_and, if_false]
    rw [ih fun y hy => h y (by simp [hy])]

theorem respPkts_ne (c : Cmd) (st : Nat) (b : Option Nat) (pls : List (List Byte)) (h : pls ≠ []) :
    respPkts c st b pls ≠ [] := by
  cases pls with
  | nil => exact absurd rfl h
  | cons a l => cases l <;> simp [respPkts]

theorem pendsFor_response (s : State) (q hp : HostNum) (pk : List OutPkt) : pendsFor s q [.response hp pk] = false := by
  simp [pendsFor]

theorem State.modHost_congr (s : State) (q : HostNum) (f g : HostPort → HostPort) (h : f (s.host q) = g (s.host q)) :
    s.modHost q f = s.modHost q g := by
  unfold State.modHost; rw [h]

theorem State.modHost_withRaised (s : State) (r : List OutItem) (q : HostNum) (f : HostPort → HostPort) :
    ({ s with raised := r } : State).modHost q f = { s.modHost q f with raised := r } := rfl

/-- The one response that a step makes ready reaches the stream of its host port. -/
theorem respondPkts_flush {u : State} {c : Cmd} {st : Nat} {pls : List (List Byte)} {b : Option Nat} (h1 : u.raised = [])
    (h2 : (u.host c.hp).more = []) (h3 : ∀ x ∈ (u.host c.hp).open_, x.raw ≠ c.raw) (h4 : pls ≠ []) :
    ((u.opened c).respondPkts c st pls b).flush = u.answeredPkts c st pls b := by
  obtain ⟨p, r, hp⟩ := List.exists_cons_of_ne_nil (respPkts_ne c st b pls h4)
  have hr : (u.opened c).raised = [] := h1
  have e0 : ({ u with raised := [] } : State) = u := by rw [← h1]
  have e1 : (u.opened c).respondPkts c st pls b = { (u.modHost c.hp fun x =>
      { x with
        open_ := x.open_ ++ [⟨c.target, c.raw, true⟩]
        kept := if pls.length ≤ 1 || c.opcode = 0x0203 then
            { target := c.target, raw := c.raw, pkts := respPkts c st b pls } :: x.kept.filter (·.target ≠ c.target)
          else x.kept }) with raised := [OutItem.response c.hp (respPkts c st b pls)] } := by
    unfold State.respondPkts
    rw [hr]
    simp only [State.opened]
    rw [State.modHost_withRaised, State.modHost_modHost]
    rw [State.modHost_congr u c.hp _ (fun x =>
      { x with
        open_ := x.open_ ++ [⟨c.target, c.raw, true⟩]
        kept := if pls.length ≤ 1 || c.opcode = 0x0203 then
            { target := c.target, raw := c.raw, pkts := respPkts c st b pls } :: x.kept.filter (·.target ≠ c.target)
          else x.kept })]
    · rfl
    · have := markAnswered_last c (u.host c.hp).open_ h3
      simp only [this]
  rw [e1]
  unfold State.flush
  simp only [postResponses, postEvents, pendsFor_response, hp]
  rw [← State.modHost_withRaised, e0, State.modHost_modHost]
  unfold State.answeredPkts
  apply State.modHost_congr
  simp only [HostPort.postResponse, h2, OutPkt.pend, Bool.false_eq_true, if_false, hp, List.take_succ_cons, List.take_zero,
    List.drop_succ_cons, List.drop_zero, List.nil_append]

/-- The next state of a meaning whose effect and end are known. -/
theorem run_to {f : State → State} {s v t : State} (h1 : f s = v) (h2 : v.flush = t) (h3 : t.pending = s.pending) :
    run f s = .next t := by
  unfold run; rw [h1, h2, ← h3]

/-- An accepted command that answers at once: the effect of its row with the one response added. -/
theorem accepted_answers {i : Instr} {s u : State} {o : Op} {h : HostCmd} {st : Nat} {pls : List (List Byte)}
    {b : Option Nat} (e : hostOp i = some (o, h)) (a : Accepted s o h)
    (hg : o.gate (o.cmd h) (s.opened (o.cmd h)) = o.gate (o.cmd h) s)
    (hs : ∀ c, (o.onSegment c 0 (s.opened c)).host h.hp = (s.opened c).host h.hp ∧
      (o.onSegment c 0 (s.opened c)).dev = s.dev)
    (hb : o.body (o.cmd h) (o.onSegment (o.cmd h) 0 (s.opened (o.cmd h))) = (u.opened (o.cmd h)).respondPkts (o.cmd h) st pls b)
    (hr : u.raised = []) (hm : (u.host h.hp).more = (s.host h.hp).more) (ho : (u.host h.hp).open_ = (s.host h.hp).open_)
    (hq : u.pending = s.pending) (hl : pls ≠ []) :
    exec i s = .next (u.answeredPkts (o.cmd h) st pls b) := by
  rw [hostOp_exec e]
  exact run_to (accepted_body e a hg hs |>.trans hb) (respondPkts_flush hr (by rw [Op.cmd_hp, hm, a.1.stream])
    (by intro x hx; rw [Op.cmd_hp, ho] at hx; exact (a.1.first x hx).1) hl) hq

/-- An accepted command that goes on in progress. -/
theorem accepted_waits {i : Instr} {s u : State} {o : Op} {h : HostCmd} {j : Job} (e : hostOp i = some (o, h))
    (a : Accepted s o h) (hg : o.gate (o.cmd h) (s.opened (o.cmd h)) = o.gate (o.cmd h) s)
    (hs : ∀ c, (o.onSegment c 0 (s.opened c)).host h.hp = (s.opened c).host h.hp ∧
      (o.onSegment c 0 (s.opened c)).dev = s.dev)
    (hb : o.body (o.cmd h) (o.onSegment (o.cmd h) 0 (s.opened (o.cmd h))) = (u.opened (o.cmd h)).begin (o.cmd h) j)
    (hr : u.raised = []) (hq : u.pending = s.pending) :
    exec i s = .next (u.waiting (o.cmd h) j) := by
  rw [hostOp_exec e]
  exact run_to (accepted_body e a hg hs |>.trans hb) (State.flush_nil _ hr) hq

/-- A row whose meaning answers at once. -/
theorem answered_of {i : Instr} {s u : State} {o : Op} {h : HostCmd} {st : Nat} {pl : List Byte}
    (e : hostOp i = some (o, h))
    (hb : (s.opened (o.cmd h)).raised = [] → o.body (o.cmd h) (s.opened (o.cmd h)) = (u.opened (o.cmd h)).respond (o.cmd h) st pl)
    (hu : u.hosts = s.hosts) (hr : u.raised = s.raised) (hq : u.pending = s.pending)
    (hg : o.gate (o.cmd h) (s.opened (o.cmd h)) = o.gate (o.cmd h) s := by rfl)
    (hs : ∀ c s, o.onSegment c 0 s = s := by intros; rfl) :
    RepliesAs i s o h u st pl := by
  intro a
  have ex : (u.host h.hp) = s.host h.hp := by unfold State.host; rw [hu]
  refine accepted_answers e a hg (fun c => by rw [hs]; exact ⟨rfl, rfl⟩) (by rw [hs, hb a.1.quiet]; rfl) (by rw [hr, a.1.quiet]) (by rw [ex]) (by rw [ex]) hq (by simp)

/-- A row whose meaning begins a job. -/
theorem waiting_of {i : Instr} {s u : State} {o : Op} {h : HostCmd} {j : Job}
    (e : hostOp i = some (o, h))
    (hb : o.body (o.cmd h) (s.opened (o.cmd h)) = (u.opened (o.cmd h)).begin (o.cmd h) j)
    (hr : u.raised = s.raised) (hq : u.pending = s.pending)
    (hg : o.gate (o.cmd h) (s.opened (o.cmd h)) = o.gate (o.cmd h) s := by rfl)
    (hs : ∀ c s, o.onSegment c 0 s = s := by intros; rfl) :
    Begins i s o h u j := by
  intro a
  exact accepted_waits e a hg (fun c => by rw [hs]; exact ⟨rfl, rfl⟩) (by rw [hs, hb]) (by rw [hr, a.1.quiet]) hq

/-! ## A command outstanding meets no update of another part -/

theorem State.opened_aonSet (s : State) (c : Cmd) (f : Fld) (v : Nat) : (s.opened c).aonSet f v = (s.aonSet f v).opened c := rfl
theorem State.opened_calSet (s : State) (c : Cmd) (f : Fld) (v : Nat) : (s.opened c).calSet f v = (s.calSet f v).opened c := rfl
theorem State.opened_pcrSet (s : State) (c : Cmd) (f : Fld) (v : Nat) : (s.opened c).pcrSet f v = (s.pcrSet f v).opened c := rfl
theorem State.opened_coordSet (s : State) (c : Cmd) (f : Fld) (v : Nat) : (s.opened c).coordSet f v = (s.coordSet f v).opened c := rfl
theorem State.opened_kilnSet (s : State) (c : Cmd) (f : Fld) (v : Nat) : (s.opened c).kilnSet f v = (s.kilnSet f v).opened c := rfl
theorem State.opened_xset (s : State) (c : Cmd) (f : Fld) (v : Nat) : (s.opened c).xset f v = (s.xset f v).opened c := rfl
theorem State.opened_setPort (s : State) (c : Cmd) (p : PortNum) (q : Port) : (s.opened c).setPort p q = (s.setPort p q).opened c := rfl
theorem State.opened_modPort (s : State) (c : Cmd) (p : PortNum) (f : Port → Port) : (s.opened c).modPort p f = (s.modPort p f).opened c := rfl
theorem State.opened_pset (s : State) (c : Cmd) (p : PortNum) (f : Fld) (v : Nat) : (s.opened c).pset p f v = (s.pset p f v).opened c := rfl
theorem State.opened_modSvc (s : State) (c : Cmd) (p : PortNum) (f : PortSvc → PortSvc) : (s.opened c).modSvc p f = (s.modSvc p f).opened c := rfl
theorem State.opened_modFramer (s : State) (c : Cmd) (p : PortNum) (f : Framer → Framer) : (s.opened c).modFramer p f = (s.modFramer p f).opened c := rfl
theorem State.opened_modEng (s : State) (c : Cmd) (p : PortNum) (f : Engine → Engine) : (s.opened c).modEng p f = (s.modEng p f).opened c := rfl
theorem State.opened_modX (s : State) (c : Cmd) (f : Xpdr → Xpdr) : (s.opened c).modX f = (s.modX f).opened c := rfl
theorem State.opened_ashPut (s : State) (c : Cmd) (i : AshItem) : (s.opened c).ashPut i = (s.ashPut i).opened c := by
  unfold State.ashPut
  by_cases e : s.kiln.queue.length < 16
  · rw [if_pos e, if_pos (show (s.opened c).kiln.queue.length < 16 from e)]; rfl
  · rw [if_neg e, if_neg (show ¬(s.opened c).kiln.queue.length < 16 from e)]; rfl
theorem State.opened_ttStore (s : State) (c : Cmd) (i : Nat) (e : Entry) : (s.opened c).ttStore i e = (s.ttStore i e).opened c := rfl
theorem State.opened_setChan (s : State) (c : Cmd) (ch : Channel) (x : Cells) : (s.opened c).setChan ch x = (s.setChan ch x).opened c := by
  cases ch <;> rfl
theorem State.opened_port (s : State) (c : Cmd) (p : PortNum) : (s.opened c).port p = s.port p := rfl
theorem State.opened_chan (s : State) (c : Cmd) (ch : Channel) : (s.opened c).chan ch = s.chan ch := by cases ch <;> rfl
theorem State.opened_raised (s : State) (c : Cmd) : (s.opened c).raised = s.raised := rfl
theorem State.opened_pending (s : State) (c : Cmd) : (s.opened c).pending = s.pending := rfl

/-! ## Events (R330-R332) -/

theorem pendsFor_none (s : State) (hp : HostNum) (evs : List HostNum) (t : Byte) (code : Half) (pl : List Byte)
    (h : hp ∉ evs) : pendsFor s hp (evs.map fun q => OutItem.event q t code pl) = false := by
  unfold pendsFor
  rw [List.any_eq_false]
  intro x hx
  simp only [List.mem_map] at hx
  obtain ⟨q, hq, rfl⟩ := hx
  have : q ≠ hp := fun e => h (e ▸ hq)
  simp [this]

theorem postEvents_told (evs : List HostNum) (t : Byte) (code : Half) (pl : List Byte) (u : State) (h : evs.Nodup) :
    postEvents (evs.map fun q => OutItem.event q t code pl) u = u.told evs t code pl := by
  induction evs generalizing u with
  | nil => rfl
  | cons q l ih =>
    rw [List.nodup_cons] at h
    simp only [List.map_cons, postEvents]
    rw [pendsFor_none u q l t code pl h.1, ih _ h.2]
    rfl

theorem postResponses_events (all : List OutItem) (evs : List HostNum) (t : Byte) (code : Half) (pl : List Byte)
    (u : State) : postResponses all (evs.map fun q => OutItem.event q t code pl) u = u := by
  induction evs generalizing u with
  | nil => rfl
  | cons q l ih => simp only [List.map_cons, postResponses]; exact ih u

/-- Events of one kind for distinct host ports reach their streams. -/
theorem flush_events {u v : State} (evs : List HostNum) (t : Byte) (code : Half) (pl : List Byte) (hv : v.raised = [])
    (hu : u = { v with raised := evs.map (fun q => OutItem.event q t code pl) }) (h : evs.Nodup) :
    u.flush = v.told evs t code pl := by
  subst hu
  unfold State.flush
  dsimp only
  rw [postResponses_events, postEvents_told _ _ _ _ _ h]
  rw [show ({ v with raised := [] } : State) = v by rw [← hv]]

theorem raiseAll_raised (s : State) (sel : HostNum → Bool) (t code : Nat) (pl : List Byte) :
    s.raiseAll sel t code pl = { s with raised := s.raised ++ (allHosts.filter sel).map (fun q =>
      OutItem.event q (BitVec.ofNat 8 t) (BitVec.ofNat 16 code) pl) } := by
  unfold State.raiseAll
  generalize allHosts.filter sel = l
  induction l generalizing s with
  | nil => simp
  | cons q l ih => rw [List.foldl_cons, ih]; simp [State.raiseTo]

theorem allHosts_filter_nodup (sel : HostNum → Bool) : (allHosts.filter sel).Nodup :=
  List.Nodup.filter _ (by decide)

/-- An event for the co-owners of the device. -/
theorem raiseDev_flush {u : State} (code : Nat) (pl : List Byte) (h : u.raised = []) :
    (u.raiseDev code pl).flush = u.told u.coOwners 0x0F (BitVec.ofNat 16 code) pl := by
  unfold State.raiseDev
  exact flush_events _ _ _ _ h (by rw [raiseAll_raised, h]; rfl) (allHosts_filter_nodup _)

/-- An event for one host port. -/
theorem raiseTo_flush {u : State} (q : HostNum) (t code : Nat) (pl : List Byte) (h : u.raised = []) :
    (u.raiseTo q t code pl).flush = u.told [q] (BitVec.ofNat 8 t) (BitVec.ofNat 16 code) pl :=
  flush_events [q] _ _ _ h (by unfold State.raiseTo; rw [h]; rfl) (by simp)

/-- An event for the owner of a target. -/
theorem raiseOwner_flush {u : State} (t code : Nat) (pl : List Byte) (h : u.raised = []) :
    (u.raiseOwner t code pl).flush = u.told (u.ownerOf t).toList (BitVec.ofNat 8 t) (BitVec.ofNat 16 code) pl := by
  unfold State.raiseOwner
  cases e : u.ownerOf t with
  | none => exact State.flush_nil _ h
  | some q => exact raiseTo_flush q t code pl h

/-- A response and events of one kind for other host ports. -/
theorem respond_events_flush {u v : State} {c : Cmd} {st : Nat} {pls : List (List Byte)} {b : Option Nat}
    (evs : List HostNum) (t : Byte) (code : Half) (pl : List Byte) (h1 : u.raised = []) (h2 : (u.host c.hp).more = [])
    (h3 : ∀ x ∈ (u.host c.hp).open_, x.raw ≠ c.raw) (h4 : pls ≠ []) (h5 : c.hp ∉ evs) (h6 : evs.Nodup)
    (hv : v = { (u.opened c).respondPkts c st pls b with
      raised := ((u.opened c).respondPkts c st pls b).raised ++ evs.map (fun q => OutItem.event q t code pl) }) :
    v.flush = (u.answeredPkts c st pls b).told evs t code pl := by
  rw [← respondPkts_flush h1 h2 h3 h4]
  subst hv
  have er : ((u.opened c).respondPkts c st pls b).raised = [OutItem.response c.hp (respPkts c st b pls)] := by
    show (u.opened c).raised ++ _ = _
    rw [State.opened_raised, h1]; rfl
  generalize (u.opened c).respondPkts c st pls b = w at er ⊢
  unfold State.flush
  dsimp only
  rw [er]
  simp only [List.cons_append, List.nil_append, postResponses, postEvents, postResponses_events, pendsFor_response]
  rw [← postEvents_told _ _ _ _ _ h6]
  congr 1
  have : pendsFor { w with raised := [] } c.hp
      (OutItem.response c.hp (respPkts c st b pls) :: evs.map fun q => OutItem.event q t code pl) = false := by
    have := pendsFor_none { w with raised := [] } c.hp evs t code pl h5
    unfold pendsFor at this ⊢
    rw [List.any_cons, this]; rfl
  rw [this]

/-- Events leave the queue. -/
theorem told_pending (u : State) (l : List HostNum) (t : Byte) (c : Half) (p : List Byte) : (u.told l t c p).pending = u.pending := by
  induction l generalizing u with
  | nil => rfl
  | cons q l ih => exact (ih _).trans rfl

end Sys2Proof.Machine
end

