-- ==== Sys2Proof/Laws/Field.lean ====
section
/-! SUPPORT. The channels of the timers and the fields of the ports: what their shared operations do and leave. -/

namespace Sys2Proof.Machine

theorem State.setChan_setChan (s : State) (ch : Channel) (x y : Cells) : (s.setChan ch x).setChan ch y = s.setChan ch y := by
  cases ch with
  | port p c => simp [State.setChan, State.modPort, State.setPort, State.port]
  | global c => simp [State.setChan]
theorem State.chan_setChan (s : State) (ch : Channel) (x : Cells) : (s.setChan ch x).chan ch = x := by
  cases ch with
  | port p c => simp [State.setChan, State.chan, State.modPort, State.setPort, State.port]
  | global c => simp [State.setChan, State.chan]
theorem setChan_rest (s : State) (ch : Channel) (x : Cells) : (s.setChan ch x).hosts = s.hosts ∧ (s.setChan ch x).raised = s.raised ∧ (s.setChan ch x).pending = s.pending := by
  cases ch <;> exact ⟨rfl, rfl, rfl⟩
theorem tget_tset (t : Cells) (f : Fld) (v : Nat) (h : f.fits) : tget (tset t f v) f = v % 2 ^ f.len := Cells.get_set _ _ _ _ h
theorem tget_tset_ne (t : Cells) (f g : Fld) (v : Nat) (h : g.fits) (hd : f.apart g) : tget (tset t g v) f = tget t f := Cells.get_set_ne _ _ _ _ _ h hd
theorem tget_lt (t : Cells) (f : Fld) : tget t f < 2 ^ f.len := by
  unfold tget Cells.get wget; exact Nat.mod_lt _ (by positivity)
theorem tget_put_ne (t : Cells) (f : Fld) (o : Nat) (w : Word) (h : f.off ≠ o) : tget (Cells.put .tmr t o w) f = tget t f := by
  unfold tget Cells.get Cells.put Cells.word; rw [Sparse.get_set_ne _ _ _ _ _ h]
theorem tget_put_v (t : Cells) (f : Fld) (w : Word) (h1 : f.lo = 0) (h2 : f.len = 32) : tget (Cells.put .tmr t f.off w) f = w.toNat := by
  unfold tget Cells.get Cells.put Cells.word; rw [Sparse.get_set]; unfold wget; rw [h1, h2]; simp; exact w.isLt
theorem tmrPresc_congr (t u : Cells) (h : tget t TMR_PRESC.V = tget u TMR_PRESC.V) : tmrPresc t = tmrPresc u := by unfold tmrPresc; rw [h]


theorem blocked_iff (s : State) (p : PortNum) : s.fieldBlocked p = false ↔ MayRamp s p := by
  unfold State.fieldBlocked
  constructor
  · intro h
    simp at h
    exact ⟨h.1.1.1, h.1.1.2, h.1.2, h.2⟩
  · rintro ⟨h1, h2, h3, h4⟩
    simp [h1, h2, h3, h4]

theorem blocked_pset (s : State) (p : PortNum) (f : Fld) (v : Nat) (h : f.fits) (hd : THERM.DUTY.apart f) :
    (s.pset p f v).fieldBlocked p = s.fieldBlocked p := by
  unfold State.fieldBlocked State.dutySpent State.dutyOn State.dutyCap State.carrier State.pllLocked State.kindling
  rw [State.pget_pset_ne _ _ _ _ _ h hd]
  simp [Port.set, State.pcrGet]

theorem State.modPort_self (s : State) (p : PortNum) (f : Port → Port) (h : f (s.port p) = s.port p) : s.modPort p f = s := by
  unfold State.modPort; rw [h]; exact State.setPort_self s p

theorem air_down (s : State) (p : PortNum) (h : AirIdle s p) : s.cutAir p = s := by
  unfold State.cutAir State.cutReceive State.cutSend State.framerAdvance
  simp only [h.tx, h.win, h.reqs]
  rfl

theorem AirIdle.congr {s t : State} {p : PortNum} (h : AirIdle s p) (e : (t.port p).framer = (s.port p).framer) : AirIdle t p :=
  ⟨by rw [e]; exact h.tx, by rw [e]; exact h.win, by rw [e]; exact h.reqs⟩

theorem takeLeff_facts (s : State) (p : PortNum) :
    let u := s.takeLeff p
    (u.port p).field = { (s.port p).field with leff := s.leff p } ∧ (u.port p).field.leff ≤ s.headroom p ∧
       (∀ o, o ≠ TXSTAT.reg → (u.port p).word o = (s.port p).word o) ∧ ∀ q, q ≠ p → u.port q = s.port q := by
  intro u
  have e : (u.port p).field = { (s.port p).field with leff := s.leff p } := by
    simp [u, State.takeLeff, Port.set]
  refine ⟨e, ?_, ?_, ?_⟩
  · rw [e]; exact Nat.min_le_right _ _
  · intro o ho
    have : (u.port p).word o = ((s.port p).set TXSTAT.HEADROOM (bit (s.headroom p < s.leffRaw p))).word o := by
      simp [u, State.takeLeff, Port.word]
    rw [this, Port.word_set_ne _ _ _ _ ho]
  · intro q hq
    simp [u, State.takeLeff, hq]

theorem foldl_import_frame (l : List (Nat × Word)) (q : Port) : ∃ r, l.foldl Port.importWord q = { q with regs := r } := by
  induction l generalizing q with
  | nil => exact ⟨q.regs, rfl⟩
  | cons w l ih =>
    have : ∃ r, q.importWord w = { q with regs := r } := by
      unfold Port.importWord
      split
      · split
        · exact ⟨q.regs, rfl⟩
        · exact ⟨_, rfl⟩
      · exact ⟨_, rfl⟩
    obtain ⟨r, hr⟩ := this
    obtain ⟨r', hr'⟩ := ih (q.importWord w)
    exact ⟨r', by rw [List.foldl_cons, hr', hr]⟩

theorem import_word (w : Nat × Word) (q : Port) (o : Nat) (h1 : w.1 ≠ o) : (q.importWord w).word o = q.word o := by
  unfold Port.importWord
  by_cases h : w.1 = DBDLY.reg
  · rw [if_pos h]
    split
    · rfl
    · exact Port.word_set_ne _ _ _ _ (by show o ≠ DBDLY.reg; rw [← h]; exact Ne.symm h1)
  · rw [if_neg h]; exact Port.word_putWord_ne _ _ _ _ (Ne.symm h1)

theorem foldl_import_word (l : List (Nat × Word)) (q : Port) (o : Nat) (h : ∀ w ∈ l, w.1 ≠ o) : (l.foldl Port.importWord q).word o = q.word o := by
  induction l generalizing q with
  | nil => rfl
  | cons w l ih =>
    rw [List.foldl_cons, ih _ (fun x hx => h x (List.mem_cons_of_mem _ hx)), import_word w q o (h w (by simp))]

/-- What idleWork leaves. -/
theorem idleWork_facts (s : State) (p : PortNum) :
    let u := s.idleWork p
    (∃ c i r, u = { s with cal := c, imports := i, ports := r }) ∧ (∀ q, q ≠ p → u.port q = s.port q) ∧
      (∃ r, u.port p = { s.port p with regs := r }) ∧ (∀ o, NoImport s p o → (u.port p).word o = (s.port p).word o) ∧
      (s.idleOrOff p = true → IdleWorkDone s u p) := by
  intro u
  by_cases hi : s.idleOrOff p = true
  · have hu : u = (({ s.calSet (TUNE.APPLIED.nth p.val) (s.calGet (TUNE.CAP.nth p.val)) with
        imports := s.imports.filter fun i => i.1 ≠ p.val } : State).modPort p fun q =>
          ((s.imports.filter fun i => i.1 = p.val).flatMap (·.2)).foldl Port.importWord q) := if_pos hi
    have hp : u.port p = ((s.imports.filter fun i => i.1 = p.val).flatMap (·.2)).foldl Port.importWord (s.port p) := by
      rw [hu, State.modPort_port]; rfl
    refine ⟨⟨_, _, _, hu⟩, ?_, ?_, ?_, ?_⟩
    · intro q hq; rw [hu, State.modPort_port_ne _ _ _ _ hq]; rfl
    · rw [hp]; exact foldl_import_frame _ _
    · intro o ho
      rw [hp]
      refine foldl_import_word _ _ _ ?_
      intro w hw
      simp only [List.mem_flatMap, List.mem_filter] at hw
      obtain ⟨i, ⟨h1, h2⟩, h3⟩ := hw
      exact ho i h1 (by simpa using h2) w h3
    · intro _
      rw [hu]
      refine ⟨?_, ?_⟩
      · have h1 : ∀ n : Nat, n < 8 → (TUNE.APPLIED.nth n).fits := by decide
        have h2 := Cells.get_set .cal s.cal (TUNE.APPLIED.nth p.val) (s.calGet (TUNE.CAP.nth p.val)) (h1 _ p.isLt)
        refine h2.trans (Nat.mod_eq_of_lt ?_)
        have h3 : ∀ n : Nat, n < 8 → (TUNE.CAP.nth n).len = (TUNE.APPLIED.nth n).len := by decide
        rw [← h3 _ p.isLt]
        unfold State.calGet Cells.get wget; exact Nat.mod_lt _ (by positivity)
      · intro w hw
        have : w ∈ s.imports.filter fun i => i.1 ≠ p.val := hw
        simp at this; exact this.2
  · have hu : u = s := if_neg hi
    rw [hu]
    exact ⟨⟨s.cal, s.imports, s.ports, rfl⟩, fun _ _ => rfl, ⟨(s.port p).regs, rfl⟩, fun _ _ => rfl, fun h => absurd h hi⟩

/-- The state in which the field of a port is off, before what waits for it. -/
def offBase (s : State) (p : PortNum) : State :=
  ((if s.fieldState p = 0 then s else s.dutyAdd p).pset p TXSTAT.STATE 0).modPort p fun q =>
    { q with
      field := { q.field with leff := 0, ramping := false }
      grate := { q.grate with request := q.grate.request || q.grate.held, held := false } }

theorem fieldIsOff_eq (s : State) (p : PortNum) : s.fieldIsOff p = (offBase s p).idleWork p := rfl

theorem offBase_facts (s : State) (p : PortNum) :
    (∃ k r, offBase s p = { s with free := k, ports := r }) ∧ (∀ q, q ≠ p → (offBase s p).port q = s.port q) ∧
    (∃ n, (offBase s p).port p = { s.port p with
      regs := Cells.set .port (s.port p).regs TXSTAT.STATE 0
      field := { (s.port p).field with leff := 0, ramping := false, dutyUsed := (s.port p).field.dutyUsed + n }
      grate := { (s.port p).grate with request := (s.port p).grate.request || (s.port p).grate.held, held := false } }) := by
  unfold offBase
  by_cases h : s.fieldState p = 0
  · rw [if_pos h]
    refine ⟨⟨s.free, _, rfl⟩, ?_, ⟨0, ?_⟩⟩
    · intro q hq; simp [hq]
    · simp [Port.set]
  · rw [if_neg h]
    refine ⟨⟨s.free + 1, _, rfl⟩, ?_, ⟨Config.freeNat s.free % dutyWindow, ?_⟩⟩
    · intro q hq
      simp [State.dutyAdd, State.drawNat, hq]
      rfl
    · have hp : ({ s with free := s.free + 1 } : State).port p = s.port p := rfl
      simp only [State.dutyAdd, State.drawNat, State.pset_port, State.modPort_port, Port.set, hp]

theorem fieldIsOff_frame (s : State) (p : PortNum) :
   let u := s.fieldIsOff p
   (∃ k c i r, u = { s with free := k, cal := c, imports := i, ports := r }) ∧ (∀ q, q ≠ p → u.port q = s.port q) ∧
    (∃ r n, u.port p = { s.port p with
      regs := r
      field := { (s.port p).field with leff := 0, ramping := false, dutyUsed := (s.port p).field.dutyUsed + n }
      grate := { (s.port p).grate with request := (s.port p).grate.request || (s.port p).grate.held, held := false } }) ∧
    (∀ o, o ≠ TXSTAT.reg → NoImport s p o → (u.port p).word o = (s.port p).word o) ∧
    (NoImport s p TXSTAT.reg → u.fieldState p = 0 ∧ (∀ f : Fld, f.off = TXSTAT.reg → f.apart TXSTAT.STATE → u.pget p f = s.pget p f) ∧
      IdleWorkDone s u p) := by
  intro u
  obtain ⟨⟨k, r, e1⟩, e2, ⟨n, e3⟩⟩ := offBase_facts s p
  obtain ⟨⟨c, i, r', f1⟩, f2, ⟨r2, f3⟩, f4, f5⟩ := idleWork_facts (offBase s p) p
  have hi : (offBase s p).imports = s.imports := by rw [e1]
  have hni : ∀ o, NoImport s p o → NoImport (offBase s p) p o := by intro o h; unfold NoImport at h ⊢; rw [hi]; exact h
  have hw : ∀ o, NoImport s p o → (u.port p).word o = ((offBase s p).port p).word o := fun o h => f4 o (hni o h)
  have h0 : (offBase s p).fieldState p = 0 := by
    show Cells.get .port ((offBase s p).port p).regs TXSTAT.STATE = 0
    rw [e3]
    exact (Cells.get_set _ _ _ _ (by decide)).trans rfl
  refine ⟨⟨k, c, i, r', ?_⟩, ?_, ⟨r2, n, ?_⟩, ?_, ?_⟩
  · show (offBase s p).idleWork p = _
    rw [f1, e1]
  · intro q hq; exact (f2 q hq).trans (e2 q hq)
  · refine f3.trans ?_
    rw [e3]
  · intro o ho h
    rw [hw o h, e3]
    exact Cells.word_set_ne _ _ _ _ _ ho
  · intro h
    refine ⟨?_, ?_, ?_⟩
    · have := hw _ h
      show wget ((u.port p).word TXSTAT.reg) _ _ = 0
      rw [this]; exact h0
    · intro f hf ha
      show wget ((u.port p).word f.off) _ _ = _
      rw [hf, hw _ h, ← hf]
      show Cells.get .port ((offBase s p).port p).regs f = _
      rw [e3]
      exact Cells.get_set_ne _ _ _ _ _ (by decide) ha
    · have := f5 (by unfold State.idleOrOff; rw [h0]; simp)
      have hc : (offBase s p).cal = s.cal := by rw [e1]
      refine ⟨?_, this.2⟩
      have h1 := this.1
      unfold State.calGet at h1 ⊢
      rw [hc] at h1
      exact h1

theorem powered_self (s : State) (p : PortNum) (h1 : s.portOn p = true) (h2 : s.portOn (sibling p) = true) (ho : (s.port p).svc.svc = .opened) :
    s.powerSync p = s := by
  unfold State.powerSync
  have hh : (s.holdsPower p || s.holdsPower (sibling p)) = true := by
    unfold State.holdsPower; simp [ho]
  rw [hh, if_pos rfl]
  have key : ∀ (s : State) q, s.portOn q = true → s.modSvc q (fun v => { v with powered := true }) = s := by
    intro s q hq
    refine State.modPort_self s q _ ?_
    unfold State.portOn at hq
    generalize s.port q = x at hq ⊢
    obtain ⟨⟩ := x
    rename_i v
    obtain ⟨⟩ := v
    simp_all
  rw [List.foldl_cons, List.foldl_cons, List.foldl_nil, key s p h1, key s _ h2]

theorem f1_frame_raised {s u : State} (h : ∃ k c i r, u = { s with free := k, cal := c, imports := i, ports := r }) : u.raised = s.raised ∧ u.pending = s.pending ∧ u.running = s.running ∧ u.hosts = s.hosts ∧ u.dev = s.dev ∧ u.aon = s.aon ∧ u.table = s.table := by
  obtain ⟨k, c, i, r, rfl⟩ := h
  exact ⟨rfl, rfl, rfl, rfl, rfl, rfl, rfl⟩

theorem endWhere_none (s : State) (sel : Running → Bool) (st : Nat) (h : ∀ r ∈ s.running, sel r = false) : s.endWhere sel st = s := by
  unfold State.endWhere
  have h1 : s.running.filter sel = [] := by
    rw [List.filter_eq_nil_iff]; intro r hr; simp [h r hr]
  have h2 : s.running.filter (fun r => !sel r) = s.running := by
    rw [List.filter_eq_self]; intro r hr; simp [h r hr]
  simp only [h1, h2, List.foldl_nil]

theorem stopWork_none (s : State) (p : PortNum) (st : Nat) (h : NoWork s p) : s.stopWork p st = s := by
  unfold State.stopWork State.endPort
  rw [endWhere_none s _ st (fun r hr => h.running r hr)]
  have hc : s.calPorts.contains p = false := by
    rw [List.contains_eq_any_beq, List.any_eq_false]
    intro q hq
    unfold State.calPorts at hq
    simp only [List.mem_reverse, List.mem_filterMap] at hq
    obtain ⟨r, hr, e⟩ := hq
    have h1 := h.running r hr
    obtain ⟨c, j⟩ := r
    cases j <;> simp at e
    subst e
    intro he
    rw [beq_iff_eq] at he
    subst he
    simp [Running.onPort, Job.port] at h1
  have hd : s.dropDb p = s := by
    unfold State.dropDb; rw [h.db]; rfl
  simp only [hc, h.coupling, Bool.false_eq_true, if_false, hd]

theorem NoWork.congr {s t : State} {p : PortNum} (h : NoWork s p) (e1 : t.running = s.running) (e2 : (t.port p).svc.db = (s.port p).svc.db) : NoWork t p := by
  refine ⟨by rw [e1]; exact h.running, ?_, by rw [e2]; exact h.db⟩
  have : t.couplingSet = s.couplingSet := by unfold State.couplingSet; rw [e1]
  rw [this]; exact h.coupling

theorem faulted_facts (s : State) (p : PortNum) (c : Cause) :
    let off := (s.pset p TXCTL.FIELD_EN 0).pset p TXSTAT.HELD 0
    let o := if c = .opened then off.pset p TXSTAT.STATE 3 else off.fieldIsOff p
    (∃ k c i r, o = { s with free := k, cal := c, imports := i, ports := r }) ∧ (o.port p).framer = (s.port p).framer ∧ (o.port p).svc = (s.port p).svc ∧
      (o.port p).grate.reg = (s.port p).grate.reg ∧ ∀ q, q ≠ p → o.port q = s.port q := by
  intro off o
  have hoff : (off.port p).framer = (s.port p).framer ∧ (off.port p).svc = (s.port p).svc ∧ (off.port p).grate = (s.port p).grate := by
    simp [off, Port.set]
  have hq : ∀ q, q ≠ p → off.port q = s.port q := by intro q hq; simp [off, hq]
  by_cases h : c = .opened
  · have ho : o = off.pset p TXSTAT.STATE 3 := if_pos h
    refine ⟨⟨s.free, s.cal, s.imports, _, ho⟩, ?_, ?_, ?_, ?_⟩
    · rw [ho]; simp [Port.set, hoff]
    · rw [ho]; simp [Port.set, hoff]
    · rw [ho]; simp [Port.set, hoff]
    · intro q hq'; rw [ho, State.pset_port_ne _ _ _ _ _ hq']; exact hq q hq'
  · have ho : o = off.fieldIsOff p := if_neg h
    obtain ⟨⟨k, c', i, r', e⟩, f2, ⟨rr, n, f3⟩, -⟩ := fieldIsOff_frame off p
    refine ⟨⟨k, c', i, r', ho.trans e⟩, ?_, ?_, ?_, ?_⟩
    · rw [ho, f3]; exact hoff.1
    · rw [ho, f3]; exact hoff.2.1
    · rw [ho, f3]; rw [hoff.2.2]
    · intro q hq'; rw [ho, f2 q hq']; exact hq q hq'

theorem fault_tail (s u : State) (p : PortNum) (c : Cause) (ha : AirIdle s p) (hw : NoWork s p)
    (e1 : u.running = s.running) (f2 : (u.port p).framer = (s.port p).framer) (f3 : (u.port p).svc = (s.port p).svc) (F G : PortSvc → PortSvc) (hFG : F = G) :
    (((((u.pset p TXSTAT.FAULT 1).pset p TXSTAT.CAUSE c.code).pset p TXSTAT.ANT_AT_FAULT (s.antenna p)).cutAir p).stopWork p c.status).modSvc p F =
    (((u.pset p TXSTAT.FAULT 1).pset p TXSTAT.CAUSE c.code).pset p TXSTAT.ANT_AT_FAULT (s.antenna p)).modSvc p G := by
  subst hFG
  generalize hv : ((u.pset p TXSTAT.FAULT 1).pset p TXSTAT.CAUSE c.code).pset p TXSTAT.ANT_AT_FAULT (s.antenna p) = v
  have a1 : (v.port p).framer = (s.port p).framer := by rw [← hv]; simp [Port.set, f2]
  have a2 : (v.port p).svc = (s.port p).svc := by rw [← hv]; simp [Port.set, f3]
  have a3 : v.running = s.running := by rw [← hv]; simp [e1]
  rw [air_down v p (ha.congr a1), stopWork_none v p _ (hw.congr a3 (by rw [a2]))]

theorem fault_eq (s : State) (p : PortNum) (c : Cause) (h1 : s.pget p TXCTL.FIELD_EN = 1) (ha : AirIdle s p) (hw : NoWork s p) :
    s.fieldFault p c = (s.faulted p c).raiseOwner p.val 0x0180
      ([BitVec.ofNat 8 c.code, BitVec.ofNat 8 (s.antenna p)] ++ leBytes 2 c.status) := by
  obtain ⟨⟨k, c', i, r', e⟩, f2, f3, f4, f5⟩ := faulted_facts s p c
  unfold State.fieldFault State.faulted
  rw [if_pos h1]
  have hr : (if c = .opened then ((s.pset p TXCTL.FIELD_EN 0).pset p TXSTAT.HELD 0).pset p TXSTAT.STATE 3
        else ((s.pset p TXCTL.FIELD_EN 0).pset p TXSTAT.HELD 0).fieldIsOff p).running = s.running := by rw [e]
  dsimp only
  refine congrArg (fun t : State => t.raiseOwner p.val 0x0180 ([BitVec.ofNat 8 c.code, BitVec.ofNat 8 (s.antenna p)] ++ leBytes 2 c.status)) ?_
  have := fault_tail s _ p c ha hw hr f2 f3
  cases c
  all_goals
    simp only [reduceCtorEq, if_true, if_false] at this ⊢
    refine this _ _ ?_
    funext v
    simp [Cause.endsPass]

theorem faulted_rest (s : State) (p : PortNum) (c : Cause) : (s.faulted p c).raised = s.raised ∧ (s.faulted p c).pending = s.pending ∧
    (∀ t, (s.faulted p c).ownerOf t = s.ownerOf t) ∧ (∀ q, q ≠ p → (s.faulted p c).port q = s.port q) ∧
    ((s.faulted p c).port p).svc.powered = (s.port p).svc.powered := by
  obtain ⟨⟨k, c', i, r', e⟩, f2, f3, f4, f5⟩ := faulted_facts s p c
  unfold State.faulted
  dsimp only
  generalize hu : (if c = .opened then ((s.pset p TXCTL.FIELD_EN 0).pset p TXSTAT.HELD 0).pset p TXSTAT.STATE 3
        else ((s.pset p TXCTL.FIELD_EN 0).pset p TXSTAT.HELD 0).fieldIsOff p) = u at e f2 f3 f4 f5 ⊢
  refine ⟨?_, ?_, ?_, ?_, ?_⟩
  · show u.raised = _; rw [e]
  · show u.pending = _; rw [e]
  · intro t; show u.ownerOf t = _; rw [e]; rfl
  · intro q hq; simp [hq, f5 q hq]
  · simp [Port.set, f3]

theorem told_of (u : State) (t : Nat) (code : Nat) (pl : List Byte) (s : State) (ho : u.ownerOf t = s.ownerOf t) (h : u.raised = []) :
   (u.raiseOwner t code pl).flush = u.told (s.ownerOf t).toList (BitVec.ofNat 8 t) (BitVec.ofNat 16 code) pl := by
  rw [raiseOwner_flush t code pl h, ho]


theorem fault_exec {i : Instr} {f : State → State} {s w u : State} {p : PortNum} {c : Cause} (e : exec i = run f)
    (hf : f s = u.raiseOwner p.val 0x0180 ([BitVec.ofNat 8 c.code, BitVec.ofNat 8 (w.antenna p)] ++ leBytes 2 c.status))
    (h1 : u.raised = []) (h2 : u.pending = s.pending) (h3 : u.ownerOf p.val = w.ownerOf p.val) : exec i s = .next (u.faultTold w p c) := by
  refine exec_flush e hf (told_of _ _ _ _ w h3 h1) ?_
  exact (told_pending _ _ _ _ _).trans h2

theorem raiseOwner_modPort (u : State) (q : PortNum) (f : Port → Port) (t code : Nat) (pl : List Byte) :
    (u.raiseOwner t code pl).modPort q f = (u.modPort q f).raiseOwner t code pl := by
  unfold State.raiseOwner
  have : (u.modPort q f).ownerOf t = u.ownerOf t := rfl
  rw [this]
  cases u.ownerOf t <;> rfl

theorem raiseOwner_port (u : State) (t c : Nat) (pl : List Byte) (q : PortNum) : (u.raiseOwner t c pl).port q = u.port q := by
  unfold State.raiseOwner; cases u.ownerOf t <;> rfl

theorem fault_idle (s : State) (p : PortNum) (c : Cause) (h : FieldIdle s p) : s.fieldFault p c = s := by
  unfold State.fieldFault
  rw [if_neg (by rw [h.2]; simp), if_pos h.1]

end Sys2Proof.Machine
end

