-- ==== Sys2Proof/Laws/FifoSide.lean ====
section
/-! SUPPORT. Pushes, reads and moves change one FIFO and its registers alone, and keep its positions sound. -/

namespace Sys2Proof.Machine

theorem FPos.of_ok (n : Nat) : (FPos.of n).ok = true := by simp [FPos.of, FPos.ok]

theorem Fifo.sound_set {f : Fifo} (h : f.sound) (i : Nat) (x : FPos) (hx : x.ok = true) (g : Fifo) (hg : g.pos = f.pos.set i x) : g.sound := by
  intro j hj
  have h1 := h j hj
  rw [hg]
  by_cases e : j = i
  · subst e
    by_cases hl : j < f.pos.length
    · simp [List.getD, hl, hx]
    · simp [List.getD, hl, FPos.of_ok]
  · have : (f.pos.set i x).getD j (FPos.of 0) = f.pos.getD j (FPos.of 0) := by
      simp only [List.getD, List.getElem?_set_ne (Ne.symm e)]
    rw [this]; exact h1

theorem Fifo.sound_of {f g : Fifo} (h : f.sound) (e : g.pos = f.pos) : g.sound := by intro j hj; rw [e]; exact h j hj
theorem Fifo.sound_adv {f : Fifo} (h : f.sound) (i n : Nat) : (f.adv i n).sound := Fifo.sound_set h i _ (FPos.of_ok _) _ rfl
theorem Fifo.sound_settleN (n : Nat) {f : Fifo} (h : f.sound) : (Fifo.settleN n f).sound := by
  induction n generalizing f with
  | zero => exact h
  | succ n ih =>
    unfold Fifo.settleN
    split
    · exact h
    · split
      · exact ih (Fifo.sound_adv (Fifo.sound_adv (Fifo.sound_of h rfl) _ _) _ _)
      · exact h
theorem Fifo.sound_settle {f : Fifo} (h : f.sound) : f.settle.sound := Fifo.sound_settleN 16 h
theorem Fifo.sound_putTail {f : Fifo} (h : f.sound) (a b c d) : (f.putTail a b c d).sound := Fifo.sound_adv (Fifo.sound_of h rfl) _ _
theorem Fifo.sound_closeWord {f : Fifo} (h : f.sound) (e : Bool) : (f.closeWord e).sound := by
  unfold Fifo.closeWord; split
  · exact Fifo.sound_set (f := f) h 0 _ (FPos.of_ok _) _ rfl
  · exact h
theorem Fifo.sound_commit {f : Fifo} (h : f.sound) : f.commit.sound := by
  unfold Fifo.commit; split
  · exact Fifo.sound_of h rfl
  · have key : ∀ g : Fifo, g.sound → ({ ({ g with open_ := false, pkts := g.pkts + 1, pktNo := g.pktNo + 1 } : Fifo) with pos := g.pos.set 2 (g.pos.getD 0 (FPos.of 0)) } : Fifo).sound :=
      fun g h => Fifo.sound_set h 2 _ (h 0 (by decide)) _ rfl
    cases hc : f.cinder with
    | some n => exact key _ (Fifo.sound_set (f := f) h 0 _ (FPos.of_ok _) _ rfl)
    | none => exact key _ h

/-- Nothing outside port `p` and the spill SRAM differs, and of the port only one FIFO and registers. -/
structure FifoSide (s t : State) (p : PortNum) (d : Dir) : Prop where
  rest : t = { s with ports := t.ports, spill := t.spill }
  others : ∀ q, q ≠ p → t.port q = s.port q
  own : ∃ g r, t.port p = { (s.port p).setFifo d g with regs := r }
  sound : (s.fifo p d).sound → (t.fifo p d).sound
  regs : ∀ o, o ≠ (RX_STAT.UNDER.dir d).off → o ≠ (RX_LOST.BYTES.dir d).off → (t.port p).word o = (s.port p).word o

theorem FifoSide.refl (s : State) (p : PortNum) (d : Dir) : FifoSide s s p d :=
  ⟨rfl, fun _ _ => rfl, ⟨s.fifo p d, (s.port p).regs, by cases d <;> rfl⟩, id, fun _ _ _ => rfl⟩

theorem FifoSide.trans {s t u : State} {p : PortNum} {d : Dir} (a : FifoSide s t p d) (b : FifoSide t u p d) : FifoSide s u p d := by
  obtain ⟨g1, r1, e1⟩ := a.own
  obtain ⟨g2, r2, e2⟩ := b.own
  refine ⟨?_, fun q hq => (b.others q hq).trans (a.others q hq), ⟨g2, r2, ?_⟩, fun h => b.sound (a.sound h), fun o h1 h2 => (b.regs o h1 h2).trans (a.regs o h1 h2)⟩
  · calc u = { t with ports := u.ports, spill := u.spill } := b.rest
      _ = { s with ports := u.ports, spill := u.spill } := by rw [a.rest]
  · rw [e2, e1]; cases d <;> rfl

theorem FifoSide.setFifo (s : State) (p : PortNum) (d : Dir) (g : Fifo) (h : (s.fifo p d).sound → g.sound) : FifoSide s (s.setFifo p d g) p d :=
  ⟨rfl, fun q hq => State.setFifo_port_ne _ _ _ _ _ hq, ⟨g, (s.port p).regs, by cases d <;> simp [State.setFifo, Port.setFifo]⟩, by rw [State.fifo_setFifo]; exact h,
    fun o _ _ => State.word_setFifo _ _ _ _ _⟩

theorem State.fifo_pset (s : State) (p : PortNum) (d : Dir) (f : Fld) (v : Nat) : (s.pset p f v).fifo p d = s.fifo p d := by
  cases d <;> simp [State.fifo, Port.fifo, Port.set]
theorem FifoSide.fset (s : State) (p : PortNum) (d : Dir) (f : Fld) (v : Nat)
    (h : (f.dir d).off = (RX_STAT.UNDER.dir d).off ∨ (f.dir d).off = (RX_LOST.BYTES.dir d).off) : FifoSide s (s.fset p d f v) p d :=
  ⟨rfl, fun q hq => by simp [State.fset, hq], ⟨s.fifo p d, Cells.set .port (s.port p).regs (f.dir d) v, by cases d <;> simp [State.fset, Port.set, Port.setFifo, State.fifo, Port.fifo]⟩,
    by rw [State.fset, State.fifo_pset]; exact id, fun o h1 h2 => by
      rw [State.fset, State.word_pset_ne]
      rcases h with h | h <;> rw [h] <;> assumption⟩
theorem lost_off (d : Dir) (f : Fld) (h : f.off = RX_LOST.BYTES.off) : (f.dir d).off = (RX_STAT.UNDER.dir d).off ∨ (f.dir d).off = (RX_LOST.BYTES.dir d).off := by
  right; cases d <;> simp [Fld.dir, h]
theorem stat_off (d : Dir) (f : Fld) (h : f.off = RX_STAT.UNDER.off) : (f.dir d).off = (RX_STAT.UNDER.dir d).off ∨ (f.dir d).off = (RX_LOST.BYTES.dir d).off := by
  left; cases d <;> simp [Fld.dir, h]

theorem flueOut_side (s : State) (p : PortNum) (d : Dir) : FifoSide s (s.flueOut p d) p d := by
  unfold State.flueOut
  dsimp only
  split
  · exact FifoSide.refl _ _ _
  · refine FifoSide.setFifo _ _ _ _ fun h => ?_
    exact Fifo.sound_settle (Fifo.sound_adv (Fifo.sound_adv (Fifo.sound_of h rfl) _ _) _ _)

theorem spill_side (s : State) (p : PortNum) (d : Dir) (m : Mem) : FifoSide s { s with spill := m } p d :=
  ⟨rfl, fun _ _ => rfl, ⟨s.fifo p d, (s.port p).regs, by cases d <;> rfl⟩, id, fun _ _ _ => rfl⟩

theorem flueIn_side (s : State) (p : PortNum) (d : Dir) : FifoSide s (s.flueIn p d) p d := by
  unfold State.flueIn
  dsimp only
  split
  · exact FifoSide.refl _ _ _
  · refine (spill_side s p d _).trans (FifoSide.setFifo _ _ _ _ fun h => ?_)
    exact Fifo.sound_adv (Fifo.sound_adv (Fifo.sound_of h rfl) _ _) _ _

theorem flueMove_side (s : State) (p : PortNum) (d : Dir) (h : (s.fifo p d).sound) : FifoSide s (s.flueMove p d) p d := by
  unfold State.flueMove
  dsimp only
  rw [Fifo.sound_bad h _ (by decide)]
  dsimp only
  split
  · exact flueOut_side _ _ _
  · split
    · exact flueIn_side _ _ _
    · split
      · exact flueOut_side _ _ _
      · split
        · exact flueIn_side _ _ _
        · exact FifoSide.refl _ _ _

theorem loseByte_side (s : State) (p : PortNum) (d : Dir) : FifoSide s (s.loseByte p d) p d := FifoSide.fset _ _ _ _ _ (lost_off d _ rfl)

theorem placeByte_side (s : State) (p : PortNum) (d : Dir) (b : Byte) : FifoSide s (s.placeByte p d b) p d := by
  have key : ∀ (u : State) (free : Nat), FifoSide u (if (u.fifo p d).lostWhole then u.loseByte p d
      else match (u.fifo p d).cinder with
        | some n => (u.setFifo p d { u.fifo p d with cinder := some (min 65535 (n + 1)) }).loseByte p d
        | none =>
          if (u.fifo p d).part ≠ [] || 2 ≤ free then u.setFifo p d { u.fifo p d with part := (u.fifo p d).part ++ [b] }
          else ((u.setFifo p d { u.fifo p d with cinder := some 1 }).loseByte p d).fset p d RX_LOST.CINDERS (min 255 (((u.setFifo p d { u.fifo p d with cinder := some 1 }).loseByte p d).fget p d RX_LOST.CINDERS + 1))) p d := by
    intro u free
    split
    · exact loseByte_side _ _ _
    · split
      · rename_i n _
        exact (FifoSide.setFifo u p d { u.fifo p d with cinder := some (min 65535 (n + 1)) } fun h => Fifo.sound_of h rfl).trans (loseByte_side _ _ _)
      · split
        · exact FifoSide.setFifo u p d { u.fifo p d with part := (u.fifo p d).part ++ [b] } fun h => Fifo.sound_of h rfl
        · exact ((FifoSide.setFifo u p d { u.fifo p d with cinder := some 1 } fun h => Fifo.sound_of h rfl).trans (loseByte_side _ _ _)).trans
            (FifoSide.fset _ _ d RX_LOST.CINDERS _ (lost_off d RX_LOST.CINDERS rfl))
  let s1 := if (s.fifo p d).open_ then s
    else if s.fifoFree p d = 0 then
      (s.setFifo p d { s.fifo p d with open_ := true, lostWhole := true }).fset p d RX_LOST.PKTS
        (min 255 (s.fget p d RX_LOST.PKTS + 1))
    else s.setFifo p d { s.fifo p d with open_ := true }
  have h1 : FifoSide s s1 p d := by
    unfold s1
    split
    · exact FifoSide.refl _ _ _
    · split
      · exact (FifoSide.setFifo s p d { s.fifo p d with open_ := true, lostWhole := true } fun h => Fifo.sound_of h rfl).trans
          (FifoSide.fset _ _ d RX_LOST.PKTS _ (lost_off d RX_LOST.PKTS rfl))
      · exact FifoSide.setFifo s p d { s.fifo p d with open_ := true } fun h => Fifo.sound_of h rfl
  exact h1.trans (key s1 (s.fifoFree p d))

theorem pushNow_side (s : State) (p : PortNum) (d : Dir) (b : Byte) (l : Bool) (h : (s.fifo p d).sound) : FifoSide s (s.pushNow p d b l) p d := by
  unfold State.pushNow
  rw [Fifo.sound_bad h _ (by cases l <;> decide)]
  dsimp only
  refine (placeByte_side s p d b).trans (FifoSide.setFifo _ _ _ _ fun h => ?_)
  refine Fifo.sound_settle ?_
  split
  · exact Fifo.sound_commit (Fifo.sound_closeWord h _)
  · exact Fifo.sound_closeWord h _

theorem pushByte_side (s : State) (p : PortNum) (d : Dir) (b : Byte) (l : Bool) (h : (s.fifo p d).sound) : FifoSide s (s.pushByte p d b l) p d := by
  unfold State.pushByte
  simp only
  split
  · have h1 := flueMove_side s p d h
    have h2 := flueMove_side _ p d (h1.sound h)
    have h3 := h1.trans h2
    exact h3.trans (pushNow_side _ _ _ _ _ (h3.sound h))
  · exact pushNow_side _ _ _ _ _ h

theorem pushPacket_side (p : PortNum) (d : Dir) (l : List Byte) (s : State) (h : (s.fifo p d).sound) : FifoSide s (State.pushPacket p d l s) p d := by
  induction l generalizing s with
  | nil => exact FifoSide.refl _ _ _
  | cons b r ih =>
    have h1 := pushByte_side s p d b false h
    cases r with
    | nil => exact pushByte_side s p d b true h
    | cons c r => exact h1.trans (ih _ (h1.sound h))

theorem takeHead_side (s : State) (p : PortNum) (d : Dir) (w : FWord) : FifoSide s (s.takeHead p d w) p d := by
  unfold State.takeHead
  refine (((FifoSide.setFifo s p d _ ?_).trans (FifoSide.fset _ _ d RX_STAT.LAST_VB _ (stat_off d RX_STAT.LAST_VB rfl))).trans
    (FifoSide.fset _ _ d RX_STAT.LAST_EOP _ (stat_off d RX_STAT.LAST_EOP rfl))).trans (FifoSide.fset _ _ d RX_STAT.LAST_CIN _ (stat_off d RX_STAT.LAST_CIN rfl))
  intro h
  exact Fifo.sound_settle (Fifo.sound_adv (Fifo.sound_of h rfl) _ _)

end Sys2Proof.Machine
end

