-- ==== Sys2Proof/Laws/Durable.lean ====
section
/-! SUPPORT. What every operation does to what survives a reset: the Ash log, its anchor and the next SEQ, and the
highest security version: all of them keep it but a commit of the log and the raise of SECVER (R522, R533-R538). -/

namespace Sys2Proof.Machine
def State.durable (s : State) : List AshRec × List Byte × Nat × Nat := (s.kiln.log, s.kiln.anchor, s.kiln.logSeq, s.kiln.secver)
@[simp] theorem foldl_durable {α : Type} (g : State → α → State) (h : ∀ t a, (g t a).durable = t.durable) (l : List α) (s : State) :
    (l.foldl g s).durable = s.durable := by
  induction l generalizing s with
  | nil => rfl
  | cons a l ih => simp [ih, h]
@[simp] theorem ite_durable (c : Prop) [Decidable c] (a b : State) : (if c then a else b).durable = if c then a.durable else b.durable := by
  split <;> rfl
@[simp] theorem ite_durable2 {α : Type} (c : Prop) [Decidable c] (a b : α × State) : (if c then a else b).2.durable = if c then a.2.durable else b.2.durable := by
  split <;> rfl
@[simp] theorem durable_pending (t : State) (x) : ({ t with pending := x } : State).durable = t.durable := rfl
@[simp] theorem durable_raised (t : State) (x) : ({ t with raised := x } : State).durable = t.durable := rfl
@[simp] theorem durable_free (t : State) (x) : ({ t with free := x } : State).durable = t.durable := rfl
@[simp] theorem durable_ports (t : State) (x) : ({ t with ports := x } : State).durable = t.durable := rfl
@[simp] theorem durable_gtmr (t : State) (x) : ({ t with gtmr := x } : State).durable = t.durable := rfl
@[simp] theorem durable_hosts (t : State) (x) : ({ t with hosts := x } : State).durable = t.durable := rfl
@[simp] theorem durable_owner (t : State) (x) : ({ t with owner := x } : State).durable = t.durable := rfl
@[simp] theorem durable_devOwn (t : State) (x) : ({ t with devOwn := x } : State).durable = t.durable := rfl
@[simp] theorem durable_running (t : State) (x) : ({ t with running := x } : State).durable = t.durable := rfl
@[simp] theorem durable_coord (t : State) (x) : ({ t with coord := x } : State).durable = t.durable := rfl
@[simp] theorem durable_table (t : State) (x) : ({ t with table := x } : State).durable = t.durable := rfl
@[simp] theorem durable_ttGen (t : State) (x) : ({ t with ttGen := x } : State).durable = t.durable := rfl
@[simp] theorem durable_ttFullPolicy (t : State) (x) : ({ t with ttFullPolicy := x } : State).durable = t.durable := rfl
@[simp] theorem durable_ttCensusEvents (t : State) (x) : ({ t with ttCensusEvents := x } : State).durable = t.durable := rfl
@[simp] theorem durable_cal (t : State) (x) : ({ t with cal := x } : State).durable = t.durable := rfl
@[simp] theorem durable_xchkPend (t : State) (x) : ({ t with xchkPend := x } : State).durable = t.durable := rfl
@[simp] theorem durable_calDue (t : State) (x) : ({ t with calDue := x } : State).durable = t.durable := rfl
@[simp] theorem durable_trims (t : State) (x) : ({ t with trims := x } : State).durable = t.durable := rfl
@[simp] theorem durable_staged (t : State) (x) : ({ t with staged := x } : State).durable = t.durable := rfl
@[simp] theorem durable_imports (t : State) (x) : ({ t with imports := x } : State).durable = t.durable := rfl
@[simp] theorem durable_pcr (t : State) (x) : ({ t with pcr := x } : State).durable = t.durable := rfl
@[simp] theorem durable_aon (t : State) (x) : ({ t with aon := x } : State).durable = t.durable := rfl
@[simp] theorem durable_xpdr (t : State) (x) : ({ t with xpdr := x } : State).durable = t.durable := rfl
@[simp] theorem durable_dev (t : State) (x) : ({ t with dev := x } : State).durable = t.durable := rfl
@[simp] theorem durable_flash (t : State) (x) : ({ t with flash := x } : State).durable = t.durable := rfl
@[simp] theorem durable_flashState (t : State) (x) : ({ t with flashState := x } : State).durable = t.durable := rfl
@[simp] theorem durable_sram (t : State) (x) : ({ t with sram := x } : State).durable = t.durable := rfl
@[simp] theorem durable_spill (t : State) (x) : ({ t with spill := x } : State).durable = t.durable := rfl
@[simp] theorem durable_kiln_regs (t : State) (x) : ({ t with kiln := { t.kiln with regs := x } } : State).durable = t.durable := rfl
@[simp] theorem durable_kiln_slots (t : State) (x) : ({ t with kiln := { t.kiln with slots := x } } : State).durable = t.durable := rfl
@[simp] theorem durable_kiln_nonceX (t : State) (x) : ({ t with kiln := { t.kiln with nonceX := x } } : State).durable = t.durable := rfl
@[simp] theorem durable_kiln_nonceD (t : State) (x) : ({ t with kiln := { t.kiln with nonceD := x } } : State).durable = t.durable := rfl
@[simp] theorem durable_kiln_dbgFails (t : State) (x) : ({ t with kiln := { t.kiln with dbgFails := x } } : State).durable = t.durable := rfl
@[simp] theorem durable_kiln_dbgLast (t : State) (x) : ({ t with kiln := { t.kiln with dbgLast := x } } : State).durable = t.durable := rfl
@[simp] theorem durable_kiln_lockTamper (t : State) (x) : ({ t with kiln := { t.kiln with lockTamper := x } } : State).durable = t.durable := rfl
@[simp] theorem durable_kiln_lockHot (t : State) (x) : ({ t with kiln := { t.kiln with lockHot := x } } : State).durable = t.durable := rfl
@[simp] theorem durable_kiln_lockGlitch (t : State) (x) : ({ t with kiln := { t.kiln with lockGlitch := x } } : State).durable = t.durable := rfl
@[simp] theorem durable_kiln_glitchTimes (t : State) (x) : ({ t with kiln := { t.kiln with glitchTimes := x } } : State).durable = t.durable := rfl
@[simp] theorem durable_kiln_deferred (t : State) (x) : ({ t with kiln := { t.kiln with deferred := x } } : State).durable = t.durable := rfl
@[simp] theorem durable_kiln_trngFails (t : State) (x) : ({ t with kiln := { t.kiln with trngFails := x } } : State).durable = t.durable := rfl
@[simp] theorem durable_kiln_queue (t : State) (x) : ({ t with kiln := { t.kiln with queue := x } } : State).durable = t.durable := rfl
@[simp] theorem durable_kiln_supCount (t : State) (x) : ({ t with kiln := { t.kiln with supCount := x } } : State).durable = t.durable := rfl
@[simp] theorem durable_kiln_supFirst (t : State) (x) : ({ t with kiln := { t.kiln with supFirst := x } } : State).durable = t.durable := rfl
@[simp] theorem durable_kiln_supLast (t : State) (x) : ({ t with kiln := { t.kiln with supLast := x } } : State).durable = t.durable := rfl
@[simp] theorem durable_kiln_faultTimes (t : State) (x) : ({ t with kiln := { t.kiln with faultTimes := x } } : State).durable = t.durable := rfl
@[simp] theorem durable_kiln_active (t : State) (x) : ({ t with kiln := { t.kiln with active := x } } : State).durable = t.durable := rfl
@[simp] theorem durable_kiln_sets (t : State) (x) : ({ t with kiln := { t.kiln with sets := x } } : State).durable = t.durable := rfl
@[simp] theorem State.setPort_durable (s : State) (p : PortNum) (q : Port) : (State.setPort s p q).durable = s.durable := by
  rfl
@[simp] theorem State.modPort_durable (s : State) (p : PortNum) (f : Port → Port) : (State.modPort s p f).durable = s.durable := by
  rfl
@[simp] theorem State.pset_durable (s : State) (p : PortNum) (f : Fld) (v : Nat) : (State.pset s p f v).durable = s.durable := by
  rfl
@[simp] theorem State.modSvc_durable (s : State) (p : PortNum) (f : PortSvc → PortSvc) : (State.modSvc s p f).durable = s.durable := by
  rfl
@[simp] theorem State.modFramer_durable (s : State) (p : PortNum) (f : Framer → Framer) : (State.modFramer s p f).durable = s.durable := by
  rfl
@[simp] theorem State.modEng_durable (s : State) (p : PortNum) (f : Engine → Engine) : (State.modEng s p f).durable = s.durable := by
  rfl
@[simp] theorem State.coordSet_durable (s : State) (f : Fld) (v : Nat) : (State.coordSet s f v).durable = s.durable := by
  rfl
@[simp] theorem State.pcrSet_durable (s : State) (f : Fld) (v : Nat) : (State.pcrSet s f v).durable = s.durable := by
  rfl
@[simp] theorem State.aonSet_durable (s : State) (f : Fld) (v : Nat) : (State.aonSet s f v).durable = s.durable := by
  rfl
@[simp] theorem State.calSet_durable (s : State) (f : Fld) (v : Nat) : (State.calSet s f v).durable = s.durable := by
  rfl
@[simp] theorem State.kilnSet_durable (s : State) (f : Fld) (v : Nat) : (State.kilnSet s f v).durable = s.durable := by
  rfl
@[simp] theorem State.xset_durable (s : State) (f : Fld) (v : Nat) : (State.xset s f v).durable = s.durable := by
  rfl
@[simp] theorem State.modHost_durable (s : State) (h : HostNum) (f : HostPort → HostPort) : (State.modHost s h f).durable = s.durable := by
  rfl
@[simp] theorem State.drawNat_durable (s : State) (bound : Nat) : (State.drawNat s bound).2.durable = s.durable := by
  rfl
@[simp] theorem State.drawBool_durable (s : State) : (State.drawBool s).2.durable = s.durable := by
  rfl
theorem iter_durable (f : State → State) (h : ∀ t, (f t).durable = t.durable) (n : Nat) (s : State) : (iter f n s).durable = s.durable := by
  induction n generalizing s with
  | zero => rfl
  | succ n ih => simp [iter, ih, h]
@[simp] theorem State.drawBytes_durable (s : State) (n : Nat) : (State.drawBytes s n).2.durable = s.durable := by
  rfl
@[simp] theorem State.raiseTo_durable (s : State) (h : HostNum) (target : Nat) (code : Nat) (payload : List Byte) : (State.raiseTo s h target code payload).durable = s.durable := by
  rfl
@[simp] theorem State.raiseAll_durable (s : State) (sel : HostNum → Bool) (target : Nat) (code : Nat) (payload : List Byte) : (State.raiseAll s sel target code payload).durable = s.durable := by
  unfold State.raiseAll; simp
@[simp] theorem State.raiseDev_durable (s : State) (code : Nat) (payload : List Byte) (target : Nat) : (State.raiseDev s code payload target).durable = s.durable := by
  unfold State.raiseDev; simp
@[simp] theorem State.raiseOwner_durable (s : State) (t : Nat) (code : Nat) (payload : List Byte) : (State.raiseOwner s t code payload).durable = s.durable := by
  unfold State.raiseOwner; (repeat' split) <;> rfl
@[simp] theorem State.ashPut_durable (s : State) (i : AshItem) : (State.ashPut s i).durable = s.durable := by
  unfold State.ashPut; (repeat' split) <;> rfl
@[simp] theorem State.ash_durable (s : State) (type : Nat) (source : Nat) (data : List Byte) : (State.ash s type source data).durable = s.durable := by
  unfold State.ash; simp
@[simp] theorem State.respondPkts_durable (s : State) (c : Cmd) (status : Nat) (pls : List (List Byte)) (baud : Option Nat) : (State.respondPkts s c status pls baud).durable = s.durable := by
  rfl
@[simp] theorem State.respond_durable (s : State) (c : Cmd) (status : Nat) (payload : List Byte) : (State.respond s c status payload).durable = s.durable := by
  rfl
@[simp] theorem postResponses_durable (all : List OutItem) (x0 : List OutItem) (x1 : State) : (postResponses all x0 x1).durable = x1.durable := by
  fun_induction postResponses all x0 x1 <;> (simp_all)
@[simp] theorem postEvents_durable (x0 : List OutItem) (x1 : State) : (postEvents x0 x1).durable = x1.durable := by
  fun_induction postEvents x0 x1 <;> (simp_all)
@[simp] theorem State.flush_durable (s : State) : (State.flush s).durable = s.durable := by
  unfold State.flush; simp
@[simp] theorem State.begin_durable (s : State) (c : Cmd) (j : Job) : (State.begin s c j).durable = s.durable := by
  rfl
@[simp] theorem State.endWhere_durable (s : State) (sel : Running → Bool) (status : Nat) : (State.endWhere s sel status).durable = s.durable := by
  unfold State.endWhere; simp
@[simp] theorem State.endPort_durable (s : State) (p : PortNum) (status : Nat) : (State.endPort s p status).durable = s.durable := by
  unfold State.endPort; simp
@[simp] theorem State.endJob_durable (s : State) (sel : Running → Bool) (status : Nat) (payload : List Byte) : (State.endJob s sel status payload).durable = s.durable := by
  unfold State.endJob; (repeat' split) <;> rfl
@[simp] theorem State.setChan_durable (s : State) (ch : Channel) (t : Cells) : (State.setChan s ch t).durable = s.durable := by
  unfold State.setChan; (repeat' split) <;> rfl
@[simp] theorem State.tmrExpired_durable (s : State) (ch : Channel) : (State.tmrExpired s ch).durable = s.durable := by
  unfold State.tmrExpired; (repeat' split) <;> (simp)
@[simp] theorem State.tmrFire_durable (s : State) (ch : Channel) : (State.tmrFire s ch).durable = s.durable := by
  unfold State.tmrFire; simp
@[simp] theorem State.tmrEval_durable (s : State) (ch : Channel) : (State.tmrEval s ch).durable = s.durable := by
  unfold State.tmrEval; simp
@[simp] theorem State.tmrArm_durable (s : State) (ch : Channel) : (State.tmrArm s ch).durable = s.durable := by
  unfold State.tmrArm; simp
@[simp] theorem State.tmrStop_durable (s : State) (ch : Channel) : (State.tmrStop s ch).durable = s.durable := by
  unfold State.tmrStop; simp
@[simp] theorem State.tmrAdvance_durable (s : State) (ch : Channel) (x : Nat) : (State.tmrAdvance s ch x).durable = s.durable := by
  unfold State.tmrAdvance; simp
@[simp] theorem State.tmrMakeup_durable (s : State) (ch : Channel) (e : Nat) : (State.tmrMakeup s ch e).durable = s.durable := by
  unfold State.tmrMakeup; simp
@[simp] theorem State.stopSources_durable (s : State) (sel : Nat → Bool) : (State.stopSources s sel).durable = s.durable := by
  unfold State.stopSources; simp
@[simp] theorem State.wakeEval_durable (s : State) : (State.wakeEval s).durable = s.durable := by
  unfold State.wakeEval; simp
@[simp] theorem State.tmrWrite_durable (s : State) (ch : Channel) (off : Nat) (w : Word) : (State.tmrWrite s ch off w).durable = s.durable := by
  unfold State.tmrWrite; simp
@[simp] theorem State.tmrRead_durable (s : State) (ch : Channel) (off : Nat) : (State.tmrRead s ch off).2.durable = s.durable := by
  unfold State.tmrRead; simp
@[simp] theorem State.chanTick_durable (s : State) (ch : Channel) : (State.chanTick s ch).durable = s.durable := by
  unfold State.chanTick; simp
@[simp] theorem State.wdtTick_durable (s : State) : (State.wdtTick s).durable = s.durable := by
  unfold State.wdtTick; simp
@[simp] theorem State.fieldOnDue_durable (s : State) : (State.fieldOnDue s).durable = s.durable := by
  unfold State.fieldOnDue; simp
@[simp] theorem State.tick_durable (s : State) : (State.tick s).durable = s.durable := by
  unfold State.tick; simp
@[simp] theorem State.setFifo_durable (s : State) (p : PortNum) (d : Dir) (f : Fifo) : (State.setFifo s p d f).durable = s.durable := by
  rfl
@[simp] theorem State.fset_durable (s : State) (p : PortNum) (d : Dir) (f : Fld) (v : Nat) : (State.fset s p d f v).durable = s.durable := by
  rfl
@[simp] theorem State.putResult_durable (s : State) (p : PortNum) (w : Word) : (State.putResult s p w).durable = s.durable := by
  unfold State.putResult; simp
@[simp] theorem State.putBare_durable (s : State) (p : PortNum) (outcome : Nat) : (State.putBare s p outcome).durable = s.durable := by
  unfold State.putBare; simp
@[simp] theorem State.cutSend_durable (s : State) (p : PortNum) : (State.cutSend s p).durable = s.durable := by
  unfold State.cutSend; (repeat' split) <;> (simp)
@[simp] theorem State.cutReceive_durable (s : State) (p : PortNum) : (State.cutReceive s p).durable = s.durable := by
  unfold State.cutReceive; (repeat' split) <;> (simp)
@[simp] theorem State.fifoReset_durable (s : State) (p : PortNum) (d : Dir) : (State.fifoReset s p d).durable = s.durable := by
  unfold State.fifoReset; (repeat' split) <;> (simp)
@[simp] theorem State.fifoFault_durable (s : State) (p : PortNum) (d : Dir) (i : Nat) : (State.fifoFault s p d i).durable = s.durable := by
  unfold State.fifoFault; simp
@[simp] theorem State.flueOut_durable (s : State) (p : PortNum) (d : Dir) : (State.flueOut s p d).durable = s.durable := by
  unfold State.flueOut; dsimp only; (repeat' split) <;> rfl
@[simp] theorem State.flueIn_durable (s : State) (p : PortNum) (d : Dir) : (State.flueIn s p d).durable = s.durable := by
  unfold State.flueIn; dsimp only; (repeat' split) <;> rfl
@[simp] theorem State.flueMove_durable (s : State) (p : PortNum) (d : Dir) : (State.flueMove s p d).durable = s.durable := by
  unfold State.flueMove; dsimp only; (repeat' split) <;> (simp)
@[simp] theorem State.loseByte_durable (s : State) (p : PortNum) (d : Dir) : (State.loseByte s p d).durable = s.durable := by
  rfl
@[simp] theorem State.placeByte_durable (s : State) (p : PortNum) (d : Dir) (b : Byte) : (State.placeByte s p d b).durable = s.durable := by
  unfold State.placeByte; dsimp only; (repeat' split) <;> rfl
@[simp] theorem State.pushNow_durable (s : State) (p : PortNum) (d : Dir) (b : Byte) (eop : Bool) : (State.pushNow s p d b eop).durable = s.durable := by
  unfold State.pushNow; (repeat' split) <;> (simp)
@[simp] theorem State.pushByte_durable (s : State) (p : PortNum) (d : Dir) (b : Byte) (eop : Bool) : (State.pushByte s p d b eop).durable = s.durable := by
  unfold State.pushByte; simp
@[simp] theorem State.pushPacket_durable (p : PortNum) (d : Dir) (x0 : List Byte) (x1 : State) : (State.pushPacket p d x0 x1).durable = x1.durable := by
  fun_induction State.pushPacket p d x0 x1 <;> (simp_all)
@[simp] theorem State.withdraw_durable (s : State) (p : PortNum) (d : Dir) : (State.withdraw s p d).durable = s.durable := by
  unfold State.withdraw; dsimp only; (repeat' split) <;> (simp)
@[simp] theorem State.takeHead_durable (s : State) (p : PortNum) (d : Dir) (w : FWord) : (State.takeHead s p d w).durable = s.durable := by
  rfl
@[simp] theorem State.takeNow_durable (s : State) (p : PortNum) (d : Dir) : (State.takeNow s p d).2.durable = s.durable := by
  unfold State.takeNow; (repeat' split) <;> (simp)
@[simp] theorem State.takeWord_durable (s : State) (p : PortNum) (d : Dir) : (State.takeWord s p d).2.durable = s.durable := by
  unfold State.takeWord; (repeat' split) <;> first | rfl | (simp; done) | (simp_all; done) | (rename_i heq; have h2 := congrArg (fun x => State.durable x.2) heq; simp at h2; simp [h2]; done) | (rename_i heq; have h2 := congrArg (fun x => State.durable x.2) heq; simp_all; done) | (rename_i heq; have h2 := congrArg (fun x => State.durable x.2.2) heq; simp at h2; simp [h2]; done) | (rename_i heq; have h2 := congrArg (fun x => State.durable x.2.2) heq; simp_all; done) | (rename_i heq _; have h2 := congrArg (fun x => State.durable x.2) heq; simp at h2; simp [h2]; done) | (rename_i heq _; have h2 := congrArg (fun x => State.durable x.2.2) heq; simp at h2; simp [h2]; done)
@[simp] theorem State.takePacket_durable (p : PortNum) (d : Dir) (x0 : Nat) (x1 : List Byte) (x2 : Bool) (x3 : State) : (State.takePacket p d x0 x1 x2 x3).2.2.durable = x3.durable := by
  induction x0 generalizing x1 x2 x3 with
  | zero => rfl
  | succ n ih =>
    unfold State.takePacket
    have h := State.takeWord_durable x3 p d
    split
    · rename_i heq; rw [heq] at h
      dsimp only; split
      · exact h
      · rw [ih]; exact h
    · rename_i heq; rw [heq] at h; exact h
@[simp] theorem State.setSpill_durable (s : State) (p : PortNum) (d : Dir) (v : Nat) : (State.setSpill s p d v).durable = s.durable := by
  unfold State.setSpill; simp
@[simp] theorem State.fifoClear_durable (s : State) (p : PortNum) (d : Dir) : (State.fifoClear s p d).durable = s.durable := by
  rfl
@[simp] theorem State.fifoCtlWrite_durable (s : State) (p : PortNum) (d : Dir) (w : Word) : (State.fifoCtlWrite s p d w).durable = s.durable := by
  unfold State.fifoCtlWrite; simp
@[simp] theorem State.txDataWrite_durable (s : State) (p : PortNum) (side : Side) (w : Word) : (State.txDataWrite s p side w).durable = s.durable := by
  unfold State.txDataWrite; simp
@[simp] theorem State.rxDataRead_durable (s : State) (p : PortNum) (side : Side) : (State.rxDataRead s p side).2.durable = s.durable := by
  unfold State.rxDataRead; (repeat' split) <;> first | rfl | (simp; done) | (simp_all; done) | (rename_i heq; have h2 := congrArg (fun x => State.durable x.2) heq; simp at h2; simp [h2]; done) | (rename_i heq; have h2 := congrArg (fun x => State.durable x.2) heq; simp_all; done) | (rename_i heq; have h2 := congrArg (fun x => State.durable x.2.2) heq; simp at h2; simp [h2]; done) | (rename_i heq; have h2 := congrArg (fun x => State.durable x.2.2) heq; simp_all; done) | (rename_i heq _; have h2 := congrArg (fun x => State.durable x.2) heq; simp at h2; simp [h2]; done) | (rename_i heq _; have h2 := congrArg (fun x => State.durable x.2.2) heq; simp at h2; simp [h2]; done)
@[simp] theorem State.pendUpdate_durable (s : State) (d : Nat) : (State.pendUpdate s d).durable = s.durable := by
  rfl
@[simp] theorem State.takeTrims_durable (s : State) (port : Nat) : (State.takeTrims s port).durable = s.durable := by
  unfold State.takeTrims; dsimp only; (repeat' split) <;> rfl
@[simp] theorem State.recalibrate_durable (s : State) (d tj : Nat) : (s.recalibrate d tj).durable = s.durable := by
  unfold State.recalibrate; dsimp only
  rw [foldl_durable (fun t n => if t.takesNow n then t.takeTrims n else t) (fun t a => by split <;> simp)]
  simp only [State.pendUpdate_durable, State.calSet_durable]
  exact foldl_durable (fun (t : State) n => { t with staged := assocPut n (t.trimsAt n tj) t.staged }) (fun t a => rfl) _ _
@[simp] theorem State.recalDue_durable (s : State) (d : Nat) (tj : Nat) : (State.recalDue s d tj).durable = s.durable := by
  unfold State.recalDue; simp
@[simp] theorem State.calRelease_durable (s : State) (p : PortNum) : (State.calRelease s p).durable = s.durable := by
  unfold State.calRelease; simp
@[simp] theorem State.recalTrigger_durable (s : State) (d : Nat) (tj : Nat) : (State.recalTrigger s d tj).durable = s.durable := by
  unfold State.recalTrigger; simp
@[simp] theorem State.dbGranted_durable (s : State) (p : PortNum) : (State.dbGranted s p).durable = s.durable := by
  rfl
@[simp] theorem State.dropPacket_durable (s : State) (p : PortNum) (outcome : Nat) : (State.dropPacket s p outcome).durable = s.durable := by
  unfold State.dropPacket; simp
@[simp] theorem State.framerAdvanceN_durable (p : PortNum) (x0 : Nat) (x1 : State) : (State.framerAdvanceN p x0 x1).durable = x1.durable := by
  fun_induction State.framerAdvanceN p x0 x1 <;> (simp_all)
@[simp] theorem State.framerAdvance_durable (s : State) (p : PortNum) : (State.framerAdvance s p).durable = s.durable := by
  unfold State.framerAdvance; simp
@[simp] theorem State.takeLeff_durable (s : State) (p : PortNum) : (State.takeLeff s p).durable = s.durable := by
  rfl
@[simp] theorem State.idleWork_durable (s : State) (p : PortNum) : (State.idleWork s p).durable = s.durable := by
  unfold State.idleWork; split <;> rfl
@[simp] theorem State.acquire_durable (s : State) (p : PortNum) : (State.acquire s p).durable = s.durable := by
  rfl
@[simp] theorem State.dutyAdd_durable (s : State) (p : PortNum) : (State.dutyAdd s p).durable = s.durable := by
  rfl
@[simp] theorem State.dropDb_durable (s : State) (p : PortNum) : (State.dropDb s p).durable = s.durable := by
  unfold State.dropDb; simp
@[simp] theorem State.calStat_durable (s : State) : (State.calStat s).durable = s.durable := by
  unfold State.calStat; (repeat' split) <;> rfl
@[simp] theorem State.calOver_durable (s : State) (p : PortNum) : (State.calOver s p).durable = s.durable := by
  unfold State.calOver; simp
@[simp] theorem State.reloadMatrix_durable (s : State) : (State.reloadMatrix s).durable = s.durable := by
  rfl
@[simp] theorem State.fieldIsOff_durable (s : State) (p : PortNum) : (State.fieldIsOff s p).durable = s.durable := by
  unfold State.fieldIsOff; simp
@[simp] theorem State.cutAir_durable (s : State) (p : PortNum) : (State.cutAir s p).durable = s.durable := by
  unfold State.cutAir; simp
@[simp] theorem State.fieldDown_durable (s : State) (p : PortNum) : (State.fieldDown s p).durable = s.durable := by
  unfold State.fieldDown; simp
@[simp] theorem State.stopCoupling_durable (s : State) (status : Nat) : (State.stopCoupling s status).durable = s.durable := by
  unfold State.stopCoupling; (repeat' split) <;> (simp)
@[simp] theorem State.stopWork_durable (s : State) (p : PortNum) (status : Nat) : (State.stopWork s p status).durable = s.durable := by
  unfold State.stopWork; simp
@[simp] theorem State.portDomainReset_durable (s : State) (p : PortNum) : (State.portDomainReset s p).durable = s.durable := by
  unfold State.portDomainReset; simp
@[simp] theorem State.powerSync_durable (s : State) (p : PortNum) : (State.powerSync s p).durable = s.durable := by
  unfold State.powerSync; simp
@[simp] theorem State.fieldFault_durable (s : State) (p : PortNum) (c : Cause) : (State.fieldFault s p c).durable = s.durable := by
  cases c <;> simp [State.fieldFault]
@[simp] theorem State.rampStart_durable (s : State) (p : PortNum) : (State.rampStart s p).durable = s.durable := by
  unfold State.rampStart; simp
@[simp] theorem State.tryRamp_durable (s : State) (p : PortNum) : (State.tryRamp s p).durable = s.durable := by
  unfold State.tryRamp; simp
@[simp] theorem State.writeFieldEn_durable (s : State) (p : PortNum) (v : Bool) : (State.writeFieldEn s p v).durable = s.durable := by
  unfold State.writeFieldEn; simp
@[simp] theorem State.rampUpDone_durable (s : State) (p : PortNum) : (State.rampUpDone s p).durable = s.durable := by
  unfold State.rampUpDone; simp
@[simp] theorem State.rampDownDone_durable (s : State) (p : PortNum) : (State.rampDownDone s p).durable = s.durable := by
  unfold State.rampDownDone; simp
@[simp] theorem State.thermPort_durable (s : State) (p : PortNum) (tj : Nat) (vtx : Nat) : (State.thermPort s p tj vtx).durable = s.durable := by
  rfl
@[simp] theorem State.grateWrite_durable (s : State) (p : PortNum) (w : Word) : (State.grateWrite s p w).durable = s.durable := by
  unfold State.grateWrite; simp
@[simp] theorem State.grateShift_durable (s : State) : (State.grateShift s).durable = s.durable := by
  unfold State.grateShift; simp
@[simp] theorem State.grateSettled_durable (s : State) (p : PortNum) : (State.grateSettled s p).durable = s.durable := by
  unfold State.grateSettled; simp
@[simp] theorem State.phaseWrite_durable (s : State) (p : PortNum) (v : Nat) : (State.phaseWrite s p v).durable = s.durable := by
  unfold State.phaseWrite; simp
@[simp] theorem State.applyRx_durable (s : State) (p : PortNum) : (State.applyRx s p).durable = s.durable := by
  rfl
@[simp] theorem State.stageRx_durable (s : State) (p : PortNum) : (State.stageRx s p).durable = s.durable := by
  unfold State.stageRx; simp
@[simp] theorem State.codingLoads_durable (s : State) (p : PortNum) (w : Word) : (State.codingLoads s p w).durable = s.durable := by
  unfold State.codingLoads; simp
@[simp] theorem State.applyFrm_durable (s : State) (p : PortNum) : (State.applyFrm s p).durable = s.durable := by
  unfold State.applyFrm; simp
@[simp] theorem State.frmctlWrite_durable (s : State) (p : PortNum) (w : Word) : (State.frmctlWrite s p w).durable = s.durable := by
  unfold State.frmctlWrite; simp
@[simp] theorem State.noiseReset_durable (s : State) (p : PortNum) : (State.noiseReset s p).durable = s.durable := by
  rfl
@[simp] theorem State.noiseResult_durable (s : State) (p : PortNum) (r : Int) : (State.noiseResult s p r).durable = s.durable := by
  rfl
@[simp] theorem State.agcWindow_durable (s : State) (p : PortNum) (peak : Int) : (State.agcWindow s p peak).durable = s.durable := by
  unfold State.agcWindow; simp
@[simp] theorem State.violation_durable (s : State) (p : PortNum) (c : Nat) : (State.violation s p c).durable = s.durable := by
  rfl
@[simp] theorem State.modulation_durable (s : State) (p : PortNum) (w : Word) : (State.modulation s p w).durable = s.durable := by
  unfold State.modulation; simp
@[simp] theorem State.sendStart_durable (s : State) (p : PortNum) : (State.sendStart s p).durable = s.durable := by
  unfold State.sendStart; simp
@[simp] theorem State.hold_durable (s : State) (p : PortNum) : (State.hold s p).durable = s.durable := by
  unfold State.hold; simp
@[simp] theorem State.grant_durable (s : State) (p : PortNum) : (State.grant s p).durable = s.durable := by
  unfold State.grant; simp
@[simp] theorem State.holdOver_durable (s : State) (p : PortNum) : (State.holdOver s p).durable = s.durable := by
  unfold State.holdOver; simp
@[simp] theorem State.openWindow_durable (s : State) (p : PortNum) (t : TxFrame) : (State.openWindow s p t).durable = s.durable := by
  rfl
@[simp] theorem State.closeWindow_durable (s : State) (p : PortNum) (time : Nat) (ok : Bool) : (State.closeWindow s p time ok).durable = s.durable := by
  rfl
@[simp] theorem State.quality_durable (s : State) (p : PortNum) (w : Word) (rx : RxFrame) : (State.quality s p w rx).durable = s.durable := by
  unfold State.quality; simp
@[simp] theorem State.separate_durable (s : State) (p : PortNum) (rx : RxFrame) : (State.separate s p rx).durable = s.durable := by
  unfold State.separate; (repeat' split) <;> first | rfl | (simp; done) | (simp_all; done) | (rename_i heq; have h2 := congrArg (fun x => State.durable x.2) heq; simp at h2; simp [h2]; done) | (rename_i heq; have h2 := congrArg (fun x => State.durable x.2) heq; simp_all; done) | (rename_i heq; have h2 := congrArg (fun x => State.durable x.2.2) heq; simp at h2; simp [h2]; done) | (rename_i heq; have h2 := congrArg (fun x => State.durable x.2.2) heq; simp_all; done) | (rename_i heq _; have h2 := congrArg (fun x => State.durable x.2) heq; simp at h2; simp [h2]; done) | (rename_i heq _; have h2 := congrArg (fun x => State.durable x.2.2) heq; simp at h2; simp [h2]; done)
@[simp] theorem State.dbAccepted_durable (s : State) (p : PortNum) (w : Window) (data : List Byte) : (State.dbAccepted s p w data).durable = s.durable := by
  unfold State.dbAccepted; simp
@[simp] theorem State.replyEnd_durable (s : State) (p : PortNum) (w : Window) (start : Nat) (rx : RxFrame) : (State.replyEnd s p w start rx).durable = s.durable := by
  unfold State.replyEnd
  dsimp only
  (repeat' split) <;> simp
@[simp] theorem State.replyStart_durable (s : State) (p : PortNum) (t : Nat) : (State.replyStart s p t).durable = s.durable := by
  unfold State.replyStart; dsimp only; (repeat' split) <;> rfl
@[simp] theorem State.receiveEnd_durable (s : State) (p : PortNum) (rx : RxFrame) : (State.receiveEnd s p rx).durable = s.durable := by
  unfold State.receiveEnd
  dsimp only
  (repeat' split) <;> simp
@[simp] theorem State.waitOver_durable (s : State) (p : PortNum) : (State.waitOver s p).durable = s.durable := by
  unfold State.waitOver; (repeat' split) <;> (simp)
@[simp] theorem State.waitLimit_durable (s : State) (p : PortNum) : (State.waitLimit s p).durable = s.durable := by
  unfold State.waitLimit; (repeat' split) <;> (simp)
@[simp] theorem State.violRead_durable (s : State) (p : PortNum) (off : Nat) : (State.violRead s p off).2.durable = s.durable := by
  rfl
@[simp] theorem State.schRead_durable (s : State) (p : PortNum) : (State.schRead s p).2.durable = s.durable := by
  rfl
@[simp] theorem State.cplCommit_durable (s : State) : (State.cplCommit s).durable = s.durable := by
  unfold State.cplCommit; simp
@[simp] theorem State.cplCheck_durable (s : State) : (State.cplCheck s).durable = s.durable := by
  unfold State.cplCheck; simp
@[simp] theorem State.depthBlock_durable (s : State) (p : PortNum) (sumL : Nat) (sumR : Nat) (trims : List Word) (clamped : Nat) : (State.depthBlock s p sumL sumR trims clamped).durable = s.durable := by
  rfl
@[simp] theorem State.stagger_durable (s : State) (p : PortNum) (v : Nat) : (State.stagger s p v).durable = s.durable := by
  rfl
@[simp] theorem State.staggerFrom_durable (base : Nat) (step : Nat) (x0 : Nat) (x1 : List PortNum) (x2 : State) : (State.staggerFrom base step x0 x1 x2).durable = x2.durable := by
  fun_induction State.staggerFrom base step x0 x1 x2 <;> (simp_all)
@[simp] theorem State.groupBoundary_durable (s : State) (g : Nat) : (State.groupBoundary s g).durable = s.durable := by
  unfold State.groupBoundary; simp
@[simp] theorem State.groupChange_durable (s : State) (g : Nat) : (State.groupChange s g).durable = s.durable := by
  unfold State.groupChange; simp
@[simp] theorem State.schedChange_durable (s : State) (p : PortNum) : (State.schedChange s p).durable = s.durable := by
  unfold State.schedChange; (repeat' split) <;> (simp)
@[simp] theorem State.crossCheck_durable (s : State) (p : PortNum) (dev : Int) : (State.crossCheck s p dev).durable = s.durable := by
  unfold State.crossCheck; simp
@[simp] theorem State.setMap_durable (s : State) (p : PortNum) (ant : Nat) (v : Nat) : (State.setMap s p ant v).durable = s.durable := by
  rfl
@[simp] theorem mapResults_durable (l : List (Nat × Nat)) (s : State) : (mapResults l s).2.durable = s.durable := by
  have key : ∀ (med low : Nat) (l : List (Nat × Nat)), (l.foldr (fun x (acc : List (Nat × Bool × Nat × Nat) × State) =>
      if levelWeak x.2 med then ((x.1, true, x.2, 1024) :: acc.1, acc.2)
      else if x.2 = 0 then
        let (v, t) := acc.2.drawNat 1025
        ((x.1, false, x.2, v) :: acc.1, t)
      else ((x.1, false, x.2, mapOf x.2 low) :: acc.1, acc.2)) ([], s)).2.durable = s.durable := by
    intro med low l
    induction l with
    | nil => rfl
    | cons a l ih =>
      simp only [List.foldr_cons]
      split
      · exact ih
      · split
        · simpa using ih
        · exact ih
  exact key _ _ _
@[simp] theorem State.calDrive_durable (s : State) (p : PortNum) (ant : Nat) (level : Nat) : (State.calDrive s p ant level).durable = s.durable := by
  unfold State.calDrive; simp
@[simp] theorem State.calFinish_durable (s : State) (p : PortNum) (c : CalRun) : (s.calFinish p c).durable = s.durable := by
  have key : ∀ (x : Int × State), x.2.durable = s.durable →
      ((mapResults (if c.todo.isEmpty then c.levels else []) x.2).1.foldl (fun t r => t.setMap p r.1 r.2.2.2)
        (mapResults (if c.todo.isEmpty then c.levels else []) x.2).2).durable = s.durable := by
    intro x hx; rw [foldl_durable _ (fun t a => by simp), mapResults_durable, hx]
  unfold State.calFinish
  simp only [State.calOver_durable, State.endJob_durable]
  split <;> simp [key]
@[simp] theorem State.calGoOn_durable (s : State) (p : PortNum) (c : CalRun) : (State.calGoOn s p c).durable = s.durable := by
  rfl
@[simp] theorem State.calNext_durable (s : State) (p : PortNum) (c : CalRun) : (State.calNext s p c).durable = s.durable := by
  unfold State.calNext; (repeat' split) <;> (simp)
@[simp] theorem State.calMeasured_durable (s : State) (p : PortNum) (c : CalRun) (m : CalMeasure) : (State.calMeasured s p c m).durable = s.durable := by
  unfold State.calMeasured; (repeat' split) <;> (simp)
@[simp] theorem State.calBegin_durable (s : State) (p : PortNum) (cmd : Cmd) (c : CalRun) : (State.calBegin s p cmd c).durable = s.durable := by
  unfold State.calBegin; simp
@[simp] theorem State.cplGoOn_durable (s : State) (c : CalCpl) : (State.cplGoOn s c).durable = s.durable := by
  rfl
@[simp] theorem State.cplBegin_durable (s : State) (cmd : Cmd) (set : List Nat) (ants : List Nat) : (State.cplBegin s cmd set ants).durable = s.durable := by
  unfold State.cplBegin; simp
@[simp] theorem State.setDelay_durable (s : State) (i : Nat) (c : CalCpl) : (State.setDelay s i c).durable = s.durable := by
  unfold State.setDelay; (repeat' split) <;> first | rfl | (simp; done) | (simp_all; done) | (rename_i heq; have h2 := congrArg (fun x => State.durable x.2) heq; simp at h2; simp [h2]; done) | (rename_i heq; have h2 := congrArg (fun x => State.durable x.2) heq; simp_all; done) | (rename_i heq; have h2 := congrArg (fun x => State.durable x.2.2) heq; simp at h2; simp [h2]; done) | (rename_i heq; have h2 := congrArg (fun x => State.durable x.2.2) heq; simp_all; done) | (rename_i heq _; have h2 := congrArg (fun x => State.durable x.2) heq; simp at h2; simp [h2]; done) | (rename_i heq _; have h2 := congrArg (fun x => State.durable x.2.2) heq; simp at h2; simp [h2]; done)
@[simp] theorem State.cplStore_durable (s : State) (c : CalCpl) : (State.cplStore s c).durable = s.durable := by
  unfold State.cplStore; simp
@[simp] theorem State.cplSource_durable (s : State) (c : CalCpl) (m : List (Int × Int)) (edge : List Nat) : (State.cplSource s c m edge).durable = s.durable := by
  unfold State.cplSource; (repeat' split) <;> (simp)
@[simp] theorem State.cplInterval_durable (s : State) (c : CalCpl) (m : CouplingMeasure) : (State.cplInterval s c m).durable = s.durable := by
  unfold State.cplInterval; (repeat' split) <;> (simp)
@[simp] theorem State.loadCfg_durable (s : State) : (State.loadCfg s).durable = s.durable := by
  rfl
@[simp] theorem State.portRead_durable (s : State) (p : PortNum) (side : Side) (off : Nat) : (State.portRead s p side off).2.durable = s.durable := by
  unfold State.portRead; dsimp only; (repeat' split) <;> (simp)
@[simp] theorem State.portPlain_durable (s : State) (p : PortNum) (off : Nat) (locked : Bool) (w : Word) : (State.portPlain s p off locked w).durable = s.durable := by
  rfl
@[simp] theorem State.frmstatWrite_durable (s : State) (p : PortNum) (w : Word) : (State.frmstatWrite s p w).durable = s.durable := by
  unfold State.frmstatWrite; simp
@[simp] theorem State.txctlWrite_durable (s : State) (p : PortNum) (w : Word) : (State.txctlWrite s p w).durable = s.durable := by
  unfold State.txctlWrite; simp
@[simp] theorem State.bellWrite_durable (s : State) (p : PortNum) (side : Side) (off : Nat) (w : Word) : (State.bellWrite s p side off w).durable = s.durable := by
  unfold State.bellWrite; (repeat' split) <;> rfl
@[simp] theorem State.portWrite_durable (s : State) (p : PortNum) (side : Side) (off : Nat) (w : Word) : (State.portWrite s p side off w).durable = s.durable := by
  unfold State.portWrite; (repeat' split) <;> (simp)
@[simp] theorem State.placeRead_durable (s : State) (pl : Place) : (State.placeRead s pl).2.durable = s.durable := by
  unfold State.placeRead; (repeat' split) <;> (simp)
@[simp] theorem State.schedSync_durable (s : State) (g : Nat) : (State.schedSync s g).durable = s.durable := by
  unfold State.schedSync; simp
@[simp] theorem State.coordWrite_durable (s : State) (off : Nat) (w : Word) : (State.coordWrite s off w).durable = s.durable := by
  unfold State.coordWrite; simp
@[simp] theorem State.clkctlWrite_durable (s : State) (w : Word) : (State.clkctlWrite s w).durable = s.durable := by
  unfold State.clkctlWrite; simp
@[simp] theorem State.aonWrite_durable (s : State) (off : Nat) (w : Word) : (State.aonWrite s off w).durable = s.durable := by
  unfold State.aonWrite; (repeat' split) <;> rfl
@[simp] theorem State.calWrite_durable (s : State) (off : Nat) (w : Word) : (State.calWrite s off w).durable = s.durable := by
  unfold State.calWrite; simp
@[simp] theorem State.tableWrite_durable (s : State) (off : Nat) (w : Word) : (State.tableWrite s off w).durable = s.durable := by
  rfl
@[simp] theorem State.setReg_durable (s : State) (e : PortNum) (r : RegNum) (w : Word) : (State.setReg s e r w).durable = s.durable := by
  rfl
@[simp] theorem State.setEsw_durable (s : State) (e : PortNum) (i : Nat) (b : Bool) : (State.setEsw s e i b).durable = s.durable := by
  rfl
@[simp] theorem State.optFlag_durable (s : State) (e : PortNum) (i : Nat) (x0 : Option Bool) : (State.optFlag s e i x0).durable = s.durable := by
  unfold State.optFlag; (repeat' split) <;> rfl
@[simp] theorem State.setFlags_durable (s : State) (e : PortNum) (o : AluOut) : (State.setFlags s e o).durable = s.durable := by
  unfold State.setFlags; simp
@[simp] theorem State.setPc_durable (s : State) (e : PortNum) (w : Word) : (State.setPc s e w).durable = s.durable := by
  rfl
@[simp] theorem State.setEngState_durable (s : State) (e : PortNum) (v : Nat) : (State.setEngState s e v).durable = s.durable := by
  rfl
@[simp] theorem State.setRep_durable (s : State) (e : PortNum) (n : Nat) : (State.setRep s e n).durable = s.durable := by
  rfl
@[simp] theorem State.spend_durable (s : State) (e : PortNum) (n : Nat) : (State.spend s e n).durable = s.durable := by
  rfl
@[simp] theorem State.eswWrite_durable (s : State) (e : PortNum) (b : Nat) (v : Bool) : (State.eswWrite s e b v).durable = s.durable := by
  unfold State.eswWrite; simp
@[simp] theorem State.aliasWrite_durable (s : State) (e : PortNum) (w : Nat × Nat × Word × Word × Word) (i : Nat) (v : Bool) : (State.aliasWrite s e w i v).durable = s.durable := by
  unfold State.aliasWrite; simp
@[simp] theorem State.bitWrite_durable (s : State) (e : PortNum) (b : Nat) (v : Bool) : (State.bitWrite s e b v).durable = s.durable := by
  unfold State.bitWrite
  (repeat' split) <;> first
    | rfl
    | exact State.eswWrite_durable ..
    | exact State.modEng_durable ..
    | exact State.tmrWrite_durable ..
    | exact State.tmrArm_durable ..
    | exact State.tmrStop_durable ..
    | exact State.aliasWrite_durable ..
@[simp] theorem State.loadAt_durable (s : State) (e : PortNum) (w : MemW) (x0 : DataPlace) : (State.loadAt s e w x0).2.durable = s.durable := by
  unfold State.loadAt; (repeat' split) <;> (simp)
@[simp] theorem State.storeAt_durable (s : State) (e : PortNum) (w : MemW) (v : Word) (x0 : DataPlace) : (State.storeAt s e w v x0).durable = s.durable := by
  unfold State.storeAt; (repeat' split) <;> (simp)
@[simp] theorem State.bump_durable (s : State) (e : PortNum) (ra : RegNum) (post : Bool) (n : Nat) : (State.bump s e ra post n).durable = s.durable := by
  unfold State.bump; simp
@[simp] theorem ok1_durable (s : State) : (ok1 s).2.2.durable = s.durable := by
  rfl
@[simp] theorem State.putDbh_durable (s : State) (p : PortNum) (l : List Word) : (State.putDbh s p l).durable = s.durable := by
  rfl
@[simp] theorem State.stopMessage_durable (s : State) (p : PortNum) : (State.stopMessage s p).durable = s.durable := by
  unfold State.stopMessage; simp
@[simp] theorem State.ringEngine_durable (s : State) (p : PortNum) (l : List Word) : (State.ringEngine s p l).durable = s.durable := by
  rfl
@[simp] theorem State.aluTo_durable (s : State) (e : PortNum) (rd : RegNum) (o : AluOut) : (State.aluTo s e rd o).durable = s.durable := by
  unfold State.aluTo; simp
@[simp] theorem State.doLoad_durable (s : State) (e : PortNum) (w : MemW) (rd : RegNum) (ra : RegNum) (post : Bool) (off : BitVec 17) : (State.doLoad s e w rd ra post off).2.2.durable = s.durable := by
  unfold State.doLoad; (repeat' split) <;> first | rfl | (simp; done) | (simp_all; done) | (rename_i heq; have h2 := congrArg (fun x => State.durable x.2) heq; simp at h2; simp [h2]; done) | (rename_i heq; have h2 := congrArg (fun x => State.durable x.2) heq; simp_all; done) | (rename_i heq; have h2 := congrArg (fun x => State.durable x.2.2) heq; simp at h2; simp [h2]; done) | (rename_i heq; have h2 := congrArg (fun x => State.durable x.2.2) heq; simp_all; done) | (rename_i heq _; have h2 := congrArg (fun x => State.durable x.2) heq; simp at h2; simp [h2]; done) | (rename_i heq _; have h2 := congrArg (fun x => State.durable x.2.2) heq; simp at h2; simp [h2]; done)
@[simp] theorem State.doStore_durable (s : State) (e : PortNum) (w : MemW) (rd : RegNum) (ra : RegNum) (post : Bool) (off : BitVec 17) : (State.doStore s e w rd ra post off).2.2.durable = s.durable := by
  unfold State.doStore; (repeat' split) <;> (simp)
@[simp] theorem State.doLdc_durable (s : State) (e : PortNum) (rd : RegNum) (ra : RegNum) (post : Bool) (off : BitVec 17) : (State.doLdc s e rd ra post off).2.2.durable = s.durable := by
  unfold State.doLdc; dsimp only; (repeat' split) <;> (simp)
@[simp] theorem State.doDiv_durable (s : State) (e : PortNum) (sg : Bool) (rq : RegNum) (rr : RegNum) (ra : RegNum) (rb : RegNum) : (State.doDiv s e sg rq rr ra rb).2.2.durable = s.durable := by
  unfold State.doDiv; (repeat' split) <;> rfl
@[simp] theorem State.popFlags_durable (s : State) (e : PortNum) (x0 : Option FWord) : (State.popFlags s e x0).durable = s.durable := by
  unfold State.popFlags; dsimp only; (repeat' split) <;> rfl
@[simp] theorem State.engPop_durable (s : State) (e : PortNum) : (State.engPop s e).2.durable = s.durable := by
  unfold State.engPop; simp
@[simp] theorem State.doFpop_durable (s : State) (e : PortNum) (rd : RegNum) : (State.doFpop s e rd).2.2.durable = s.durable := by
  unfold State.doFpop; (repeat' split) <;> first | rfl | (simp; done) | (simp_all; done) | (rename_i heq; have h2 := congrArg (fun x => State.durable x.2) heq; simp at h2; simp [h2]; done) | (rename_i heq; have h2 := congrArg (fun x => State.durable x.2) heq; simp_all; done) | (rename_i heq; have h2 := congrArg (fun x => State.durable x.2.2) heq; simp at h2; simp [h2]; done) | (rename_i heq; have h2 := congrArg (fun x => State.durable x.2.2) heq; simp_all; done) | (rename_i heq _; have h2 := congrArg (fun x => State.durable x.2) heq; simp at h2; simp [h2]; done) | (rename_i heq _; have h2 := congrArg (fun x => State.durable x.2.2) heq; simp at h2; simp [h2]; done)
@[simp] theorem State.doFpopm_durable (s : State) (e : PortNum) (ra : RegNum) : (State.doFpopm s e ra).2.2.durable = s.durable := by
  unfold State.doFpopm; (repeat' split) <;> first | rfl | (simp; done) | (simp_all; done) | (rename_i heq; have h2 := congrArg (fun x => State.durable x.2) heq; simp at h2; simp [h2]; done) | (rename_i heq; have h2 := congrArg (fun x => State.durable x.2) heq; simp_all; done) | (rename_i heq; have h2 := congrArg (fun x => State.durable x.2.2) heq; simp at h2; simp [h2]; done) | (rename_i heq; have h2 := congrArg (fun x => State.durable x.2.2) heq; simp_all; done) | (rename_i heq _; have h2 := congrArg (fun x => State.durable x.2) heq; simp at h2; simp [h2]; done) | (rename_i heq _; have h2 := congrArg (fun x => State.durable x.2.2) heq; simp at h2; simp [h2]; done)
@[simp] theorem State.doFpush_durable (s : State) (e : PortNum) (ra : RegNum) (eop : Bool) : (s.doFpush e ra eop).2.2.durable = s.durable := by
  unfold State.doFpush
  split
  · rename_i heq
    unfold State.engPush at heq; simp only [ok1]; (repeat' split at heq) <;> simp at heq <;> subst heq <;> simp
  · simp
@[simp] theorem State.doFpushm_durable (s : State) (e : PortNum) (ra : RegNum) (eop : Bool) : (s.doFpushm e ra eop).2.2.durable = s.durable := by
  unfold State.doFpushm
  split
  · rfl
  · rfl
  · dsimp only
    split
    · rename_i heq
      unfold State.engPush at heq; simp only [ok1]; (repeat' split at heq) <;> simp at heq <;> subst heq <;> simp
    · simp
@[simp] theorem State.doFsend_durable (s : State) (e : PortNum) (clear : Bool) : (State.doFsend s e clear).2.2.durable = s.durable := by
  unfold State.doFsend; dsimp only; (repeat' split) <;> (simp)
@[simp] theorem State.doFres_durable (s : State) (e : PortNum) (rd : RegNum) : (State.doFres s e rd).2.2.durable = s.durable := by
  unfold State.doFres; (repeat' split) <;> rfl
@[simp] theorem State.doFrapid_durable (s : State) (e : PortNum) (ra : RegNum) : (State.doFrapid s e ra).2.2.durable = s.durable := by
  unfold State.doFrapid; dsimp only; (repeat' split) <;> (simp)
@[simp] theorem State.doRep_durable (s : State) (e : PortNum) (n : Nat) : (State.doRep s e n).2.2.durable = s.durable := by
  unfold State.doRep; dsimp only; (repeat' split) <;> rfl
@[simp] theorem State.engDo_durable (s : State) (e : PortNum) (i : EngInstr) : (State.engDo s e i).2.2.durable = s.durable := by
  unfold State.engDo; (repeat' split) <;> (simp)
@[simp] theorem State.trapTo_durable (s : State) (e : PortNum) (cause : Nat) (tpc : Word) : (State.trapTo s e cause tpc).durable = s.durable := by
  unfold State.trapTo; simp
@[simp] theorem State.haltCheck_durable (s : State) (e : PortNum) : (State.haltCheck s e).durable = s.durable := by
  unfold State.haltCheck; simp
@[simp] theorem State.setLoad_durable (s : State) (e : PortNum) (r : Option RegNum) : (State.setLoad s e r).durable = s.durable := by
  rfl
@[simp] theorem State.perform_durable (s : State) (e : PortNum) (i : EngInstr) : (State.perform s e i).durable = s.durable := by
  unfold State.perform; dsimp only; (repeat' split) <;> (simp)
@[simp] theorem State.issue_durable (s : State) (e : PortNum) (i : EngInstr) : (State.issue s e i).durable = s.durable := by
  unfold State.issue; simp
@[simp] theorem State.haltWrite_durable (s : State) (e : PortNum) (h : Bool) : (State.haltWrite s e h).durable = s.durable := by
  unfold State.haltWrite; simp
@[simp] theorem State.stepOnce_durable (s : State) (e : PortNum) : (State.stepOnce s e).durable = s.durable := by
  unfold State.stepOnce; dsimp only; (repeat' split) <;> (simp)
@[simp] theorem State.engCtlWrite_durable (s : State) (e : PortNum) (w : Word) : (State.engCtlWrite s e w).durable = s.durable := by
  unfold State.engCtlWrite; simp
@[simp] theorem State.hearthWrite_durable (s : State) (p : PortNum) (off : Nat) (w : Word) : (State.hearthWrite s p off w).durable = s.durable := by
  unfold State.hearthWrite; simp
@[simp] theorem State.stallRelease_durable (s : State) (e : PortNum) : (s.stallRelease e).durable = s.durable := by
  unfold State.stallRelease
  split
  · dsimp only; simp
  · rfl
@[simp] theorem State.shiftBack_durable (x0 : Nat) (x1 : Nat) (x2 : Nat) (x3 : State) : (State.shiftBack x0 x1 x2 x3).durable = x3.durable := by
  fun_induction State.shiftBack x0 x1 x2 x3 <;> (simp_all)
@[simp] theorem State.ttRemove_durable (s : State) (i : Nat) : (State.ttRemove s i).durable = s.durable := by
  unfold State.ttRemove; simp
@[simp] theorem State.ttFault_durable (s : State) (i : Nat) : (State.ttFault s i).durable = s.durable := by
  unfold State.ttFault; simp
@[simp] theorem State.probeN_durable (k : Key) (x0 : Nat) (x1 : Nat) (x2 : Nat) (x3 : State) : (State.probeN k x0 x1 x2 x3).2.durable = x3.durable := by
  fun_induction State.probeN k x0 x1 x2 x3 <;> (simp_all)
@[simp] theorem State.ttLookup_durable (s : State) (k : Key) : (State.ttLookup s k).2.durable = s.durable := by
  unfold State.ttLookup; simp
@[simp] theorem State.ttStore_durable (s : State) (i : Nat) (e : Entry) : (State.ttStore s i e).durable = s.durable := by
  rfl
@[simp] theorem State.ttFull_durable (s : State) : (State.ttFull s).durable = s.durable := by
  unfold State.ttFull; simp
@[simp] theorem State.ttModify_durable (s : State) (k : Key) (f : Entry → Entry) : (State.ttModify s k f).durable = s.durable := by
  unfold State.ttModify; (repeat' split) <;> (rename_i heq; have h2 := congrArg (fun x => State.durable x.2) heq; simp at h2; simp [h2])
@[simp] theorem State.chainLost_durable (s : State) (opcode : Half) : (State.chainLost s opcode).durable = s.durable := by
  unfold State.chainLost; simp
@[simp] theorem State.dropChain_durable (s : State) (hp : HostNum) (t : Byte) : (State.dropChain s hp t).durable = s.durable := by
  unfold State.dropChain; (repeat' split) <;> (simp)
@[simp] theorem State.dropChains_durable (s : State) (t : Nat) : (State.dropChains s t).durable = s.durable := by
  unfold State.dropChains; simp
@[simp] theorem State.putChain_durable (s : State) (hp : HostNum) (ch : Chain) : (State.putChain s hp ch).durable = s.durable := by
  rfl
@[simp] theorem State.segAck_durable (s : State) (c : Cmd) : (State.segAck s c).durable = s.durable := by
  rfl
/-- A row whose meaning keeps what is durable. -/
def Op.Keeps (o : Op) : Prop := (∀ c n t, (o.onSegment c n t).durable = t.durable) ∧ ∀ c t, (o.body c t).durable = t.durable
theorem State.segment_durable (s : State) (o : Op) (c : Cmd) (data : List Byte) (h : o.Keeps) : (s.segment o c data).durable = s.durable := by
  unfold State.segment
  split
  · simp
  · split <;> simp [h.1]
theorem State.conclude_durable (s : State) (o : Op) (c : Cmd) (data : List Byte) (h : o.Keeps) : (s.conclude o c data).durable = s.durable := by
  unfold State.conclude; dsimp only
  split
  · simp
  · split <;> simp [h.1, h.2]
theorem State.decideOp_durable (s : State) (o : Op) (c : Cmd) (dup : Bool) (h : o.Keeps) : (s.decideOp o c dup).durable = s.durable := by
  have h1 := fun s d => State.segment_durable s o c d h
  have h2 := fun s d => State.conclude_durable s o c d h
  unfold State.decideOp; simp [h1, h2]
@[simp] theorem State.resend_durable (s : State) (c : Cmd) (k : Kept) : (State.resend s c k).durable = s.durable := by
  rfl
theorem State.decideCmd_durable (s : State) (k : Contest) (op : Option Op) (c : Cmd) (h : ∀ o, op = some o → o.Keeps) :
    (s.decideCmd k op c).2.durable = s.durable := by
  have h1 := fun (o : Op) (e : op = some o) t d => State.decideOp_durable t o c d (h o e)
  unfold State.decideCmd; dsimp only
  (repeat' split) <;> first | (simp_all; done) | exact h1 _ rfl _ _
theorem State.hostPacket_durable (op : Option Op) (opcode : Half) (h : HostCmd) (s : State) (k : ∀ o, op = some o → o.Keeps) :
    (State.hostPacket op opcode h s).durable = s.durable := by
  unfold State.hostPacket; simp [State.decideCmd_durable _ _ _ _ k]
theorem State.hostRow_durable (op : Op) (h : HostCmd) (s : State) (k : op.Keeps) : (State.hostRow op h s).durable = s.durable := by
  unfold State.hostRow
  exact State.hostPacket_durable _ _ _ _ (fun o e => by injection e with e; rw [← e]; exact k)
@[simp] theorem State.raiseMoved_durable (s : State) (oldPort : Nat) (oldAnt : Nat) (e : Entry) (rssi : Int) : (State.raiseMoved s oldPort oldAnt e rssi).durable = s.durable := by
  unfold State.raiseMoved; (repeat' split) <;> (simp)
@[simp] theorem State.sightStore_durable (s : State) (p : PortNum) (m : Sighted) (i : Nat) (e : Entry) : (State.sightStore s p m i e).durable = s.durable := by
  unfold State.sightStore; simp
@[simp] theorem State.untracked_durable (s : State) (p : PortNum) : (State.untracked s p).durable = s.durable := by
  rfl
theorem State.ttInsert_durable {s t : State} {a : Probe} {k : Key} {e : Entry} {i : Nat} (h : s.ttInsert a k e = some (i, t)) : t.durable = s.durable := by
  unfold State.ttInsert at h
  split at h
  · simp only [Option.some.injEq, Prod.mk.injEq] at h; rw [← h.2]
  · simp only [Option.some.injEq, Prod.mk.injEq] at h; rw [← h.2]; split <;> simp
  · split at h
    · cases h
    · split at h
      · cases h
      · rename_i j _ _
        have h2 := State.ttLookup_durable (s.ttRemove j) k
        dsimp only at h
        split at h
        · rename_i heq
          simp only [Option.some.injEq, Prod.mk.injEq] at h
          rw [← h.2]; rw [heq] at h2; simpa using h2
        · cases h
@[simp] theorem State.sight_durable (s : State) (p : PortNum) (m : Sighted) : (State.sight s p m).durable = s.durable := by
  have h := State.ttLookup_durable s m.key
  unfold State.sight
  dsimp only
  split
  · rename_i heq
    rw [heq] at h
    (repeat' split) <;> simp_all
  · rename_i heq
    rw [heq] at h
    split
    · rename_i heq2
      have h2 := State.ttInsert_durable heq2
      simp_all
    · simp_all
@[simp] theorem State.missAt_durable (p : PortNum) (ant : Nat) (s : State) (i : Nat) : (State.missAt p ant s i).durable = s.durable := by
  unfold State.missAt; (repeat' split) <;> (simp)
@[simp] theorem State.countMisses_durable (s : State) (p : PortNum) (ant : Nat) (halted : List Key) : (State.countMisses s p ant halted).durable = s.durable := by
  unfold State.countMisses; simp
@[simp] theorem State.slotAlert_durable (s : State) (p : PortNum) (ant : Nat) (status : Nat) : (State.slotAlert s p ant status).durable = s.durable := by
  unfold State.slotAlert; simp
@[simp] theorem State.faultRun_durable (s : State) (p : PortNum) (ant : Nat) (status : Nat) : (State.faultRun s p ant status).durable = s.durable := by
  unfold State.faultRun; simp
@[simp] theorem State.slotEnds_durable (s : State) (p : PortNum) (status : Nat) : (State.slotEnds s p status).durable = s.durable := by
  unfold State.slotEnds; (repeat' split) <;> (simp)
@[simp] theorem State.passStart_durable (s : State) (p : PortNum) : (State.passStart s p).durable = s.durable := by
  rfl
@[simp] theorem State.passDone_durable (s : State) (p : PortNum) (x : Pass) (reason : Nat) (status : Nat) (goOn : Bool) : (State.passDone s p x reason status goOn).durable = s.durable := by
  unfold State.passDone; simp
@[simp] theorem State.passReset_durable (s : State) (p : PortNum) : (State.passReset s p).durable = s.durable := by
  unfold State.passReset; (repeat' split) <;> (simp)
@[simp] theorem State.passEnd_durable (s : State) (p : PortNum) : (State.passEnd s p).durable = s.durable := by
  unfold State.passEnd; dsimp only; (repeat' split) <;> (simp)
@[simp] theorem State.putMbox_durable (s : State) (p : PortNum) (l : List Byte) : (State.putMbox s p l).durable = s.durable := by
  rfl
@[simp] theorem State.slotStart_durable (s : State) (p : PortNum) : (State.slotStart s p).durable = s.durable := by
  unfold State.slotStart; (repeat' split) <;> rfl
@[simp] theorem State.ackMsg_durable (s : State) (p : PortNum) : (State.ackMsg s p).durable = s.durable := by
  rfl
@[simp] theorem State.endSession_durable (s : State) (p : PortNum) : (State.endSession s p).durable = s.durable := by
  rfl
@[simp] theorem bodyInvConfig_durable (c : Cmd) (s : State) : (bodyInvConfig c s).durable = s.durable := by
  unfold bodyInvConfig; simp
@[simp] theorem bodyInvStart_durable (c : Cmd) (s : State) : (bodyInvStart c s).durable = s.durable := by
  unfold bodyInvStart; simp
@[simp] theorem bodyInvStop_durable (c : Cmd) (s : State) : (bodyInvStop c s).durable = s.durable := by
  rfl
@[simp] theorem bodyInvQuery_durable (c : Cmd) (s : State) : (bodyInvQuery c s).durable = s.durable := by
  rfl
@[simp] theorem State.ttScan_durable (c : Cmd) (f x0 x1 x2 : Nat) (x3 : List (Nat × List Byte)) (x4 : State) : (State.ttScan c f x0 x1 x2 x3 x4).2.2.durable = x4.durable := by
  induction x0 generalizing x1 x2 x3 x4 with
  | zero => rfl
  | succ n ih =>
    unfold State.ttScan
    split
    · rfl
    · split
      · rfl
      · split
        · exact ih ..
        · split
          · rw [ih]; simp
          · split <;> exact ih ..
@[simp] theorem bodyTtRead_durable (c : Cmd) (s : State) : (bodyTtRead c s).durable = s.durable := by
  unfold bodyTtRead; dsimp only
  split
  · simp
  · simp [State.ttScan_durable]
@[simp] theorem bodyTtFind_durable (c : Cmd) (s : State) : (bodyTtFind c s).durable = s.durable := by
  unfold bodyTtFind; (repeat' split) <;> first | rfl | (simp; done) | (simp_all; done) | (rename_i heq; have h2 := congrArg (fun x => State.durable x.2) heq; simp at h2; simp [h2]; done) | (rename_i heq; have h2 := congrArg (fun x => State.durable x.2) heq; simp_all; done) | (rename_i heq; have h2 := congrArg (fun x => State.durable x.2.2) heq; simp at h2; simp [h2]; done) | (rename_i heq; have h2 := congrArg (fun x => State.durable x.2.2) heq; simp_all; done) | (rename_i heq _; have h2 := congrArg (fun x => State.durable x.2) heq; simp at h2; simp [h2]; done) | (rename_i heq _; have h2 := congrArg (fun x => State.durable x.2.2) heq; simp at h2; simp [h2]; done)
@[simp] theorem bodyTtDelete_durable (c : Cmd) (s : State) : (bodyTtDelete c s).durable = s.durable := by
  unfold bodyTtDelete; (repeat' split) <;> first | rfl | (simp; done) | (simp_all; done) | (rename_i heq; have h2 := congrArg (fun x => State.durable x.2) heq; simp at h2; simp [h2]; done) | (rename_i heq; have h2 := congrArg (fun x => State.durable x.2) heq; simp_all; done) | (rename_i heq; have h2 := congrArg (fun x => State.durable x.2.2) heq; simp at h2; simp [h2]; done) | (rename_i heq; have h2 := congrArg (fun x => State.durable x.2.2) heq; simp_all; done) | (rename_i heq _; have h2 := congrArg (fun x => State.durable x.2) heq; simp at h2; simp [h2]; done) | (rename_i heq _; have h2 := congrArg (fun x => State.durable x.2.2) heq; simp at h2; simp [h2]; done)
@[simp] theorem bodyTtClear_durable (c : Cmd) (s : State) : (bodyTtClear c s).durable = s.durable := by
  rfl
@[simp] theorem bodyTtSetFlags_durable (c : Cmd) (s : State) : (bodyTtSetFlags c s).durable = s.durable := by
  unfold bodyTtSetFlags; (repeat' split) <;> (rename_i heq; have h2 := congrArg (fun x => State.durable x.2) heq; simp at h2; simp [h2])
@[simp] theorem bodyTtConfig_durable (c : Cmd) (s : State) : (bodyTtConfig c s).durable = s.durable := by
  unfold bodyTtConfig; dsimp only; (repeat' split) <;> rfl
@[simp] theorem State.lockSync_durable (s : State) : (State.lockSync s).durable = s.durable := by
  rfl
@[simp] theorem State.putSlot_durable (s : State) (n : Nat) (k : Option KeySlot) : (State.putSlot s n k).durable = s.durable := by
  rfl
@[simp] theorem State.drawByte_durable (s : State) : (State.drawByte s).2.durable = s.durable := by
  rfl
@[simp] theorem State.keyChange_durable (s : State) (slot : Nat) (op : Nat) (type : Nat) (usage : Nat) (wrap : Nat) (hp : HostNum) : (State.keyChange s slot op type usage wrap hp).durable = s.durable := by
  unfold State.keyChange; simp
@[simp] theorem State.lockEndsRuns_durable (s : State) : (State.lockEndsRuns s).durable = s.durable := by
  unfold State.lockEndsRuns; simp
@[simp] theorem State.relock_durable (s : State) : (State.relock s).durable = s.durable := by
  unfold State.relock; simp
@[simp] theorem State.selfCheck_durable (s : State) : (State.selfCheck s).durable = s.durable := by
  unfold State.selfCheck; simp
@[simp] theorem State.trngFail_durable (s : State) : (State.trngFail s).durable = s.durable := by
  unfold State.trngFail; simp
@[simp] theorem State.tamperReport_durable (s : State) (input : Nat) (response : Nat) (slots : Nat) (power : Nat) : (State.tamperReport s input response slots power).durable = s.durable := by
  unfold State.tamperReport; simp
@[simp] theorem State.tamperRespond_durable (s : State) (input : Nat) (power : Nat) : (State.tamperRespond s input power).durable = s.durable := by
  unfold State.tamperRespond; simp
@[simp] theorem State.tamperDeferred_durable (s : State) : (State.tamperDeferred s).durable = s.durable := by
  unfold State.tamperDeferred; simp
@[simp] theorem State.glitch_durable (s : State) (input : Nat) : (State.glitch s input).durable = s.durable := by
  unfold State.glitch; simp
@[simp] theorem State.ashCount_durable (s : State) (type : Nat) : (State.ashCount s type).durable = s.durable := by
  rfl
@[simp] theorem State.deviceSign_durable (s : State) (l : List Byte) : (State.deviceSign s l).2.durable = s.durable := by
  rfl
@[simp] theorem State.getLog_durable (s : State) (c : Cmd) : (State.getLog s c).durable = s.durable := by
  unfold State.getLog; simp
@[simp] theorem State.judgeSlot_durable (s : State) (slot : Nat) : (State.judgeSlot s slot).durable = s.durable := by
  unfold State.judgeSlot; (repeat' split) <;> (simp)
@[simp] theorem State.loadBytes_durable (s : State) (ofs : Nat) (l : List Byte) : (State.loadBytes s ofs l).durable = s.durable := by
  rfl
@[simp] theorem bodyIdent_durable (c : Cmd) (s : State) : (bodyIdent c s).durable = s.durable := by
  rfl
@[simp] theorem bodyGetLog_durable (c : Cmd) (s : State) : (bodyGetLog c s).durable = s.durable := by
  unfold bodyGetLog; simp
@[simp] theorem bodyKeyInfo_durable (c : Cmd) (s : State) : (bodyKeyInfo c s).durable = s.durable := by
  unfold bodyKeyInfo; dsimp only; (repeat' split) <;> rfl
@[simp] theorem bodyKeyGen_durable (c : Cmd) (s : State) : (bodyKeyGen c s).durable = s.durable := by
  unfold bodyKeyGen; (repeat' split) <;> rfl
@[simp] theorem State.keyGenDone_durable (s : State) (c : Cmd) : (State.keyGenDone s c).durable = s.durable := by
  unfold State.keyGenDone; (repeat' split) <;> (simp)
@[simp] theorem bodyKeyImport_durable (c : Cmd) (s : State) : (bodyKeyImport c s).durable = s.durable := by
  unfold bodyKeyImport; (repeat' split) <;> rfl
@[simp] theorem State.keyImportDone_durable (s : State) (c : Cmd) : (State.keyImportDone s c).durable = s.durable := by
  unfold State.keyImportDone; (repeat' split) <;> (simp)
@[simp] theorem State.withRandom_durable (s : State) (c : Cmd) (f : State → State) (h_f : ∀ t, (f t).durable = t.durable) : (State.withRandom s c f).durable = s.durable := by
  unfold State.withRandom; (repeat' split) <;> (simp_all)
@[simp] theorem State.keyExport_durable (s : State) (c : Cmd) : (State.keyExport s c).durable = s.durable := by
  unfold State.keyExport; dsimp only; (repeat' split) <;> (simp)
@[simp] theorem bodyKeyExport_durable (c : Cmd) (s : State) : (bodyKeyExport c s).durable = s.durable := by
  unfold bodyKeyExport; simp
@[simp] theorem bodyKeyDelete_durable (c : Cmd) (s : State) : (bodyKeyDelete c s).durable = s.durable := by
  unfold bodyKeyDelete; dsimp only; (repeat' split) <;> rfl
@[simp] theorem State.keyDeleteDone_durable (s : State) (c : Cmd) : (State.keyDeleteDone s c).durable = s.durable := by
  unfold State.keyDeleteDone; dsimp only; (repeat' split) <;> (simp)
@[simp] theorem bodyKilnRandom_durable (c : Cmd) (s : State) : (bodyKilnRandom c s).durable = s.durable := by
  unfold bodyKilnRandom; simp
@[simp] theorem bodyKilnSign_durable (c : Cmd) (s : State) : (bodyKilnSign c s).durable = s.durable := by
  unfold bodyKilnSign; simp
@[simp] theorem State.kilnSignDone_durable (s : State) (c : Cmd) : (State.kilnSignDone s c).durable = s.durable := by
  unfold State.kilnSignDone; dsimp only; (repeat' split) <;> rfl
@[simp] theorem bodyKilnChallenge_durable (c : Cmd) (s : State) : (bodyKilnChallenge c s).durable = s.durable := by
  unfold bodyKilnChallenge; dsimp only; (repeat' split) <;> (simp)
@[simp] theorem State.setDbgFails_durable (s : State) (n : Nat) : (State.setDbgFails s n).durable = s.durable := by
  rfl
@[simp] theorem State.debugRecord_durable (s : State) (level : Nat) (result : Nat) (keyslot : Nat) : (State.debugRecord s level result keyslot).durable = s.durable := by
  unfold State.debugRecord; simp
@[simp] theorem bodyDebugUnlock_durable (c : Cmd) (s : State) : (bodyDebugUnlock c s).durable = s.durable := by
  unfold bodyDebugUnlock; dsimp only; (repeat' split) <;> (simp)
@[simp] theorem State.debugUnlockDone_durable (s : State) (c : Cmd) : (State.debugUnlockDone s c).durable = s.durable := by
  unfold State.debugUnlockDone; dsimp only; (repeat' split) <;> (simp)
@[simp] theorem bodyImageLoad_durable (c : Cmd) (s : State) : (bodyImageLoad c s).durable = s.durable := by
  rfl
@[simp] theorem State.imageLoadDone_durable (s : State) (c : Cmd) : (State.imageLoadDone s c).durable = s.durable := by
  unfold State.imageLoadDone; simp
@[simp] theorem bodyImageInfo_durable (c : Cmd) (s : State) : (bodyImageInfo c s).durable = s.durable := by
  rfl
@[simp] theorem bodyImageActivate_durable (c : Cmd) (s : State) : (bodyImageActivate c s).durable = s.durable := by
  unfold bodyImageActivate; simp
@[simp] theorem State.imageActivateDone_durable (s : State) (c : Cmd) : (State.imageActivateDone s c).durable = s.durable := by
  unfold State.imageActivateDone; simp
@[simp] theorem State.imgRejected_durable (s : State) (p : PortNum) (check : Nat) (l : List Byte) : (State.imgRejected s p check l).durable = s.durable := by
  unfold State.imgRejected; simp
@[simp] theorem State.keepImage_durable (s : State) (p : PortNum) (l : List Byte) (customer : Bool) : (State.keepImage s p l customer).durable = s.durable := by
  rfl
@[simp] theorem State.keepStandard_durable (s : State) (p : PortNum) : (State.keepStandard s p).durable = s.durable := by
  unfold State.keepStandard; simp
@[simp] theorem State.engHalt_durable (s : State) (p : PortNum) : (State.engHalt s p).durable = s.durable := by
  rfl
@[simp] theorem State.engStart_durable (s : State) (p : PortNum) : (State.engStart s p).durable = s.durable := by
  rfl
@[simp] theorem State.clearRings_durable (s : State) (p : PortNum) : (State.clearRings s p).durable = s.durable := by
  rfl
@[simp] theorem State.schedOut_durable (s : State) (p : PortNum) : (State.schedOut s p).durable = s.durable := by
  unfold State.schedOut; simp
@[simp] theorem State.portReset_durable (s : State) (p : PortNum) : (State.portReset s p).2.durable = s.durable := by
  unfold State.portReset; simp
@[simp] theorem State.portClose_durable (s : State) (p : PortNum) (svc : Svc) : (State.portClose s p svc).durable = s.durable := by
  unfold State.portClose; simp
@[simp] theorem bodyPortOpen_durable (c : Cmd) (s : State) : (bodyPortOpen c s).durable = s.durable := by
  unfold bodyPortOpen; dsimp only
  split
  · simp
  · simp
  · simp
  · split <;> simp
@[simp] theorem bodyPortClose_durable (c : Cmd) (s : State) : (bodyPortClose c s).durable = s.durable := by
  unfold bodyPortClose; dsimp only; (repeat' split) <;> (simp)
@[simp] theorem bodyPortReset_durable (c : Cmd) (s : State) : (bodyPortReset c s).durable = s.durable := by
  unfold bodyPortReset; simp
@[simp] theorem bodyEngineReload_durable (c : Cmd) (s : State) : (bodyEngineReload c s).durable = s.durable := by
  unfold bodyEngineReload; simp
@[simp] theorem State.reloadGo_durable (s : State) (r : Running) (p : PortNum) (l : List Byte) : (State.reloadGo s r p l).durable = s.durable := by
  unfold State.reloadGo; simp
@[simp] theorem State.imageVerdict_durable (s : State) : (State.imageVerdict s).durable = s.durable := by
  unfold State.imageVerdict; dsimp only; (repeat' split) <;> (simp)
@[simp] theorem bodyPortIsolate_durable (c : Cmd) (s : State) : (bodyPortIsolate c s).durable = s.durable := by
  unfold bodyPortIsolate; simp
@[simp] theorem bodyDiagCounters_durable (c : Cmd) (s : State) : (bodyDiagCounters c s).durable = s.durable := by
  unfold bodyDiagCounters; simp
@[simp] theorem State.addCounters_durable (s : State) (p : PortNum) : (State.addCounters s p).durable = s.durable := by
  rfl
@[simp] theorem State.ship_durable (s : State) (c : Cmd) (p : PortNum) (payload : List Byte) (j : Job) : (State.ship s c p payload j).durable = s.durable := by
  unfold State.ship; simp
@[simp] theorem State.shipCmd_durable (s : State) (c : Cmd) : (State.shipCmd s c).durable = s.durable := by
  unfold State.shipCmd; simp
@[simp] theorem State.suspect_durable (s : State) (p : PortNum) (k : Option Key) (vclass : Nat) : (State.suspect s p k vclass).durable = s.durable := by
  unfold State.suspect; (repeat' split) <;> first | rfl | (simp; done) | (simp_all; done) | (rename_i heq; have h2 := congrArg (fun x => State.durable x.2) heq; simp at h2; simp [h2]; done) | (rename_i heq; have h2 := congrArg (fun x => State.durable x.2) heq; simp_all; done) | (rename_i heq; have h2 := congrArg (fun x => State.durable x.2.2) heq; simp at h2; simp [h2]; done) | (rename_i heq; have h2 := congrArg (fun x => State.durable x.2.2) heq; simp_all; done) | (rename_i heq _; have h2 := congrArg (fun x => State.durable x.2) heq; simp at h2; simp [h2]; done) | (rename_i heq _; have h2 := congrArg (fun x => State.durable x.2.2) heq; simp at h2; simp [h2]; done)
@[simp] theorem State.secBits_durable (s : State) (k : Option Key) (setB : Nat) (clrB : Nat) : (State.secBits s k setB clrB).durable = s.durable := by
  unfold State.secBits; (repeat' split) <;> (simp)
@[simp] theorem State.afterResponse_durable (s : State) (c : Cmd) (p : PortNum) (status : Nat) (pl : List Byte) : (State.afterResponse s c p status pl).durable = s.durable := by
  unfold State.afterResponse; simp
@[simp] theorem State.engineResponds_durable (s : State) (p : PortNum) (c : Cmd) (m : EngReply) : (State.engineResponds s p c m).durable = s.durable := by
  unfold State.engineResponds; simp
@[simp] theorem State.phaseStart_durable (s : State) (p : PortNum) : (State.phaseStart s p).durable = s.durable := by
  unfold State.phaseStart; simp
@[simp] theorem State.challenge_durable (s : State) (p : PortNum) (sent : Bool) (b : Option Burst) : (State.challenge s p sent b).durable = s.durable := by
  unfold State.challenge; (repeat' split) <;> (simp)
@[simp] theorem State.excCode_durable (s : State) (e : Int) : (State.excCode s e).2.durable = s.durable := by
  unfold State.excCode; simp
@[simp] theorem State.meanSnr_durable (s : State) (sum : Nat) (n : Nat) : (State.meanSnr s sum n).2.durable = s.durable := by
  unfold State.meanSnr; simp
@[simp] theorem State.dbSummary_durable (s : State) (p : PortNum) : (State.dbSummary s p).durable = s.durable := by
  unfold State.dbSummary; simp
@[simp] theorem State.putChal_durable (s : State) (p : PortNum) (l : List Byte) : (State.putChal s p l).durable = s.durable := by
  rfl
@[simp] theorem State.runPhase_durable (s : State) (p : PortNum) : (State.runPhase s p).durable = s.durable := by
  unfold State.runPhase; (repeat' split) <;> first | rfl | (simp; done) | (simp_all; done) | (rename_i heq; have h2 := congrArg (fun x => State.durable x.2) heq; simp at h2; simp [h2]; done) | (rename_i heq; have h2 := congrArg (fun x => State.durable x.2) heq; simp_all; done) | (rename_i heq; have h2 := congrArg (fun x => State.durable x.2.2) heq; simp at h2; simp [h2]; done) | (rename_i heq; have h2 := congrArg (fun x => State.durable x.2.2) heq; simp_all; done) | (rename_i heq _; have h2 := congrArg (fun x => State.durable x.2) heq; simp at h2; simp [h2]; done) | (rename_i heq _; have h2 := congrArg (fun x => State.durable x.2.2) heq; simp at h2; simp [h2]; done)
@[simp] theorem State.phaseEnd_durable (s : State) (p : PortNum) : (State.phaseEnd s p).durable = s.durable := by
  unfold State.phaseEnd; simp
@[simp] theorem State.dbStart_durable (s : State) (c : Cmd) (d : DbRun) : (State.dbStart s c d).durable = s.durable := by
  unfold State.dbStart; simp
@[simp] theorem bodyDbRun_durable (c : Cmd) (s : State) : (bodyDbRun c s).durable = s.durable := by
  unfold bodyDbRun; dsimp only; (repeat' split) <;> (simp)
@[simp] theorem bodyDbCal_durable (c : Cmd) (s : State) : (bodyDbCal c s).durable = s.durable := by
  unfold bodyDbCal; dsimp only; (repeat' split) <;> (simp)
@[simp] theorem bodyDbConfig_durable (c : Cmd) (s : State) : (bodyDbConfig c s).durable = s.durable := by
  unfold bodyDbConfig; simp
@[simp] theorem State.dbEntry_durable (s : State) (k : Key) (x0 : DbOutcome) : (State.dbEntry s k x0).durable = s.durable := by
  unfold State.dbEntry; (repeat' split) <;> (simp)
@[simp] theorem State.dbJudge_durable (s : State) (p : PortNum) (c : Cmd) (d : DbRun) (key : List Byte) (reply : DbReply) : (State.dbJudge s p c d key reply).durable = s.durable := by
  unfold State.dbJudge; simp
@[simp] theorem State.dbEnd_durable (s : State) (p : PortNum) (status : Nat) : (State.dbEnd s p status).durable = s.durable := by
  unfold State.dbEnd; simp
@[simp] theorem State.dbVerdict_durable (s : State) (p : PortNum) (reply : DbReply) : (State.dbVerdict s p reply).durable = s.durable := by
  unfold State.dbVerdict; (repeat' split) <;> (simp)
@[simp] theorem State.dbCalDone_durable (s : State) (p : PortNum) (d : DbRun) : (State.dbCalDone s p d).durable = s.durable := by
  unfold State.dbCalDone; simp
@[simp] theorem State.dbResponse_durable (s : State) (p : PortNum) (r : Running) (m : EngReply) : (State.dbResponse s p r m).durable = s.durable := by
  unfold State.dbResponse; dsimp only; (repeat' split) <;> (simp)
@[simp] theorem State.modX_durable (s : State) (f : Xpdr → Xpdr) : (State.modX s f).durable = s.durable := by
  rfl
@[simp] theorem State.putRec_durable (s : State) (k : Nat) (r : NvRec) : (State.putRec s k r).durable = s.durable := by
  rfl
@[simp] theorem State.nvFault_durable (s : State) (k : Nat) : (State.nvFault s k).durable = s.durable := by
  unfold State.nvFault; simp
@[simp] theorem State.repair_durable (s : State) : (State.repair s).durable = s.durable := by
  unfold State.repair; (repeat' split) <;> (simp)
@[simp] theorem State.commit_durable (s : State) (k : Nat) (data : List Byte) (locked : Bool) : (State.commit s k data locked).2.durable = s.durable := by
  unfold State.commit; simp
@[simp] theorem State.commitAll_durable (s : State) (x0 : List (Nat × List Byte)) (x1 : Nat) : (s.commitAll x0 x1).2.2.durable = s.durable := by
  induction x0 generalizing s x1 with
  | nil => rfl
  | cons a l ih =>
    unfold State.commitAll
    split
    · rfl
    · have h := State.commit_durable s a.1 a.2 false
      dsimp only
      split
      · rw [ih]; exact h
      · exact h
@[simp] theorem State.hostCommit_durable (s : State) (c : Cmd) : (State.hostCommit s c).2.2.durable = s.durable := by
  unfold State.hostCommit; dsimp only; (repeat' split) <;> (simp)
@[simp] theorem State.hostCommitDone_durable (s : State) (c : Cmd) : (State.hostCommitDone s c).durable = s.durable := by
  unfold State.hostCommitDone; simp
@[simp] theorem State.commitDeferred_durable (s : State) : (State.commitDeferred s).durable = s.durable := by
  unfold State.commitDeferred; dsimp only; (repeat' split) <;> (simp)
@[simp] theorem State.hostChange_durable (s : State) (c : Cmd) : (s.hostChange c).durable = s.durable := by
  unfold State.hostChange
  split
  · simp
  · simp [State.begin, iter_durable]
@[simp] theorem bodyXpdrConfig_durable (c : Cmd) (s : State) : (bodyXpdrConfig c s).durable = s.durable := by
  unfold bodyXpdrConfig; simp
@[simp] theorem bodyXpdrAreaSet_durable (c : Cmd) (s : State) : (bodyXpdrAreaSet c s).durable = s.durable := by
  unfold bodyXpdrAreaSet; simp
@[simp] theorem bodyXpdrWrite_durable (c : Cmd) (s : State) : (bodyXpdrWrite c s).durable = s.durable := by
  unfold bodyXpdrWrite; simp
@[simp] theorem bodyXpdrCntInc_durable (c : Cmd) (s : State) : (bodyXpdrCntInc c s).durable = s.durable := by
  unfold bodyXpdrCntInc; simp
@[simp] theorem bodyXpdrRead_durable (c : Cmd) (s : State) : (bodyXpdrRead c s).durable = s.durable := by
  unfold bodyXpdrRead; simp
@[simp] theorem bodyXpdrCntRead_durable (c : Cmd) (s : State) : (bodyXpdrCntRead c s).durable = s.durable := by
  unfold bodyXpdrCntRead; (repeat' split) <;> rfl
@[simp] theorem bodyXpdrAreaInfo_durable (c : Cmd) (s : State) : (bodyXpdrAreaInfo c s).durable = s.durable := by
  unfold bodyXpdrAreaInfo; simp
@[simp] theorem bodyXpdrStatus_durable (c : Cmd) (s : State) : (bodyXpdrStatus c s).durable = s.durable := by
  rfl
@[simp] theorem State.lockoutRecord_durable (s : State) (area : Nat) (proto : Option Nat) (event : Option Nat) (means : Option Nat) (host : Option Nat) : (State.lockoutRecord s area proto event means host).durable = s.durable := by
  unfold State.lockoutRecord; dsimp only; (repeat' split) <;> (simp)
@[simp] theorem bodyXpdrUnlock_durable (c : Cmd) (s : State) : (bodyXpdrUnlock c s).durable = s.durable := by
  unfold bodyXpdrUnlock; dsimp only; (repeat' split) <;> (simp)
@[simp] theorem State.clearArea_durable (s : State) (i : Nat) : (State.clearArea s i).2.durable = s.durable := by
  unfold State.clearArea; simp
@[simp] theorem State.xpdrUnlockDone_durable (s : State) (c : Cmd) : (State.xpdrUnlockDone s c).durable = s.durable := by
  unfold State.xpdrUnlockDone; simp
@[simp] theorem State.hostTDone_durable (s : State) (c : Cmd) : (State.hostTDone s c).durable = s.durable := by
  unfold State.hostTDone; simp
@[simp] theorem State.finishHost_durable (s : State) : (State.finishHost s).durable = s.durable := by
  unfold State.finishHost; simp
@[simp] theorem State.cutCommit_durable (s : State) : (State.cutCommit s).durable = s.durable := by
  unfold State.cutCommit; dsimp only; (repeat' split) <;> (simp)
@[simp] theorem State.leaveActive_durable (s : State) : (State.leaveActive s).durable = s.durable := by
  rfl
@[simp] theorem State.tFresh_durable (s : State) : (State.tFresh s).durable = s.durable := by
  rfl
@[simp] theorem State.tSessionEnd_durable (s : State) : (State.tSessionEnd s).durable = s.durable := by
  unfold State.tSessionEnd; simp
@[simp] theorem State.tHarvest_durable (s : State) : (State.tHarvest s).durable = s.durable := by
  rfl
@[simp] theorem State.tFieldGone_durable (s : State) : (State.tFieldGone s).durable = s.durable := by
  unfold State.tFieldGone; simp
@[simp] theorem State.tColdStart_durable (s : State) : (State.tColdStart s).durable = s.durable := by
  rfl
@[simp] theorem State.tQuiet_durable (s : State) : (State.tQuiet s).durable = s.durable := by
  rfl
@[simp] theorem State.tReply_durable (s : State) (r : List Byte) : (State.tReply s r).durable = s.durable := by
  rfl
@[simp] theorem State.tAccept_durable (s : State) (p : LinkProto) : (State.tAccept s p).durable = s.durable := by
  unfold State.tAccept; simp
@[simp] theorem State.dbDisarm_durable (s : State) : (State.dbDisarm s).durable = s.durable := by
  unfold State.dbDisarm; simp
@[simp] theorem State.tWait_durable (s : State) : (State.tWait s).durable = s.durable := by
  unfold State.tWait; simp
@[simp] theorem State.tFrame_durable (s : State) (p : LinkProto) (body : List Byte) (valid : Bool) (nvm : Bool) (f : State → State) (h_f : ∀ t, (f t).durable = t.durable) : (State.tFrame s p body valid nvm f).durable = s.durable := by
  unfold State.tFrame; (repeat' split) <;> (simp_all)
@[simp] theorem State.tGo_durable (s : State) (t : TState) : (State.tGo s t).durable = s.durable := by
  rfl
@[simp] theorem State.tMalformed_durable (s : State) : (State.tMalformed s).durable = s.durable := by
  unfold State.tMalformed; simp
@[simp] theorem State.tScan_durable (s : State) (body : List Byte) : (State.tScan s body).durable = s.durable := by
  unfold State.tScan; simp
@[simp] theorem State.tSelect_durable (s : State) (body : List Byte) : (State.tSelect s body).durable = s.durable := by
  unfold State.tSelect; dsimp only; (repeat' split) <;> rfl
@[simp] theorem State.tHalt_durable (s : State) (body : List Byte) : (State.tHalt s body).durable = s.durable := by
  unfold State.tHalt; simp
@[simp] theorem State.tCmd_durable (s : State) (body : List Byte) (len : Nat) (f : State → State) (h_f : ∀ t, (f t).durable = t.durable) : (State.tCmd s body len f).durable = s.durable := by
  unfold State.tCmd; (repeat' split) <;> (simp_all)
@[simp] theorem State.tSafe_durable (s : State) (req : List Byte) (f : State → State) (h_f : ∀ t, (f t).durable = t.durable) : (State.tSafe s req f).durable = s.durable := by
  unfold State.tSafe; (repeat' split) <;> (simp_all)
@[simp] theorem State.fieldCommit_durable (s : State) (k : Nat) (data : List Byte) (locked : Bool) : (State.fieldCommit s k data locked).2.durable = s.durable := by
  unfold State.fieldCommit; simp
@[simp] theorem State.tDone_durable (s : State) (ok : Bool) : (State.tDone s ok).durable = s.durable := by
  rfl
@[simp] theorem State.commitFails_durable (s : State) (i : Nat) (fails : Nat) (locked : Bool) : (State.commitFails s i fails locked).2.durable = s.durable := by
  unfold State.commitFails; simp
@[simp] theorem State.enterLockout_durable (s : State) (i : Nat) (proto : Nat) : (State.enterLockout s i proto).durable = s.durable := by
  unfold State.enterLockout; simp
@[simp] theorem State.password_durable (s : State) (i : Nat) (proto : Nat) (pwd : List Byte) : (State.password s i proto pwd).2.durable = s.durable := by
  unfold State.password; simp
@[simp] theorem State.attempts_durable (s : State) (i : Nat) : (State.attempts s i).2.durable = s.durable := by
  unfold State.attempts; simp
@[simp] theorem State.commitPwd_durable (s : State) (i : Nat) (pwd : List Byte) : (State.commitPwd s i pwd).2.durable = s.durable := by
  unfold State.commitPwd; simp
@[simp] theorem State.tRandom_durable (s : State) (f : State → State) (h_f : ∀ t, (f t).durable = t.durable) : (State.tRandom s f).durable = s.durable := by
  unfold State.tRandom; dsimp only; (repeat' split) <;> (simp_all)
@[simp] theorem State.eoCount_durable (s : State) (i : Nat) : (State.eoCount s i).2.durable = s.durable := by
  unfold State.eoCount; dsimp only; (repeat' split) <;> (simp)
@[simp] theorem State.eoDisarm_durable (s : State) : (State.eoDisarm s).durable = s.durable := by
  rfl
@[simp] theorem State.applyUnlock_durable (s : State) (area : Nat) : (State.applyUnlock s area).2.durable = s.durable := by
  unfold State.applyUnlock; simp
@[simp] theorem State.tDbCmd_durable (s : State) (body : List Byte) (len : Nat) (f : State → State) (h_f : ∀ t, (f t).durable = t.durable) : (State.tDbCmd s body len f).durable = s.durable := by
  unfold State.tDbCmd; (repeat' split) <;> (simp_all)
@[simp] theorem State.oCmd_durable (s : State) (body : List Byte) (len : Nat) (f : State → State) (h_f : ∀ t, (f t).durable = t.durable) : (State.oCmd s body len f).durable = s.durable := by
  unfold State.oCmd; (repeat' split) <;> (simp_all)
@[simp] theorem State.oDone_durable (s : State) (ok : Bool) : (State.oDone s ok).durable = s.durable := by
  rfl
@[simp] theorem State.modDev_durable (s : State) (f : Device → Device) : (State.modDev s f).durable = s.durable := by
  rfl
@[simp] theorem State.cutKiln_durable (s : State) : s.cutKiln.durable = s.durable := by
  unfold State.cutKiln
  rw [foldl_durable]
  intro t r; dsimp only
  split
  · simp
  · split <;> simp
@[simp] theorem State.tSysReset_durable (s : State) : (State.tSysReset s).durable = s.durable := by
  unfold State.tSysReset; simp
@[simp] theorem State.cleared_durable (s : State) : s.cleared.durable = s.durable := by
  unfold State.cleared
  have : (((s.cutCommit.cutKiln).tSysReset)).durable = s.durable := by simp [State.cutKiln_durable]
  simpa [State.durable, Kiln.sysReset] using this
@[simp] theorem State.sysReset_durable (s : State) (cause : Nat) : (State.sysReset s cause).durable = s.durable := by
  unfold State.sysReset; simp
@[simp] theorem State.aonLost_durable (s : State) : s.aonLost.durable = s.durable := by
  unfold State.aonLost
  have := State.cleared_durable s
  simpa [State.durable, Kiln.sysReset] using this
@[simp] theorem State.devReady_durable (s : State) (mode : Nat) (imgStat : Nat) : (State.devReady s mode imgStat).durable = s.durable := by
  rfl
@[simp] theorem State.readSets_durable (s : State) : (State.readSets s).durable = s.durable := by
  unfold State.readSets; simp
@[simp] theorem State.pllLost_durable (s : State) : (State.pllLost s).durable = s.durable := by
  unfold State.pllLost; simp
@[simp] theorem State.wdtKick_durable (s : State) (key : Byte) : (State.wdtKick s key).durable = s.durable := by
  unfold State.wdtKick; simp
@[simp] theorem State.allFieldsOff_durable (s : State) : (State.allFieldsOff s).durable = s.durable := by
  unfold State.allFieldsOff; simp
@[simp] theorem State.emberGrate_durable (s : State) : (State.emberGrate s).durable = s.durable := by
  unfold State.emberGrate; simp
@[simp] theorem State.clocksOff_durable (s : State) (all : Bool) : (State.clocksOff s all).durable = s.durable := by
  unfold State.clocksOff; simp
@[simp] theorem State.wake_durable (s : State) (fired : Nat) : (State.wake s fired).durable = s.durable := by
  unfold State.wake; simp
@[simp] theorem State.offWake_durable (s : State) (fired : Nat) : (State.offWake s fired).durable = s.durable := by
  unfold State.offWake; simp
@[simp] theorem State.emberProbed_durable (s : State) : (State.emberProbed s).durable = s.durable := by
  rfl
@[simp] theorem State.tinEdge_durable (s : State) (k : Nat) : (State.tinEdge s k).durable = s.durable := by
  unfold State.tinEdge; simp
@[simp] theorem bodyGpioConfig_durable (c : Cmd) (s : State) : (bodyGpioConfig c s).durable = s.durable := by
  unfold bodyGpioConfig; simp
@[simp] theorem bodyGpioWrite_durable (c : Cmd) (s : State) : (bodyGpioWrite c s).durable = s.durable := by
  unfold bodyGpioWrite; simp
@[simp] theorem bodyGpioRead_durable (c : Cmd) (s : State) : (bodyGpioRead c s).durable = s.durable := by
  rfl
@[simp] theorem bodyPwrEnter_durable (c : Cmd) (s : State) : (bodyPwrEnter c s).durable = s.durable := by
  unfold bodyPwrEnter; simp
@[simp] theorem bodyWakeConfig_durable (c : Cmd) (s : State) : (bodyWakeConfig c s).durable = s.durable := by
  unfold bodyWakeConfig; simp
@[simp] theorem bodyEmberConfig_durable (c : Cmd) (s : State) : (bodyEmberConfig c s).durable = s.durable := by
  unfold bodyEmberConfig; simp
@[simp] theorem bodyPwrStatus_durable (c : Cmd) (s : State) : (bodyPwrStatus c s).durable = s.durable := by
  rfl
@[simp] theorem bodyDevReset_durable (c : Cmd) (s : State) : (bodyDevReset c s).durable = s.durable := by
  unfold bodyDevReset; simp
@[simp] theorem bodyTimebaseRead_durable (c : Cmd) (s : State) : (bodyTimebaseRead c s).durable = s.durable := by
  rfl
@[simp] theorem State.placeWrite_durable (s : State) (pl : Place) (w : Word) : (s.placeWrite pl w).durable = s.durable := by
  cases pl <;> simp [State.placeWrite] <;> (repeat' split) <;> simp [foldl_durable]
@[simp] theorem bodyInfo_durable (c : Cmd) (s : State) : (bodyInfo c s).durable = s.durable := by
  rfl
@[simp] theorem bodyHostConfig_durable (c : Cmd) (s : State) : (bodyHostConfig c s).durable = s.durable := by
  unfold bodyHostConfig; simp
@[simp] theorem bodyHostStatus_durable (c : Cmd) (s : State) : (bodyHostStatus c s).durable = s.durable := by
  rfl
@[simp] theorem bodyOwnQuery_durable (c : Cmd) (s : State) : (bodyOwnQuery c s).durable = s.durable := by
  rfl
@[simp] theorem State.setOwner_durable (s : State) (c : Cmd) (new : Option HostNum) : (State.setOwner s c new).durable = s.durable := by
  unfold State.setOwner; simp
@[simp] theorem State.setDevOwn_durable (s : State) (c : Cmd) (new : BitVec 4) : (State.setDevOwn s c new).durable = s.durable := by
  unfold State.setDevOwn; simp
@[simp] theorem bodyOwnClaim_durable (c : Cmd) (s : State) : (bodyOwnClaim c s).durable = s.durable := by
  unfold bodyOwnClaim; (repeat' split) <;> (simp)
@[simp] theorem bodyOwnRelease_durable (c : Cmd) (s : State) : (bodyOwnRelease c s).durable = s.durable := by
  unfold bodyOwnRelease; (repeat' split) <;> (simp)
@[simp] theorem State.scanTag_durable (s : State) : (State.scanTag s).2.durable = s.durable := by
  rfl
@[simp] theorem scanTags_durable (n : Nat) (s : State) : (scanTags n s).2.durable = s.durable := by
  induction n generalizing s with
  | zero => rfl
  | succ n ih => simp [scanTags, ih]
@[simp] theorem bodyKindlingScan_durable (c : Cmd) (s : State) : (bodyKindlingScan c s).durable = s.durable := by
  unfold bodyKindlingScan; simp
@[simp] theorem State.setApply_durable (s : State) (p : PortNum) (e : Nat × Word × Word) : (State.setApply s p e).durable = s.durable := by
  unfold State.setApply; simp
@[simp] theorem bodyPortSet_durable (c : Cmd) (s : State) : (bodyPortSet c s).durable = s.durable := by
  unfold bodyPortSet; simp
@[simp] theorem bodyFieldOn_durable (c : Cmd) (s : State) : (bodyFieldOn c s).durable = s.durable := by
  unfold bodyFieldOn; simp
@[simp] theorem bodyFieldOff_durable (c : Cmd) (s : State) : (bodyFieldOff c s).durable = s.durable := by
  unfold bodyFieldOff; simp
@[simp] theorem bodyGrateSelect_durable (c : Cmd) (s : State) : (bodyGrateSelect c s).durable = s.durable := by
  unfold bodyGrateSelect; simp
@[simp] theorem getWords_durable (p : PortNum) (l : List Nat) (s : State) : (getWords p l s).2.durable = s.durable := by
  induction l generalizing s with
  | nil => rfl
  | cons n l ih => simp only [getWords, ih]; split <;> simp
@[simp] theorem bodyPortGet_durable (c : Cmd) (s : State) : (bodyPortGet c s).durable = s.durable := by
  unfold bodyPortGet; simp
@[simp] theorem bodyPortStatus_durable (c : Cmd) (s : State) : (bodyPortStatus c s).durable = s.durable := by
  rfl
@[simp] theorem bodyGroupSet_durable (c : Cmd) (s : State) : (bodyGroupSet c s).durable = s.durable := by
  unfold bodyGroupSet; simp
@[simp] theorem bodyGroupQuery_durable (c : Cmd) (s : State) : (bodyGroupQuery c s).durable = s.durable := by
  unfold bodyGroupQuery; simp
@[simp] theorem bodyTransceive_durable (c : Cmd) (s : State) : (bodyTransceive c s).durable = s.durable := by
  unfold bodyTransceive; simp
@[simp] theorem bodyAActivate_durable (c : Cmd) (s : State) : (bodyAActivate c s).durable = s.durable := by
  unfold bodyAActivate; simp
@[simp] theorem bodyBActivate_durable (c : Cmd) (s : State) : (bodyBActivate c s).durable = s.durable := by
  unfold bodyBActivate; simp
@[simp] theorem State.shipPicc_durable (s : State) (c : Cmd) : (State.shipPicc s c).durable = s.durable := by
  unfold State.shipPicc; simp
@[simp] theorem bodyApdu_durable (c : Cmd) (s : State) : (bodyApdu c s).durable = s.durable := by
  unfold bodyApdu; simp
@[simp] theorem bodyDeselect_durable (c : Cmd) (s : State) : (bodyDeselect c s).durable = s.durable := by
  unfold bodyDeselect; simp
@[simp] theorem bodyVhbrParams_durable (c : Cmd) (s : State) : (bodyVhbrParams c s).durable = s.durable := by
  unfold bodyVhbrParams; simp
@[simp] theorem bodyVCmd_durable (c : Cmd) (s : State) : (bodyVCmd c s).durable = s.durable := by
  unfold bodyVCmd; simp
@[simp] theorem bodyAlScan_durable (c : Cmd) (s : State) : (bodyAlScan c s).durable = s.durable := by
  unfold bodyAlScan; simp
@[simp] theorem bodyAlSelect_durable (c : Cmd) (s : State) : (bodyAlSelect c s).durable = s.durable := by
  unfold bodyAlSelect; simp
@[simp] theorem State.shipSession_durable (s : State) (c : Cmd) (ok : Bool) : (State.shipSession s c ok).durable = s.durable := by
  unfold State.shipSession; simp
@[simp] theorem bodyAlHalt_durable (c : Cmd) (s : State) : (bodyAlHalt c s).durable = s.durable := by
  unfold bodyAlHalt; simp
@[simp] theorem bodyAlRead_durable (c : Cmd) (s : State) : (bodyAlRead c s).durable = s.durable := by
  unfold bodyAlRead; simp
@[simp] theorem bodyAlPlain_durable (c : Cmd) (s : State) : (bodyAlPlain c s).durable = s.durable := by
  unfold bodyAlPlain; simp
@[simp] theorem bodyAlUnlock_durable (c : Cmd) (s : State) : (bodyAlUnlock c s).durable = s.durable := by
  unfold bodyAlUnlock; simp
@[simp] theorem bodyOsgil_durable (c : Cmd) (s : State) : (bodyOsgil c s).durable = s.durable := by
  unfold bodyOsgil; simp
@[simp] theorem bodyCalRun_durable (c : Cmd) (s : State) : (bodyCalRun c s).durable = s.durable := by
  unfold bodyCalRun; simp
@[simp] theorem bodyCalCoupling_durable (c : Cmd) (s : State) : (bodyCalCoupling c s).durable = s.durable := by
  unfold bodyCalCoupling; simp
@[simp] theorem bodyCalExport_durable (c : Cmd) (s : State) : (bodyCalExport c s).durable = s.durable := by
  rfl
@[simp] theorem State.applyTune_durable (s : State) (sections : Nat) (x : List Byte) : (State.applyTune s sections x).durable = s.durable := by
  unfold State.applyTune; simp
@[simp] theorem State.applyPort_durable (s : State) (sections : Nat) (x : List Byte) : (State.applyPort s sections x).durable = s.durable := by
  unfold State.applyPort; simp
@[simp] theorem State.applyMatrix_durable (s : State) (b : List Byte) : (State.applyMatrix s b).2.durable = s.durable := by
  unfold State.applyMatrix; simp
@[simp] theorem State.calApply_durable (s : State) (c : Cmd) (sections : Nat) (b : List Byte) : (State.calApply s c sections b).durable = s.durable := by
  unfold State.calApply; simp
@[simp] theorem bodyCalImport_durable (c : Cmd) (s : State) : (bodyCalImport c s).durable = s.durable := by
  unfold bodyCalImport; simp
@[simp] theorem bodyCalConfig_durable (c : Cmd) (s : State) : (bodyCalConfig c s).durable = s.durable := by
  unfold bodyCalConfig; simp
@[simp] theorem bodyCalStatus_durable (c : Cmd) (s : State) : (bodyCalStatus c s).durable = s.durable := by
  rfl
@[simp] theorem bodyTmrConfig_durable (c : Cmd) (s : State) : (bodyTmrConfig c s).durable = s.durable := by
  unfold bodyTmrConfig; (repeat' split) <;> (simp)
@[simp] theorem bodyTmrArm_durable (c : Cmd) (s : State) : (bodyTmrArm c s).durable = s.durable := by
  unfold bodyTmrArm; (repeat' split) <;> (simp)
@[simp] theorem bodyTmrRead_durable (c : Cmd) (s : State) : (bodyTmrRead c s).durable = s.durable := by
  unfold bodyTmrRead; (repeat' split) <;> rfl
@[simp] theorem dbgReadWords_durable (l : List Nat) (s : State) : (dbgReadWords l s).2.durable = s.durable := by
  induction l generalizing s with
  | nil => rfl
  | cons n l ih => simp only [dbgReadWords, ih]; split <;> simp
@[simp] theorem bodyDbgRead_durable (c : Cmd) (s : State) : (bodyDbgRead c s).durable = s.durable := by
  unfold bodyDbgRead; dsimp only; (repeat' split) <;> (simp)
@[simp] theorem dbgWriteWords_durable (b : List Byte) (i : Nat) (l : List Nat) (s : State) : (dbgWriteWords b i l s).durable = s.durable := by
  induction l generalizing s i with
  | nil => rfl
  | cons n l ih => simp only [dbgWriteWords, ih]; split <;> simp [State.placeWrite_durable]
@[simp] theorem bodyDbgWrite_durable (c : Cmd) (s : State) : (bodyDbgWrite c s).durable = s.durable := by
  unfold bodyDbgWrite; dsimp only; (repeat' split) <;> (simp)
@[simp] theorem bodyDbgEngine_durable (c : Cmd) (s : State) : (bodyDbgEngine c s).durable = s.durable := by
  unfold bodyDbgEngine; dsimp only; (repeat' split) <;> (simp)
@[simp] theorem State.registerWrite_durable (s : State) (a v : Word) (side : Side) : (s.registerWrite a v side).durable = s.durable := by
  unfold State.registerWrite
  (repeat' split) <;> simp [State.placeWrite_durable]
@[simp] theorem State.spi_durable (s : State) (hp : SpiPort) (f : HostPort → HostPort) : (State.spi s hp f).durable = s.durable := by
  unfold State.spi; simp
@[simp] theorem State.badCrc_durable (s : State) (c : Cmd) : (State.badCrc s c).durable = s.durable := by
  rfl

@[simp] theorem State.afterLock_durable (s : State) : (State.afterLock s).durable = s.durable := by
  unfold State.afterLock; (repeat' split) <;> (simp)

@[simp] theorem State.kilnDone_durable (s : State) (c : Cmd) : (State.kilnDone s c).durable = s.durable := by
  unfold State.kilnDone; (repeat' split) <;> (simp)

end Sys2Proof.Machine
end

