-- ==== Sys2Proof/Laws/Grows.lean ====
section
/-! SUPPORT. What every command leaves of the state that a reset keeps: no row touches the log or SECVER but the
commits of records and the raise of SECVER (R522, R533-R538). -/

namespace Sys2Proof.Machine
theorem opInfo_keeps : opInfo.Keeps := by
  refine ⟨fun c n t => ?_, fun c t => ?_⟩
  · rfl
  · rfl
theorem opIdent_keeps : opIdent.Keeps := by
  refine ⟨fun c n t => ?_, fun c t => ?_⟩
  · rfl
  · rfl
theorem opDevReset_keeps : opDevReset.Keeps := by
  refine ⟨fun c n t => ?_, fun c t => ?_⟩
  · rfl
  · unfold opDevReset; simp
theorem opGetLog_keeps : opGetLog.Keeps := by
  refine ⟨fun c n t => ?_, fun c t => ?_⟩
  · rfl
  · unfold opGetLog; simp
theorem opHostConfig_keeps : opHostConfig.Keeps := by
  refine ⟨fun c n t => ?_, fun c t => ?_⟩
  · rfl
  · unfold opHostConfig; simp
theorem opHostStatus_keeps : opHostStatus.Keeps := by
  refine ⟨fun c n t => ?_, fun c t => ?_⟩
  · rfl
  · rfl
theorem opOwnClaim_keeps : opOwnClaim.Keeps := by
  refine ⟨fun c n t => ?_, fun c t => ?_⟩
  · rfl
  · unfold opOwnClaim; simp
theorem opOwnRelease_keeps : opOwnRelease.Keeps := by
  refine ⟨fun c n t => ?_, fun c t => ?_⟩
  · rfl
  · unfold opOwnRelease; simp
theorem opOwnQuery_keeps : opOwnQuery.Keeps := by
  refine ⟨fun c n t => ?_, fun c t => ?_⟩
  · rfl
  · rfl
theorem opKindlingScan_keeps : opKindlingScan.Keeps := by
  refine ⟨fun c n t => ?_, fun c t => ?_⟩
  · rfl
  · unfold opKindlingScan; simp
theorem opPortOpen_keeps : opPortOpen.Keeps := by
  refine ⟨fun c n t => ?_, fun c t => ?_⟩
  · rfl
  · unfold opPortOpen; simp
theorem opPortClose_keeps : opPortClose.Keeps := by
  refine ⟨fun c n t => ?_, fun c t => ?_⟩
  · rfl
  · unfold opPortClose; simp
theorem opPortSet_keeps : opPortSet.Keeps := by
  refine ⟨fun c n t => ?_, fun c t => ?_⟩
  · rfl
  · unfold opPortSet; simp
theorem opFieldOn_keeps : opFieldOn.Keeps := by
  refine ⟨fun c n t => ?_, fun c t => ?_⟩
  · rfl
  · unfold opFieldOn; simp
theorem opFieldOff_keeps : opFieldOff.Keeps := by
  refine ⟨fun c n t => ?_, fun c t => ?_⟩
  · rfl
  · unfold opFieldOff; simp
theorem opGrateSelect_keeps : opGrateSelect.Keeps := by
  refine ⟨fun c n t => ?_, fun c t => ?_⟩
  · rfl
  · unfold opGrateSelect; simp
theorem opPortReset_keeps : opPortReset.Keeps := by
  refine ⟨fun c n t => ?_, fun c t => ?_⟩
  · rfl
  · unfold opPortReset; simp
theorem opPortGet_keeps : opPortGet.Keeps := by
  refine ⟨fun c n t => ?_, fun c t => ?_⟩
  · rfl
  · unfold opPortGet; simp
theorem opPortStatus_keeps : opPortStatus.Keeps := by
  refine ⟨fun c n t => ?_, fun c t => ?_⟩
  · rfl
  · rfl
theorem opGroupSet_keeps : opGroupSet.Keeps := by
  refine ⟨fun c n t => ?_, fun c t => ?_⟩
  · rfl
  · unfold opGroupSet; simp
theorem opGroupQuery_keeps : opGroupQuery.Keeps := by
  refine ⟨fun c n t => ?_, fun c t => ?_⟩
  · rfl
  · unfold opGroupQuery; simp
theorem opTransceive_keeps : opTransceive.Keeps := by
  refine ⟨fun c n t => ?_, fun c t => ?_⟩
  · rfl
  · unfold opTransceive; simp
theorem opAActivate_keeps : opAActivate.Keeps := by
  refine ⟨fun c n t => ?_, fun c t => ?_⟩
  · rfl
  · unfold opAActivate; simp
theorem opBActivate_keeps : opBActivate.Keeps := by
  refine ⟨fun c n t => ?_, fun c t => ?_⟩
  · rfl
  · unfold opBActivate; simp
theorem opApdu_keeps : opApdu.Keeps := by
  refine ⟨fun c n t => ?_, fun c t => ?_⟩
  · rfl
  · unfold opApdu; simp
theorem opDeselect_keeps : opDeselect.Keeps := by
  refine ⟨fun c n t => ?_, fun c t => ?_⟩
  · rfl
  · unfold opDeselect; simp
theorem opVhbrParams_keeps : opVhbrParams.Keeps := by
  refine ⟨fun c n t => ?_, fun c t => ?_⟩
  · rfl
  · unfold opVhbrParams; simp
theorem opVCmd_keeps : opVCmd.Keeps := by
  refine ⟨fun c n t => ?_, fun c t => ?_⟩
  · rfl
  · unfold opVCmd; simp
theorem opInvConfig_keeps : opInvConfig.Keeps := by
  refine ⟨fun c n t => ?_, fun c t => ?_⟩
  · rfl
  · unfold opInvConfig; simp
theorem opInvStart_keeps : opInvStart.Keeps := by
  refine ⟨fun c n t => ?_, fun c t => ?_⟩
  · rfl
  · unfold opInvStart; simp
theorem opInvStop_keeps : opInvStop.Keeps := by
  refine ⟨fun c n t => ?_, fun c t => ?_⟩
  · rfl
  · rfl
theorem opInvQuery_keeps : opInvQuery.Keeps := by
  refine ⟨fun c n t => ?_, fun c t => ?_⟩
  · rfl
  · rfl
theorem opTtRead_keeps : opTtRead.Keeps := by
  refine ⟨fun c n t => ?_, fun c t => ?_⟩
  · rfl
  · unfold opTtRead; simp
theorem opTtFind_keeps : opTtFind.Keeps := by
  refine ⟨fun c n t => ?_, fun c t => ?_⟩
  · rfl
  · unfold opTtFind; simp
theorem opTtDelete_keeps : opTtDelete.Keeps := by
  refine ⟨fun c n t => ?_, fun c t => ?_⟩
  · rfl
  · unfold opTtDelete; simp
theorem opTtClear_keeps : opTtClear.Keeps := by
  refine ⟨fun c n t => ?_, fun c t => ?_⟩
  · rfl
  · rfl
theorem opTtSetFlags_keeps : opTtSetFlags.Keeps := by
  refine ⟨fun c n t => ?_, fun c t => ?_⟩
  · rfl
  · unfold opTtSetFlags; simp
theorem opTtConfig_keeps : opTtConfig.Keeps := by
  refine ⟨fun c n t => ?_, fun c t => ?_⟩
  · rfl
  · unfold opTtConfig; simp
theorem opAlScan_keeps : opAlScan.Keeps := by
  refine ⟨fun c n t => ?_, fun c t => ?_⟩
  · rfl
  · unfold opAlScan; simp
theorem opAlSelect_keeps : opAlSelect.Keeps := by
  refine ⟨fun c n t => ?_, fun c t => ?_⟩
  · rfl
  · unfold opAlSelect; simp
theorem opAlHalt_keeps : opAlHalt.Keeps := by
  refine ⟨fun c n t => ?_, fun c t => ?_⟩
  · rfl
  · unfold opAlHalt; simp
theorem opAlRead_keeps : opAlRead.Keeps := by
  refine ⟨fun c n t => ?_, fun c t => ?_⟩
  · rfl
  · unfold opAlRead; simp
theorem opAlWrite_keeps : opAlWrite.Keeps := by
  refine ⟨fun c n t => ?_, fun c t => ?_⟩
  · rfl
  · unfold opAlWrite; simp
theorem opAlLockBlock_keeps : opAlLockBlock.Keeps := by
  refine ⟨fun c n t => ?_, fun c t => ?_⟩
  · rfl
  · unfold opAlLockBlock; simp
theorem opAlAreaInfo_keeps : opAlAreaInfo.Keeps := by
  refine ⟨fun c n t => ?_, fun c t => ?_⟩
  · rfl
  · unfold opAlAreaInfo; simp
theorem opAlAuthPwd_keeps : opAlAuthPwd.Keeps := by
  refine ⟨fun c n t => ?_, fun c t => ?_⟩
  · rfl
  · unfold opAlAuthPwd; simp
theorem opAlSetPwd_keeps : opAlSetPwd.Keeps := by
  refine ⟨fun c n t => ?_, fun c t => ?_⟩
  · rfl
  · unfold opAlSetPwd; simp
theorem opAlUnlock_keeps : opAlUnlock.Keeps := by
  refine ⟨fun c n t => ?_, fun c t => ?_⟩
  · rfl
  · unfold opAlUnlock; simp
theorem opAlReadCnt_keeps : opAlReadCnt.Keeps := by
  refine ⟨fun c n t => ?_, fun c t => ?_⟩
  · rfl
  · unfold opAlReadCnt; simp
theorem opAlIncCnt_keeps : opAlIncCnt.Keeps := by
  refine ⟨fun c n t => ?_, fun c t => ?_⟩
  · rfl
  · unfold opAlIncCnt; simp
theorem opOsGetId_keeps : opOsGetId.Keeps := by
  refine ⟨fun c n t => ?_, fun c t => ?_⟩
  · rfl
  · unfold opOsGetId; simp
theorem opOsReadPage_keeps : opOsReadPage.Keeps := by
  refine ⟨fun c n t => ?_, fun c t => ?_⟩
  · rfl
  · unfold opOsReadPage; simp
theorem opOsWritePage_keeps : opOsWritePage.Keeps := by
  refine ⟨fun c n t => ?_, fun c t => ?_⟩
  · rfl
  · unfold opOsWritePage; simp
theorem opOsLogin_keeps : opOsLogin.Keeps := by
  refine ⟨fun c n t => ?_, fun c t => ?_⟩
  · rfl
  · unfold opOsLogin; simp
theorem opOsLogout_keeps : opOsLogout.Keeps := by
  refine ⟨fun c n t => ?_, fun c t => ?_⟩
  · rfl
  · unfold opOsLogout; simp
theorem opOsSetPassword_keeps : opOsSetPassword.Keeps := by
  refine ⟨fun c n t => ?_, fun c t => ?_⟩
  · rfl
  · unfold opOsSetPassword; simp
theorem opOsLockPage_keeps : opOsLockPage.Keeps := by
  refine ⟨fun c n t => ?_, fun c t => ?_⟩
  · rfl
  · unfold opOsLockPage; simp
theorem opDbRun_keeps : opDbRun.Keeps := by
  refine ⟨fun c n t => ?_, fun c t => ?_⟩
  · rfl
  · unfold opDbRun; simp
theorem opDbCal_keeps : opDbCal.Keeps := by
  refine ⟨fun c n t => ?_, fun c t => ?_⟩
  · rfl
  · unfold opDbCal; simp
theorem opDbConfig_keeps : opDbConfig.Keeps := by
  refine ⟨fun c n t => ?_, fun c t => ?_⟩
  · rfl
  · unfold opDbConfig; simp
theorem opXpdrConfig_keeps : opXpdrConfig.Keeps := by
  refine ⟨fun c n t => ?_, fun c t => ?_⟩
  · rfl
  · unfold opXpdrConfig; simp
theorem opXpdrAreaSet_keeps : opXpdrAreaSet.Keeps := by
  refine ⟨fun c n t => ?_, fun c t => ?_⟩
  · rfl
  · unfold opXpdrAreaSet; simp
theorem opXpdrRead_keeps : opXpdrRead.Keeps := by
  refine ⟨fun c n t => ?_, fun c t => ?_⟩
  · rfl
  · unfold opXpdrRead; simp
theorem opXpdrWrite_keeps : opXpdrWrite.Keeps := by
  refine ⟨fun c n t => ?_, fun c t => ?_⟩
  · rfl
  · unfold opXpdrWrite; simp
theorem opXpdrCntRead_keeps : opXpdrCntRead.Keeps := by
  refine ⟨fun c n t => ?_, fun c t => ?_⟩
  · rfl
  · unfold opXpdrCntRead; simp
theorem opXpdrCntInc_keeps : opXpdrCntInc.Keeps := by
  refine ⟨fun c n t => ?_, fun c t => ?_⟩
  · rfl
  · unfold opXpdrCntInc; simp
theorem opXpdrAreaInfo_keeps : opXpdrAreaInfo.Keeps := by
  refine ⟨fun c n t => ?_, fun c t => ?_⟩
  · rfl
  · unfold opXpdrAreaInfo; simp
theorem opXpdrUnlock_keeps : opXpdrUnlock.Keeps := by
  refine ⟨fun c n t => ?_, fun c t => ?_⟩
  · rfl
  · unfold opXpdrUnlock; simp
theorem opXpdrStatus_keeps : opXpdrStatus.Keeps := by
  refine ⟨fun c n t => ?_, fun c t => ?_⟩
  · rfl
  · rfl
theorem opCalRun_keeps : opCalRun.Keeps := by
  refine ⟨fun c n t => ?_, fun c t => ?_⟩
  · rfl
  · unfold opCalRun; simp
theorem opCalExport_keeps : opCalExport.Keeps := by
  refine ⟨fun c n t => ?_, fun c t => ?_⟩
  · rfl
  · rfl
theorem opCalImport_keeps : opCalImport.Keeps := by
  refine ⟨fun c n t => ?_, fun c t => ?_⟩
  · rfl
  · unfold opCalImport; simp
theorem opCalCoupling_keeps : opCalCoupling.Keeps := by
  refine ⟨fun c n t => ?_, fun c t => ?_⟩
  · rfl
  · unfold opCalCoupling; simp
theorem opCalConfig_keeps : opCalConfig.Keeps := by
  refine ⟨fun c n t => ?_, fun c t => ?_⟩
  · rfl
  · unfold opCalConfig; simp
theorem opCalStatus_keeps : opCalStatus.Keeps := by
  refine ⟨fun c n t => ?_, fun c t => ?_⟩
  · rfl
  · rfl
theorem opPwrEnter_keeps : opPwrEnter.Keeps := by
  refine ⟨fun c n t => ?_, fun c t => ?_⟩
  · rfl
  · unfold opPwrEnter; simp
theorem opWakeConfig_keeps : opWakeConfig.Keeps := by
  refine ⟨fun c n t => ?_, fun c t => ?_⟩
  · rfl
  · unfold opWakeConfig; simp
theorem opEmberConfig_keeps : opEmberConfig.Keeps := by
  refine ⟨fun c n t => ?_, fun c t => ?_⟩
  · rfl
  · unfold opEmberConfig; simp
theorem opPwrStatus_keeps : opPwrStatus.Keeps := by
  refine ⟨fun c n t => ?_, fun c t => ?_⟩
  · rfl
  · rfl
theorem opKeyInfo_keeps : opKeyInfo.Keeps := by
  refine ⟨fun c n t => ?_, fun c t => ?_⟩
  · rfl
  · unfold opKeyInfo; simp
theorem opKeyGen_keeps : opKeyGen.Keeps := by
  refine ⟨fun c n t => ?_, fun c t => ?_⟩
  · rfl
  · unfold opKeyGen; simp
theorem opKeyImport_keeps : opKeyImport.Keeps := by
  refine ⟨fun c n t => ?_, fun c t => ?_⟩
  · rfl
  · unfold opKeyImport; simp
theorem opKeyExport_keeps : opKeyExport.Keeps := by
  refine ⟨fun c n t => ?_, fun c t => ?_⟩
  · rfl
  · unfold opKeyExport; simp
theorem opKeyDelete_keeps : opKeyDelete.Keeps := by
  refine ⟨fun c n t => ?_, fun c t => ?_⟩
  · rfl
  · unfold opKeyDelete; simp
theorem opKilnRandom_keeps : opKilnRandom.Keeps := by
  refine ⟨fun c n t => ?_, fun c t => ?_⟩
  · rfl
  · unfold opKilnRandom; simp
theorem opKilnSign_keeps : opKilnSign.Keeps := by
  refine ⟨fun c n t => ?_, fun c t => ?_⟩
  · rfl
  · unfold opKilnSign; simp
theorem opKilnChallenge_keeps : opKilnChallenge.Keeps := by
  refine ⟨fun c n t => ?_, fun c t => ?_⟩
  · rfl
  · unfold opKilnChallenge; simp
theorem opDebugUnlock_keeps : opDebugUnlock.Keeps := by
  refine ⟨fun c n t => ?_, fun c t => ?_⟩
  · rfl
  · unfold opDebugUnlock; simp
theorem opImageLoad_keeps : opImageLoad.Keeps := by
  refine ⟨fun c n t => ?_, fun c t => ?_⟩
  · rfl
  · rfl
theorem opImageInfo_keeps : opImageInfo.Keeps := by
  refine ⟨fun c n t => ?_, fun c t => ?_⟩
  · rfl
  · rfl
theorem opImageActivate_keeps : opImageActivate.Keeps := by
  refine ⟨fun c n t => ?_, fun c t => ?_⟩
  · rfl
  · unfold opImageActivate; simp
theorem opEngineReload_keeps : opEngineReload.Keeps := by
  refine ⟨fun c n t => ?_, fun c t => ?_⟩
  · rfl
  · unfold opEngineReload; simp
theorem opDiagCounters_keeps : opDiagCounters.Keeps := by
  refine ⟨fun c n t => ?_, fun c t => ?_⟩
  · rfl
  · unfold opDiagCounters; simp
theorem opPortIsolate_keeps : opPortIsolate.Keeps := by
  refine ⟨fun c n t => ?_, fun c t => ?_⟩
  · rfl
  · unfold opPortIsolate; simp
theorem opTmrConfig_keeps : opTmrConfig.Keeps := by
  refine ⟨fun c n t => ?_, fun c t => ?_⟩
  · rfl
  · unfold opTmrConfig; simp
theorem opTmrArm_keeps : opTmrArm.Keeps := by
  refine ⟨fun c n t => ?_, fun c t => ?_⟩
  · rfl
  · unfold opTmrArm; simp
theorem opTmrRead_keeps : opTmrRead.Keeps := by
  refine ⟨fun c n t => ?_, fun c t => ?_⟩
  · rfl
  · unfold opTmrRead; simp
theorem opTimebaseRead_keeps : opTimebaseRead.Keeps := by
  refine ⟨fun c n t => ?_, fun c t => ?_⟩
  · rfl
  · rfl
theorem opGpioConfig_keeps : opGpioConfig.Keeps := by
  refine ⟨fun c n t => ?_, fun c t => ?_⟩
  · rfl
  · unfold opGpioConfig; simp
theorem opGpioWrite_keeps : opGpioWrite.Keeps := by
  refine ⟨fun c n t => ?_, fun c t => ?_⟩
  · rfl
  · unfold opGpioWrite; simp
theorem opGpioRead_keeps : opGpioRead.Keeps := by
  refine ⟨fun c n t => ?_, fun c t => ?_⟩
  · rfl
  · rfl
theorem opDbgRead_keeps : opDbgRead.Keeps := by
  refine ⟨fun c n t => ?_, fun c t => ?_⟩
  · rfl
  · unfold opDbgRead; simp
theorem opDbgWrite_keeps : opDbgWrite.Keeps := by
  refine ⟨fun c n t => ?_, fun c t => ?_⟩
  · rfl
  · unfold opDbgWrite; simp
theorem opDbgEngine_keeps : opDbgEngine.Keeps := by
  refine ⟨fun c n t => ?_, fun c t => ?_⟩
  · rfl
  · unfold opDbgEngine; simp
theorem ops00_keeps : ∀ o ∈ ops00, o.Keeps := by
  unfold ops00
  simp only [List.forall_mem_cons]
  exact ⟨opInfo_keeps, opIdent_keeps, opDevReset_keeps, opGetLog_keeps, opHostConfig_keeps, opHostStatus_keeps, opOwnClaim_keeps, opOwnRelease_keeps, opOwnQuery_keeps, opKindlingScan_keeps, by simp⟩
theorem ops01_keeps : ∀ o ∈ ops01, o.Keeps := by
  unfold ops01
  simp only [List.forall_mem_cons]
  exact ⟨opPortOpen_keeps, opPortClose_keeps, opPortSet_keeps, opFieldOn_keeps, opFieldOff_keeps, opGrateSelect_keeps, opPortReset_keeps, opPortGet_keeps, opPortStatus_keeps, opGroupSet_keeps, opGroupQuery_keeps, by simp⟩
theorem ops02_keeps : ∀ o ∈ ops02, o.Keeps := by
  unfold ops02
  simp only [List.forall_mem_cons]
  exact ⟨opTransceive_keeps, opAActivate_keeps, opBActivate_keeps, opApdu_keeps, opDeselect_keeps, opVhbrParams_keeps, opVCmd_keeps, by simp⟩
theorem ops03_keeps : ∀ o ∈ ops03, o.Keeps := by
  unfold ops03
  simp only [List.forall_mem_cons]
  exact ⟨opInvConfig_keeps, opInvStart_keeps, opInvStop_keeps, opInvQuery_keeps, opTtRead_keeps, opTtFind_keeps, opTtDelete_keeps, opTtClear_keeps, opTtSetFlags_keeps, opTtConfig_keeps, by simp⟩
theorem ops04_keeps : ∀ o ∈ ops04, o.Keeps := by
  unfold ops04
  simp only [List.forall_mem_cons]
  exact ⟨opAlScan_keeps, opAlSelect_keeps, opAlHalt_keeps, opAlRead_keeps, opAlWrite_keeps, opAlLockBlock_keeps, opAlAreaInfo_keeps, opAlAuthPwd_keeps, opAlSetPwd_keeps, opAlUnlock_keeps, opAlReadCnt_keeps, opAlIncCnt_keeps, opOsGetId_keeps, opOsReadPage_keeps, opOsWritePage_keeps, opOsLogin_keeps, opOsLogout_keeps, opOsSetPassword_keeps, opOsLockPage_keeps, by simp⟩
theorem ops05_keeps : ∀ o ∈ ops05, o.Keeps := by
  unfold ops05
  simp only [List.forall_mem_cons]
  exact ⟨opDbRun_keeps, opDbCal_keeps, opDbConfig_keeps, by simp⟩
theorem ops06_keeps : ∀ o ∈ ops06, o.Keeps := by
  unfold ops06
  simp only [List.forall_mem_cons]
  exact ⟨opXpdrConfig_keeps, opXpdrAreaSet_keeps, opXpdrRead_keeps, opXpdrWrite_keeps, opXpdrCntRead_keeps, opXpdrCntInc_keeps, opXpdrAreaInfo_keeps, opXpdrUnlock_keeps, opXpdrStatus_keeps, by simp⟩
theorem ops07_keeps : ∀ o ∈ ops07, o.Keeps := by
  unfold ops07
  simp only [List.forall_mem_cons]
  exact ⟨opCalRun_keeps, opCalExport_keeps, opCalImport_keeps, opCalCoupling_keeps, opCalConfig_keeps, opCalStatus_keeps, by simp⟩
theorem ops08_keeps : ∀ o ∈ ops08, o.Keeps := by
  unfold ops08
  simp only [List.forall_mem_cons]
  exact ⟨opPwrEnter_keeps, opWakeConfig_keeps, opEmberConfig_keeps, opPwrStatus_keeps, by simp⟩
theorem ops09_keeps : ∀ o ∈ ops09, o.Keeps := by
  unfold ops09
  simp only [List.forall_mem_cons]
  exact ⟨opKeyInfo_keeps, opKeyGen_keeps, opKeyImport_keeps, opKeyExport_keeps, opKeyDelete_keeps, opKilnRandom_keeps, opKilnSign_keeps, opKilnChallenge_keeps, opDebugUnlock_keeps, by simp⟩
theorem ops0A_keeps : ∀ o ∈ ops0A, o.Keeps := by
  unfold ops0A
  simp only [List.forall_mem_cons]
  exact ⟨opImageLoad_keeps, opImageInfo_keeps, opImageActivate_keeps, opEngineReload_keeps, opDiagCounters_keeps, opPortIsolate_keeps, by simp⟩
theorem ops0B_keeps : ∀ o ∈ ops0B, o.Keeps := by
  unfold ops0B
  simp only [List.forall_mem_cons]
  exact ⟨opTmrConfig_keeps, opTmrArm_keeps, opTmrRead_keeps, opTimebaseRead_keeps, opGpioConfig_keeps, opGpioWrite_keeps, opGpioRead_keeps, by simp⟩
theorem ops0F_keeps : ∀ o ∈ ops0F, o.Keeps := by
  unfold ops0F
  simp only [List.forall_mem_cons]
  exact ⟨opDbgRead_keeps, opDbgWrite_keeps, opDbgEngine_keeps, by simp⟩
theorem allOps_keeps : ∀ o ∈ allOps, o.Keeps := by
  unfold allOps
  simp only [List.forall_mem_append]
  exact ⟨⟨⟨⟨⟨⟨⟨⟨⟨⟨⟨⟨ops00_keeps, ops01_keeps⟩, ops02_keeps⟩, ops03_keeps⟩, ops04_keeps⟩, ops05_keeps⟩, ops06_keeps⟩, ops07_keeps⟩, ops08_keeps⟩, ops09_keeps⟩, ops0A_keeps⟩, ops0B_keeps⟩, ops0F_keeps⟩

theorem opOf_keeps {code : Half} {o : Op} (h : opOf code = some o) : o.Keeps :=
  allOps_keeps o (List.mem_of_find?_eq_some h)

theorem hostOp_keeps {i : Instr} {o : Op} {h : HostCmd} (e : hostOp i = some (o, h)) : o.Keeps := by
  cases i <;> simp only [hostOp, reduceCtorEq, Option.some.injEq, Prod.mk.injEq] at e <;> (obtain ⟨rfl, rfl⟩ := e)
  · exact opInfo_keeps
  · exact opIdent_keeps
  · exact opDevReset_keeps
  · exact opGetLog_keeps
  · exact opHostConfig_keeps
  · exact opHostStatus_keeps
  · exact opOwnClaim_keeps
  · exact opOwnRelease_keeps
  · exact opOwnQuery_keeps
  · exact opKindlingScan_keeps
  · exact opPortOpen_keeps
  · exact opPortClose_keeps
  · exact opPortSet_keeps
  · exact opFieldOn_keeps
  · exact opFieldOff_keeps
  · exact opGrateSelect_keeps
  · exact opPortReset_keeps
  · exact opPortGet_keeps
  · exact opPortStatus_keeps
  · exact opGroupSet_keeps
  · exact opGroupQuery_keeps
  · exact opTransceive_keeps
  · exact opAActivate_keeps
  · exact opBActivate_keeps
  · exact opApdu_keeps
  · exact opDeselect_keeps
  · exact opVhbrParams_keeps
  · exact opVCmd_keeps
  · exact opInvConfig_keeps
  · exact opInvStart_keeps
  · exact opInvStop_keeps
  · exact opInvQuery_keeps
  · exact opTtRead_keeps
  · exact opTtFind_keeps
  · exact opTtDelete_keeps
  · exact opTtClear_keeps
  · exact opTtSetFlags_keeps
  · exact opTtConfig_keeps
  · exact opAlScan_keeps
  · exact opAlSelect_keeps
  · exact opAlHalt_keeps
  · exact opAlRead_keeps
  · exact opAlWrite_keeps
  · exact opAlLockBlock_keeps
  · exact opAlAreaInfo_keeps
  · exact opAlAuthPwd_keeps
  · exact opAlSetPwd_keeps
  · exact opAlUnlock_keeps
  · exact opAlReadCnt_keeps
  · exact opAlIncCnt_keeps
  · exact opOsGetId_keeps
  · exact opOsReadPage_keeps
  · exact opOsWritePage_keeps
  · exact opOsLogin_keeps
  · exact opOsLogout_keeps
  · exact opOsSetPassword_keeps
  · exact opOsLockPage_keeps
  · exact opDbRun_keeps
  · exact opDbCal_keeps
  · exact opDbConfig_keeps
  · exact opXpdrConfig_keeps
  · exact opXpdrAreaSet_keeps
  · exact opXpdrRead_keeps
  · exact opXpdrWrite_keeps
  · exact opXpdrCntRead_keeps
  · exact opXpdrCntInc_keeps
  · exact opXpdrAreaInfo_keeps
  · exact opXpdrUnlock_keeps
  · exact opXpdrStatus_keeps
  · exact opCalRun_keeps
  · exact opCalExport_keeps
  · exact opCalImport_keeps
  · exact opCalCoupling_keeps
  · exact opCalConfig_keeps
  · exact opCalStatus_keeps
  · exact opPwrEnter_keeps
  · exact opWakeConfig_keeps
  · exact opEmberConfig_keeps
  · exact opPwrStatus_keeps
  · exact opKeyInfo_keeps
  · exact opKeyGen_keeps
  · exact opKeyImport_keeps
  · exact opKeyExport_keeps
  · exact opKeyDelete_keeps
  · exact opKilnRandom_keeps
  · exact opKilnSign_keeps
  · exact opKilnChallenge_keeps
  · exact opDebugUnlock_keeps
  · exact opImageLoad_keeps
  · exact opImageInfo_keeps
  · exact opImageActivate_keeps
  · exact opEngineReload_keeps
  · exact opDiagCounters_keeps
  · exact opPortIsolate_keeps
  · exact opTmrConfig_keeps
  · exact opTmrArm_keeps
  · exact opTmrRead_keeps
  · exact opTimebaseRead_keeps
  · exact opGpioConfig_keeps
  · exact opGpioWrite_keeps
  · exact opGpioRead_keeps
  · exact opDbgRead_keeps
  · exact opDbgWrite_keeps
  · exact opDbgEngine_keeps

@[simp] theorem State.runLocked_durable (s : State) (r : Running) : (s.runLocked r).durable = s.durable := by
  unfold State.runLocked
  split
  · rename_i heq; exact (opOf_keeps heq).2 _ _
  · rfl

theorem decideRaw_durable (x : Contest × State) (c : Cmd) : (decideRaw x c).2.durable = x.2.durable := by
  unfold decideRaw
  split
  · exact State.decideCmd_durable _ _ _ _ (fun o h => opOf_keeps h)
  · simp

@[simp] theorem State.decideLanded_durable (s : State) : s.decideLanded.durable = s.durable := by
  unfold State.decideLanded
  dsimp only
  have key : ∀ (l : List Cmd) (x : Contest × State), (l.foldl decideRaw x).2.durable = x.2.durable := by
    intro l
    induction l with
    | nil => intro x; rfl
    | cons a l ih => intro x; rw [List.foldl_cons, ih, decideRaw_durable]
  rw [key]
  exact foldl_durable (fun (t : State) (c : Cmd) => t.modHost c.hp fun h => { h with landed := [] }) (fun t a => rfl) _ _

/-! ## What a step may do to the log -/

/-- A record committed, on what survives a reset. -/
def commitTo (d : List AshRec × List Byte × Nat × Nat) (i : AshItem) : List AshRec × List Byte × Nat × Nat :=
  let (log, anchor, seq, sec) := d
  let last := match log.getLast? with
    | some r => r.chain
    | none => Config.sha256 (Config.p256Public Config.deviceKey)
  let full := 4096 ≤ log.length
  ((if full then log.drop 1 else log) ++ [⟨ashBody seq i, Config.sha256 (last ++ ashBody seq i)⟩],
    if full then (log.head?.map (·.chain)).getD [] else anchor, seq + 1, sec)

theorem State.ashCommit_durable (s : State) (i : AshItem) : (s.ashCommit i).durable = commitTo s.durable i := rfl

/-- Nothing but commits of the log and raises of SECVER leads from one to the other. -/
def Grows (s t : State) : Prop :=
  ∃ (l : List AshItem) (v : Nat), s.kiln.secver ≤ v ∧
    t.durable = ((l.foldl commitTo s.durable).1, (l.foldl commitTo s.durable).2.1, (l.foldl commitTo s.durable).2.2.1, v)

theorem commitTo_secver (l : List AshItem) (d : List AshRec × List Byte × Nat × Nat) : (l.foldl commitTo d).2.2.2 = d.2.2.2 := by
  induction l generalizing d with
  | nil => rfl
  | cons a l ih => rw [List.foldl_cons, ih]; rfl

theorem Grows.of_keep {s t : State} (h : t.durable = s.durable) : Grows s t := ⟨[], s.kiln.secver, le_refl _, h⟩
theorem Grows.refl (s : State) : Grows s s := Grows.of_keep rfl
theorem Grows.commit (s : State) (i : AshItem) : Grows s (s.ashCommit i) := ⟨[i], s.kiln.secver, le_refl _, rfl⟩
theorem commitTo_sec (l : List AshItem) (d : List AshRec × List Byte × Nat × Nat) (v : Nat) :
    l.foldl commitTo (d.1, d.2.1, d.2.2.1, v) = ((l.foldl commitTo d).1, (l.foldl commitTo d).2.1, (l.foldl commitTo d).2.2.1, v) := by
  induction l generalizing d with
  | nil => rfl
  | cons a l ih =>
    rw [List.foldl_cons, List.foldl_cons]
    exact ih (commitTo d a)
theorem Grows.trans {s t u : State} (h : Grows s t) (k : Grows t u) : Grows s u := by
  obtain ⟨l, v, h1, h2⟩ := h
  obtain ⟨m, w, k1, k2⟩ := k
  have hv : t.kiln.secver = v := congrArg (fun d => d.2.2.2) h2
  refine ⟨l ++ m, w, by omega, ?_⟩
  rw [k2, h2, List.foldl_append, commitTo_sec]
theorem Grows.keep {s t u : State} (h : Grows s t) (k : u.durable = t.durable) : Grows s u := h.trans (Grows.of_keep k)
theorem Grows.run {f : State → State} {s t : State} (h : run f s = .next t) (g : Grows s (f s)) : Grows s t := by
  rw [run_eq_next h]
  exact g.keep ((durable_pending _ _).trans (State.flush_durable _))

theorem ite_eq_of {c : Prop} [Decidable c] {a b : State} {d : List AshRec × List Byte × Nat × Nat} (h : a.durable = d) (k : b.durable = d) :
    (if c then a else b).durable = d := by split <;> assumption
theorem ite_keep {c : Prop} [Decidable c] (f : State → State) (b : State) (h : ∀ s, (f s).durable = s.durable) :
    (if c then f b else b).durable = b.durable := by split <;> simp [h]

/-- A meaning that keeps what is durable. -/
def Keeping (i : Instr) : Prop := ∃ f, exec i = run f ∧ ∀ s, (f s).durable = s.durable
theorem hostOp_keeping {i : Instr} {o : Op} {h : HostCmd} (e : hostOp i = some (o, h)) : Keeping i :=
  ⟨_, hostOp_exec e, fun s => (State.hostRow_durable _ _ _ (hostOp_keeps e)).trans (State.decideLanded_durable s)⟩
theorem devResetFire_keeping : Keeping (.devResetFire ) := by
  intros; refine ⟨_, rfl, fun s => ?_⟩
  simp
theorem spiCsFall_keeping : ∀ hp, Keeping (.spiCsFall hp) := by
  intros; refine ⟨_, rfl, fun s => ?_⟩
  simp
theorem spiWrite_keeping : ∀ hp bytes, Keeping (.spiWrite hp bytes) := by
  intros; refine ⟨_, rfl, fun s => ?_⟩
  simp
theorem spiRead_keeping : ∀ hp count, Keeping (.spiRead hp count) := by
  intros; refine ⟨_, rfl, fun s => ?_⟩
  simp
theorem spiStatus_keeping : ∀ hp, Keeping (.spiStatus hp) := by
  intros; refine ⟨_, rfl, fun s => ?_⟩
  simp
theorem spiInvalidTransfer_keeping : ∀ hp transfer count, Keeping (.spiInvalidTransfer hp transfer count) := by
  intros; refine ⟨_, rfl, fun s => ?_⟩
  simp
theorem spiCsRise_keeping : ∀ hp, Keeping (.spiCsRise hp) := by
  intros; refine ⟨_, rfl, fun s => ?_⟩
  simp
theorem uartByteReceived_keeping : ∀ b, Keeping (.uartByteReceived b) := by
  intros; refine ⟨_, rfl, fun s => ?_⟩
  simp
theorem uartGapTimeout_keeping : Keeping (.uartGapTimeout ) := by
  intros; refine ⟨_, rfl, fun s => ?_⟩
  simp
theorem uartBreak_keeping : Keeping (.uartBreak ) := by
  intros; refine ⟨_, rfl, fun s => ?_⟩
  simp
theorem uartByteSent_keeping : Keeping (.uartByteSent ) := by
  intros; refine ⟨_, rfl, fun s => ?_⟩
  simp
theorem i2cAddressMatch_keeping : ∀ isRead, Keeping (.i2cAddressMatch isRead) := by
  intros; refine ⟨_, rfl, fun s => ?_⟩
  simp
theorem i2cWriteByte_keeping : ∀ b, Keeping (.i2cWriteByte b) := by
  intros; refine ⟨_, rfl, fun s => ?_⟩
  simp
theorem i2cReadByte_keeping : Keeping (.i2cReadByte ) := by
  intros; refine ⟨_, rfl, fun s => ?_⟩
  simp
theorem i2cStop_keeping : Keeping (.i2cStop ) := by
  intros; refine ⟨_, rfl, fun s => ?_⟩
  simp
theorem tickDecide_keeping : Keeping (.tickDecide ) := by
  intros; refine ⟨_, rfl, fun s => ?_⟩
  simp
theorem chainSegment_keeping : ∀ h opcode, Keeping (.chainSegment h opcode) := by
  intro h opcode
  refine ⟨_, rfl, fun s => ?_⟩
  exact (State.hostPacket_durable _ _ _ _ (fun o e => opOf_keeps e)).trans (State.decideLanded_durable s)
theorem chainAbort_keeping : ∀ h opcode, Keeping (.chainAbort h opcode) := by
  intro h opcode
  refine ⟨_, rfl, fun s => ?_⟩
  exact (State.hostPacket_durable _ _ _ _ (fun o e => opOf_keeps e)).trans (State.decideLanded_durable s)
theorem chainExpiry_keeping : ∀ hp target, Keeping (.chainExpiry hp target) := by
  intros; refine ⟨_, rfl, fun s => ?_⟩
  (repeat' split) <;> first | rfl | (simp; done) | (simp_all; done)
theorem hostTakesPacket_keeping : ∀ hp, Keeping (.hostTakesPacket hp) := by
  intros; refine ⟨_, rfl, fun s => ?_⟩
  simp
theorem responseNextPacket_keeping : ∀ hp, Keeping (.responseNextPacket hp) := by
  intros; refine ⟨_, rfl, fun s => ?_⟩
  simp
theorem gpioPinChange_keeping : ∀ pin level, Keeping (.gpioPinChange pin level) := by
  intros; refine ⟨_, rfl, fun s => ?_⟩
  simp
theorem txctlFieldEnWrite_keeping : ∀ p value, Keeping (.txctlFieldEnWrite p value) := by
  intros; refine ⟨_, rfl, fun s => ?_⟩
  simp
theorem fieldRampStart_keeping : ∀ p, Keeping (.fieldRampStart p) := by
  intros; refine ⟨_, rfl, fun s => ?_⟩
  simp
theorem fieldRampUpDone_keeping : ∀ p, Keeping (.fieldRampUpDone p) := by
  intros; refine ⟨_, rfl, fun s => ?_⟩
  simp
theorem fieldRampDownDone_keeping : ∀ p, Keeping (.fieldRampDownDone p) := by
  intros; refine ⟨_, rfl, fun s => ?_⟩
  simp
theorem txphaseWrite_keeping : ∀ p phase, Keeping (.txphaseWrite p phase) := by
  intros; refine ⟨_, rfl, fun s => ?_⟩
  simp
theorem phaseApply_keeping : ∀ p, Keeping (.phaseApply p) := by
  intros; refine ⟨_, rfl, fun s => ?_⟩
  simp
theorem ampApply_keeping : ∀ p, Keeping (.ampApply p) := by
  intros; refine ⟨_, rfl, fun s => ?_⟩
  simp
theorem ampRampDone_keeping : ∀ p, Keeping (.ampRampDone p) := by
  intros; refine ⟨_, rfl, fun s => ?_⟩
  simp
theorem txampLock_keeping : ∀ p, Keeping (.txampLock p) := by
  intros; refine ⟨_, rfl, fun s => ?_⟩
  simp
theorem shortFault_keeping : ∀ p, Keeping (.shortFault p) := by
  intros; refine ⟨_, rfl, fun s => ?_⟩
  simp
theorem vtxUvFault_keeping : ∀ rail, Keeping (.vtxUvFault rail) := by
  intros; refine ⟨_, rfl, fun s => ?_⟩
  simp
theorem vtxUvClear_keeping : ∀ rail, Keeping (.vtxUvClear rail) := by
  intros; refine ⟨_, rfl, fun s => ?_⟩
  rfl
theorem openFault_keeping : ∀ p, Keeping (.openFault p) := by
  intros; refine ⟨_, rfl, fun s => ?_⟩
  simp
theorem thermalTrip_keeping : ∀ dom, Keeping (.thermalTrip dom) := by
  intros; refine ⟨_, rfl, fun s => ?_⟩
  simp
theorem thermalLockoutEnd_keeping : ∀ dom, Keeping (.thermalLockoutEnd dom) := by
  intros; refine ⟨_, rfl, fun s => ?_⟩
  rfl
theorem pllUnlock_keeping : Keeping (.pllUnlock ) := by
  intros; refine ⟨_, rfl, fun s => ?_⟩
  simp
theorem pllLock_keeping : Keeping (.pllLock ) := by
  intros; refine ⟨_, rfl, fun s => ?_⟩
  simp
theorem xtalOk_keeping : Keeping (.xtalOk ) := by
  intros; refine ⟨_, rfl, fun s => ?_⟩
  simp
theorem xtalFail_keeping : Keeping (.xtalFail ) := by
  intros; refine ⟨_, rfl, fun s => ?_⟩
  simp
theorem clkctlWrite_keeping : ∀ value, Keeping (.clkctlWrite value) := by
  intros; refine ⟨_, rfl, fun s => ?_⟩
  simp
theorem thermSample_keeping : ∀ dom tj vtx, Keeping (.thermSample dom tj vtx) := by
  intros; refine ⟨_, rfl, fun s => ?_⟩
  simp
theorem dutyWindow_keeping : ∀ p onTime, Keeping (.dutyWindow p onTime) := by
  intros; refine ⟨_, rfl, fun s => ?_⟩
  simp
theorem grateWrite_keeping : ∀ p value, Keeping (.grateWrite p value) := by
  intros; refine ⟨_, rfl, fun s => ?_⟩
  simp
theorem grateShiftFrame_keeping : Keeping (.grateShiftFrame ) := by
  intros; refine ⟨_, rfl, fun s => ?_⟩
  simp
theorem grateSettleEnd_keeping : ∀ p, Keeping (.grateSettleEnd p) := by
  intros; refine ⟨_, rfl, fun s => ?_⟩
  simp
theorem frmctlApply_keeping : ∀ p, Keeping (.frmctlApply p) := by
  intros; refine ⟨_, rfl, fun s => ?_⟩
  simp
theorem rxConfigApply_keeping : ∀ p, Keeping (.rxConfigApply p) := by
  intros; refine ⟨_, rfl, fun s => ?_⟩
  simp
theorem agcWindowEnd_keeping : ∀ p peak, Keeping (.agcWindowEnd p peak) := by
  intros; refine ⟨_, rfl, fun s => ?_⟩
  simp
theorem adcOverload_keeping : ∀ p, Keeping (.adcOverload p) := by
  intros; refine ⟨_, rfl, fun s => ?_⟩
  simp
theorem dcAcqEnd_keeping : ∀ p, Keeping (.dcAcqEnd p) := by
  intros; refine ⟨_, rfl, fun s => ?_⟩
  simp
theorem noiseWindowEnd_keeping : ∀ p result quiet, Keeping (.noiseWindowEnd p result quiet) := by
  intros; refine ⟨_, rfl, fun s => ?_⟩
  simp
theorem noiseRestart_keeping : ∀ p, Keeping (.noiseRestart p) := by
  intros; refine ⟨_, rfl, fun s => ?_⟩
  simp
theorem frameGrant_keeping : ∀ p, Keeping (.frameGrant p) := by
  intros; refine ⟨_, rfl, fun s => ?_⟩
  simp
theorem holdOverride_keeping : ∀ p, Keeping (.holdOverride p) := by
  intros; refine ⟨_, rfl, fun s => ?_⟩
  simp
theorem frameSendEnd_keeping : ∀ p, Keeping (.frameSendEnd p) := by
  intros; refine ⟨_, rfl, fun s => ?_⟩
  (repeat' split) <;> first | rfl | (simp; done) | (simp_all; done)
theorem replyStart_keeping : ∀ p t, Keeping (.replyStart p t) := by
  intros; refine ⟨_, rfl, fun s => ?_⟩
  simp
theorem frameReceiveEnd_keeping : ∀ p rx, Keeping (.frameReceiveEnd p rx) := by
  intros; refine ⟨_, rfl, fun s => ?_⟩
  simp
theorem responseTimeout_keeping : ∀ p, Keeping (.responseTimeout p) := by
  intros; refine ⟨_, rfl, fun s => ?_⟩
  simp
theorem waitLimitExpiry_keeping : ∀ p, Keeping (.waitLimitExpiry p) := by
  intros; refine ⟨_, rfl, fun s => ?_⟩
  simp
theorem guardEnd_keeping : ∀ p, Keeping (.guardEnd p) := by
  intros; refine ⟨_, rfl, fun s => ?_⟩
  simp
theorem secondWindowOpen_keeping : ∀ p, Keeping (.secondWindowOpen p) := by
  intros; refine ⟨_, rfl, fun s => ?_⟩
  rfl
theorem frmstatXstart_keeping : ∀ p, Keeping (.frmstatXstart p) := by
  intros; refine ⟨_, rfl, fun s => ?_⟩
  rfl
theorem frmstatVrepP_keeping : ∀ p, Keeping (.frmstatVrepP p) := by
  intros; refine ⟨_, rfl, fun s => ?_⟩
  simp
theorem frmstatVrepX_keeping : ∀ p, Keeping (.frmstatVrepX p) := by
  intros; refine ⟨_, rfl, fun s => ?_⟩
  simp
theorem violcntRead_keeping : ∀ p, Keeping (.violcntRead p) := by
  intros; refine ⟨_, rfl, fun s => ?_⟩
  rfl
theorem schcntRead_keeping : ∀ p, Keeping (.schcntRead p) := by
  intros; refine ⟨_, rfl, fun s => ?_⟩
  rfl
theorem rapidPhaseStart_keeping : ∀ p, Keeping (.rapidPhaseStart p) := by
  intros; refine ⟨_, rfl, fun s => ?_⟩
  simp
theorem dbChallengeSlot_keeping : ∀ p sent burst, Keeping (.dbChallengeSlot p sent burst) := by
  intros; refine ⟨_, rfl, fun s => ?_⟩
  simp
theorem rapidPhaseEnd_keeping : ∀ p, Keeping (.rapidPhaseEnd p) := by
  intros; refine ⟨_, rfl, fun s => ?_⟩
  simp
theorem dbVerdict_keeping : ∀ p reply, Keeping (.dbVerdict p reply) := by
  intros; refine ⟨_, rfl, fun s => ?_⟩
  simp
theorem dbctlLock_keeping : ∀ p, Keeping (.dbctlLock p) := by
  intros; refine ⟨_, rfl, fun s => ?_⟩
  simp
theorem cplCommit_keeping : Keeping (.cplCommit ) := by
  intros; refine ⟨_, rfl, fun s => ?_⟩
  simp
theorem cplApply_keeping : ∀ p, Keeping (.cplApply p) := by
  intros; refine ⟨_, rfl, fun s => ?_⟩
  simp
theorem cplCheck_keeping : Keeping (.cplCheck ) := by
  intros; refine ⟨_, rfl, fun s => ?_⟩
  simp
theorem lkDepthBlock_keeping : ∀ p sumL sumR trims clamped, Keeping (.lkDepthBlock p sumL sumR trims clamped) := by
  intros; refine ⟨_, rfl, fun s => ?_⟩
  simp
theorem adaptResume_keeping : ∀ p, Keeping (.adaptResume p) := by
  intros; refine ⟨_, rfl, fun s => ?_⟩
  rfl
theorem groupBoundary_keeping : ∀ g, Keeping (.groupBoundary g) := by
  intros; refine ⟨_, rfl, fun s => ?_⟩
  simp
theorem invPassStart_keeping : ∀ p, Keeping (.invPassStart p) := by
  intros; refine ⟨_, rfl, fun s => ?_⟩
  simp
theorem invSlotStart_keeping : ∀ p, Keeping (.invSlotStart p) := by
  intros; refine ⟨_, rfl, fun s => ?_⟩
  simp
theorem invPassEnd_keeping : ∀ p, Keeping (.invPassEnd p) := by
  intros; refine ⟨_, rfl, fun s => ?_⟩
  simp
theorem sighting_keeping : ∀ p, Keeping (.sighting p) := by
  intros; refine ⟨_, rfl, fun s => ?_⟩
  simp
theorem slotEnd_keeping : ∀ p, Keeping (.slotEnd p) := by
  intros; refine ⟨_, rfl, fun s => ?_⟩
  simp
theorem engineResponse_keeping : ∀ p, Keeping (.engineResponse p) := by
  intros; refine ⟨_, rfl, fun s => ?_⟩
  dsimp only; (repeat' split) <;> first | rfl | (simp; done) | (simp_all; done)
theorem engineReady_keeping : ∀ p, Keeping (.engineReady p) := by
  intros; refine ⟨_, rfl, fun s => ?_⟩
  simp
theorem engineStartTimeout_keeping : ∀ p, Keeping (.engineStartTimeout p) := by
  intros; refine ⟨_, rfl, fun s => ?_⟩
  simp
theorem engineResponseTimeout_keeping : ∀ p, Keeping (.engineResponseTimeout p) := by
  intros; refine ⟨_, rfl, fun s => ?_⟩
  simp
theorem engineImageVerdict_keeping : Keeping (.engineImageVerdict ) := by
  intros; refine ⟨_, rfl, fun s => ?_⟩
  simp
theorem dbeRing_keeping : ∀ p m0 m1 m2 m3, Keeping (.dbeRing p m0 m1 m2 m3) := by
  intros; refine ⟨_, rfl, fun s => ?_⟩
  simp
theorem dbhRingClear_keeping : ∀ p, Keeping (.dbhRingClear p) := by
  intros; refine ⟨_, rfl, fun s => ?_⟩
  simp
theorem engCtlHalt_keeping : ∀ p halt, Keeping (.engCtlHalt p halt) := by
  intros; refine ⟨_, rfl, fun s => ?_⟩
  simp
theorem engCtlStep_keeping : ∀ p, Keeping (.engCtlStep p) := by
  intros; refine ⟨_, rfl, fun s => ?_⟩
  simp
theorem txDataPush_keeping : ∀ p side b, Keeping (.txDataPush p side b) := by
  intros; refine ⟨_, rfl, fun s => ?_⟩
  simp
theorem txDataCommit_keeping : ∀ p side b, Keeping (.txDataCommit p side b) := by
  intros; refine ⟨_, rfl, fun s => ?_⟩
  simp
theorem txDataAbort_keeping : ∀ p side, Keeping (.txDataAbort p side) := by
  intros; refine ⟨_, rfl, fun s => ?_⟩
  simp
theorem rxDataRead_keeping : ∀ p side, Keeping (.rxDataRead p side) := by
  intros; refine ⟨_, rfl, fun s => ?_⟩
  simp
theorem fifoFlush_keeping : ∀ p d, Keeping (.fifoFlush p d) := by
  intros; refine ⟨_, rfl, fun s => ?_⟩
  simp
theorem fifoClrcnt_keeping : ∀ p d, Keeping (.fifoClrcnt p d) := by
  intros; refine ⟨_, rfl, fun s => ?_⟩
  simp
theorem fifoSpillSet_keeping : ∀ p d spill, Keeping (.fifoSpillSet p d spill) := by
  intros; refine ⟨_, rfl, fun s => ?_⟩
  simp
theorem fifoStallRelease_keeping : ∀ p, Keeping (.fifoStallRelease p) := by
  intros; refine ⟨_, rfl, fun s => ?_⟩
  simp
theorem flueMove_keeping : ∀ p d, Keeping (.flueMove p d) := by
  intros; refine ⟨_, rfl, fun s => ?_⟩
  simp
theorem nop_keeping : ∀ e, Keeping (.nop e) := by
  intros; refine ⟨_, rfl, fun s => ?_⟩
  simp
theorem add_keeping : ∀ e rd ra rb, Keeping (.add e rd ra rb) := by
  intros; refine ⟨_, rfl, fun s => ?_⟩
  simp
theorem adc_keeping : ∀ e rd ra rb, Keeping (.adc e rd ra rb) := by
  intros; refine ⟨_, rfl, fun s => ?_⟩
  simp
theorem sub_keeping : ∀ e rd ra rb, Keeping (.sub e rd ra rb) := by
  intros; refine ⟨_, rfl, fun s => ?_⟩
  simp
theorem sbc_keeping : ∀ e rd ra rb, Keeping (.sbc e rd ra rb) := by
  intros; refine ⟨_, rfl, fun s => ?_⟩
  simp
theorem and_keeping : ∀ e rd ra rb, Keeping (.and e rd ra rb) := by
  intros; refine ⟨_, rfl, fun s => ?_⟩
  simp
theorem or_keeping : ∀ e rd ra rb, Keeping (.or e rd ra rb) := by
  intros; refine ⟨_, rfl, fun s => ?_⟩
  simp
theorem xor_keeping : ∀ e rd ra rb, Keeping (.xor e rd ra rb) := by
  intros; refine ⟨_, rfl, fun s => ?_⟩
  simp
theorem cmp_keeping : ∀ e ra rb, Keeping (.cmp e ra rb) := by
  intros; refine ⟨_, rfl, fun s => ?_⟩
  simp
theorem tst_keeping : ∀ e ra rb, Keeping (.tst e ra rb) := by
  intros; refine ⟨_, rfl, fun s => ?_⟩
  simp
theorem neg_keeping : ∀ e rd ra, Keeping (.neg e rd ra) := by
  intros; refine ⟨_, rfl, fun s => ?_⟩
  simp
theorem not_keeping : ∀ e rd ra, Keeping (.not e rd ra) := by
  intros; refine ⟨_, rfl, fun s => ?_⟩
  simp
theorem mov_keeping : ∀ e rd ra, Keeping (.mov e rd ra) := by
  intros; refine ⟨_, rfl, fun s => ?_⟩
  simp
theorem lsl_keeping : ∀ e rd ra cnt, Keeping (.lsl e rd ra cnt) := by
  intros; refine ⟨_, rfl, fun s => ?_⟩
  simp
theorem lsr_keeping : ∀ e rd ra cnt, Keeping (.lsr e rd ra cnt) := by
  intros; refine ⟨_, rfl, fun s => ?_⟩
  simp
theorem asr_keeping : ∀ e rd ra cnt, Keeping (.asr e rd ra cnt) := by
  intros; refine ⟨_, rfl, fun s => ?_⟩
  simp
theorem ror_keeping : ∀ e rd ra cnt, Keeping (.ror e rd ra cnt) := by
  intros; refine ⟨_, rfl, fun s => ?_⟩
  simp
theorem addi_keeping : ∀ e rd ra imm, Keeping (.addi e rd ra imm) := by
  intros; refine ⟨_, rfl, fun s => ?_⟩
  simp
theorem subi_keeping : ∀ e rd ra imm, Keeping (.subi e rd ra imm) := by
  intros; refine ⟨_, rfl, fun s => ?_⟩
  simp
theorem andi_keeping : ∀ e rd ra imm, Keeping (.andi e rd ra imm) := by
  intros; refine ⟨_, rfl, fun s => ?_⟩
  simp
theorem ori_keeping : ∀ e rd ra imm, Keeping (.ori e rd ra imm) := by
  intros; refine ⟨_, rfl, fun s => ?_⟩
  simp
theorem xori_keeping : ∀ e rd ra imm, Keeping (.xori e rd ra imm) := by
  intros; refine ⟨_, rfl, fun s => ?_⟩
  simp
theorem cmpi_keeping : ∀ e ra imm, Keeping (.cmpi e ra imm) := by
  intros; refine ⟨_, rfl, fun s => ?_⟩
  simp
theorem movi_keeping : ∀ e rd imm, Keeping (.movi e rd imm) := by
  intros; refine ⟨_, rfl, fun s => ?_⟩
  simp
theorem movhi_keeping : ∀ e rd imm, Keeping (.movhi e rd imm) := by
  intros; refine ⟨_, rfl, fun s => ?_⟩
  simp
theorem mul_keeping : ∀ e rd ra rb, Keeping (.mul e rd ra rb) := by
  intros; refine ⟨_, rfl, fun s => ?_⟩
  simp
theorem mulh_keeping : ∀ e rd ra rb signed, Keeping (.mulh e rd ra rb signed) := by
  intros; refine ⟨_, rfl, fun s => ?_⟩
  simp
theorem divu_keeping : ∀ e rq rr ra rb, Keeping (.divu e rq rr ra rb) := by
  intros; refine ⟨_, rfl, fun s => ?_⟩
  simp
theorem divs_keeping : ∀ e rq rr ra rb, Keeping (.divs e rq rr ra rb) := by
  intros; refine ⟨_, rfl, fun s => ?_⟩
  simp
theorem ldw_keeping : ∀ e rd ra post off, Keeping (.ldw e rd ra post off) := by
  intros; refine ⟨_, rfl, fun s => ?_⟩
  simp
theorem ldh_keeping : ∀ e rd ra post off, Keeping (.ldh e rd ra post off) := by
  intros; refine ⟨_, rfl, fun s => ?_⟩
  simp
theorem ldb_keeping : ∀ e rd ra post off, Keeping (.ldb e rd ra post off) := by
  intros; refine ⟨_, rfl, fun s => ?_⟩
  simp
theorem stw_keeping : ∀ e rd ra post off, Keeping (.stw e rd ra post off) := by
  intros; refine ⟨_, rfl, fun s => ?_⟩
  simp
theorem sth_keeping : ∀ e rd ra post off, Keeping (.sth e rd ra post off) := by
  intros; refine ⟨_, rfl, fun s => ?_⟩
  simp
theorem stb_keeping : ∀ e rd ra post off, Keeping (.stb e rd ra post off) := by
  intros; refine ⟨_, rfl, fun s => ?_⟩
  simp
theorem ldc_keeping : ∀ e rd ra post off, Keeping (.ldc e rd ra post off) := by
  intros; refine ⟨_, rfl, fun s => ?_⟩
  simp
theorem b_keeping : ∀ e cond off, Keeping (.b e cond off) := by
  intros; refine ⟨_, rfl, fun s => ?_⟩
  simp
theorem call_keeping : ∀ e off, Keeping (.call e off) := by
  intros; refine ⟨_, rfl, fun s => ?_⟩
  simp
theorem jmp_keeping : ∀ e ra, Keeping (.jmp e ra) := by
  intros; refine ⟨_, rfl, fun s => ?_⟩
  simp
theorem callr_keeping : ∀ e ra, Keeping (.callr e ra) := by
  intros; refine ⟨_, rfl, fun s => ?_⟩
  simp
theorem bset_keeping : ∀ e b, Keeping (.bset e b) := by
  intros; refine ⟨_, rfl, fun s => ?_⟩
  simp
theorem bclr_keeping : ∀ e b, Keeping (.bclr e b) := by
  intros; refine ⟨_, rfl, fun s => ?_⟩
  simp
theorem bnot_keeping : ∀ e b, Keeping (.bnot e b) := by
  intros; refine ⟨_, rfl, fun s => ?_⟩
  simp
theorem bmov_keeping : ∀ e d ns src, Keeping (.bmov e d ns src) := by
  intros; refine ⟨_, rfl, fun s => ?_⟩
  simp
theorem band_keeping : ∀ e d ns src, Keeping (.band e d ns src) := by
  intros; refine ⟨_, rfl, fun s => ?_⟩
  simp
theorem bor_keeping : ∀ e d ns src, Keeping (.bor e d ns src) := by
  intros; refine ⟨_, rfl, fun s => ?_⟩
  simp
theorem bxor_keeping : ∀ e d ns src, Keeping (.bxor e d ns src) := by
  intros; refine ⟨_, rfl, fun s => ?_⟩
  simp
theorem btst_keeping : ∀ e b pol off, Keeping (.btst e b pol off) := by
  intros; refine ⟨_, rfl, fun s => ?_⟩
  simp
theorem bget_keeping : ∀ e rd b, Keeping (.bget e rd b) := by
  intros; refine ⟨_, rfl, fun s => ?_⟩
  simp
theorem bput_keeping : ∀ e b ra, Keeping (.bput e b ra) := by
  intros; refine ⟨_, rfl, fun s => ?_⟩
  simp
theorem rep_keeping : ∀ e cnt, Keeping (.rep e cnt) := by
  intros; refine ⟨_, rfl, fun s => ?_⟩
  simp
theorem crci_keeping : ∀ e rd sel, Keeping (.crci e rd sel) := by
  intros; refine ⟨_, rfl, fun s => ?_⟩
  simp
theorem crc_keeping : ∀ e rd ra sel n, Keeping (.crc e rd ra sel n) := by
  intros; refine ⟨_, rfl, fun s => ?_⟩
  simp
theorem crcf_keeping : ∀ e rd sel, Keeping (.crcf e rd sel) := by
  intros; refine ⟨_, rfl, fun s => ?_⟩
  simp
theorem fpush_keeping : ∀ e ra eop, Keeping (.fpush e ra eop) := by
  intros; refine ⟨_, rfl, fun s => ?_⟩
  simp
theorem fpushm_keeping : ∀ e ra eop, Keeping (.fpushm e ra eop) := by
  intros; refine ⟨_, rfl, fun s => ?_⟩
  simp
theorem fpop_keeping : ∀ e rd, Keeping (.fpop e rd) := by
  intros; refine ⟨_, rfl, fun s => ?_⟩
  simp
theorem fpopm_keeping : ∀ e ra, Keeping (.fpopm e ra) := by
  intros; refine ⟨_, rfl, fun s => ?_⟩
  simp
theorem fabort_keeping : ∀ e, Keeping (.fabort e) := by
  intros; refine ⟨_, rfl, fun s => ?_⟩
  simp
theorem fsend_keeping : ∀ e clear, Keeping (.fsend e clear) := by
  intros; refine ⟨_, rfl, fun s => ?_⟩
  simp
theorem fres_keeping : ∀ e rd, Keeping (.fres e rd) := by
  intros; refine ⟨_, rfl, fun s => ?_⟩
  simp
theorem frapid_keeping : ∀ e ra, Keeping (.frapid e ra) := by
  intros; refine ⟨_, rfl, fun s => ?_⟩
  simp
theorem wait_keeping : ∀ e b pol, Keeping (.wait e b pol) := by
  intros; refine ⟨_, rfl, fun s => ?_⟩
  simp
theorem waitEnd_keeping : ∀ e, Keeping (.waitEnd e) := by
  intros; refine ⟨_, rfl, fun s => ?_⟩
  (repeat' split) <;> first | rfl | (simp; done) | (simp_all; done)
theorem trap_keeping : ∀ e code, Keeping (.trap e code) := by
  intros; refine ⟨_, rfl, fun s => ?_⟩
  simp
theorem rett_keeping : ∀ e, Keeping (.rett e) := by
  intros; refine ⟨_, rfl, fun s => ?_⟩
  simp
theorem halt_keeping : ∀ e, Keeping (.halt e) := by
  intros; refine ⟨_, rfl, fun s => ?_⟩
  simp
theorem gets_keeping : ∀ e rd k, Keeping (.gets e rd k) := by
  intros; refine ⟨_, rfl, fun s => ?_⟩
  simp
theorem tmrArmBit_keeping : ∀ ch, Keeping (.tmrArmBit ch) := by
  intros; refine ⟨_, rfl, fun s => ?_⟩
  simp
theorem tmrStopBit_keeping : ∀ ch, Keeping (.tmrStopBit ch) := by
  intros; refine ⟨_, rfl, fun s => ?_⟩
  simp
theorem tmrCmpvWrite_keeping : ∀ ch value, Keeping (.tmrCmpvWrite ch value) := by
  intros; refine ⟨_, rfl, fun s => ?_⟩
  simp
theorem tmrPrescWrite_keeping : ∀ ch value, Keeping (.tmrPrescWrite ch value) := by
  intros; refine ⟨_, rfl, fun s => ?_⟩
  simp
theorem tmrCompare_keeping : ∀ ch, Keeping (.tmrCompare ch) := by
  intros; refine ⟨_, rfl, fun s => ?_⟩
  simp
theorem tmrCapture_keeping : ∀ ch rising, Keeping (.tmrCapture ch rising) := by
  intros; refine ⟨_, rfl, fun s => ?_⟩
  simp
theorem tmrCapRead_keeping : ∀ ch, Keeping (.tmrCapRead ch) := by
  intros; refine ⟨_, rfl, fun s => ?_⟩
  simp
theorem timerSourceStop_keeping : ∀ ch, Keeping (.timerSourceStop ch) := by
  intros; refine ⟨_, rfl, fun s => ?_⟩
  simp
theorem timerMakeup_keeping : ∀ ch periods, Keeping (.timerMakeup ch periods) := by
  intros; refine ⟨_, rfl, fun s => ?_⟩
  simp
theorem wkcmpHiWrite_keeping : ∀ value, Keeping (.wkcmpHiWrite value) := by
  intros; refine ⟨_, rfl, fun s => ?_⟩
  rfl
theorem wakeCompare_keeping : Keeping (.wakeCompare ) := by
  intros; refine ⟨_, rfl, fun s => ?_⟩
  simp
theorem wdtKick_keeping : ∀ key, Keeping (.wdtKick key) := by
  intros; refine ⟨_, rfl, fun s => ?_⟩
  simp
theorem wdtctlLock_keeping : Keeping (.wdtctlLock ) := by
  intros; refine ⟨_, rfl, fun s => ?_⟩
  simp
theorem wdtExpiry_keeping : Keeping (.wdtExpiry ) := by
  intros; refine ⟨_, rfl, fun s => ?_⟩
  simp
theorem powerOnReset_keeping : Keeping (.powerOnReset ) := by
  intros; refine ⟨_, rfl, fun s => ?_⟩
  simp
theorem brownOut_keeping : ∀ supplies, Keeping (.brownOut supplies) := by
  intros; refine ⟨_, rfl, fun s => ?_⟩
  simp
theorem rstNReset_keeping : ∀ width, Keeping (.rstNReset width) := by
  intros; refine ⟨_, rfl, fun s => ?_⟩
  simp
theorem sysResetRelease_keeping : ∀ boot0 boot1, Keeping (.sysResetRelease boot0 boot1) := by
  intro boot0 boot1
  refine ⟨_, rfl, fun s => ?_⟩
  refine ite_eq_of ?_ ?_
  · rfl
  · simp only [State.devReady_durable]
    refine (ite_keep (fun s => s.judgeSlot s.kiln.active) _ (fun s => State.judgeSlot_durable _ _)).trans ?_
    refine (ite_keep (fun s => s.ash 0x0001 0x0F _) _ (fun s => State.ash_durable _ _ _ _)).trans ?_
    rw [State.lockSync_durable]
    refine (durable_kiln_lockTamper _ _).trans ?_
    simp [foldl_durable]
theorem kilnSelfTestDone_keeping : ∀ pass, Keeping (.kilnSelfTestDone pass) := by
  intros; refine ⟨_, rfl, fun s => ?_⟩
  dsimp only; (repeat' split) <;> first | rfl | (simp; done) | (simp_all; done)
theorem kilnImageVerdict_keeping : Keeping (.kilnImageVerdict ) := by
  intros; refine ⟨_, rfl, fun s => ?_⟩
  simp

theorem trngStartDone_keeping : ∀ pass, Keeping (.trngStartDone pass) := by
  intros; refine ⟨_, rfl, fun s => ?_⟩
  simp
theorem trngHealthFail_keeping : Keeping (.trngHealthFail ) := by
  intros; refine ⟨_, rfl, fun s => ?_⟩
  simp
theorem nonceExpiry_keeping : ∀ purpose, Keeping (.nonceExpiry purpose) := by
  intros; refine ⟨_, rfl, fun s => ?_⟩
  (repeat' split) <;> first | rfl | (simp; done) | (simp_all; done)
theorem tamperInput_keeping : ∀ input active, Keeping (.tamperInput input active) := by
  intro input active
  refine ⟨_, rfl, fun s => ?_⟩
  exact ite_eq_of rfl (ite_eq_of (by simp) (ite_eq_of (by simp) ((durable_kiln_deferred _ _).trans (by simp))))
theorem tamperResponseDeferred_keeping : Keeping (.tamperResponseDeferred ) := by
  intros; refine ⟨_, rfl, fun s => ?_⟩
  simp
theorem glitchDetect_keeping : ∀ clock, Keeping (.glitchDetect clock) := by
  intros; refine ⟨_, rfl, fun s => ?_⟩
  simp
theorem kilnTempRange_keeping : ∀ out, Keeping (.kilnTempRange out) := by
  intros; refine ⟨_, rfl, fun s => ?_⟩
  simp


theorem bankingStart_keeping : Keeping (.bankingStart ) := by
  refine ⟨_, rfl, fun s => ?_⟩
  dsimp only
  split
  · rfl
  · split
    · rfl
    · split
      · rw [State.modDev_durable, State.clocksOff_durable, State.modDev_durable, State.emberGrate_durable, State.allFieldsOff_durable]
      · rw [State.modDev_durable, State.modDev_durable, State.emberGrate_durable, State.allFieldsOff_durable]
theorem bankingDone_keeping : Keeping (.bankingDone ) := by
  intros; refine ⟨_, rfl, fun s => ?_⟩
  simp
theorem bankingAbandoned_keeping : ∀ sources, Keeping (.bankingAbandoned sources) := by
  intros; refine ⟨_, rfl, fun s => ?_⟩
  simp
theorem entryTimeout_keeping : Keeping (.entryTimeout ) := by
  intros; refine ⟨_, rfl, fun s => ?_⟩
  simp
theorem wakeEvent_keeping : ∀ sources, Keeping (.wakeEvent sources) := by
  intros; refine ⟨_, rfl, fun s => ?_⟩
  simp
theorem offWake_keeping : ∀ sources, Keeping (.offWake sources) := by
  intros; refine ⟨_, rfl, fun s => ?_⟩
  simp
theorem slowclkSwitch_keeping : ∀ toCrystal, Keeping (.slowclkSwitch toCrystal) := by
  intros; refine ⟨_, rfl, fun s => ?_⟩
  simp
theorem emberProbe_keeping : ∀ p amp phase, Keeping (.emberProbe p amp phase) := by
  intros; refine ⟨_, rfl, fun s => ?_⟩
  dsimp only; (repeat' split) <;> first | rfl | (simp; done) | (simp_all; done)
theorem emberRepeatProbe_keeping : ∀ p amp phase, Keeping (.emberRepeatProbe p amp phase) := by
  intro p amp phase
  refine ⟨_, rfl, fun s => ?_⟩
  refine ite_eq_of rfl ?_
  generalize hw : s.emberProbed.modDev (fun d => { d with embRepeat := d.embRepeat.filter (· ≠ p.val) }) = w
  have : w.durable = s.durable := by rw [← hw]; simp
  rw [← this]
  dsimp only
  split
  · rfl
  · split
    · split <;> simp
    · simp
theorem xchkRun_keeping : ∀ p dev, Keeping (.xchkRun p dev) := by
  intros; refine ⟨_, rfl, fun s => ?_⟩
  simp
theorem recalApply_keeping : ∀ port, Keeping (.recalApply port) := by
  intros; refine ⟨_, rfl, fun s => ?_⟩
  (repeat' split) <;> first | rfl | (simp; done) | (simp_all; done)
theorem xpdrFieldAppear_keeping : ∀ strength battery, Keeping (.xpdrFieldAppear strength battery) := by
  intros; refine ⟨_, rfl, fun s => ?_⟩
  simp
theorem xpdrFieldLost_keeping : ∀ gap, Keeping (.xpdrFieldLost gap) := by
  intros; refine ⟨_, rfl, fun s => ?_⟩
  simp
theorem xpdrSessionIdleEnd_keeping : Keeping (.xpdrSessionIdleEnd ) := by
  intros; refine ⟨_, rfl, fun s => ?_⟩
  simp
theorem xpdrSupplyDrop_keeping : Keeping (.xpdrSupplyDrop ) := by
  intros; refine ⟨_, rfl, fun s => ?_⟩
  simp
theorem xpdrFrameDiscard_keeping : Keeping (.xpdrFrameDiscard ) := by
  intros; refine ⟨_, rfl, fun s => ?_⟩
  rfl
theorem scan_keeping : ∀ body, Keeping (.scan body) := by
  intros; refine ⟨_, rfl, fun s => ?_⟩
  simp
theorem select_keeping : ∀ body, Keeping (.select body) := by
  intros; refine ⟨_, rfl, fun s => ?_⟩
  simp
theorem aelyrHalt_keeping : ∀ body, Keeping (.aelyrHalt body) := by
  intros; refine ⟨_, rfl, fun s => ?_⟩
  simp
theorem read_keeping : ∀ body, Keeping (.read body) := by
  intros; refine ⟨_, rfl, fun s => ?_⟩
  simp
theorem write_keeping : ∀ body, Keeping (.write body) := by
  intro body
  refine ⟨_, rfl, fun s => ?_⟩
  exact State.tCmd_durable _ _ _ _ (fun t => by
    dsimp only
    split
    · simp
    · rw [State.tDone_durable, State.fieldCommit_durable])
theorem lockBlock_keeping : ∀ body, Keeping (.lockBlock body) := by
  intro body
  refine ⟨_, rfl, fun s => ?_⟩
  exact State.tCmd_durable _ _ _ _ (fun t => by
    dsimp only
    split
    · simp
    · rw [State.tDone_durable, State.fieldCommit_durable])
theorem areaInfo_keeping : ∀ body, Keeping (.areaInfo body) := by
  intros; refine ⟨_, rfl, fun s => ?_⟩
  simp
theorem authPwd_keeping : ∀ body, Keeping (.authPwd body) := by
  intros; refine ⟨_, rfl, fun s => ?_⟩
  simp
theorem setPwd_keeping : ∀ body, Keeping (.setPwd body) := by
  intros; refine ⟨_, rfl, fun s => ?_⟩
  simp
theorem getNonce_keeping : ∀ body, Keeping (.getNonce body) := by
  intros; refine ⟨_, rfl, fun s => ?_⟩
  simp

theorem readCnt_keeping : ∀ body, Keeping (.readCnt body) := by
  intro body
  refine ⟨_, rfl, fun s => ?_⟩
  exact State.tCmd_durable _ _ _ _ (fun t => by
    dsimp only
    split
    · simp
    · split <;> simp)
theorem incCnt_keeping : ∀ body, Keeping (.incCnt body) := by
  intro body
  refine ⟨_, rfl, fun s => ?_⟩
  exact State.tCmd_durable _ _ _ _ (fun t => by
    refine State.tSafe_durable _ _ _ (fun t => ?_)
    dsimp only
    split
    · simp
    · split
      · simp
      · split
        · simp
        · split
          · simp
          · split
            · rw [State.tReply_durable, State.fieldCommit_durable]
            · rw [State.tReply_durable, State.fieldCommit_durable])
theorem dbBegin_keeping : ∀ body, Keeping (.dbBegin body) := by
  intros; refine ⟨_, rfl, fun s => ?_⟩
  simp
theorem dbEnd_keeping : ∀ body, Keeping (.dbEnd body) := by
  intros; refine ⟨_, rfl, fun s => ?_⟩
  simp
theorem rapidSync_keeping : ∀ pilot, Keeping (.rapidSync pilot) := by
  intros; refine ⟨_, rfl, fun s => ?_⟩
  simp
theorem rapidAnswer_keeping : ∀ challenge, Keeping (.rapidAnswer challenge) := by
  intros; refine ⟨_, rfl, fun s => ?_⟩
  simp
theorem dbArmedTimeout_keeping : Keeping (.dbArmedTimeout ) := by
  intros; refine ⟨_, rfl, fun s => ?_⟩
  simp
theorem getId_keeping : ∀ body, Keeping (.getId body) := by
  intros; refine ⟨_, rfl, fun s => ?_⟩
  simp
theorem readPage_keeping : ∀ body, Keeping (.readPage body) := by
  intros; refine ⟨_, rfl, fun s => ?_⟩
  simp
theorem writePage_keeping : ∀ body, Keeping (.writePage body) := by
  intro body
  refine ⟨_, rfl, fun s => ?_⟩
  exact State.oCmd_durable _ _ _ _ (fun t => by
    dsimp only
    split
    · simp
    · rw [State.oDone_durable, State.fieldCommit_durable])
theorem login_keeping : ∀ body, Keeping (.login body) := by
  intro body
  refine ⟨_, rfl, fun s => ?_⟩
  exact State.oCmd_durable _ _ _ _ (fun t => by
    dsimp only
    split <;> simp)
theorem logout_keeping : ∀ body, Keeping (.logout body) := by
  intros; refine ⟨_, rfl, fun s => ?_⟩
  simp
theorem setPassword_keeping : ∀ body, Keeping (.setPassword body) := by
  intros; refine ⟨_, rfl, fun s => ?_⟩
  simp
theorem lockPage_keeping : ∀ body, Keeping (.lockPage body) := by
  intro body
  refine ⟨_, rfl, fun s => ?_⟩
  exact State.oCmd_durable _ _ _ _ (fun t => by
    dsimp only
    split
    · simp
    · rw [State.oDone_durable, State.fieldCommit_durable])
theorem xpdrDeferredCommit_keeping : Keeping (.xpdrDeferredCommit ) := by
  intros; refine ⟨_, rfl, fun s => ?_⟩
  simp
theorem journalCheck_keeping : Keeping (.journalCheck ) := by
  intros; refine ⟨_, rfl, fun s => ?_⟩
  simp

theorem eoArmExpiry_keeping : Keeping (.eoArmExpiry ) := by
  intros; refine ⟨_, rfl, fun s => ?_⟩
  simp
theorem emopenPulseEnd_keeping : ∀ vstore, Keeping (.emopenPulseEnd vstore) := by
  intros; refine ⟨_, rfl, fun s => ?_⟩
  simp
theorem registerWrite_keeping : ∀ addr value side, Keeping (.registerWrite addr value side) := by
  intros; refine ⟨_, rfl, fun s => ?_⟩
  simp
theorem unknownCode_keeping : ∀ proto code body, Keeping (.unknownCode proto code body) := by
  intros; refine ⟨_, rfl, fun s => ?_⟩
  (repeat' split) <;> first | rfl | (simp; done) | (simp_all; done)
theorem commitReserveMet_keeping : Keeping (.commitReserveMet ) := by
  intros; refine ⟨_, rfl, fun s => ?_⟩
  dsimp only; (repeat' split) <;> first | rfl | (simp; done) | (simp_all; done)
theorem kilnOperationDone_keeping : Keeping (.kilnOperationDone ) := by
  intros; refine ⟨_, rfl, fun s => ?_⟩
  (repeat' split) <;> first | rfl | (simp; done) | (simp_all; done)
theorem calMeasurementEnd_keeping : ∀ p m, Keeping (.calMeasurementEnd p m) := by
  intros; refine ⟨_, rfl, fun s => ?_⟩
  (repeat' split) <;> first | rfl | (simp; done) | (simp_all; done)
theorem couplingSourceEnd_keeping : ∀ m, Keeping (.couplingSourceEnd m) := by
  intros; refine ⟨_, rfl, fun s => ?_⟩
  (repeat' split) <;> first | rfl | (simp; done) | (simp_all; done)
theorem vsysRemoved_keeping : Keeping (.vsysRemoved ) := by
  refine ⟨_, rfl, fun s => ?_⟩
  refine ite_eq_of rfl ?_
  generalize hw : s.aonLost.modDev (fun d => { d with vsysOk := false, vioOk := false }) = w
  have : w.durable = s.durable := by rw [← hw]; simp
  rw [← this]
  dsimp only
  refine ite_eq_of ?_ (by simp)
  refine ite_eq_of ?_ rfl
  simp only [State.tFresh_durable, State.tHarvest_durable]
  exact ite_eq_of (by simp) rfl
theorem vioLoss_keeping : Keeping (.vioLoss ) := by
  intros; refine ⟨_, rfl, fun s => ?_⟩
  simp
theorem vioReturn_keeping : Keeping (.vioReturn ) := by
  intros; refine ⟨_, rfl, fun s => ?_⟩
  simp
theorem hearthJtagHalt_keeping : ∀ halt, Keeping (.hearthJtagHalt halt) := by
  intros; refine ⟨_, rfl, fun s => ?_⟩
  simp


/-! ## The rows that commit or raise SECVER -/

theorem Grows.ite {c : Prop} [Decidable c] {s a b : State} (h : c → Grows s a) (k : ¬c → Grows s b) : Grows s (if c then a else b) := by
  split
  · exact h ‹_›
  · exact k ‹_›
theorem Grows.after {s t u : State} (h : t.durable = s.durable) (k : Grows t u) : Grows s u := (Grows.of_keep h).trans k

theorem ashStep_grows (s : State) : Grows s s.ashStep := by
  unfold State.ashStep
  split
  · exact Grows.refl s
  · rename_i i _
    refine Grows.ite (fun _ => Grows.refl s) fun _ => ?_
    refine Grows.ite (fun _ => Grows.of_keep (by simp)) fun _ => ?_
    dsimp only
    generalize hw : (if isFaultRecord i.type = true then _ else _ : State) = w
    have e : w.durable = s.durable := by rw [← hw]; exact ite_eq_of rfl rfl
    refine Grows.after e ?_
    exact Grows.ite (fun _ => (Grows.commit w _).keep (State.aonSet_durable _ _ _)) fun _ => Grows.commit w _

theorem suppressedStep_grows (s : State) : Grows s s.suppressedStep := by
  unfold State.suppressedStep
  exact Grows.ite (fun _ => Grows.refl s) fun _ => (Grows.commit s _).keep rfl

theorem raiseSecver_grows (s : State) : Grows s s.raiseSecver := by
  unfold State.raiseSecver
  refine Grows.ite (fun _ => Grows.refl s) fun h => ?_
  refine Grows.keep (t := ({ s with kiln := { s.kiln with secver := s.imageNum s.kiln.active 12 1 } } : State))
    ⟨[], s.imageNum s.kiln.active 12 1, by omega, rfl⟩ (State.ash_durable _ _ _ _)

/-- The end of the opening, for a counter value and its number. -/
def opening (val : Option Nat) (cnt : Nat) (s : State) : State :=
  match val with
  | none => s.eoDisarm
  | some v =>
    if s.kilnGet KWSTAT.STATE = 2 ∨ !s.ashMay then s.eoDisarm
    else
      let vs := s.xget XEOSTAT.VSTORE
      let sup := s.xget XSTAT.SUPPLY
      let s := s.ashCommit { type := 0x0052, source := 8, flags := s.ashFlags, time := s.ashTime,
                             data := leBytes 2 vs ++ leBytes 4 v ++ leBytes 1 cnt ++ leBytes 1 sup }
      let s := (s.eoDisarm.xset XEOSTAT.FIRING 1).xset XEOSTAT.FIRED 1
      if sup = 1 ∧ s.hostOn then s.raiseOwner 8 0x0682 (leBytes 2 vs ++ leBytes 4 v) else s
/-- The counter of the opening counted, and its number. -/
def openCount (s : State) : Option Nat × State :=
  match s.xpdr.eoCnt with
  | some i => s.eoCount i
  | none =>
    let (v, s) := s.drawNat (2 ^ 32)
    (some v, s)
def openNumber (s : State) : Nat × State :=
  match s.xpdr.eoCnt with
  | some i => (i, s)
  | none => s.drawByte

theorem opening_grows (val : Option Nat) (cnt : Nat) (s : State) : Grows s (opening val cnt s) := by
  unfold opening
  cases val with
  | none => exact Grows.of_keep rfl
  | some v =>
    refine Grows.ite (fun _ => Grows.of_keep rfl) fun _ => ?_
    dsimp only
    have last : ∀ u : State, ((u.eoDisarm.xset XEOSTAT.FIRING 1).xset XEOSTAT.FIRED 1).durable = u.durable :=
      fun u => (State.xset_durable _ _ _).trans ((State.xset_durable _ _ _).trans (State.eoDisarm_durable u))
    refine Grows.ite (fun _ => ?_) fun _ => ?_
    · exact Grows.keep (Grows.commit s _) ((State.raiseOwner_durable _ _ _ _).trans (last _))
    · exact Grows.keep (Grows.commit s _) (last _)

theorem openCount_durable (s : State) : (openCount s).2.durable = s.durable := by
  unfold openCount; split <;> simp
theorem openNumber_durable (s : State) : (openNumber s).2.durable = s.durable := by
  unfold openNumber; split <;> simp

theorem eoOpen_eq (s : State) : s.eoOpen = opening (openCount s).1 (openNumber (openCount s).2).1 (openNumber (openCount s).2).2 := rfl
theorem eoOpen_grows (s : State) : Grows s s.eoOpen := by
  rw [eoOpen_eq]
  exact Grows.after ((openNumber_durable _).trans (openCount_durable s)) (opening_grows _ _ _)

theorem eoArm_grows (s : State) : Grows s s.eoArm := by
  unfold State.eoArm
  dsimp only
  generalize hw : State.xset _ XEOSTAT.ARMED 1 = w
  have e : w.durable = s.durable := by rw [← hw]; exact (State.xset_durable _ _ _).trans (State.modX_durable _ _)
  exact Grows.after e (Grows.ite (fun _ => eoOpen_grows w) fun _ => Grows.of_keep (State.xset_durable _ _ _))

theorem unlockOk_grows (s : State) (area : Nat) : Grows s (s.unlockOk area) := by
  unfold State.unlockOk
  refine Grows.ite (fun _ => ?_) fun _ => Grows.of_keep (by simp)
  unfold State.armRecord
  by_cases h : s.kilnGet KWSTAT.STATE = 2 ∨ (!s.ashMay) = true
  · rw [if_pos h]; exact Grows.of_keep rfl
  · rw [if_neg h]
    dsimp only
    generalize hw : s.ashCommit _ = w
    have gw : Grows s w := hw ▸ Grows.commit s _
    refine gw.trans ?_
    refine Grows.ite (fun _ => ?_) fun _ => Grows.of_keep (by simp)
    exact Grows.after (t := (w.applyUnlock area).2) (by simp) ((eoArm_grows _).keep (State.tReply_durable _ _))

theorem tFrame_grows (s : State) (p : LinkProto) (body : List Byte) (valid nvm : Bool) (f : State → State) (h : ∀ t, Grows t (f t)) :
    Grows s (s.tFrame p body valid nvm f) := by
  unfold State.tFrame
  refine Grows.ite (fun _ => Grows.of_keep (by simp)) fun _ => ?_
  refine Grows.after ?_ (h _)
  simp

theorem unlock_grows (s : State) (body : List Byte) (f : State → State) (h : ∀ t, Grows t (f t)) (req : List Byte) :
    Grows s (s.tCmd body 10 fun t => t.tSafe req f) := by
  unfold State.tCmd
  refine tFrame_grows _ _ _ _ _ _ fun t => ?_
  refine Grows.ite (fun _ => Grows.of_keep (by simp)) fun _ => Grows.ite (fun _ => ?_) fun _ => Grows.of_keep rfl
  unfold State.tSafe
  exact Grows.ite (fun _ => Grows.of_keep rfl) fun _ => (h t).keep rfl

theorem Keeping.grows {i : Instr} {s t : State} (h : Keeping i) (e : exec i s = .next t) : Grows s t := by
  obtain ⟨f, d, k⟩ := h
  rw [d] at e
  exact Grows.run e (Grows.of_keep (k s))

theorem grows_of {i : Instr} {f : State → State} (d : exec i = run f) (k : ∀ s, Grows s (f s)) {s t : State} (e : exec i s = .next t) :
    Grows s t := by
  rw [d] at e
  exact Grows.run e (k s)

theorem ashCommit_grows {s t : State} : exec .ashCommit s = .next t → Grows s t := grows_of rfl ashStep_grows
theorem suppressedCommit_grows {s t : State} : exec .suppressedCommit s = .next t → Grows s t := grows_of rfl suppressedStep_grows
theorem fullServiceStart_grows {s t : State} : exec .fullServiceStart s = .next t → Grows s t := by
  refine grows_of rfl fun s => ?_
  refine Grows.ite (fun _ => Grows.refl s) fun _ => ?_
  refine Grows.after ?_ ((raiseSecver_grows _).keep (State.devReady_durable _ _ _))
  simp [foldl_durable]
theorem unlockRow_grows {body : List Byte} {s t : State} : exec (.unlock body) s = .next t → Grows s t := by
  refine grows_of rfl fun s => ?_
  refine unlock_grows _ _ _ (fun t => ?_) _
  dsimp only
  split
  · exact Grows.of_keep rfl
  · refine Grows.ite (fun _ => Grows.of_keep rfl) fun _ => Grows.ite (fun _ => Grows.of_keep rfl) fun _ => ?_
    split
    · exact Grows.of_keep rfl
    · exact Grows.ite (fun _ => Grows.after (by simp) (unlockOk_grows _ _)) fun _ => Grows.of_keep rfl
theorem eoVthReached_grows {v : BitVec 10} {s t : State} : exec (.eoVthReached v) s = .next t → Grows s t := by
  refine grows_of rfl fun s => ?_
  exact Grows.ite (fun _ => Grows.after (by simp) (eoOpen_grows _)) fun _ => Grows.refl s

/-- A command only grows the log and never lowers SECVER. -/
theorem exec_grows (i : Instr) (s t : State) (h : exec i s = .next t) : Grows s t := by
  cases i with
  | info => exact (hostOp_keeping rfl).grows h
  | ident => exact (hostOp_keeping rfl).grows h
  | devReset => exact (hostOp_keeping rfl).grows h
  | devResetFire => exact devResetFire_keeping.grows h
  | getLog => exact (hostOp_keeping rfl).grows h
  | hostConfig => exact (hostOp_keeping rfl).grows h
  | hostStatus => exact (hostOp_keeping rfl).grows h
  | ownClaim => exact (hostOp_keeping rfl).grows h
  | ownRelease => exact (hostOp_keeping rfl).grows h
  | ownQuery => exact (hostOp_keeping rfl).grows h
  | kindlingScan => exact (hostOp_keeping rfl).grows h
  | portOpen => exact (hostOp_keeping rfl).grows h
  | portClose => exact (hostOp_keeping rfl).grows h
  | portSet => exact (hostOp_keeping rfl).grows h
  | fieldOn => exact (hostOp_keeping rfl).grows h
  | fieldOff => exact (hostOp_keeping rfl).grows h
  | grateSelect => exact (hostOp_keeping rfl).grows h
  | portReset => exact (hostOp_keeping rfl).grows h
  | portGet => exact (hostOp_keeping rfl).grows h
  | portStatus => exact (hostOp_keeping rfl).grows h
  | groupSet => exact (hostOp_keeping rfl).grows h
  | groupQuery => exact (hostOp_keeping rfl).grows h
  | transceive => exact (hostOp_keeping rfl).grows h
  | aActivate => exact (hostOp_keeping rfl).grows h
  | bActivate => exact (hostOp_keeping rfl).grows h
  | apdu => exact (hostOp_keeping rfl).grows h
  | deselect => exact (hostOp_keeping rfl).grows h
  | vhbrParams => exact (hostOp_keeping rfl).grows h
  | vCmd => exact (hostOp_keeping rfl).grows h
  | invConfig => exact (hostOp_keeping rfl).grows h
  | invStart => exact (hostOp_keeping rfl).grows h
  | invStop => exact (hostOp_keeping rfl).grows h
  | invQuery => exact (hostOp_keeping rfl).grows h
  | ttRead => exact (hostOp_keeping rfl).grows h
  | ttFind => exact (hostOp_keeping rfl).grows h
  | ttDelete => exact (hostOp_keeping rfl).grows h
  | ttClear => exact (hostOp_keeping rfl).grows h
  | ttSetFlags => exact (hostOp_keeping rfl).grows h
  | ttConfig => exact (hostOp_keeping rfl).grows h
  | alScan => exact (hostOp_keeping rfl).grows h
  | alSelect => exact (hostOp_keeping rfl).grows h
  | alHalt => exact (hostOp_keeping rfl).grows h
  | alRead => exact (hostOp_keeping rfl).grows h
  | alWrite => exact (hostOp_keeping rfl).grows h
  | alLockBlock => exact (hostOp_keeping rfl).grows h
  | alAreaInfo => exact (hostOp_keeping rfl).grows h
  | alAuthPwd => exact (hostOp_keeping rfl).grows h
  | alSetPwd => exact (hostOp_keeping rfl).grows h
  | alUnlock => exact (hostOp_keeping rfl).grows h
  | alReadCnt => exact (hostOp_keeping rfl).grows h
  | alIncCnt => exact (hostOp_keeping rfl).grows h
  | osGetId => exact (hostOp_keeping rfl).grows h
  | osReadPage => exact (hostOp_keeping rfl).grows h
  | osWritePage => exact (hostOp_keeping rfl).grows h
  | osLogin => exact (hostOp_keeping rfl).grows h
  | osLogout => exact (hostOp_keeping rfl).grows h
  | osSetPassword => exact (hostOp_keeping rfl).grows h
  | osLockPage => exact (hostOp_keeping rfl).grows h
  | dbRun => exact (hostOp_keeping rfl).grows h
  | dbCal => exact (hostOp_keeping rfl).grows h
  | dbConfig => exact (hostOp_keeping rfl).grows h
  | xpdrConfig => exact (hostOp_keeping rfl).grows h
  | xpdrAreaSet => exact (hostOp_keeping rfl).grows h
  | xpdrRead => exact (hostOp_keeping rfl).grows h
  | xpdrWrite => exact (hostOp_keeping rfl).grows h
  | xpdrCntRead => exact (hostOp_keeping rfl).grows h
  | xpdrCntInc => exact (hostOp_keeping rfl).grows h
  | xpdrAreaInfo => exact (hostOp_keeping rfl).grows h
  | xpdrUnlock => exact (hostOp_keeping rfl).grows h
  | xpdrStatus => exact (hostOp_keeping rfl).grows h
  | calRun => exact (hostOp_keeping rfl).grows h
  | calExport => exact (hostOp_keeping rfl).grows h
  | calImport => exact (hostOp_keeping rfl).grows h
  | calCoupling => exact (hostOp_keeping rfl).grows h
  | calConfig => exact (hostOp_keeping rfl).grows h
  | calStatus => exact (hostOp_keeping rfl).grows h
  | pwrEnter => exact (hostOp_keeping rfl).grows h
  | wakeConfig => exact (hostOp_keeping rfl).grows h
  | emberConfig => exact (hostOp_keeping rfl).grows h
  | pwrStatus => exact (hostOp_keeping rfl).grows h
  | keyInfo => exact (hostOp_keeping rfl).grows h
  | keyGen => exact (hostOp_keeping rfl).grows h
  | keyImport => exact (hostOp_keeping rfl).grows h
  | keyExport => exact (hostOp_keeping rfl).grows h
  | keyDelete => exact (hostOp_keeping rfl).grows h
  | kilnRandom => exact (hostOp_keeping rfl).grows h
  | kilnSign => exact (hostOp_keeping rfl).grows h
  | kilnChallenge => exact (hostOp_keeping rfl).grows h
  | debugUnlock => exact (hostOp_keeping rfl).grows h
  | imageLoad => exact (hostOp_keeping rfl).grows h
  | imageInfo => exact (hostOp_keeping rfl).grows h
  | imageActivate => exact (hostOp_keeping rfl).grows h
  | engineReload => exact (hostOp_keeping rfl).grows h
  | diagCounters => exact (hostOp_keeping rfl).grows h
  | portIsolate => exact (hostOp_keeping rfl).grows h
  | tmrConfig => exact (hostOp_keeping rfl).grows h
  | tmrArm => exact (hostOp_keeping rfl).grows h
  | tmrRead => exact (hostOp_keeping rfl).grows h
  | timebaseRead => exact (hostOp_keeping rfl).grows h
  | gpioConfig => exact (hostOp_keeping rfl).grows h
  | gpioWrite => exact (hostOp_keeping rfl).grows h
  | gpioRead => exact (hostOp_keeping rfl).grows h
  | dbgRead => exact (hostOp_keeping rfl).grows h
  | dbgWrite => exact (hostOp_keeping rfl).grows h
  | dbgEngine => exact (hostOp_keeping rfl).grows h
  | spiCsFall hp => exact (spiCsFall_keeping hp).grows h
  | spiWrite hp bytes => exact (spiWrite_keeping hp bytes).grows h
  | spiRead hp count => exact (spiRead_keeping hp count).grows h
  | spiStatus hp => exact (spiStatus_keeping hp).grows h
  | spiInvalidTransfer hp transfer count => exact (spiInvalidTransfer_keeping hp transfer count).grows h
  | spiCsRise hp => exact (spiCsRise_keeping hp).grows h
  | uartByteReceived b => exact (uartByteReceived_keeping b).grows h
  | uartGapTimeout => exact uartGapTimeout_keeping.grows h
  | uartBreak => exact uartBreak_keeping.grows h
  | uartByteSent => exact uartByteSent_keeping.grows h
  | i2cAddressMatch isRead => exact (i2cAddressMatch_keeping isRead).grows h
  | i2cWriteByte b => exact (i2cWriteByte_keeping b).grows h
  | i2cReadByte => exact i2cReadByte_keeping.grows h
  | i2cStop => exact i2cStop_keeping.grows h
  | tickDecide => exact tickDecide_keeping.grows h
  | chainSegment c opcode => exact (chainSegment_keeping c opcode).grows h
  | chainAbort c opcode => exact (chainAbort_keeping c opcode).grows h
  | chainExpiry hp target => exact (chainExpiry_keeping hp target).grows h
  | hostTakesPacket hp => exact (hostTakesPacket_keeping hp).grows h
  | responseNextPacket hp => exact (responseNextPacket_keeping hp).grows h
  | gpioPinChange pin level => exact (gpioPinChange_keeping pin level).grows h
  | txctlFieldEnWrite p value => exact (txctlFieldEnWrite_keeping p value).grows h
  | fieldRampStart p => exact (fieldRampStart_keeping p).grows h
  | fieldRampUpDone p => exact (fieldRampUpDone_keeping p).grows h
  | fieldRampDownDone p => exact (fieldRampDownDone_keeping p).grows h
  | txphaseWrite p phase => exact (txphaseWrite_keeping p phase).grows h
  | phaseApply p => exact (phaseApply_keeping p).grows h
  | ampApply p => exact (ampApply_keeping p).grows h
  | ampRampDone p => exact (ampRampDone_keeping p).grows h
  | txampLock p => exact (txampLock_keeping p).grows h
  | shortFault p => exact (shortFault_keeping p).grows h
  | vtxUvFault rail => exact (vtxUvFault_keeping rail).grows h
  | vtxUvClear rail => exact (vtxUvClear_keeping rail).grows h
  | openFault p => exact (openFault_keeping p).grows h
  | thermalTrip dom => exact (thermalTrip_keeping dom).grows h
  | thermalLockoutEnd dom => exact (thermalLockoutEnd_keeping dom).grows h
  | pllUnlock => exact pllUnlock_keeping.grows h
  | pllLock => exact pllLock_keeping.grows h
  | xtalOk => exact xtalOk_keeping.grows h
  | xtalFail => exact xtalFail_keeping.grows h
  | clkctlWrite value => exact (clkctlWrite_keeping value).grows h
  | thermSample dom tj vtx => exact (thermSample_keeping dom tj vtx).grows h
  | dutyWindow p onTime => exact (dutyWindow_keeping p onTime).grows h
  | grateWrite p value => exact (grateWrite_keeping p value).grows h
  | grateShiftFrame => exact grateShiftFrame_keeping.grows h
  | grateSettleEnd p => exact (grateSettleEnd_keeping p).grows h
  | frmctlApply p => exact (frmctlApply_keeping p).grows h
  | rxConfigApply p => exact (rxConfigApply_keeping p).grows h
  | agcWindowEnd p peak => exact (agcWindowEnd_keeping p peak).grows h
  | adcOverload p => exact (adcOverload_keeping p).grows h
  | dcAcqEnd p => exact (dcAcqEnd_keeping p).grows h
  | noiseWindowEnd p result quiet => exact (noiseWindowEnd_keeping p result quiet).grows h
  | noiseRestart p => exact (noiseRestart_keeping p).grows h
  | frameGrant p => exact (frameGrant_keeping p).grows h
  | holdOverride p => exact (holdOverride_keeping p).grows h
  | frameSendEnd p => exact (frameSendEnd_keeping p).grows h
  | replyStart p t => exact (replyStart_keeping p t).grows h
  | frameReceiveEnd p rx => exact (frameReceiveEnd_keeping p rx).grows h
  | responseTimeout p => exact (responseTimeout_keeping p).grows h
  | waitLimitExpiry p => exact (waitLimitExpiry_keeping p).grows h
  | guardEnd p => exact (guardEnd_keeping p).grows h
  | secondWindowOpen p => exact (secondWindowOpen_keeping p).grows h
  | frmstatXstart p => exact (frmstatXstart_keeping p).grows h
  | frmstatVrepP p => exact (frmstatVrepP_keeping p).grows h
  | frmstatVrepX p => exact (frmstatVrepX_keeping p).grows h
  | violcntRead p => exact (violcntRead_keeping p).grows h
  | schcntRead p => exact (schcntRead_keeping p).grows h
  | rapidPhaseStart p => exact (rapidPhaseStart_keeping p).grows h
  | dbChallengeSlot p sent burst => exact (dbChallengeSlot_keeping p sent burst).grows h
  | rapidPhaseEnd p => exact (rapidPhaseEnd_keeping p).grows h
  | dbVerdict p reply => exact (dbVerdict_keeping p reply).grows h
  | dbctlLock p => exact (dbctlLock_keeping p).grows h
  | cplCommit => exact cplCommit_keeping.grows h
  | cplApply p => exact (cplApply_keeping p).grows h
  | cplCheck => exact cplCheck_keeping.grows h
  | lkDepthBlock p sumL sumR trims clamped => exact (lkDepthBlock_keeping p sumL sumR trims clamped).grows h
  | adaptResume p => exact (adaptResume_keeping p).grows h
  | groupBoundary g => exact (groupBoundary_keeping g).grows h
  | invPassStart p => exact (invPassStart_keeping p).grows h
  | invSlotStart p => exact (invSlotStart_keeping p).grows h
  | invPassEnd p => exact (invPassEnd_keeping p).grows h
  | sighting p => exact (sighting_keeping p).grows h
  | slotEnd p => exact (slotEnd_keeping p).grows h
  | engineResponse p => exact (engineResponse_keeping p).grows h
  | engineReady p => exact (engineReady_keeping p).grows h
  | engineStartTimeout p => exact (engineStartTimeout_keeping p).grows h
  | engineResponseTimeout p => exact (engineResponseTimeout_keeping p).grows h
  | engineImageVerdict => exact engineImageVerdict_keeping.grows h
  | dbeRing p m0 m1 m2 m3 => exact (dbeRing_keeping p m0 m1 m2 m3).grows h
  | dbhRingClear p => exact (dbhRingClear_keeping p).grows h
  | engCtlHalt p halt => exact (engCtlHalt_keeping p halt).grows h
  | engCtlStep p => exact (engCtlStep_keeping p).grows h
  | txDataPush p side b => exact (txDataPush_keeping p side b).grows h
  | txDataCommit p side b => exact (txDataCommit_keeping p side b).grows h
  | txDataAbort p side => exact (txDataAbort_keeping p side).grows h
  | rxDataRead p side => exact (rxDataRead_keeping p side).grows h
  | fifoFlush p d => exact (fifoFlush_keeping p d).grows h
  | fifoClrcnt p d => exact (fifoClrcnt_keeping p d).grows h
  | fifoSpillSet p d spill => exact (fifoSpillSet_keeping p d spill).grows h
  | fifoStallRelease p => exact (fifoStallRelease_keeping p).grows h
  | flueMove p d => exact (flueMove_keeping p d).grows h
  | nop e => exact (nop_keeping e).grows h
  | add e rd ra rb => exact (add_keeping e rd ra rb).grows h
  | adc e rd ra rb => exact (adc_keeping e rd ra rb).grows h
  | sub e rd ra rb => exact (sub_keeping e rd ra rb).grows h
  | sbc e rd ra rb => exact (sbc_keeping e rd ra rb).grows h
  | and e rd ra rb => exact (and_keeping e rd ra rb).grows h
  | or e rd ra rb => exact (or_keeping e rd ra rb).grows h
  | xor e rd ra rb => exact (xor_keeping e rd ra rb).grows h
  | cmp e ra rb => exact (cmp_keeping e ra rb).grows h
  | tst e ra rb => exact (tst_keeping e ra rb).grows h
  | neg e rd ra => exact (neg_keeping e rd ra).grows h
  | not e rd ra => exact (not_keeping e rd ra).grows h
  | mov e rd ra => exact (mov_keeping e rd ra).grows h
  | lsl e rd ra cnt => exact (lsl_keeping e rd ra cnt).grows h
  | lsr e rd ra cnt => exact (lsr_keeping e rd ra cnt).grows h
  | asr e rd ra cnt => exact (asr_keeping e rd ra cnt).grows h
  | ror e rd ra cnt => exact (ror_keeping e rd ra cnt).grows h
  | addi e rd ra imm => exact (addi_keeping e rd ra imm).grows h
  | subi e rd ra imm => exact (subi_keeping e rd ra imm).grows h
  | andi e rd ra imm => exact (andi_keeping e rd ra imm).grows h
  | ori e rd ra imm => exact (ori_keeping e rd ra imm).grows h
  | xori e rd ra imm => exact (xori_keeping e rd ra imm).grows h
  | cmpi e ra imm => exact (cmpi_keeping e ra imm).grows h
  | movi e rd imm => exact (movi_keeping e rd imm).grows h
  | movhi e rd imm => exact (movhi_keeping e rd imm).grows h
  | mul e rd ra rb => exact (mul_keeping e rd ra rb).grows h
  | mulh e rd ra rb signed => exact (mulh_keeping e rd ra rb signed).grows h
  | divu e rq rr ra rb => exact (divu_keeping e rq rr ra rb).grows h
  | divs e rq rr ra rb => exact (divs_keeping e rq rr ra rb).grows h
  | ldw e rd ra post off => exact (ldw_keeping e rd ra post off).grows h
  | ldh e rd ra post off => exact (ldh_keeping e rd ra post off).grows h
  | ldb e rd ra post off => exact (ldb_keeping e rd ra post off).grows h
  | stw e rd ra post off => exact (stw_keeping e rd ra post off).grows h
  | sth e rd ra post off => exact (sth_keeping e rd ra post off).grows h
  | stb e rd ra post off => exact (stb_keeping e rd ra post off).grows h
  | ldc e rd ra post off => exact (ldc_keeping e rd ra post off).grows h
  | b e cond off => exact (b_keeping e cond off).grows h
  | call e off => exact (call_keeping e off).grows h
  | jmp e ra => exact (jmp_keeping e ra).grows h
  | callr e ra => exact (callr_keeping e ra).grows h
  | bset e b => exact (bset_keeping e b).grows h
  | bclr e b => exact (bclr_keeping e b).grows h
  | bnot e b => exact (bnot_keeping e b).grows h
  | bmov e d ns src => exact (bmov_keeping e d ns src).grows h
  | band e d ns src => exact (band_keeping e d ns src).grows h
  | bor e d ns src => exact (bor_keeping e d ns src).grows h
  | bxor e d ns src => exact (bxor_keeping e d ns src).grows h
  | btst e b pol off => exact (btst_keeping e b pol off).grows h
  | bget e rd b => exact (bget_keeping e rd b).grows h
  | bput e b ra => exact (bput_keeping e b ra).grows h
  | rep e cnt => exact (rep_keeping e cnt).grows h
  | crci e rd sel => exact (crci_keeping e rd sel).grows h
  | crc e rd ra sel n => exact (crc_keeping e rd ra sel n).grows h
  | crcf e rd sel => exact (crcf_keeping e rd sel).grows h
  | fpush e ra eop => exact (fpush_keeping e ra eop).grows h
  | fpushm e ra eop => exact (fpushm_keeping e ra eop).grows h
  | fpop e rd => exact (fpop_keeping e rd).grows h
  | fpopm e ra => exact (fpopm_keeping e ra).grows h
  | fabort e => exact (fabort_keeping e).grows h
  | fsend e clear => exact (fsend_keeping e clear).grows h
  | fres e rd => exact (fres_keeping e rd).grows h
  | frapid e ra => exact (frapid_keeping e ra).grows h
  | wait e b pol => exact (wait_keeping e b pol).grows h
  | waitEnd e => exact (waitEnd_keeping e).grows h
  | trap e code => exact (trap_keeping e code).grows h
  | rett e => exact (rett_keeping e).grows h
  | halt e => exact (halt_keeping e).grows h
  | gets e rd k => exact (gets_keeping e rd k).grows h
  | tmrArmBit ch => exact (tmrArmBit_keeping ch).grows h
  | tmrStopBit ch => exact (tmrStopBit_keeping ch).grows h
  | tmrCmpvWrite ch value => exact (tmrCmpvWrite_keeping ch value).grows h
  | tmrPrescWrite ch value => exact (tmrPrescWrite_keeping ch value).grows h
  | tmrCompare ch => exact (tmrCompare_keeping ch).grows h
  | tmrCapture ch rising => exact (tmrCapture_keeping ch rising).grows h
  | tmrCapRead ch => exact (tmrCapRead_keeping ch).grows h
  | timerSourceStop ch => exact (timerSourceStop_keeping ch).grows h
  | timerMakeup ch periods => exact (timerMakeup_keeping ch periods).grows h
  | wkcmpHiWrite value => exact (wkcmpHiWrite_keeping value).grows h
  | wakeCompare => exact wakeCompare_keeping.grows h
  | wdtKick key => exact (wdtKick_keeping key).grows h
  | wdtctlLock => exact wdtctlLock_keeping.grows h
  | wdtExpiry => exact wdtExpiry_keeping.grows h
  | powerOnReset => exact powerOnReset_keeping.grows h
  | brownOut supplies => exact (brownOut_keeping supplies).grows h
  | rstNReset width => exact (rstNReset_keeping width).grows h
  | sysResetRelease boot0 boot1 => exact (sysResetRelease_keeping boot0 boot1).grows h
  | kilnSelfTestDone pass => exact (kilnSelfTestDone_keeping pass).grows h
  | kilnImageVerdict => exact kilnImageVerdict_keeping.grows h
  | fullServiceStart => exact fullServiceStart_grows h
  | trngStartDone pass => exact (trngStartDone_keeping pass).grows h
  | trngHealthFail => exact trngHealthFail_keeping.grows h
  | nonceExpiry purpose => exact (nonceExpiry_keeping purpose).grows h
  | tamperInput input active => exact (tamperInput_keeping input active).grows h
  | tamperResponseDeferred => exact tamperResponseDeferred_keeping.grows h
  | glitchDetect clock => exact (glitchDetect_keeping clock).grows h
  | kilnTempRange out => exact (kilnTempRange_keeping out).grows h
  | ashCommit => exact ashCommit_grows h
  | suppressedCommit => exact suppressedCommit_grows h
  | bankingStart => exact bankingStart_keeping.grows h
  | bankingDone => exact bankingDone_keeping.grows h
  | bankingAbandoned sources => exact (bankingAbandoned_keeping sources).grows h
  | entryTimeout => exact entryTimeout_keeping.grows h
  | wakeEvent sources => exact (wakeEvent_keeping sources).grows h
  | offWake sources => exact (offWake_keeping sources).grows h
  | slowclkSwitch toCrystal => exact (slowclkSwitch_keeping toCrystal).grows h
  | emberProbe p amp phase => exact (emberProbe_keeping p amp phase).grows h
  | emberRepeatProbe p amp phase => exact (emberRepeatProbe_keeping p amp phase).grows h
  | xchkRun p dev => exact (xchkRun_keeping p dev).grows h
  | recalApply port => exact (recalApply_keeping port).grows h
  | xpdrFieldAppear strength battery => exact (xpdrFieldAppear_keeping strength battery).grows h
  | xpdrFieldLost gap => exact (xpdrFieldLost_keeping gap).grows h
  | xpdrSessionIdleEnd => exact xpdrSessionIdleEnd_keeping.grows h
  | xpdrSupplyDrop => exact xpdrSupplyDrop_keeping.grows h
  | xpdrFrameDiscard => exact xpdrFrameDiscard_keeping.grows h
  | scan body => exact (scan_keeping body).grows h
  | select body => exact (select_keeping body).grows h
  | aelyrHalt body => exact (aelyrHalt_keeping body).grows h
  | read body => exact (read_keeping body).grows h
  | write body => exact (write_keeping body).grows h
  | lockBlock body => exact (lockBlock_keeping body).grows h
  | areaInfo body => exact (areaInfo_keeping body).grows h
  | authPwd body => exact (authPwd_keeping body).grows h
  | setPwd body => exact (setPwd_keeping body).grows h
  | getNonce body => exact (getNonce_keeping body).grows h
  | unlock => exact unlockRow_grows h
  | readCnt body => exact (readCnt_keeping body).grows h
  | incCnt body => exact (incCnt_keeping body).grows h
  | dbBegin body => exact (dbBegin_keeping body).grows h
  | dbEnd body => exact (dbEnd_keeping body).grows h
  | rapidSync pilot => exact (rapidSync_keeping pilot).grows h
  | rapidAnswer challenge => exact (rapidAnswer_keeping challenge).grows h
  | dbArmedTimeout => exact dbArmedTimeout_keeping.grows h
  | getId body => exact (getId_keeping body).grows h
  | readPage body => exact (readPage_keeping body).grows h
  | writePage body => exact (writePage_keeping body).grows h
  | login body => exact (login_keeping body).grows h
  | logout body => exact (logout_keeping body).grows h
  | setPassword body => exact (setPassword_keeping body).grows h
  | lockPage body => exact (lockPage_keeping body).grows h
  | xpdrDeferredCommit => exact xpdrDeferredCommit_keeping.grows h
  | journalCheck => exact journalCheck_keeping.grows h
  | eoVthReached => exact eoVthReached_grows h
  | eoArmExpiry => exact eoArmExpiry_keeping.grows h
  | emopenPulseEnd vstore => exact (emopenPulseEnd_keeping vstore).grows h
  | registerWrite addr value side => exact (registerWrite_keeping addr value side).grows h
  | unknownCode proto code body => exact (unknownCode_keeping proto code body).grows h
  | commitReserveMet => exact commitReserveMet_keeping.grows h
  | kilnOperationDone => exact kilnOperationDone_keeping.grows h
  | calMeasurementEnd p m => exact (calMeasurementEnd_keeping p m).grows h
  | couplingSourceEnd m => exact (couplingSourceEnd_keeping m).grows h
  | vsysRemoved => exact vsysRemoved_keeping.grows h
  | vioLoss => exact vioLoss_keeping.grows h
  | vioReturn => exact vioReturn_keeping.grows h
  | hearthJtagHalt halt => exact (hearthJtagHalt_keeping halt).grows h
end Sys2Proof.Machine
end

