-- ==== Sys2Proof/Laws/Answers.lean ====
section
/-! SUPPORT. How a row's answer follows from what its meaning makes ready: responses, waits, events, ended jobs and Ash records. -/

namespace Sys2Proof.Machine

theorem ashPut_frame (s : State) (i : AshItem) : s.ashPut i = { s with kiln := (s.ashPut i).kiln } := by
  unfold State.ashPut; split <;> rfl

theorem ash_frame (s : State) (a b : Nat) (d : List Byte) : s.ash a b d = { s with kiln := (s.ash a b d).kiln } := by
  unfold State.ash
  dsimp only
  split
  · exact ashPut_frame _ _
  · calc _ = _ := ashPut_frame _ _
      _ = _ := by rw [ashPut_frame s]

theorem ashPut_running (s : State) (i : AshItem) (l : List Running) : ({ s with running := l } : State).ashPut i = { s.ashPut i with running := l } := by
  unfold State.ashPut; dsimp only; split <;> rfl

theorem ash_running (s : State) (a b : Nat) (d : List Byte) (l : List Running) : ({ s with running := l } : State).ash a b d = { s.ash a b d with running := l } := by
  unfold State.ash
  dsimp only
  rw [show ({ s with running := l } : State).ashFlags = s.ashFlags from rfl, show ({ s with running := l } : State).ashTime = s.ashTime from rfl, ashPut_running]
  split
  · rfl
  · exact ashPut_running _ _ _

theorem ash_parts (s : State) (a b : Nat) (d : List Byte) : (s.ash a b d).raised = s.raised ∧ (s.ash a b d).pending = s.pending := by
  rw [ash_frame]; exact ⟨rfl, rfl⟩

theorem ports_trans {x y s : State} (h1 : x = { y with ports := x.ports }) (h2 : y = { s with ports := y.ports }) : x = { s with ports := x.ports } := by
  calc x = { y with ports := x.ports } := h1
    _ = { s with ports := x.ports } := by rw [h2]

theorem randomFrom_length (k n : Nat) : (randomFrom k n).length = n := by
  induction n generalizing k with
  | zero => rfl
  | succ n ih => simp [randomFrom, ih]

theorem leaves_of {i : Instr} {f : State → State} {s u : State} (e : exec i = run f) (h : f s = u) : Leaves i s u := by
  unfold Leaves; rw [e, ← h]; rfl

theorem freeNat_lt (k n : Nat) (h : 0 < n) : Config.freeNat k % n < n := Nat.mod_lt _ h

/-- An accepted row runs its meaning with the command outstanding. -/
theorem runs_of {i : Instr} {s u : State} {o : Op} {h : HostCmd} (e : hostOp i = some (o, h))
    (hb : o.body (o.cmd h) (s.opened (o.cmd h)) = u)
    (hg : o.gate (o.cmd h) (s.opened (o.cmd h)) = o.gate (o.cmd h) s := by rfl)
    (hs : ∀ c s, o.onSegment c 0 s = s := by intros; rfl) : Runs i s o h u := by
  intro a
  have hf : s.decideLanded.hostRow o h = u := (accepted_body e a hg (fun c => by rw [hs]; exact ⟨rfl, rfl⟩)).trans (by rw [hs, hb])
  unfold Leaves
  rw [hostOp_exec e, ← hf]
  rfl

theorem respond_flush_pending (u : State) (c : Cmd) (st : Nat) (pl : List Byte) : ((u.respond c st pl).flush).pending = u.pending := by
  rw [State.flush_pending]; rfl

theorem exec_ended {i : Instr} {f : State → State} {s u : State} {sel : Running → Bool} {r : Running} {st : Nat} {pl : List Byte} (e : exec i = run f)
    (h : f s = ({ u with running := dropFirst sel u.running } : State).respond r.cmd st pl) (hp : u.pending = s.pending) : exec i s = .next (u.ended sel r st pl) :=
  exec_flush e h rfl ((respond_flush_pending _ _ _ _).trans hp)

theorem powerSync_held (s : State) (p : PortNum) (h : DomainOn s p) (hh : s.holdsPower p = true) : s.powerSync p = s := by
  unfold State.powerSync
  rw [hh]
  rw [if_pos (by rfl)]
  have key : ∀ (s : State) q, s.portOn q = true → s.modSvc q (fun v => { v with powered := true }) = s := by
    intro s q hq
    refine State.modPort_self s q _ ?_
    unfold State.portOn at hq
    generalize s.port q = x at hq ⊢
    obtain ⟨⟩ := x
    rename_i v
    obtain ⟨⟩ := v
    simp_all
  rw [List.foldl_cons, List.foldl_cons, List.foldl_nil, key s p h.1, key s _ h.2]

theorem holds_opened (s : State) (p : PortNum) (h : (s.port p).svc.svc = .opened) : s.holdsPower p = true := by
  unfold State.holdsPower; simp [h]

theorem schedChange_none (s : State) (p : PortNum) (h : s.groupOf p = none) : s.schedChange p = s := by
  unfold State.schedChange; rw [h]

theorem respond_port (u : State) (c : Cmd) (st : Nat) (pl : List Byte) (q : PortNum) : (u.respond c st pl).port q = u.port q := rfl

theorem sibling_ne (p : PortNum) : sibling p ≠ p := by revert p; decide

theorem DomainOn.congr {s t : State} {p : PortNum} (h : DomainOn s p) (h1 : (t.port p).svc.powered = (s.port p).svc.powered) (h2 : t.port (sibling p) = s.port (sibling p)) : DomainOn t p := by
  obtain ⟨a, b⟩ := h
  exact ⟨by unfold State.portOn at *; rw [h1]; exact a, by unfold State.portOn at *; rw [h2]; exact b⟩

theorem findJob_run {s t : State} (h : t.running = s.running) (sel : Running → Bool) : t.findJob sel = s.findJob sel := by
  unfold State.findJob; rw [h]

theorem endJob_nil (s : State) (sel : Running → Bool) (st : Nat) (pl : List Byte) (h : s.findJob sel = none) : s.endJob sel st pl = s := by
  unfold State.endJob; rw [h]

theorem endJob_of (s : State) (sel : Running → Bool) (st : Nat) (pl : List Byte) (r : Running) (h : s.findJob sel = some r) :
    s.endJob sel st pl = ({ s with running := dropFirst sel s.running } : State).respond r.cmd st pl := by
  unfold State.endJob; rw [h]

theorem imageIds_congr {s t : State} (h : t.sram = s.sram) (p : PortNum) : t.imageIds p = wordsBytes [s.imgWord p 8, s.imgWord p 12] := by
  unfold State.imageIds State.imgWord; rw [h]

theorem heldImages_opened (s : State) (c : Cmd) : (s.opened c).heldImages = s.heldImages := by
  unfold State.heldImages
  have : (s.opened c).hosts.toList.map (fun h => (h.chains.filter fun x => x.opcode == 0x0A03 && !x.expired).length)
      = s.hosts.toList.map (fun h => (h.chains.filter fun x => x.opcode == 0x0A03 && !x.expired).length) := by
    have e : (s.opened c).hosts.map (fun h => (h.chains.filter fun x => x.opcode == 0x0A03 && !x.expired).length)
      = s.hosts.map (fun h => (h.chains.filter fun x => x.opcode == 0x0A03 && !x.expired).length) := by
      ext i hi
      have := State.opened_host_chains s c ⟨i, hi⟩
      unfold State.host at this
      simp only [Vector.getElem_map]
      have e1 : ((s.opened c).hosts[i]'hi).chains = (s.hosts[i]'hi).chains := this
      rw [e1]
    have e2 := congrArg Vector.toList e
    simpa [Vector.toList_map] using e2
  rw [this]
  rfl

theorem gateReload_opened (s : State) (c d : Cmd) : gateReload d (s.opened c) = gateReload d s := by
  unfold gateReload
  rw [heldImages_opened]
  have : ((s.opened c).host d.hp).chainOf d.target = (s.host d.hp).chainOf d.target := by
    unfold HostPort.chainOf; rw [State.opened_host_chains]
  rw [this]

theorem respond_opened_ash (s : State) (c : Cmd) (a b : Nat) (d : List Byte) : (s.opened c).ash a b d = (s.ash a b d).opened c := by
  unfold State.ash
  rw [show (s.opened c).ashFlags = s.ashFlags from rfl, show (s.opened c).ashTime = s.ashTime from rfl]
  dsimp only
  split
  · exact State.opened_ashPut _ _ _
  · rw [State.opened_ashPut, State.opened_ashPut]

theorem exec_toldDev {i : Instr} {f : State → State} {s u : State} {code : Nat} {pl : List Byte} (e : exec i = run f)
    (h : f s = u.raiseDev code pl) (r : u.raised = []) (hp : u.pending = s.pending) :
    exec i s = .next (u.toldDev (BitVec.ofNat 16 code) pl) :=
  exec_flush e h (raiseDev_flush code pl r) ((told_pending _ _ _ _ _).trans hp)

theorem devReady_flush (s : State) (m i : Nat) (r : s.raised = []) : (s.devReady m i).flush = s.readyTold m i := by
  let w := allHosts.foldl (fun (t : State) q => t.modHost q fun x => { x with ready := true })
    { s with dev := { s.dev with imgStat := i, readyCount := s.dev.readyCount + 1 } }
  let pl := leBytes 1 (s.aonGet RSTCAUSE.LAST) ++ leBytes 1 m ++ leBytes 4 (if m = 1 then s.imageNum s.kiln.active 8 4 else 0) ++ leBytes 1 i
  have hw : w.raised = [] := r
  refine flush_events (v := w) allHosts 0x0F 0x0001 pl hw ?_ (by decide)
  show State.devReady s m i = { w with raised := _ }
  unfold State.devReady
  have : allHosts = [0, 1, 2, 3] := by decide
  rw [this]
  simp only [List.foldl_cons, List.foldl_nil, List.map_cons, List.map_nil]
  cases s
  simp only at r
  subst r
  rfl

theorem exec_ready {i : Instr} {f : State → State} {s u : State} {m k : Nat} (e : exec i = run f)
    (h : f s = u.devReady m k) (r : u.raised = []) (hp : u.pending = s.pending) :
    exec i s = .next (u.readyTold m k) :=
  exec_flush e h (devReady_flush u m k r) ((told_pending _ _ _ _ _).trans hp)

theorem raiseOwner_congr (u : State) (t code : Nat) (pl : List Byte) (f : State → State) (hf : ∀ x : State, (f x).ownerOf t = x.ownerOf t)
    (hr : ∀ (x : State) l, f { x with raised := l } = { f x with raised := l }) (hr2 : ∀ x : State, (f x).raised = x.raised) :
    f (u.raiseOwner t code pl) = (f u).raiseOwner t code pl := by
  unfold State.raiseOwner
  rw [hf]
  cases u.ownerOf t with
  | none => rfl
  | some h => unfold State.raiseTo; rw [hr, hr2]

theorem exec_toldOwner {i : Instr} {f : State → State} {s u : State} {t code : Nat} {pl : List Byte} (e : exec i = run f)
    (h : f s = u.raiseOwner t code pl) (r : u.raised = []) (hp : u.pending = s.pending) :
    exec i s = .next (u.toldOwner t (BitVec.ofNat 16 code) pl) :=
  exec_flush e h (raiseOwner_flush t code pl r) ((told_pending _ _ _ _ _).trans hp)

theorem passDone_plain (s : State) (p : PortNum) (x : Pass) (reason status : Nat) (g : Bool) (h : x.census = false) :
    s.passDone p x reason status g = (s.modSvc p fun v => { v with pass := none, prevSlots := x.visited, series := v.series && g }).raiseOwner p.val 0x0386
      (leBytes 1 p.val ++ leBytes 1 reason ++ leBytes 4 x.num ++ x.counts.flatMap (leBytes 1 ·) ++ leBytes 2 x.untracked ++ leBytes 2 status) := by
  unfold State.passDone
  rw [h]; rfl

theorem passDone_census (s : State) (p : PortNum) (x : Pass) (reason status : Nat) (g : Bool) (h : x.census = true) :
    s.passDone p x reason status g = ((s.modSvc p fun v => { v with pass := none, prevSlots := x.visited, series := v.series && g }).raiseOwner p.val 0x0385
      (leBytes 1 p.val ++ [0] ++ leBytes 2 (s.presentOn p) ++ leBytes 2 x.untracked)).raiseOwner p.val 0x0386
      (leBytes 1 p.val ++ leBytes 1 reason ++ leBytes 4 x.num ++ x.counts.flatMap (leBytes 1 ·) ++ leBytes 2 x.untracked ++ leBytes 2 status) := by
  unfold State.passDone
  rw [h]; rfl

theorem Numbered_append (l : List AshRec) (n : Nat) (r : AshRec) :
    Numbered n (l ++ [r]) ↔ Numbered n l ∧ r.body.length = 30 ∧ r.body.take 4 = leBytes 4 (n + l.length) := by
  induction l generalizing n with
  | nil => simp [Numbered]
  | cons a l ih =>
    have : n + (l.length + 1) = n + 1 + l.length := by omega
    simp [Numbered, ih, this, and_assoc]

theorem padTo_length (n : Nat) (l : List Byte) : (padTo n l).length = n := by
  unfold padTo; simp; omega

theorem leBytes_length' (n v : Nat) : (leBytes n v).length = n := by
  induction n generalizing v with
  | zero => rfl
  | succ n ih => simp [leBytes, ih]

theorem ashBody_len (n : Nat) (i : AshItem) : (ashBody n i).length = 30 := by
  unfold ashBody; simp [padTo_length, leBytes_length']

theorem ashBody_seq (n : Nat) (i : AshItem) : (ashBody n i).take 4 = leBytes 4 n := by
  unfold ashBody
  simp only [List.append_assoc]
  rw [List.take_append_of_le_length (by rw [leBytes_length'])]
  exact List.take_of_length_le (by rw [leBytes_length'])

theorem xget_xset (s : State) (f : Fld) (v : Nat) (h : f.fits) : (s.xset f v).xget f = v % 2 ^ f.len := Cells.get_set _ _ _ _ h

theorem xget_xset_ne (s : State) (f g : Fld) (v : Nat) (h : g.fits) (hd : f.apart g) : (s.xset g v).xget f = s.xget f := Cells.get_set_ne _ _ _ _ _ h hd

end Sys2Proof.Machine
end

