-- ==== Sys2Proof/WellFormed.lean ====
section
/-! DEFINITION. The commands that the outside world can send: what the operand types alone do not say. -/

namespace Sys2Proof

/-- A packet's payload holds at most 4,092 bytes (R303). -/
def HostCmd.wf (h : HostCmd) : Bool := h.payload.length ≤ 4092

/-- A received frame: collided positions lie in the frame, and each has its complex point (R107, R183). -/
def RxFrame.wf (rx : RxFrame) : Bool :=
  rx.collided.all (fun p => p < 9 * rx.bytes.length) && rx.points.length ≤ rx.collided.length

/-- A frame that port T receives holds at most 32 bytes with its code and CRC (R135). -/
def frameWf (body : List Byte) : Bool := body.length ≤ 29

/-- The reply to DB_END holds at most 64 challenge bits and a MAC of 16 bytes (R165). -/
def DbReply.wf : DbReply → Bool
  | .answered _ crx mac => crx.length ≤ 8 && mac.length ≤ 16
  | .silent => true

/-- A source's time measures every port once (R214). -/
def CouplingMeasure.wf : CouplingMeasure → Bool
  | .source m e => m.length == 8 && e.length == 8
  | .freeze | .disturbed => true

/-- Whether a command is one that the outside world can send. -/
def Instr.wf : Instr → Bool
  | .info h | .ident h | .devReset h | .getLog h | .hostConfig h | .hostStatus h | .ownClaim h | .ownRelease h
  | .ownQuery h | .kindlingScan h | .portOpen h | .portClose h | .portSet h | .fieldOn h | .fieldOff h
  | .grateSelect h | .portReset h | .portGet h | .portStatus h | .groupSet h | .groupQuery h | .transceive h
  | .aActivate h | .bActivate h | .apdu h | .deselect h | .vhbrParams h | .vCmd h | .invConfig h | .invStart h
  | .invStop h | .invQuery h | .ttRead h | .ttFind h | .ttDelete h | .ttClear h | .ttSetFlags h | .ttConfig h
  | .alScan h | .alSelect h | .alHalt h | .alRead h | .alWrite h | .alLockBlock h | .alAreaInfo h | .alAuthPwd h
  | .alSetPwd h | .alUnlock h | .alReadCnt h | .alIncCnt h | .osGetId h | .osReadPage h | .osWritePage h
  | .osLogin h | .osLogout h | .osSetPassword h | .osLockPage h | .dbRun h | .dbCal h | .dbConfig h
  | .xpdrConfig h | .xpdrAreaSet h | .xpdrRead h | .xpdrWrite h | .xpdrCntRead h | .xpdrCntInc h
  | .xpdrAreaInfo h | .xpdrUnlock h | .xpdrStatus h | .calRun h | .calExport h | .calImport h | .calCoupling h
  | .calConfig h | .calStatus h | .pwrEnter h | .wakeConfig h | .emberConfig h | .pwrStatus h | .keyInfo h
  | .keyGen h | .keyImport h | .keyExport h | .keyDelete h | .kilnRandom h | .kilnSign h | .kilnChallenge h
  | .debugUnlock h | .imageLoad h | .imageInfo h | .imageActivate h | .engineReload h | .diagCounters h
  | .portIsolate h | .tmrConfig h | .tmrArm h | .tmrRead h | .timebaseRead h | .gpioConfig h | .gpioWrite h
  | .gpioRead h | .dbgRead h | .dbgWrite h | .dbgEngine h => h.wf
  | .chainSegment h _ | .chainAbort h _ => h.wf
  | .frameReceiveEnd _ rx => rx.wf
  | .dbVerdict _ r => r.wf
  | .lkDepthBlock _ _ _ trims _ => trims.length == 8
  | .couplingSourceEnd m => m.wf
  | .brownOut supplies => supplies != 0
  | .wakeEvent sources | .offWake sources | .bankingAbandoned sources => sources != 0
  | .spiInvalidTransfer _ transfer _ => transfer != 0x02 && transfer != 0x03 && transfer != 0x05
  | .scan x | .select x | .aelyrHalt x | .read x | .write x | .lockBlock x | .areaInfo x | .authPwd x | .setPwd x
  | .getNonce x | .unlock x | .readCnt x | .incCnt x | .dbBegin x | .dbEnd x | .getId x | .readPage x
  | .writePage x | .login x | .logout x | .setPassword x | .lockPage x | .unknownCode _ _ x => frameWf x
  | .devResetFire | .spiCsFall _ | .spiWrite _ _ | .spiRead _ _ | .spiStatus _ | .spiCsRise _
  | .uartByteReceived _ | .uartGapTimeout | .uartBreak | .uartByteSent | .i2cAddressMatch _
  | .i2cWriteByte _ | .i2cReadByte | .i2cStop | .tickDecide | .chainExpiry _ _ | .hostTakesPacket _
  | .responseNextPacket _ | .gpioPinChange _ _ | .txctlFieldEnWrite _ _ | .fieldRampStart _
  | .fieldRampUpDone _ | .fieldRampDownDone _ | .txphaseWrite _ _ | .phaseApply _ | .ampApply _
  | .ampRampDone _ | .txampLock _ | .shortFault _ | .vtxUvFault _ | .vtxUvClear _ | .openFault _
  | .thermalTrip _ | .thermalLockoutEnd _ | .pllUnlock | .pllLock | .xtalOk | .xtalFail | .clkctlWrite _
  | .thermSample _ _ _ | .dutyWindow _ _ | .grateWrite _ _ | .grateShiftFrame | .grateSettleEnd _
  | .frmctlApply _ | .rxConfigApply _ | .agcWindowEnd _ _ | .adcOverload _ | .dcAcqEnd _
  | .noiseWindowEnd _ _ _ | .noiseRestart _ | .frameGrant _ | .holdOverride _ | .frameSendEnd _
  | .replyStart _ _ | .responseTimeout _ | .waitLimitExpiry _ | .guardEnd _ | .secondWindowOpen _
  | .frmstatXstart _ | .frmstatVrepP _ | .frmstatVrepX _ | .violcntRead _ | .schcntRead _
  | .rapidPhaseStart _ | .dbChallengeSlot _ _ _ | .rapidPhaseEnd _ | .dbctlLock _ | .cplCommit | .cplApply _
  | .cplCheck | .adaptResume _ | .groupBoundary _ | .invPassStart _ | .invSlotStart _ | .invPassEnd _
  | .sighting _ | .slotEnd _ | .engineResponse _ | .engineReady _ | .engineStartTimeout _
  | .engineResponseTimeout _ | .engineImageVerdict | .dbeRing _ _ _ _ _ | .dbhRingClear _ | .engCtlHalt _ _
  | .engCtlStep _ | .txDataPush _ _ _ | .txDataCommit _ _ _ | .txDataAbort _ _ | .rxDataRead _ _
  | .fifoFlush _ _ | .fifoClrcnt _ _ | .fifoSpillSet _ _ _ | .fifoStallRelease _ | .flueMove _ _ | .nop _
  | .add _ _ _ _ | .adc _ _ _ _ | .sub _ _ _ _ | .sbc _ _ _ _ | .and _ _ _ _ | .or _ _ _ _ | .xor _ _ _ _
  | .cmp _ _ _ | .tst _ _ _ | .neg _ _ _ | .not _ _ _ | .mov _ _ _ | .lsl _ _ _ _ | .lsr _ _ _ _
  | .asr _ _ _ _ | .ror _ _ _ _ | .addi _ _ _ _ | .subi _ _ _ _ | .andi _ _ _ _ | .ori _ _ _ _
  | .xori _ _ _ _ | .cmpi _ _ _ | .movi _ _ _ | .movhi _ _ _ | .mul _ _ _ _ | .mulh _ _ _ _ _
  | .divu _ _ _ _ _ | .divs _ _ _ _ _ | .ldw _ _ _ _ _ | .ldh _ _ _ _ _ | .ldb _ _ _ _ _ | .stw _ _ _ _ _
  | .sth _ _ _ _ _ | .stb _ _ _ _ _ | .ldc _ _ _ _ _ | .b _ _ _ | .call _ _ | .jmp _ _ | .callr _ _
  | .bset _ _ | .bclr _ _ | .bnot _ _ | .bmov _ _ _ _ | .band _ _ _ _ | .bor _ _ _ _ | .bxor _ _ _ _
  | .btst _ _ _ _ | .bget _ _ _ | .bput _ _ _ | .rep _ _ | .crci _ _ _ | .crc _ _ _ _ _ | .crcf _ _ _
  | .fpush _ _ _ | .fpushm _ _ _ | .fpop _ _ | .fpopm _ _ | .fabort _ | .fsend _ _ | .fres _ _ | .frapid _ _
  | .wait _ _ _ | .waitEnd _ | .trap _ _ | .rett _ | .halt _ | .gets _ _ _ | .tmrArmBit _ | .tmrStopBit _
  | .tmrCmpvWrite _ _ | .tmrPrescWrite _ _ | .tmrCompare _ | .tmrCapture _ _ | .tmrCapRead _
  | .timerSourceStop _ | .timerMakeup _ _ | .wkcmpHiWrite _ | .wakeCompare | .wdtKick _ | .wdtctlLock
  | .wdtExpiry | .powerOnReset | .rstNReset _ | .sysResetRelease _ _ | .kilnSelfTestDone _
  | .kilnImageVerdict | .fullServiceStart | .trngStartDone _ | .trngHealthFail | .nonceExpiry _
  | .tamperInput _ _ | .tamperResponseDeferred | .glitchDetect _ | .kilnTempRange _ | .ashCommit
  | .suppressedCommit | .bankingStart | .bankingDone | .entryTimeout | .slowclkSwitch _ | .emberProbe _ _ _
  | .emberRepeatProbe _ _ _ | .xchkRun _ _ | .recalApply _ | .xpdrFieldAppear _ _ | .xpdrFieldLost _
  | .xpdrSessionIdleEnd | .xpdrSupplyDrop | .xpdrFrameDiscard | .rapidSync _ | .rapidAnswer _
  | .dbArmedTimeout | .xpdrDeferredCommit | .journalCheck | .eoVthReached _ | .eoArmExpiry
  | .emopenPulseEnd _ | .registerWrite _ _ _ | .commitReserveMet | .kilnOperationDone
  | .calMeasurementEnd _ _ | .vsysRemoved | .vioLoss | .vioReturn | .hearthJtagHalt _ => true

end Sys2Proof
end

