-- ==== Sys2Proof/Laws/PerInstr.lean ====
section
/-! SUPPORT. The family Row: no command is both a row of an engine and a row of a host port, an engine row is always one
that can be sent, and a host row is one exactly when its packet is. -/

namespace Sys2Proof.Laws

open Sys2Proof Sys2Proof.Machine

/-- An engine row is no host row and is always well formed; a host row is well formed exactly when its packet is. -/
def Row.Statement (i : Instr) : Prop :=
  (engRow i ≠ none → hostOp i = none ∧ i.wf = true) ∧
    ∀ o h, hostOp i = some (o, h) → engRow i = none ∧ i.wf = h.wf

theorem Row.of_engine (i : Instr) (hh : hostOp i = none) (hw : i.wf = true) : Row.Statement i :=
  ⟨fun _ => ⟨hh, hw⟩, fun o h e => by rw [hh] at e; cases e⟩

theorem Row.of_host (i : Instr) (h : HostCmd) (o : Op) (hh : hostOp i = some (o, h)) (he : engRow i = none)
    (hw : i.wf = h.wf) : Row.Statement i :=
  ⟨fun e => absurd he e, fun o' h' e => by rw [hh] at e; cases e; exact ⟨he, hw⟩⟩

theorem Row.of_neither (i : Instr) (hh : hostOp i = none) (he : engRow i = none) : Row.Statement i :=
  ⟨fun e => absurd he e, fun o h e => by rw [hh] at e; cases e⟩

theorem Row.info (h : HostCmd) : Row.Statement (.info h) := Row.of_host _ h _ rfl rfl rfl

theorem Row.ident (h : HostCmd) : Row.Statement (.ident h) := Row.of_host _ h _ rfl rfl rfl

theorem Row.devReset (h : HostCmd) : Row.Statement (.devReset h) := Row.of_host _ h _ rfl rfl rfl

theorem Row.devResetFire : Row.Statement (.devResetFire) := Row.of_neither _ rfl rfl

theorem Row.getLog (h : HostCmd) : Row.Statement (.getLog h) := Row.of_host _ h _ rfl rfl rfl

theorem Row.hostConfig (h : HostCmd) : Row.Statement (.hostConfig h) := Row.of_host _ h _ rfl rfl rfl

theorem Row.hostStatus (h : HostCmd) : Row.Statement (.hostStatus h) := Row.of_host _ h _ rfl rfl rfl

theorem Row.ownClaim (h : HostCmd) : Row.Statement (.ownClaim h) := Row.of_host _ h _ rfl rfl rfl

theorem Row.ownRelease (h : HostCmd) : Row.Statement (.ownRelease h) := Row.of_host _ h _ rfl rfl rfl

theorem Row.ownQuery (h : HostCmd) : Row.Statement (.ownQuery h) := Row.of_host _ h _ rfl rfl rfl

theorem Row.kindlingScan (h : HostCmd) : Row.Statement (.kindlingScan h) := Row.of_host _ h _ rfl rfl rfl

theorem Row.portOpen (h : HostCmd) : Row.Statement (.portOpen h) := Row.of_host _ h _ rfl rfl rfl

theorem Row.portClose (h : HostCmd) : Row.Statement (.portClose h) := Row.of_host _ h _ rfl rfl rfl

theorem Row.portSet (h : HostCmd) : Row.Statement (.portSet h) := Row.of_host _ h _ rfl rfl rfl

theorem Row.fieldOn (h : HostCmd) : Row.Statement (.fieldOn h) := Row.of_host _ h _ rfl rfl rfl

theorem Row.fieldOff (h : HostCmd) : Row.Statement (.fieldOff h) := Row.of_host _ h _ rfl rfl rfl

theorem Row.grateSelect (h : HostCmd) : Row.Statement (.grateSelect h) := Row.of_host _ h _ rfl rfl rfl

theorem Row.portReset (h : HostCmd) : Row.Statement (.portReset h) := Row.of_host _ h _ rfl rfl rfl

theorem Row.portGet (h : HostCmd) : Row.Statement (.portGet h) := Row.of_host _ h _ rfl rfl rfl

theorem Row.portStatus (h : HostCmd) : Row.Statement (.portStatus h) := Row.of_host _ h _ rfl rfl rfl

theorem Row.groupSet (h : HostCmd) : Row.Statement (.groupSet h) := Row.of_host _ h _ rfl rfl rfl

theorem Row.groupQuery (h : HostCmd) : Row.Statement (.groupQuery h) := Row.of_host _ h _ rfl rfl rfl

theorem Row.transceive (h : HostCmd) : Row.Statement (.transceive h) := Row.of_host _ h _ rfl rfl rfl

theorem Row.aActivate (h : HostCmd) : Row.Statement (.aActivate h) := Row.of_host _ h _ rfl rfl rfl

theorem Row.bActivate (h : HostCmd) : Row.Statement (.bActivate h) := Row.of_host _ h _ rfl rfl rfl

theorem Row.apdu (h : HostCmd) : Row.Statement (.apdu h) := Row.of_host _ h _ rfl rfl rfl

theorem Row.deselect (h : HostCmd) : Row.Statement (.deselect h) := Row.of_host _ h _ rfl rfl rfl

theorem Row.vhbrParams (h : HostCmd) : Row.Statement (.vhbrParams h) := Row.of_host _ h _ rfl rfl rfl

theorem Row.vCmd (h : HostCmd) : Row.Statement (.vCmd h) := Row.of_host _ h _ rfl rfl rfl

theorem Row.invConfig (h : HostCmd) : Row.Statement (.invConfig h) := Row.of_host _ h _ rfl rfl rfl

theorem Row.invStart (h : HostCmd) : Row.Statement (.invStart h) := Row.of_host _ h _ rfl rfl rfl

theorem Row.invStop (h : HostCmd) : Row.Statement (.invStop h) := Row.of_host _ h _ rfl rfl rfl

theorem Row.invQuery (h : HostCmd) : Row.Statement (.invQuery h) := Row.of_host _ h _ rfl rfl rfl

theorem Row.ttRead (h : HostCmd) : Row.Statement (.ttRead h) := Row.of_host _ h _ rfl rfl rfl

theorem Row.ttFind (h : HostCmd) : Row.Statement (.ttFind h) := Row.of_host _ h _ rfl rfl rfl

theorem Row.ttDelete (h : HostCmd) : Row.Statement (.ttDelete h) := Row.of_host _ h _ rfl rfl rfl

theorem Row.ttClear (h : HostCmd) : Row.Statement (.ttClear h) := Row.of_host _ h _ rfl rfl rfl

theorem Row.ttSetFlags (h : HostCmd) : Row.Statement (.ttSetFlags h) := Row.of_host _ h _ rfl rfl rfl

theorem Row.ttConfig (h : HostCmd) : Row.Statement (.ttConfig h) := Row.of_host _ h _ rfl rfl rfl

theorem Row.alScan (h : HostCmd) : Row.Statement (.alScan h) := Row.of_host _ h _ rfl rfl rfl

theorem Row.alSelect (h : HostCmd) : Row.Statement (.alSelect h) := Row.of_host _ h _ rfl rfl rfl

theorem Row.alHalt (h : HostCmd) : Row.Statement (.alHalt h) := Row.of_host _ h _ rfl rfl rfl

theorem Row.alRead (h : HostCmd) : Row.Statement (.alRead h) := Row.of_host _ h _ rfl rfl rfl

theorem Row.alWrite (h : HostCmd) : Row.Statement (.alWrite h) := Row.of_host _ h _ rfl rfl rfl

theorem Row.alLockBlock (h : HostCmd) : Row.Statement (.alLockBlock h) := Row.of_host _ h _ rfl rfl rfl

theorem Row.alAreaInfo (h : HostCmd) : Row.Statement (.alAreaInfo h) := Row.of_host _ h _ rfl rfl rfl

theorem Row.alAuthPwd (h : HostCmd) : Row.Statement (.alAuthPwd h) := Row.of_host _ h _ rfl rfl rfl

theorem Row.alSetPwd (h : HostCmd) : Row.Statement (.alSetPwd h) := Row.of_host _ h _ rfl rfl rfl

theorem Row.alUnlock (h : HostCmd) : Row.Statement (.alUnlock h) := Row.of_host _ h _ rfl rfl rfl

theorem Row.alReadCnt (h : HostCmd) : Row.Statement (.alReadCnt h) := Row.of_host _ h _ rfl rfl rfl

theorem Row.alIncCnt (h : HostCmd) : Row.Statement (.alIncCnt h) := Row.of_host _ h _ rfl rfl rfl

theorem Row.osGetId (h : HostCmd) : Row.Statement (.osGetId h) := Row.of_host _ h _ rfl rfl rfl

theorem Row.osReadPage (h : HostCmd) : Row.Statement (.osReadPage h) := Row.of_host _ h _ rfl rfl rfl

theorem Row.osWritePage (h : HostCmd) : Row.Statement (.osWritePage h) := Row.of_host _ h _ rfl rfl rfl

theorem Row.osLogin (h : HostCmd) : Row.Statement (.osLogin h) := Row.of_host _ h _ rfl rfl rfl

theorem Row.osLogout (h : HostCmd) : Row.Statement (.osLogout h) := Row.of_host _ h _ rfl rfl rfl

theorem Row.osSetPassword (h : HostCmd) : Row.Statement (.osSetPassword h) := Row.of_host _ h _ rfl rfl rfl

theorem Row.osLockPage (h : HostCmd) : Row.Statement (.osLockPage h) := Row.of_host _ h _ rfl rfl rfl

theorem Row.dbRun (h : HostCmd) : Row.Statement (.dbRun h) := Row.of_host _ h _ rfl rfl rfl

theorem Row.dbCal (h : HostCmd) : Row.Statement (.dbCal h) := Row.of_host _ h _ rfl rfl rfl

theorem Row.dbConfig (h : HostCmd) : Row.Statement (.dbConfig h) := Row.of_host _ h _ rfl rfl rfl

theorem Row.xpdrConfig (h : HostCmd) : Row.Statement (.xpdrConfig h) := Row.of_host _ h _ rfl rfl rfl

theorem Row.xpdrAreaSet (h : HostCmd) : Row.Statement (.xpdrAreaSet h) := Row.of_host _ h _ rfl rfl rfl

theorem Row.xpdrRead (h : HostCmd) : Row.Statement (.xpdrRead h) := Row.of_host _ h _ rfl rfl rfl

theorem Row.xpdrWrite (h : HostCmd) : Row.Statement (.xpdrWrite h) := Row.of_host _ h _ rfl rfl rfl

theorem Row.xpdrCntRead (h : HostCmd) : Row.Statement (.xpdrCntRead h) := Row.of_host _ h _ rfl rfl rfl

theorem Row.xpdrCntInc (h : HostCmd) : Row.Statement (.xpdrCntInc h) := Row.of_host _ h _ rfl rfl rfl

theorem Row.xpdrAreaInfo (h : HostCmd) : Row.Statement (.xpdrAreaInfo h) := Row.of_host _ h _ rfl rfl rfl

theorem Row.xpdrUnlock (h : HostCmd) : Row.Statement (.xpdrUnlock h) := Row.of_host _ h _ rfl rfl rfl

theorem Row.xpdrStatus (h : HostCmd) : Row.Statement (.xpdrStatus h) := Row.of_host _ h _ rfl rfl rfl

theorem Row.calRun (h : HostCmd) : Row.Statement (.calRun h) := Row.of_host _ h _ rfl rfl rfl

theorem Row.calExport (h : HostCmd) : Row.Statement (.calExport h) := Row.of_host _ h _ rfl rfl rfl

theorem Row.calImport (h : HostCmd) : Row.Statement (.calImport h) := Row.of_host _ h _ rfl rfl rfl

theorem Row.calCoupling (h : HostCmd) : Row.Statement (.calCoupling h) := Row.of_host _ h _ rfl rfl rfl

theorem Row.calConfig (h : HostCmd) : Row.Statement (.calConfig h) := Row.of_host _ h _ rfl rfl rfl

theorem Row.calStatus (h : HostCmd) : Row.Statement (.calStatus h) := Row.of_host _ h _ rfl rfl rfl

theorem Row.pwrEnter (h : HostCmd) : Row.Statement (.pwrEnter h) := Row.of_host _ h _ rfl rfl rfl

theorem Row.wakeConfig (h : HostCmd) : Row.Statement (.wakeConfig h) := Row.of_host _ h _ rfl rfl rfl

theorem Row.emberConfig (h : HostCmd) : Row.Statement (.emberConfig h) := Row.of_host _ h _ rfl rfl rfl

theorem Row.pwrStatus (h : HostCmd) : Row.Statement (.pwrStatus h) := Row.of_host _ h _ rfl rfl rfl

theorem Row.keyInfo (h : HostCmd) : Row.Statement (.keyInfo h) := Row.of_host _ h _ rfl rfl rfl

theorem Row.keyGen (h : HostCmd) : Row.Statement (.keyGen h) := Row.of_host _ h _ rfl rfl rfl

theorem Row.keyImport (h : HostCmd) : Row.Statement (.keyImport h) := Row.of_host _ h _ rfl rfl rfl

theorem Row.keyExport (h : HostCmd) : Row.Statement (.keyExport h) := Row.of_host _ h _ rfl rfl rfl

theorem Row.keyDelete (h : HostCmd) : Row.Statement (.keyDelete h) := Row.of_host _ h _ rfl rfl rfl

theorem Row.kilnRandom (h : HostCmd) : Row.Statement (.kilnRandom h) := Row.of_host _ h _ rfl rfl rfl

theorem Row.kilnSign (h : HostCmd) : Row.Statement (.kilnSign h) := Row.of_host _ h _ rfl rfl rfl

theorem Row.kilnChallenge (h : HostCmd) : Row.Statement (.kilnChallenge h) := Row.of_host _ h _ rfl rfl rfl

theorem Row.debugUnlock (h : HostCmd) : Row.Statement (.debugUnlock h) := Row.of_host _ h _ rfl rfl rfl

theorem Row.imageLoad (h : HostCmd) : Row.Statement (.imageLoad h) := Row.of_host _ h _ rfl rfl rfl

theorem Row.imageInfo (h : HostCmd) : Row.Statement (.imageInfo h) := Row.of_host _ h _ rfl rfl rfl

theorem Row.imageActivate (h : HostCmd) : Row.Statement (.imageActivate h) := Row.of_host _ h _ rfl rfl rfl

theorem Row.engineReload (h : HostCmd) : Row.Statement (.engineReload h) := Row.of_host _ h _ rfl rfl rfl

theorem Row.diagCounters (h : HostCmd) : Row.Statement (.diagCounters h) := Row.of_host _ h _ rfl rfl rfl

theorem Row.portIsolate (h : HostCmd) : Row.Statement (.portIsolate h) := Row.of_host _ h _ rfl rfl rfl

theorem Row.tmrConfig (h : HostCmd) : Row.Statement (.tmrConfig h) := Row.of_host _ h _ rfl rfl rfl

theorem Row.tmrArm (h : HostCmd) : Row.Statement (.tmrArm h) := Row.of_host _ h _ rfl rfl rfl

theorem Row.tmrRead (h : HostCmd) : Row.Statement (.tmrRead h) := Row.of_host _ h _ rfl rfl rfl

theorem Row.timebaseRead (h : HostCmd) : Row.Statement (.timebaseRead h) := Row.of_host _ h _ rfl rfl rfl

theorem Row.gpioConfig (h : HostCmd) : Row.Statement (.gpioConfig h) := Row.of_host _ h _ rfl rfl rfl

theorem Row.gpioWrite (h : HostCmd) : Row.Statement (.gpioWrite h) := Row.of_host _ h _ rfl rfl rfl

theorem Row.gpioRead (h : HostCmd) : Row.Statement (.gpioRead h) := Row.of_host _ h _ rfl rfl rfl

theorem Row.dbgRead (h : HostCmd) : Row.Statement (.dbgRead h) := Row.of_host _ h _ rfl rfl rfl

theorem Row.dbgWrite (h : HostCmd) : Row.Statement (.dbgWrite h) := Row.of_host _ h _ rfl rfl rfl

theorem Row.dbgEngine (h : HostCmd) : Row.Statement (.dbgEngine h) := Row.of_host _ h _ rfl rfl rfl

theorem Row.spiCsFall (hp : SpiPort) : Row.Statement (.spiCsFall hp) := Row.of_neither _ rfl rfl

theorem Row.spiWrite (hp : SpiPort) (bytes : List Byte) : Row.Statement (.spiWrite hp bytes) :=
  Row.of_neither _ rfl rfl

theorem Row.spiRead (hp : SpiPort) (count : Nat) : Row.Statement (.spiRead hp count) := Row.of_neither _ rfl rfl

theorem Row.spiStatus (hp : SpiPort) : Row.Statement (.spiStatus hp) := Row.of_neither _ rfl rfl

theorem Row.spiInvalidTransfer (hp : SpiPort) (transfer : Byte) (count : Nat) : Row.Statement (.spiInvalidTransfer hp transfer count) :=
  Row.of_neither _ rfl rfl

theorem Row.spiCsRise (hp : SpiPort) : Row.Statement (.spiCsRise hp) := Row.of_neither _ rfl rfl

theorem Row.uartByteReceived (b : Byte) : Row.Statement (.uartByteReceived b) := Row.of_neither _ rfl rfl

theorem Row.uartGapTimeout : Row.Statement (.uartGapTimeout) := Row.of_neither _ rfl rfl

theorem Row.uartBreak : Row.Statement (.uartBreak) := Row.of_neither _ rfl rfl

theorem Row.uartByteSent : Row.Statement (.uartByteSent) := Row.of_neither _ rfl rfl

theorem Row.i2cAddressMatch (isRead : Bool) : Row.Statement (.i2cAddressMatch isRead) := Row.of_neither _ rfl rfl

theorem Row.i2cWriteByte (b : Byte) : Row.Statement (.i2cWriteByte b) := Row.of_neither _ rfl rfl

theorem Row.i2cReadByte : Row.Statement (.i2cReadByte) := Row.of_neither _ rfl rfl

theorem Row.i2cStop : Row.Statement (.i2cStop) := Row.of_neither _ rfl rfl

theorem Row.tickDecide : Row.Statement (.tickDecide) := Row.of_neither _ rfl rfl

theorem Row.chainSegment (h : HostCmd) (opcode : Half) : Row.Statement (.chainSegment h opcode) :=
  Row.of_neither _ rfl rfl

theorem Row.chainAbort (h : HostCmd) (opcode : Half) : Row.Statement (.chainAbort h opcode) :=
  Row.of_neither _ rfl rfl

theorem Row.chainExpiry (hp : HostNum) (target : Byte) : Row.Statement (.chainExpiry hp target) :=
  Row.of_neither _ rfl rfl

theorem Row.hostTakesPacket (hp : HostNum) : Row.Statement (.hostTakesPacket hp) := Row.of_neither _ rfl rfl

theorem Row.responseNextPacket (hp : HostNum) : Row.Statement (.responseNextPacket hp) := Row.of_neither _ rfl rfl

theorem Row.gpioPinChange (pin : Fin 24) (level : Bool) : Row.Statement (.gpioPinChange pin level) :=
  Row.of_neither _ rfl rfl

theorem Row.txctlFieldEnWrite (p : PortNum) (value : Bool) : Row.Statement (.txctlFieldEnWrite p value) :=
  Row.of_neither _ rfl rfl

theorem Row.fieldRampStart (p : PortNum) : Row.Statement (.fieldRampStart p) := Row.of_neither _ rfl rfl

theorem Row.fieldRampUpDone (p : PortNum) : Row.Statement (.fieldRampUpDone p) := Row.of_neither _ rfl rfl

theorem Row.fieldRampDownDone (p : PortNum) : Row.Statement (.fieldRampDownDone p) := Row.of_neither _ rfl rfl

theorem Row.txphaseWrite (p : PortNum) (phase : Byte) : Row.Statement (.txphaseWrite p phase) :=
  Row.of_neither _ rfl rfl

theorem Row.phaseApply (p : PortNum) : Row.Statement (.phaseApply p) := Row.of_neither _ rfl rfl

theorem Row.ampApply (p : PortNum) : Row.Statement (.ampApply p) := Row.of_neither _ rfl rfl

theorem Row.ampRampDone (p : PortNum) : Row.Statement (.ampRampDone p) := Row.of_neither _ rfl rfl

theorem Row.txampLock (p : PortNum) : Row.Statement (.txampLock p) := Row.of_neither _ rfl rfl

theorem Row.shortFault (p : PortNum) : Row.Statement (.shortFault p) := Row.of_neither _ rfl rfl

theorem Row.vtxUvFault (rail : Fin 4) : Row.Statement (.vtxUvFault rail) := Row.of_neither _ rfl rfl

theorem Row.vtxUvClear (rail : Fin 4) : Row.Statement (.vtxUvClear rail) := Row.of_neither _ rfl rfl

theorem Row.openFault (p : PortNum) : Row.Statement (.openFault p) := Row.of_neither _ rfl rfl

theorem Row.thermalTrip (dom : Fin 4) : Row.Statement (.thermalTrip dom) := Row.of_neither _ rfl rfl

theorem Row.thermalLockoutEnd (dom : Fin 4) : Row.Statement (.thermalLockoutEnd dom) := Row.of_neither _ rfl rfl

theorem Row.pllUnlock : Row.Statement (.pllUnlock) := Row.of_neither _ rfl rfl

theorem Row.pllLock : Row.Statement (.pllLock) := Row.of_neither _ rfl rfl

theorem Row.xtalOk : Row.Statement (.xtalOk) := Row.of_neither _ rfl rfl

theorem Row.xtalFail : Row.Statement (.xtalFail) := Row.of_neither _ rfl rfl

theorem Row.clkctlWrite (value : Word) : Row.Statement (.clkctlWrite value) := Row.of_neither _ rfl rfl

theorem Row.thermSample (dom : Fin 5) (tj : BitVec 9) (vtx : BitVec 10) : Row.Statement (.thermSample dom tj vtx) :=
  Row.of_neither _ rfl rfl

theorem Row.dutyWindow (p : PortNum) (onTime : Nat) : Row.Statement (.dutyWindow p onTime) := Row.of_neither _ rfl rfl

theorem Row.grateWrite (p : PortNum) (value : Word) : Row.Statement (.grateWrite p value) := Row.of_neither _ rfl rfl

theorem Row.grateShiftFrame : Row.Statement (.grateShiftFrame) := Row.of_neither _ rfl rfl

theorem Row.grateSettleEnd (p : PortNum) : Row.Statement (.grateSettleEnd p) := Row.of_neither _ rfl rfl

theorem Row.frmctlApply (p : PortNum) : Row.Statement (.frmctlApply p) := Row.of_neither _ rfl rfl

theorem Row.rxConfigApply (p : PortNum) : Row.Statement (.rxConfigApply p) := Row.of_neither _ rfl rfl

theorem Row.agcWindowEnd (p : PortNum) (peak : Int) : Row.Statement (.agcWindowEnd p peak) := Row.of_neither _ rfl rfl

theorem Row.adcOverload (p : PortNum) : Row.Statement (.adcOverload p) := Row.of_neither _ rfl rfl

theorem Row.dcAcqEnd (p : PortNum) : Row.Statement (.dcAcqEnd p) := Row.of_neither _ rfl rfl

theorem Row.noiseWindowEnd (p : PortNum) (result : Int) (quiet : Bool) : Row.Statement (.noiseWindowEnd p result quiet) :=
  Row.of_neither _ rfl rfl

theorem Row.noiseRestart (p : PortNum) : Row.Statement (.noiseRestart p) := Row.of_neither _ rfl rfl

theorem Row.frameGrant (p : PortNum) : Row.Statement (.frameGrant p) := Row.of_neither _ rfl rfl

theorem Row.holdOverride (p : PortNum) : Row.Statement (.holdOverride p) := Row.of_neither _ rfl rfl

theorem Row.frameSendEnd (p : PortNum) : Row.Statement (.frameSendEnd p) := Row.of_neither _ rfl rfl

theorem Row.replyStart (p : PortNum) (t : Nat) : Row.Statement (.replyStart p t) := Row.of_neither _ rfl rfl

theorem Row.frameReceiveEnd (p : PortNum) (rx : RxFrame) : Row.Statement (.frameReceiveEnd p rx) :=
  Row.of_neither _ rfl rfl

theorem Row.responseTimeout (p : PortNum) : Row.Statement (.responseTimeout p) := Row.of_neither _ rfl rfl

theorem Row.waitLimitExpiry (p : PortNum) : Row.Statement (.waitLimitExpiry p) := Row.of_neither _ rfl rfl

theorem Row.guardEnd (p : PortNum) : Row.Statement (.guardEnd p) := Row.of_neither _ rfl rfl

theorem Row.secondWindowOpen (p : PortNum) : Row.Statement (.secondWindowOpen p) := Row.of_neither _ rfl rfl

theorem Row.frmstatXstart (p : PortNum) : Row.Statement (.frmstatXstart p) := Row.of_neither _ rfl rfl

theorem Row.frmstatVrepP (p : PortNum) : Row.Statement (.frmstatVrepP p) := Row.of_neither _ rfl rfl

theorem Row.frmstatVrepX (p : PortNum) : Row.Statement (.frmstatVrepX p) := Row.of_neither _ rfl rfl

theorem Row.violcntRead (p : PortNum) : Row.Statement (.violcntRead p) := Row.of_neither _ rfl rfl

theorem Row.schcntRead (p : PortNum) : Row.Statement (.schcntRead p) := Row.of_neither _ rfl rfl

theorem Row.rapidPhaseStart (p : PortNum) : Row.Statement (.rapidPhaseStart p) := Row.of_neither _ rfl rfl

theorem Row.dbChallengeSlot (p : PortNum) (sent : Bool) (burst : Option Burst) : Row.Statement (.dbChallengeSlot p sent burst) :=
  Row.of_neither _ rfl rfl

theorem Row.rapidPhaseEnd (p : PortNum) : Row.Statement (.rapidPhaseEnd p) := Row.of_neither _ rfl rfl

theorem Row.dbVerdict (p : PortNum) (reply : DbReply) : Row.Statement (.dbVerdict p reply) := Row.of_neither _ rfl rfl

theorem Row.dbctlLock (p : PortNum) : Row.Statement (.dbctlLock p) := Row.of_neither _ rfl rfl

theorem Row.cplCommit : Row.Statement (.cplCommit) := Row.of_neither _ rfl rfl

theorem Row.cplApply (p : PortNum) : Row.Statement (.cplApply p) := Row.of_neither _ rfl rfl

theorem Row.cplCheck : Row.Statement (.cplCheck) := Row.of_neither _ rfl rfl

theorem Row.lkDepthBlock (p : PortNum) (sumL sumR : Nat) (trims : List Word) (clamped : Byte) : Row.Statement (.lkDepthBlock p sumL sumR trims clamped) :=
  Row.of_neither _ rfl rfl

theorem Row.adaptResume (p : PortNum) : Row.Statement (.adaptResume p) := Row.of_neither _ rfl rfl

theorem Row.groupBoundary (g : Fin 4) : Row.Statement (.groupBoundary g) := Row.of_neither _ rfl rfl

theorem Row.invPassStart (p : PortNum) : Row.Statement (.invPassStart p) := Row.of_neither _ rfl rfl

theorem Row.invSlotStart (p : PortNum) : Row.Statement (.invSlotStart p) := Row.of_neither _ rfl rfl

theorem Row.invPassEnd (p : PortNum) : Row.Statement (.invPassEnd p) := Row.of_neither _ rfl rfl

theorem Row.sighting (p : PortNum) : Row.Statement (.sighting p) := Row.of_neither _ rfl rfl

theorem Row.slotEnd (p : PortNum) : Row.Statement (.slotEnd p) := Row.of_neither _ rfl rfl

theorem Row.engineResponse (p : PortNum) : Row.Statement (.engineResponse p) := Row.of_neither _ rfl rfl

theorem Row.engineReady (p : PortNum) : Row.Statement (.engineReady p) := Row.of_neither _ rfl rfl

theorem Row.engineStartTimeout (p : PortNum) : Row.Statement (.engineStartTimeout p) := Row.of_neither _ rfl rfl

theorem Row.engineResponseTimeout (p : PortNum) : Row.Statement (.engineResponseTimeout p) := Row.of_neither _ rfl rfl

theorem Row.engineImageVerdict : Row.Statement (.engineImageVerdict) := Row.of_neither _ rfl rfl

theorem Row.dbeRing (p : PortNum) (m0 m1 m2 m3 : Word) : Row.Statement (.dbeRing p m0 m1 m2 m3) :=
  Row.of_neither _ rfl rfl

theorem Row.dbhRingClear (p : PortNum) : Row.Statement (.dbhRingClear p) := Row.of_neither _ rfl rfl

theorem Row.engCtlHalt (p : PortNum) (halt : Bool) : Row.Statement (.engCtlHalt p halt) := Row.of_neither _ rfl rfl

theorem Row.engCtlStep (p : PortNum) : Row.Statement (.engCtlStep p) := Row.of_neither _ rfl rfl

theorem Row.txDataPush (p : PortNum) (side : Side) (b : Byte) : Row.Statement (.txDataPush p side b) :=
  Row.of_neither _ rfl rfl

theorem Row.txDataCommit (p : PortNum) (side : Side) (b : Byte) : Row.Statement (.txDataCommit p side b) :=
  Row.of_neither _ rfl rfl

theorem Row.txDataAbort (p : PortNum) (side : Side) : Row.Statement (.txDataAbort p side) := Row.of_neither _ rfl rfl

theorem Row.rxDataRead (p : PortNum) (side : Side) : Row.Statement (.rxDataRead p side) := Row.of_neither _ rfl rfl

theorem Row.fifoFlush (p : PortNum) (d : Dir) : Row.Statement (.fifoFlush p d) := Row.of_neither _ rfl rfl

theorem Row.fifoClrcnt (p : PortNum) (d : Dir) : Row.Statement (.fifoClrcnt p d) := Row.of_neither _ rfl rfl

theorem Row.fifoSpillSet (p : PortNum) (d : Dir) (spill : Fin 8) : Row.Statement (.fifoSpillSet p d spill) :=
  Row.of_neither _ rfl rfl

theorem Row.fifoStallRelease (p : PortNum) : Row.Statement (.fifoStallRelease p) := Row.of_neither _ rfl rfl

theorem Row.flueMove (p : PortNum) (d : Dir) : Row.Statement (.flueMove p d) := Row.of_neither _ rfl rfl

theorem Row.nop (e : PortNum) : Row.Statement (.nop e) := Row.of_engine _ rfl rfl

theorem Row.add (e : PortNum) (rd ra rb : RegNum) : Row.Statement (.add e rd ra rb) := Row.of_engine _ rfl rfl

theorem Row.adc (e : PortNum) (rd ra rb : RegNum) : Row.Statement (.adc e rd ra rb) := Row.of_engine _ rfl rfl

theorem Row.sub (e : PortNum) (rd ra rb : RegNum) : Row.Statement (.sub e rd ra rb) := Row.of_engine _ rfl rfl

theorem Row.sbc (e : PortNum) (rd ra rb : RegNum) : Row.Statement (.sbc e rd ra rb) := Row.of_engine _ rfl rfl

theorem Row.and (e : PortNum) (rd ra rb : RegNum) : Row.Statement (.and e rd ra rb) := Row.of_engine _ rfl rfl

theorem Row.or (e : PortNum) (rd ra rb : RegNum) : Row.Statement (.or e rd ra rb) := Row.of_engine _ rfl rfl

theorem Row.xor (e : PortNum) (rd ra rb : RegNum) : Row.Statement (.xor e rd ra rb) := Row.of_engine _ rfl rfl

theorem Row.cmp (e : PortNum) (ra rb : RegNum) : Row.Statement (.cmp e ra rb) := Row.of_engine _ rfl rfl

theorem Row.tst (e : PortNum) (ra rb : RegNum) : Row.Statement (.tst e ra rb) := Row.of_engine _ rfl rfl

theorem Row.neg (e : PortNum) (rd ra : RegNum) : Row.Statement (.neg e rd ra) := Row.of_engine _ rfl rfl

theorem Row.not (e : PortNum) (rd ra : RegNum) : Row.Statement (.not e rd ra) := Row.of_engine _ rfl rfl

theorem Row.mov (e : PortNum) (rd ra : RegNum) : Row.Statement (.mov e rd ra) := Row.of_engine _ rfl rfl

theorem Row.lsl (e : PortNum) (rd ra : RegNum) (cnt : ShiftCount) : Row.Statement (.lsl e rd ra cnt) :=
  Row.of_engine _ rfl rfl

theorem Row.lsr (e : PortNum) (rd ra : RegNum) (cnt : ShiftCount) : Row.Statement (.lsr e rd ra cnt) :=
  Row.of_engine _ rfl rfl

theorem Row.asr (e : PortNum) (rd ra : RegNum) (cnt : ShiftCount) : Row.Statement (.asr e rd ra cnt) :=
  Row.of_engine _ rfl rfl

theorem Row.ror (e : PortNum) (rd ra : RegNum) (cnt : ShiftCount) : Row.Statement (.ror e rd ra cnt) :=
  Row.of_engine _ rfl rfl

theorem Row.addi (e : PortNum) (rd ra : RegNum) (imm : BitVec 18) : Row.Statement (.addi e rd ra imm) :=
  Row.of_engine _ rfl rfl

theorem Row.subi (e : PortNum) (rd ra : RegNum) (imm : BitVec 18) : Row.Statement (.subi e rd ra imm) :=
  Row.of_engine _ rfl rfl

theorem Row.andi (e : PortNum) (rd ra : RegNum) (imm : BitVec 18) : Row.Statement (.andi e rd ra imm) :=
  Row.of_engine _ rfl rfl

theorem Row.ori (e : PortNum) (rd ra : RegNum) (imm : BitVec 18) : Row.Statement (.ori e rd ra imm) :=
  Row.of_engine _ rfl rfl

theorem Row.xori (e : PortNum) (rd ra : RegNum) (imm : BitVec 18) : Row.Statement (.xori e rd ra imm) :=
  Row.of_engine _ rfl rfl

theorem Row.cmpi (e : PortNum) (ra : RegNum) (imm : BitVec 18) : Row.Statement (.cmpi e ra imm) :=
  Row.of_engine _ rfl rfl

theorem Row.movi (e : PortNum) (rd : RegNum) (imm : BitVec 18) : Row.Statement (.movi e rd imm) :=
  Row.of_engine _ rfl rfl

theorem Row.movhi (e : PortNum) (rd : RegNum) (imm : Half) : Row.Statement (.movhi e rd imm) :=
  Row.of_engine _ rfl rfl

theorem Row.mul (e : PortNum) (rd ra rb : RegNum) : Row.Statement (.mul e rd ra rb) := Row.of_engine _ rfl rfl

theorem Row.mulh (e : PortNum) (rd ra rb : RegNum) (signed : Bool) : Row.Statement (.mulh e rd ra rb signed) :=
  Row.of_engine _ rfl rfl

theorem Row.divu (e : PortNum) (rq rr ra rb : RegNum) : Row.Statement (.divu e rq rr ra rb) := Row.of_engine _ rfl rfl

theorem Row.divs (e : PortNum) (rq rr ra rb : RegNum) : Row.Statement (.divs e rq rr ra rb) := Row.of_engine _ rfl rfl

theorem Row.ldw (e : PortNum) (rd ra : RegNum) (post : Bool) (off : BitVec 17) : Row.Statement (.ldw e rd ra post off) :=
  Row.of_engine _ rfl rfl

theorem Row.ldh (e : PortNum) (rd ra : RegNum) (post : Bool) (off : BitVec 17) : Row.Statement (.ldh e rd ra post off) :=
  Row.of_engine _ rfl rfl

theorem Row.ldb (e : PortNum) (rd ra : RegNum) (post : Bool) (off : BitVec 17) : Row.Statement (.ldb e rd ra post off) :=
  Row.of_engine _ rfl rfl

theorem Row.stw (e : PortNum) (rd ra : RegNum) (post : Bool) (off : BitVec 17) : Row.Statement (.stw e rd ra post off) :=
  Row.of_engine _ rfl rfl

theorem Row.sth (e : PortNum) (rd ra : RegNum) (post : Bool) (off : BitVec 17) : Row.Statement (.sth e rd ra post off) :=
  Row.of_engine _ rfl rfl

theorem Row.stb (e : PortNum) (rd ra : RegNum) (post : Bool) (off : BitVec 17) : Row.Statement (.stb e rd ra post off) :=
  Row.of_engine _ rfl rfl

theorem Row.ldc (e : PortNum) (rd ra : RegNum) (post : Bool) (off : BitVec 17) : Row.Statement (.ldc e rd ra post off) :=
  Row.of_engine _ rfl rfl

theorem Row.b (e : PortNum) (cond : Fin 16) (off : BitVec 22) : Row.Statement (.b e cond off) :=
  Row.of_engine _ rfl rfl

theorem Row.call (e : PortNum) (off : BitVec 22) : Row.Statement (.call e off) := Row.of_engine _ rfl rfl

theorem Row.jmp (e : PortNum) (ra : RegNum) : Row.Statement (.jmp e ra) := Row.of_engine _ rfl rfl

theorem Row.callr (e : PortNum) (ra : RegNum) : Row.Statement (.callr e ra) := Row.of_engine _ rfl rfl

theorem Row.bset (e : PortNum) (b : BitVec 10) : Row.Statement (.bset e b) := Row.of_engine _ rfl rfl

theorem Row.bclr (e : PortNum) (b : BitVec 10) : Row.Statement (.bclr e b) := Row.of_engine _ rfl rfl

theorem Row.bnot (e : PortNum) (b : BitVec 10) : Row.Statement (.bnot e b) := Row.of_engine _ rfl rfl

theorem Row.bmov (e : PortNum) (d : BitVec 10) (ns : Bool) (src : BitVec 10) : Row.Statement (.bmov e d ns src) :=
  Row.of_engine _ rfl rfl

theorem Row.band (e : PortNum) (d : BitVec 10) (ns : Bool) (src : BitVec 10) : Row.Statement (.band e d ns src) :=
  Row.of_engine _ rfl rfl

theorem Row.bor (e : PortNum) (d : BitVec 10) (ns : Bool) (src : BitVec 10) : Row.Statement (.bor e d ns src) :=
  Row.of_engine _ rfl rfl

theorem Row.bxor (e : PortNum) (d : BitVec 10) (ns : Bool) (src : BitVec 10) : Row.Statement (.bxor e d ns src) :=
  Row.of_engine _ rfl rfl

theorem Row.btst (e : PortNum) (b : BitVec 10) (pol : Bool) (off : BitVec 15) : Row.Statement (.btst e b pol off) :=
  Row.of_engine _ rfl rfl

theorem Row.bget (e : PortNum) (rd : RegNum) (b : BitVec 10) : Row.Statement (.bget e rd b) := Row.of_engine _ rfl rfl

theorem Row.bput (e : PortNum) (b : BitVec 10) (ra : RegNum) : Row.Statement (.bput e b ra) := Row.of_engine _ rfl rfl

theorem Row.rep (e : PortNum) (cnt : RepCount) : Row.Statement (.rep e cnt) := Row.of_engine _ rfl rfl

theorem Row.crci (e : PortNum) (rd : RegNum) (sel : Fin 8) : Row.Statement (.crci e rd sel) := Row.of_engine _ rfl rfl

theorem Row.crc (e : PortNum) (rd ra : RegNum) (sel : Fin 8) (n : Fin 4) : Row.Statement (.crc e rd ra sel n) :=
  Row.of_engine _ rfl rfl

theorem Row.crcf (e : PortNum) (rd : RegNum) (sel : Fin 8) : Row.Statement (.crcf e rd sel) := Row.of_engine _ rfl rfl

theorem Row.fpush (e : PortNum) (ra : RegNum) (eop : Bool) : Row.Statement (.fpush e ra eop) :=
  Row.of_engine _ rfl rfl

theorem Row.fpushm (e : PortNum) (ra : RegNum) (eop : Bool) : Row.Statement (.fpushm e ra eop) :=
  Row.of_engine _ rfl rfl

theorem Row.fpop (e : PortNum) (rd : RegNum) : Row.Statement (.fpop e rd) := Row.of_engine _ rfl rfl

theorem Row.fpopm (e : PortNum) (ra : RegNum) : Row.Statement (.fpopm e ra) := Row.of_engine _ rfl rfl

theorem Row.fabort (e : PortNum) : Row.Statement (.fabort e) := Row.of_engine _ rfl rfl

theorem Row.fsend (e : PortNum) (clear : Bool) : Row.Statement (.fsend e clear) := Row.of_engine _ rfl rfl

theorem Row.fres (e : PortNum) (rd : RegNum) : Row.Statement (.fres e rd) := Row.of_engine _ rfl rfl

theorem Row.frapid (e : PortNum) (ra : RegNum) : Row.Statement (.frapid e ra) := Row.of_engine _ rfl rfl

theorem Row.wait (e : PortNum) (b : BitVec 10) (pol : Bool) : Row.Statement (.wait e b pol) := Row.of_engine _ rfl rfl

theorem Row.waitEnd (e : PortNum) : Row.Statement (.waitEnd e) := Row.of_neither _ rfl rfl

theorem Row.trap (e : PortNum) (code : Byte) : Row.Statement (.trap e code) := Row.of_engine _ rfl rfl

theorem Row.rett (e : PortNum) : Row.Statement (.rett e) := Row.of_engine _ rfl rfl

theorem Row.halt (e : PortNum) : Row.Statement (.halt e) := Row.of_engine _ rfl rfl

theorem Row.gets (e : PortNum) (rd : RegNum) (k : Fin 8) : Row.Statement (.gets e rd k) := Row.of_engine _ rfl rfl

theorem Row.tmrArmBit (ch : Channel) : Row.Statement (.tmrArmBit ch) := Row.of_neither _ rfl rfl

theorem Row.tmrStopBit (ch : Channel) : Row.Statement (.tmrStopBit ch) := Row.of_neither _ rfl rfl

theorem Row.tmrCmpvWrite (ch : Channel) (value : Word) : Row.Statement (.tmrCmpvWrite ch value) :=
  Row.of_neither _ rfl rfl

theorem Row.tmrPrescWrite (ch : Channel) (value : Word) : Row.Statement (.tmrPrescWrite ch value) :=
  Row.of_neither _ rfl rfl

theorem Row.tmrCompare (ch : Channel) : Row.Statement (.tmrCompare ch) := Row.of_neither _ rfl rfl

theorem Row.tmrCapture (ch : Channel) (rising : Bool) : Row.Statement (.tmrCapture ch rising) :=
  Row.of_neither _ rfl rfl

theorem Row.tmrCapRead (ch : Channel) : Row.Statement (.tmrCapRead ch) := Row.of_neither _ rfl rfl

theorem Row.timerSourceStop (ch : Channel) : Row.Statement (.timerSourceStop ch) := Row.of_neither _ rfl rfl

theorem Row.timerMakeup (ch : Channel) (periods : Nat) : Row.Statement (.timerMakeup ch periods) :=
  Row.of_neither _ rfl rfl

theorem Row.wkcmpHiWrite (value : Word) : Row.Statement (.wkcmpHiWrite value) := Row.of_neither _ rfl rfl

theorem Row.wakeCompare : Row.Statement (.wakeCompare) := Row.of_neither _ rfl rfl

theorem Row.wdtKick (key : Byte) : Row.Statement (.wdtKick key) := Row.of_neither _ rfl rfl

theorem Row.wdtctlLock : Row.Statement (.wdtctlLock) := Row.of_neither _ rfl rfl

theorem Row.wdtExpiry : Row.Statement (.wdtExpiry) := Row.of_neither _ rfl rfl

theorem Row.powerOnReset : Row.Statement (.powerOnReset) := Row.of_neither _ rfl rfl

theorem Row.brownOut (supplies : BitVec 3) : Row.Statement (.brownOut supplies) := Row.of_neither _ rfl rfl

theorem Row.rstNReset (width : Nat) : Row.Statement (.rstNReset width) := Row.of_neither _ rfl rfl

theorem Row.sysResetRelease (boot0 boot1 : Bool) : Row.Statement (.sysResetRelease boot0 boot1) :=
  Row.of_neither _ rfl rfl

theorem Row.kilnSelfTestDone (pass : Bool) : Row.Statement (.kilnSelfTestDone pass) := Row.of_neither _ rfl rfl

theorem Row.kilnImageVerdict : Row.Statement (.kilnImageVerdict) := Row.of_neither _ rfl rfl

theorem Row.fullServiceStart : Row.Statement (.fullServiceStart) := Row.of_neither _ rfl rfl

theorem Row.trngStartDone (pass : Bool) : Row.Statement (.trngStartDone pass) := Row.of_neither _ rfl rfl

theorem Row.trngHealthFail : Row.Statement (.trngHealthFail) := Row.of_neither _ rfl rfl

theorem Row.nonceExpiry (purpose : Purpose) : Row.Statement (.nonceExpiry purpose) := Row.of_neither _ rfl rfl

theorem Row.tamperInput (input : Fin 2) (active : Bool) : Row.Statement (.tamperInput input active) :=
  Row.of_neither _ rfl rfl

theorem Row.tamperResponseDeferred : Row.Statement (.tamperResponseDeferred) := Row.of_neither _ rfl rfl

theorem Row.glitchDetect (clock : Bool) : Row.Statement (.glitchDetect clock) := Row.of_neither _ rfl rfl

theorem Row.kilnTempRange (out : Bool) : Row.Statement (.kilnTempRange out) := Row.of_neither _ rfl rfl

theorem Row.ashCommit : Row.Statement (.ashCommit) := Row.of_neither _ rfl rfl

theorem Row.suppressedCommit : Row.Statement (.suppressedCommit) := Row.of_neither _ rfl rfl

theorem Row.bankingStart : Row.Statement (.bankingStart) := Row.of_neither _ rfl rfl

theorem Row.bankingDone : Row.Statement (.bankingDone) := Row.of_neither _ rfl rfl

theorem Row.bankingAbandoned (sources : BitVec 10) : Row.Statement (.bankingAbandoned sources) :=
  Row.of_neither _ rfl rfl

theorem Row.entryTimeout : Row.Statement (.entryTimeout) := Row.of_neither _ rfl rfl

theorem Row.wakeEvent (sources : BitVec 10) : Row.Statement (.wakeEvent sources) := Row.of_neither _ rfl rfl

theorem Row.offWake (sources : BitVec 10) : Row.Statement (.offWake sources) := Row.of_neither _ rfl rfl

theorem Row.slowclkSwitch (toCrystal : Bool) : Row.Statement (.slowclkSwitch toCrystal) := Row.of_neither _ rfl rfl

theorem Row.emberProbe (p : PortNum) (amp phase : Int) : Row.Statement (.emberProbe p amp phase) :=
  Row.of_neither _ rfl rfl

theorem Row.emberRepeatProbe (p : PortNum) (amp phase : Int) : Row.Statement (.emberRepeatProbe p amp phase) :=
  Row.of_neither _ rfl rfl

theorem Row.xchkRun (p : PortNum) (dev : Int) : Row.Statement (.xchkRun p dev) := Row.of_neither _ rfl rfl

theorem Row.recalApply (port : Option PortNum) : Row.Statement (.recalApply port) := Row.of_neither _ rfl rfl

theorem Row.xpdrFieldAppear (strength : Byte) (battery : Bool) : Row.Statement (.xpdrFieldAppear strength battery) :=
  Row.of_neither _ rfl rfl

theorem Row.xpdrFieldLost (gap : Nat) : Row.Statement (.xpdrFieldLost gap) := Row.of_neither _ rfl rfl

theorem Row.xpdrSessionIdleEnd : Row.Statement (.xpdrSessionIdleEnd) := Row.of_neither _ rfl rfl

theorem Row.xpdrSupplyDrop : Row.Statement (.xpdrSupplyDrop) := Row.of_neither _ rfl rfl

theorem Row.xpdrFrameDiscard : Row.Statement (.xpdrFrameDiscard) := Row.of_neither _ rfl rfl

theorem Row.scan (body : List Byte) : Row.Statement (.scan body) := Row.of_neither _ rfl rfl

theorem Row.select (body : List Byte) : Row.Statement (.select body) := Row.of_neither _ rfl rfl

theorem Row.aelyrHalt (body : List Byte) : Row.Statement (.aelyrHalt body) := Row.of_neither _ rfl rfl

theorem Row.read (body : List Byte) : Row.Statement (.read body) := Row.of_neither _ rfl rfl

theorem Row.write (body : List Byte) : Row.Statement (.write body) := Row.of_neither _ rfl rfl

theorem Row.lockBlock (body : List Byte) : Row.Statement (.lockBlock body) := Row.of_neither _ rfl rfl

theorem Row.areaInfo (body : List Byte) : Row.Statement (.areaInfo body) := Row.of_neither _ rfl rfl

theorem Row.authPwd (body : List Byte) : Row.Statement (.authPwd body) := Row.of_neither _ rfl rfl

theorem Row.setPwd (body : List Byte) : Row.Statement (.setPwd body) := Row.of_neither _ rfl rfl

theorem Row.getNonce (body : List Byte) : Row.Statement (.getNonce body) := Row.of_neither _ rfl rfl

theorem Row.unlock (body : List Byte) : Row.Statement (.unlock body) := Row.of_neither _ rfl rfl

theorem Row.readCnt (body : List Byte) : Row.Statement (.readCnt body) := Row.of_neither _ rfl rfl

theorem Row.incCnt (body : List Byte) : Row.Statement (.incCnt body) := Row.of_neither _ rfl rfl

theorem Row.dbBegin (body : List Byte) : Row.Statement (.dbBegin body) := Row.of_neither _ rfl rfl

theorem Row.dbEnd (body : List Byte) : Row.Statement (.dbEnd body) := Row.of_neither _ rfl rfl

theorem Row.rapidSync (pilot : Bool) : Row.Statement (.rapidSync pilot) := Row.of_neither _ rfl rfl

theorem Row.rapidAnswer (challenge : Bool) : Row.Statement (.rapidAnswer challenge) := Row.of_neither _ rfl rfl

theorem Row.dbArmedTimeout : Row.Statement (.dbArmedTimeout) := Row.of_neither _ rfl rfl

theorem Row.getId (body : List Byte) : Row.Statement (.getId body) := Row.of_neither _ rfl rfl

theorem Row.readPage (body : List Byte) : Row.Statement (.readPage body) := Row.of_neither _ rfl rfl

theorem Row.writePage (body : List Byte) : Row.Statement (.writePage body) := Row.of_neither _ rfl rfl

theorem Row.login (body : List Byte) : Row.Statement (.login body) := Row.of_neither _ rfl rfl

theorem Row.logout (body : List Byte) : Row.Statement (.logout body) := Row.of_neither _ rfl rfl

theorem Row.setPassword (body : List Byte) : Row.Statement (.setPassword body) := Row.of_neither _ rfl rfl

theorem Row.lockPage (body : List Byte) : Row.Statement (.lockPage body) := Row.of_neither _ rfl rfl

theorem Row.xpdrDeferredCommit : Row.Statement (.xpdrDeferredCommit) := Row.of_neither _ rfl rfl

theorem Row.journalCheck : Row.Statement (.journalCheck) := Row.of_neither _ rfl rfl

theorem Row.eoVthReached (vstore : BitVec 10) : Row.Statement (.eoVthReached vstore) := Row.of_neither _ rfl rfl

theorem Row.eoArmExpiry : Row.Statement (.eoArmExpiry) := Row.of_neither _ rfl rfl

theorem Row.emopenPulseEnd (vstore : BitVec 10) : Row.Statement (.emopenPulseEnd vstore) := Row.of_neither _ rfl rfl

theorem Row.registerWrite (addr value : Word) (side : Side) : Row.Statement (.registerWrite addr value side) :=
  Row.of_neither _ rfl rfl

theorem Row.unknownCode (proto : LinkProto) (code : Byte) (body : List Byte) : Row.Statement (.unknownCode proto code body) :=
  Row.of_neither _ rfl rfl

theorem Row.commitReserveMet : Row.Statement (.commitReserveMet) := Row.of_neither _ rfl rfl

theorem Row.kilnOperationDone : Row.Statement (.kilnOperationDone) := Row.of_neither _ rfl rfl

theorem Row.calMeasurementEnd (p : PortNum) (m : CalMeasure) : Row.Statement (.calMeasurementEnd p m) :=
  Row.of_neither _ rfl rfl

theorem Row.couplingSourceEnd (m : CouplingMeasure) : Row.Statement (.couplingSourceEnd m) := Row.of_neither _ rfl rfl

theorem Row.vsysRemoved : Row.Statement (.vsysRemoved) := Row.of_neither _ rfl rfl

theorem Row.vioLoss : Row.Statement (.vioLoss) := Row.of_neither _ rfl rfl

theorem Row.vioReturn : Row.Statement (.vioReturn) := Row.of_neither _ rfl rfl

theorem Row.hearthJtagHalt (halt : Bool) : Row.Statement (.hearthJtagHalt halt) := Row.of_neither _ rfl rfl

end Sys2Proof.Laws
end

