-- ==== Sys2Proof/Tests/Slice0.lean ====
section
/-! SUPPORT. Tests: the spec's worked examples, engine words written out from their encodings, the checks of WellFormed,
and for each statement of Obligations.lean concrete states and operands that meet its hypotheses. -/

open Sys2Proof Sys2Proof.Machine

namespace Sys2Proof.Tests

set_option Elab.async false

/-! ## Small states -/

/-- Port 0 powered under a locked PLL, its engine running a code of 64 bytes. -/
def tEng : State :=
  ((({ State.reset with pcr := Cells.set .pcr [] CLKCTL.PLL_LOCK 1 }.modSvc 0 fun v => { v with powered := true }).modEng 0
    fun e => { e with codeLen := 64 }).pset 0 ENG_STAT.STATE 1).pset 0 ENG_CTL.HALT 0

/-- Its register G1 holding `w`. -/
def tG1 (w : Word) : State := tEng.setReg 0 1 w

/-- Inside a trap. -/
def tTrap : State := tEng.setEsw 0 6 true

/-- A code word at address 4. -/
def tNext (w : Word) : State := tEng.modEng 0 fun e => { e with code := e.code.putWord 4 w }

/-- A word of a packet. -/
def tWord (d : Word) (vb : Nat) (eop : Bool) (pkt : Nat) : FWord := { data := d, vb, eop, cin := false, pkt, slot := 0 }

/-- FIFO `d` of port 0 with a committed packet of one word at its head. -/
def tHead (d : Dir) (w : FWord) : State :=
  tEng.setFifo 0 d { Fifo.reset with head := [w], pkts := 1, pktNo := 1 }

/-- Port 0 with its field at state `n` (0 off, 1 ramping up, 2 on, 3 ramping down) and FIELD_EN as given. -/
def tField (n en : Nat) : State :=
  (({ tEng with dev := { tEng.dev with inReset := false } }.pset 0 TXSTAT.STATE n).pset 0 TXCTL.FIELD_EN en).modSvc 0
    fun v => { v with svc := .opened }

/-- Both ports of domain 0 powered. -/
def tDomain : State := (tField 2 1).modSvc 1 fun v => { v with powered := true }

/-- A command of host port 0 in progress. -/
def tJob (j : Job) : Running :=
  ⟨{ hp := 0, seq := 1, flags := 0, target := 0, opcode := 0x0103, payload := [], raw := [] }, j⟩

/-- The four host ports awake and ready. -/
def hostsReady (s : State) : State := { s with hosts := s.hosts.map fun x => { x with awake := true, ready := true } }

/-- In full service, port 0 open with its field off, both ports of its domain powered; all host ports ready. -/
def tHost : State :=
  let s := (tField 0 0).modSvc 1 fun v => { v with powered := true }
  hostsReady { s with dev := { s.dev with inReset := false, full := true, boot := false } }

/-- Under Kindling. -/
def tKindling : State :=
  hostsReady { State.reset with dev := { State.reset.dev with inReset := false, full := false, boot := true } }

/-- A command packet of host port 0. -/
def tCmd (target : Nat) (payload : List Byte) : HostCmd :=
  { hp := 0, seq := 1, flags := 0, target := BitVec.ofNat 8 target, payload }

/-- The checks of `Accepted`, one by one. -/
def accepts (s : State) (o : Op) (h : HostCmd) : Bool :=
  s.raised.isEmpty && (allHosts.all fun q => (s.host q).landed.isEmpty) && s.hostRuns h.hp && (s.host h.hp).ready
    && decide (h.payload.length ≤ 4092) && (s.host h.hp).more.isEmpty
    && ((s.host h.hp).open_.all fun x => x.raw != (o.cmd h).raw && x.target != h.target)
    && ((s.host h.hp).kept.all fun x => x.raw != (o.cmd h).raw)
    && o.targets.contains h.target.toNat && (if s.dev.full then o.full else o.kindling) && h.flags == 0
    && (o.anyHost || s.owns h.hp h.target.toNat) && ((s.host h.hp).chains.all fun x => x.target != h.target)
    && !s.targetHeld o (o.cmd h) && !o.gate (o.cmd h) s && o.lens h.target.toNat h.payload.length
    && decide (h.payload.length ≤ o.bound) && !(o.needsPll (o.cmd h) && s.pllAwaited)

theorem accepts_sound (s : State) (o : Op) (h : HostCmd) (a : accepts s o h = true) : Accepted s o h := by
  simp only [accepts, Bool.and_eq_true, List.isEmpty_iff, List.all_eq_true, decide_eq_true_eq, bne_iff_ne, beq_iff_eq,
    List.contains_iff_mem, Bool.or_eq_true, Bool.not_eq_true'] at a
  obtain ⟨⟨⟨⟨⟨⟨⟨⟨⟨⟨⟨⟨⟨⟨⟨⟨⟨a1, a2⟩, a3⟩, a4⟩, a5⟩, a6⟩, a7⟩, a8⟩, a9⟩, a10⟩, a11⟩, a12⟩, a13⟩, a14⟩, a15⟩, a16⟩, a17⟩, a18⟩ := a
  exact ⟨⟨a1, fun q => a2 q (by revert q; decide), a3, a4, a5, a6, a7, a8⟩, ⟨a9, a10, a11, a12, a13, a14, a15, ⟨a16, a17⟩, a18⟩⟩

/-- Port 0 on the air with a window open for a reply to a frame of settings `frm`, sent with the given marks. -/
def tWin (frm : Word) (start : Option Nat) (grid haltNext : Bool) : State :=
  (tField 2 1).modFramer 0 fun f => { f with win := some {
    min := 1000, wait := 2000, grid, lastOne := true, frm, base := 2000, scanHalt := false, haltNext, dbBegin := false
    second := false, opened := true, firstOk := false, exts := 0, extSum := 0, viol := false, start } }

/-- A received frame of some bytes, clean. -/
def tRx (bytes : List Byte) : RxFrame :=
  { bytes, lastBits := 0, dur := 100, codingErr := false, parityErr := false, collided := [], est := 0, ppm := 0, spread := 0
    evm := 0, power := 0, points := [] }

/-- Port 0 member of an active group with port 1. -/
def tMates : State :=
  let s := (tHead .tx (tWord 0 4 true 0)).pset 0 TXSTAT.STATE 2
  { s.pset 0 TXCTL.FIELD_EN 1 with coord := { s.coord with active := [3, 0, 0, 0] } }.modFramer 0 fun f => { f with reqs := 1 }

/-- Port 0 open with its field on, under an active session of a tag that offers bounds of at most `dbmax` challenges, and a
tag-admin key for distance bounding in slot 3; a mailbox of 64 bytes. -/
def tSession (caps dbmax : Nat) : State :=
  let s := hostsReady { tField 2 1 with dev := { tHost.dev with full := true } }
  let s := s.modSvc 0 fun v => { v with session := some ⟨List.replicate 8 0x11,
    [BitVec.ofNat 8 caps, 0, 0, 0, 0, BitVec.ofNat 8 dbmax]⟩ }
  { s with kiln := { s.kiln with slots := [(3, ⟨1, 3, List.replicate 16 0⟩)] } }
    |> fun s => { s with sram := s.sram.putBytes (imageBase 0 + 30) [64, 0] }

/-- A distance-bounding run in progress on port 0. -/
def tDb (d : DbRun) : State :=
  { (tSession 1 64).modSvc 0 fun v => { v with db := some d } with running := [tJob (.db 0)] }

/-- Port 0 in a pass whose slot on antenna `ant` is in progress. -/
def tPass (left : List Nat) (slot : Option Nat) (census stop : Bool) (fault : Option Nat) : State :=
  (tField 2 1).modSvc 0 fun v => { v with pass := some ⟨1, left, slot, [0, 0, 0, 0], 0, census, stop, fault, [], []⟩ }

/-- An engine message of port 0 that waits: its words 0, 1, 2, 3. -/
def tMsg (s : State) (m0 m1 m2 m3 : Word) : State :=
  (((((s.modPort 0 fun q => q.putWord DBH_MSG.reg m0).modPort 0 fun q => q.putWord (DBH_MSG.reg + 4) m1).modPort 0
    fun q => q.putWord (DBH_MSG.reg + 8) m2).modPort 0 fun q => q.putWord (DBH_MSG.reg + 12) m3).pset 0 DBH_RING.RING 1)

/-- The entry of the tag 0x11 at port 0, antenna `ant`. -/
def tEntry (ant flags appear : Nat) : Entry :=
  { uid := [0x11, 0, 0, 0, 0, 0, 0, 0, 0, 0], uidlen := 4, proto := 1, port := 0, ant, flags, first := 0, last := 0, rssi := -200
    phase := 0, seen := 1, appear, miss := 0, sec := 0, passseq := 0 }

/-- Its key, and a table that holds it. -/
def tKey : Key := keyOf 1 4 [0x11]

def tTable (ant flags appear : Nat) (s : State) : State := { s with table := [(homeOf tKey, entryPack (tEntry ant flags appear))] }

/-- Host port `q` changed. -/
def tPort (q : HostNum) (f : HostPort → HostPort) : State := tHost.modHost q f

/-- An outbound packet of some bytes. -/
def tOut (event : Bool) (n : Nat) : OutPkt := { bytes := List.replicate n 0, isEvent := event, isFinal := true, target := 0, baud := none }

/-- Global channel 0 armed with a compare, a count and a prescaler of 2.0. -/
def tChan (cmp count : Nat) : Cells :=
  tset (tset (tset (tset [] TMR_STAT.ARMED 1) TMR_CMPV.V cmp) TMR_COUNT.V count) TMR_PRESC.V (2 * 65536)

/-- A host command of an opcode in progress at Kiln. -/
def tKilnJob (opcode : Nat) (payload : List Byte) : Running :=
  ⟨{ hp := 0, seq := 1, flags := 0, target := 15, opcode := BitVec.ofNat 16 opcode, payload, raw := [] }, .kiln⟩

/-- It in progress, with Kiln serving. -/
def tKiln (opcode : Nat) (payload : List Byte) : State :=
  let s := ((tHost.kilnSet KWSTAT.STATE 1).kilnSet KWSTAT.HARVEST 0).kilnSet KWSTAT.TRNG 1
  { s with
    kiln := { s.kiln with slots := [(3, ⟨1, 0x63, List.replicate 16 0⟩), (4, ⟨3, 8, List.replicate 32 0⟩)] }
    running := [tKilnJob opcode payload] }


/-! ## The spec's worked examples -/

/-- The state after one command. -/
def after (i : Instr) (s : State) : State :=
  match exec i s with
  | .next t => t
  | _ => s

/-- The check value of CRC_O (R105). -/
theorem test_crc_o_check_value :
    CrcKind.crcO.of [0x31, 0x32, 0x33, 0x34, 0x35, 0x36, 0x37, 0x38, 0x39] = 0x29B1 := by decide +kernel

/-- The frames of the examples of R144, R154 and R240: SCAN of all tags, HALT with NEXT = 1, DB_END. -/
theorem test_aelyr_crc :
    CrcKind.crcAelyr.of [0x01, 0x00, 0x00] = 0x18E5 ∧ CrcKind.crcAelyr.bytes [0x03, 0x01] = [0xA1, 0x06] ∧
      CrcKind.crcAelyr.bytes [0x31] = [0xF6, 0x83] := by decide +kernel

/-- The power examples of R45, R63 and R295: 723, at 70 % 506, with a map entry of 609 429; the ceiling at 3.3 V. -/
theorem test_effective_amplitude :
    let s := (tField 2 1).pset 0 TXAMP.LEVEL 723
    s.leffRaw 0 = 723 ∧ (s.pset 0 TXSTAT.GOV_FACTOR 70).leffRaw 0 = 506 ∧ (s.setMap 0 0 609).leffRaw 0 = 429 := by
  decide +kernel

theorem test_headroom_ceiling :
    ((((tField 2 1).pset 0 TXMON.VTX 330).modPort 0 fun q => { q with field := { q.field with sampled := true } }).headroom 0) = 750 := by
  decide +kernel

/-- The table of R63 at the reset values of THERM. -/
theorem test_governor_table :
    [142, 144, 145, 147].map (fun t => govFactor (State.reset.pget 0 THERM.START) (State.reset.pget 0 THERM.SLOPE) (128 + 2 * t)) = [88, 76, 70, 58] ∧
      govFactor (State.reset.pget 0 THERM.START) (State.reset.pget 0 THERM.SLOPE) (128 + 299) = 43 := by decide +kernel

/-- 4.5 dB and 2.5 dB above the lowest antenna that is not weak: keys are the tenth power of a level (R295). -/
theorem test_map_entries : mapOf 17783 100 = 609 ∧ mapOf 17783 1000 = 767 := by decide +kernel

/-- S = 2.5 samples of N = 16 (R95): EYE 216. -/
theorem test_eye :
    let w := wset (wset 0 0 4 3) 8 3 3
    bitSamples w = 16 ∧ ((tEng.quality 0 w { tRx [1] with spread := 640 }).pget 0 QUAL.EYE) = 216 := by decide +kernel

/-- The DB_BEGIN reply of 9 bytes as E6 reads it (R409, R411). -/
theorem test_rx_words :
    let s := State.pushPacket 0 .rx [0x00, 0x5A, 0x13, 0xE7, 0x90, 0x2C, 0x4B, 0xD1, 0x86] tEng
    let a := s.takeNow 0 .rx
    let b := a.2.takeNow 0 .rx
    let c := b.2.takeNow 0 .rx
    (s.fifo 0 .rx).head.map (fun w => (w.data, w.vb, w.eop)) =
        [(0xE7135A00#32, 4, false), (0xD14B2C90#32, 4, false), (0x00000086#32, 1, true)] ∧
      (s.fifo 0 .rx).pkts = 1 ∧ (c.2.fifo 0 .rx).pkts = 0 := by decide +kernel

/-- Byte 700 of the packet of the example of R412 carries EOP: the Cinder takes it. -/
theorem test_cinder_word :
    let f : Fifo := { Fifo.reset with open_ := true, cinder := some 67 }
    let s := (tEng.setFifo 0 .tx f).pushNow 0 .tx 0x11 true
    (s.fifo 0 .tx).head.map (fun w => (w.data, w.eop, w.cin)) = [(0xC1DE0044#32, true, true)] ∧ (s.fifo 0 .tx).pkts = 1 := by
  decide +kernel

/-- 7,000 ticks of 1,356 edges in 22,938 periods of a stop (R466): TMR_MAKEUP, and the compare is missed. -/
theorem test_timer_makeup :
    let t := tset (tset (tset (tset (tset [] TMR_STAT.ARMED 1) TMR_STAT.SRCSTOP 1) TMR_CMPV.V 5000) TMR_COUNT.V 2000) TMR_PRESC.V (1356 * 65536)
    let u := (after (.timerMakeup (.global 3) 22938) (tHost.setChan (.global 3) t)).chan (.global 3)
    tget u TMR_MAKEUP.V = 7000 ∧ tget u TMR_COUNT.V = 5000 ∧ tget u TMR_STAT.MISSED = 1 ∧ tget u TMR_STAT.ARMED = 0 := by decide +kernel

/-- The fob of the example of R240, with DINT 142.0 ns, OFS 46.5 ns, TAGDLY 28.0 ns and THRESH 20.0 ns: 2.5 ns and
4.75 ns; the relay's onset of 229 is late by 47.25 ns. -/
theorem test_excess :
    let s := (((tEng.pset 0 DBINT.DINT 568).pset 0 DBDLY.OFS 186).pset 0 DBDLY.TAGDLY 112).pset 0 DBCTL.THRESH 80
    s.excess 0 190 = 10 ∧ s.excess 0 192 = 19 ∧ s.excess 0 229 = 189 ∧ s.isLate 0 192 = false ∧ s.isLate 0 229 = true := by
  decide +kernel

/-- REP G3 with G3 = 5 latches a count of 5 (R436); one repetition of ADDI G3, G3, 1 then leaves 6. -/
theorem test_rep_addi :
    let s := tNext 0x44CC0001 |>.setReg 0 3 5
    let t := after (.rep 0 (.reg 3)) s
    (t.eng 0).repLeft = 5 ∧ (after (.addi 0 3 3 1) t).reg 0 3 = 6 ∧ ((after (.addi 0 3 3 1) t).eng 0).repLeft = 4 := by decide +kernel

/-- AL_READ on P2 (R375): the request as sent, the header of the OK response with 33 bytes, that of SECURITY_DENIED. -/
theorem test_al_read_packets :
    let c : Cmd := { hp := 1, seq := 0x21, flags := 0, target := 2, opcode := 0x0410, payload := [0x40, 0x00, 0x02], raw := [] }
    (cmdBytes 0 0x21 2 0x0410 c.payload).take 11 = [0x5C, 0x00, 0x03, 0x00, 0x21, 0x02, 0x10, 0x04, 0x40, 0x00, 0x02] ∧
      (respPkt c St.OK (List.replicate 33 0) 0 true none).bytes.take 8 = [0xC5, 0x00, 0x21, 0x00, 0x21, 0x02, 0x00, 0x00] ∧
      (respPkt c St.SECURITY_DENIED [2] 0 true none).bytes.take 9 = [0xC5, 0x00, 0x01, 0x00, 0x21, 0x02, 0x50, 0x00, 0x02] := by
  decide +kernel

/-- HP0, HP1 and HP2 in the same tick (the example of R338): HP0 takes P5, HP1's claim ends with CONFLICT, and HP2, which
owned P5, is no longer its owner. -/
theorem test_tick_conflict :
    let claim (h : HostNum) : List Byte := (opOwnClaim.cmd { hp := h, seq := 1, flags := 0, target := 5, payload := [0xFF, 1] }).raw
    let field : List Byte := (opFieldOn.cmd { hp := 2, seq := 1, flags := 0, target := 5, payload := [0, 0] }).raw
    let s : State := { tHost with owner := tHost.owner.set 5 (some 2), devOwn := 0b0011 }
    let s := ((s.modHost 0 fun x => { x with landed := [claim 0] }).modHost 1 fun x => { x with landed := [claim 1] }).modHost 2
      fun x => { x with landed := [field] }
    let t := after .tickDecide s
    t.ownerOf 5 = some 0 ∧ (t.host 0).out.map (fun p => (p.bytes.drop 6).take 2) = [[0x00, 0x00]] ∧
      (t.host 1).out.map (fun p => (p.bytes.drop 6).take 2) = [leBytes 2 St.CONFLICT] ∧
      ((t.host 2).out.map fun p => p.bytes.getD 0 0).length = 2 := by decide +kernel

/-! ## Engine words written out bit by bit from R427 and R429 -/

theorem test_words_of_the_register_and_immediate_formats :
    decodeEng 0b00000000000000000000000000000000 = some .nop ∧
    decodeEng 0b00000100010010001100000000000000 = some (.alu .add 1 2 3) ∧
    decodeEng 0b00100000000010001100000000000000 = some (.cmp .cmp 2 3) ∧
    decodeEng 0b00101000010010000000000000000000 = some (.un .neg 1 2) ∧
    decodeEng 0b00110100010010000010000000000101 = some (.shift .lsl 1 2 (.imm 5)) ∧
    decodeEng 0b01000100110011000000000000000001 = some (.imm .addi 3 3 1) ∧
    decodeEng 0b01100000010000001111111111111111 = some (.movhi 1 0xFFFF) ∧
    decodeEng 0b01101000010010001100000000000001 = some (.alu .mulhs 1 2 3) ∧
    decodeEng 0b01110000010010001101000000000000 = some (.div true 1 4 2 3) := by decide +kernel

theorem test_words_of_the_memory_jump_and_bit_formats :
    decodeEng 0b10000000010010111111111111111100 = some (.load .word 1 2 true 0x1FFFC) ∧
    decodeEng 0b10010100010010000000000000000001 = some (.store .byte 1 2 false 1) ∧
    decodeEng 0b10100011101111111111111111111111 = some (.branch 0xE 0x3FFFFF) ∧
    decodeEng 0b10101000000010000000000000000000 = some (.jmp 2) ∧
    decodeEng 0b11000000000010110000000000000000 = some (.bit1 .bset 0x00B) ∧
    decodeEng 0b11001110000000000000001011100000 = some (.bit2 .bmov 0x200 true 0x00B) ∧
    decodeEng 0b11011100000000001000000000000011 = some (.btst 0 true 3) ∧
    decodeEng 0b11100000000010110001000000000000 = some (.bget 1 0x00B) := by decide +kernel

theorem test_words_of_repetition_and_assists :
    decodeEng 0b11101010011000000000000000000000 = some (.rep (.reg 3)) ∧
    decodeEng 0b11101000000000000000000000000011 = some (.rep (.imm 3)) ∧
    decodeEng 0b11101100000010000010000000000000 = some (.crci 2 4) ∧
    decodeEng 0b11101100010010001110000000000011 = some (.crc 2 3 4 3) ∧
    decodeEng 0b11110000000000001000000000000001 = some (.fpush 2 true) ∧
    decodeEng 0b11110100000000000000000000000001 = some (.fsend true) ∧
    decodeEng 0b11111000000000000000010000001011 = some (.wait 0x00B true) ∧
    decodeEng 0b11111000110000000000000000000000 = some .halt := by decide +kernel

/-- Words that are ILLEGAL: an opcode that is not listed, and a reserved field that is not 0. -/
theorem test_illegal_words :
    decodeEng (BitVec.ofNat 32 (0x1D * 2 ^ 26)) = none ∧ decodeEng (BitVec.ofNat 32 (0x3F * 2 ^ 26)) = none ∧ decodeEng 1 = none ∧
      decodeEng 0b00000100010010001100000000000001 = none := by decide +kernel

/-- The table gives no command bits, so no word spells one. -/
theorem test_no_word_spells_a_command : decodeTableWord 8 0 = none ∧ (State.reset.withFetchWord 32 0) = State.reset := ⟨rfl, rfl⟩

/-! ## WellFormed: each check refuses an ill-formed command -/

theorem test_wf_host_command :
    (Instr.info (tCmd 15 (List.replicate 4093 0))).wf = false ∧ (Instr.info (tCmd 15 (List.replicate 4092 0))).wf = true ∧
      (Instr.chainSegment (tCmd 15 (List.replicate 4093 0)) 0x0902).wf = false := by decide +kernel

theorem test_wf_received_frame :
    (Instr.frameReceiveEnd 0 { tRx [1] with collided := [9] }).wf = false ∧
      (Instr.frameReceiveEnd 0 { tRx [1] with collided := [8], points := [(1, 1), (2, 2)] }).wf = false ∧
      (Instr.frameReceiveEnd 0 { tRx [1] with collided := [8], points := [(1, 1)] }).wf = true := by decide +kernel

theorem test_wf_events :
    (Instr.dbVerdict 0 (.answered 0 (List.replicate 9 0) [])).wf = false ∧ (Instr.dbVerdict 0 (.answered 0 [] (List.replicate 17 0))).wf = false ∧
      (Instr.couplingSourceEnd (.source [] [])).wf = false ∧ (Instr.couplingSourceEnd (.source (List.replicate 8 (0, 0)) [])).wf = false ∧
      (Instr.brownOut 0).wf = false ∧ (Instr.wakeEvent 0).wf = false ∧ (Instr.offWake 0).wf = false ∧ (Instr.bankingAbandoned 0).wf = false ∧
      (Instr.lkDepthBlock 0 0 0 [] 0).wf = false := by
  decide +kernel

theorem test_wf_transfers_and_frames :
    (Instr.spiInvalidTransfer .hp0 0x02 0).wf = false ∧ (Instr.spiInvalidTransfer .hp0 0x03 0).wf = false ∧
      (Instr.spiInvalidTransfer .hp0 0x05 0).wf = false ∧ (Instr.spiInvalidTransfer .hp0 0x07 0).wf = true ∧
      (Instr.scan (List.replicate 30 0)).wf = false ∧ (Instr.scan (List.replicate 29 0)).wf = true ∧
      (Instr.unknownCode .aelyr 0x7F (List.replicate 30 0)).wf = false := by decide +kernel

/-! ## Witnesses: the hypotheses of the statements are met -/

theorem test_witness_general_step :
    ({ State.reset with pending := [.nop 0] } : State).pending = [.nop 0] ∧ State.reset.pending = [] ∧
      State.reset.kiln.log.length ≤ 4096 :=
  ⟨rfl, rfl, Nat.zero_le _⟩

theorem test_witness_engine_ready : EngReady tEng 0 ∧ EngReady (tG1 0x1FFC) 0 ∧ EngReady (tG1 0x5000) 0 := by
  unfold EngReady; decide +kernel

theorem test_witness_neg_of_the_most_negative : (tG1 0x80000000).reg 0 1 = 0x80000000 := by decide +kernel

theorem test_witness_divisor_zero :
    EngReady (tEng.pset 0 ENG_CTL.DZTRAP 1) 0 ∧ tEng.pget 0 ENG_CTL.DZTRAP = 0 ∧
      (tEng.pset 0 ENG_CTL.DZTRAP 1).pget 0 ENG_CTL.DZTRAP = 1 ∧ (tEng.reg 0 2 == 0) = true ∧ tEng.eswBit 0 6 = false := by
  unfold EngReady; decide +kernel

/-- The first address beyond the code (R428). -/
theorem test_witness_fetch_beyond_code :
    engRow (.nop 0) = some (0, .nop) ∧ (tEng.setPc 0 64).runs 0 = true ∧
      ((tEng.setPc 0 64).eng 0).codeLen ≤ ((tEng.setPc 0 64).pc 0).toNat ∧ (tEng.setPc 0 64).eswBit 0 6 = false ∧
      State.reset.runs 0 = false := by decide +kernel

/-- The last data word, the bytes around the two data ranges, and the port window's ends (R421, R422). -/
theorem test_witness_data_addresses :
    (∀ n ∈ [0x1FFC, 0x1FFE, 0x1FFF, 0x2000, 0x3FFF, 0x4000, 0x4FFF, 0x5000, 0x7FFC],
      ((tG1 (BitVec.ofNat 32 n)).reg 0 1 + (0 : BitVec 17).signExtend 32).toNat = n) ∧
    0x1FFC % 4 = 0 ∧ 0x1FFE % 2 = 0 ∧ 0x1FFE % 4 ≠ 0 ∧ 0x1FFF % 2 ≠ 0 ∧ 0x4FFF % 4 ≠ 0 ∧ tEng.eswBit 0 6 = false := by
  decide +kernel

theorem test_witness_bit_destinations :
    (4 : BitVec 10).toNat < 5 ∧ 0x200 ≤ (0x200 : BitVec 10).toNat ∧ 0x200 ≤ (0x3FF : BitVec 10).toNat := by decide +kernel

/-- An ADDI at the next address may be repeated; a NOP-less word of zeros there may not. -/
theorem test_witness_repetitions :
    EngReady (tNext 0) 0 ∧
    (4 < ((tNext 0).eng 0).codeLen → repeatable (((tNext 0).eng 0).code.word 4) = false) ∧
    (let w := BitVec.ofNat 32 (0x10 * 2 ^ 26); repeatable (((tNext w).eng 0).code.word 4) = true) ∧ tEng.eswBit 0 6 = false ∧
    (let s := tEng.setRep 0 1; s.raised = [] ∧ s.runs 0 = true ∧ (s.pc 0).toNat < (s.eng 0).codeLen ∧
      s.pget 0 ENG_CTL.HALT = 0 ∧ (s.eng 0).repLeft = 0 + 1) := by
  unfold EngReady; decide +kernel

theorem test_witness_crc_sets :
    [CrcKind.crcA, .crcB, .crc15693, .crcO, .crcAelyr][(4 : Fin 8).val]? = some .crcAelyr ∧ 5 ≤ (5 : Fin 8).val ∧
      tTrap.eswBit 0 6 = true ∧ EngReady tTrap 0 := by
  unfold EngReady; decide +kernel

/-- A wait on the bit variable 0x200, met and not met, and the engine that stands in it. -/
theorem test_witness_wait :
    tEng.bitRead 0 0x200 = false ∧ (3 : Fin 8).val < 4 ∧ 4 ≤ (4 : Fin 8).val ∧
    (let s := (tEng.pset 0 ENG_STAT.STATE 2).modEng 0 fun e => { e with waitOn := some (0x200, false) }
     s.raised = [] ∧ (s.eng 0).waitOn = some (0x200, false) ∧ s.engState 0 = 2 ∧ s.bitRead 0 0x200 = false ∧
      s.pget 0 ENG_CTL.HALT = 0) := by decide +kernel

theorem test_witness_halt_and_step :
    tEng.pget 0 DBH_RING.RING = 0 ∧ tEng.portOn 0 = true ∧ tEng.engState 0 = 1 ∧ (tEng.eng 0).stall = none ∧
      (tEng.pset 0 ENG_STAT.STATE 2).engState 0 = 2 ∧ (tEng.pset 0 ENG_STAT.STATE 3).engState 0 = 3 ∧
      (tEng.pc 0).toNat < (tEng.eng 0).codeLen ∧ (tEng.eng 0).repLeft = 0 ∧
      decodeEng (((tEng.modEng 0 fun e => { e with code := e.code.putWord 0 0xFC000000 }).eng 0).code.word 0) = none ∧
      (∃ op rd ra rb, decodeEng (((tEng.modEng 0 fun e => { e with code := e.code.putWord 0 0x04000000 }).eng 0).code.word 0)
        = some (.alu op rd ra rb)) := by
  refine ⟨?_, ?_, ?_, ?_, ?_, ?_, ?_, ?_, ?_, .add, 0, 0, 0, ?_⟩ <;> decide +kernel

/-- An empty FIFO takes a byte; so does one whose packet in progress holds three, and one with two words free. -/
theorem test_witness_push :
    CanPush tEng 0 .tx ∧ CanPush (tEng.setFifo 0 .tx { Fifo.reset with part := [1, 2, 3], open_ := true }) 0 .tx ∧
      tEng.sideOn 0 .tx .engine = true ∧ tEng.sideOn 0 .tx .hearth = false ∧
      (tEng.pset 0 TX_CTL.SIDE 1).sideOn 0 .tx .hearth = true ∧ (tEng.reg 0 1).toNat < 0x2000 ∧
      (let f := (tEng.setFifo 0 .tx { Fifo.reset with part := [1], open_ := true }).fifo 0 .tx; f.sound ∧ f.open_ = true) := by
  unfold CanPush Fifo.sound; decide +kernel

theorem test_witness_pop :
    (let s := tHead .rx (tWord 0x11223344 4 true 0)
     s.raised = [] ∧ (s.fifo 0 .rx).sound ∧ (s.fifo 0 .rx).head = tWord 0x11223344 4 true 0 :: [] ∧ 0 ≠ (s.fifo 0 .rx).pktNo ∧
      s.portOn 0 = true ∧ s.sideOn 0 .rx .engine = true ∧ (s.reg 0 1).toNat < 0x2000 ∧ (s.reg 0 1).toNat % 4 = 0) ∧
    ((tEng.fifo 0 .rx).sound ∧ (tEng.fifo 0 .rx).head = [] ∧ (tEng.fifo 0 .rx).win = []) := by
  unfold Fifo.sound; decide +kernel

/-- An FPOP that stands while its word waits in the window. -/
theorem test_witness_stalled_pop :
    let w := tWord 0 4 true 0
    let s := (tEng.setFifo 0 .rx { Fifo.reset with win := [w], pkts := 1, pktNo := 1 }).modEng 0
      fun e => { e with stall := some (.fpop 2) }
    s.raised = [] ∧ (s.eng 0).stall = some (.fpop 2) ∧ (s.eng 0).repLeft = 0 ∧ s.pget 0 ENG_CTL.HALT = 0 ∧
      s.sideOn 0 .rx .engine = true ∧ (s.fifo 0 .rx).sound ∧ (s.fifo 0 .rx).head = [] ∧ (s.fifo 0 .rx).win = w :: [] ∧
      w.pkt ≠ (s.fifo 0 .rx).pktNo := by
  unfold Fifo.sound; decide +kernel

theorem test_witness_spill_and_flue :
    (tEng.fifo 0 .rx).holdsNone = true ∧ ((tHead .rx (tWord 0 4 true 0)).fifo 0 .rx).holdsNone = false ∧
      (tHead .rx (tWord 0 4 true 0)).fget 0 .rx RX_CTL.SPILL ≠ (7 : Fin 8).val := by decide +kernel

/-- A packet waits on a field that is on; the counts 15, 16, 64 and 65 of a rapid phase. -/
theorem test_witness_framing :
    (let s := (tHead .tx (tWord 0 4 true 0)).pset 0 TXCTL.FIELD_EN 1
     (s.port 0).framer.reqs < (s.fifo 0 .tx).pkts ∧ s.pget 0 TXCTL.FIELD_EN = 1 ∧
      cinderFirst (s.fifo 0 .tx).committed = false) ∧
    (tEng.fifo 0 .tx).pkts ≤ (tEng.port 0).framer.reqs ∧
    (tEng.pset 0 TXCTL.RAPID_EN 1).pget 0 TXCTL.RAPID_EN = 1 ∧ tEng.pget 0 TXCTL.RAPID_EN = 0 ∧
    ((tG1 16).reg 0 1).toNat % 128 = 16 ∧ ((tG1 64).reg 0 1).toNat % 128 = 64 ∧ ((tG1 65).reg 0 1).toNat % 128 = 65 ∧
    (tEng.port 0).framer.results.length < 4 ∧
    4 ≤ ((tEng.modFramer 0 fun f => { f with results := [0, 1, 2, 3] }).port 0).framer.results.length := by decide +kernel

/-- An amplitude that a new level has moved. -/
def tAmp : State := (tField 2 1).pset 0 TXAMP.LEVEL 500

theorem test_witness_field_may_ramp : MayRamp (tField 0 0) 0 ∧ MayRamp (tField 3 0) 0 :=
  ⟨⟨by decide +kernel, by decide +kernel, by decide +kernel, by decide +kernel⟩,
    ⟨by decide +kernel, by decide +kernel, by decide +kernel, by decide +kernel⟩⟩

theorem test_witness_field_may_not_ramp :
    (let s := { tField 0 0 with pcr := [] }; s.raised = [] ∧ s.portOn 0 = true ∧ s.pget 0 TXCTL.FIELD_EN = 0 ∧
      (s.port 0).field.lockout = false ∧ ¬MayRamp s 0) ∧
    (let s := setLockout 0 true (tField 0 0)
     (s.port 0).field.lockout = true ∧ (s.port 0).svc.pass = none ∧ (s.port 0).svc.series = false ∧ s.portOn 0 = true) :=
  ⟨⟨rfl, by decide +kernel, by decide +kernel, by decide +kernel, fun h => absurd h.carrier (by decide +kernel)⟩,
    by decide +kernel⟩

theorem test_witness_field_writes :
    (tField 0 0).raised = [] ∧ (tField 0 0).portOn 0 = true ∧ (tField 0 0).pget 0 TXCTL.FIELD_EN = 0 ∧
      (tField 0 0).fieldState 0 = 0 ∧ ((tField 0 0).port 0).field.vtxUv = false ∧ (tField 3 0).fieldState 0 = 3 ∧
      (tField 2 1).pget 0 TXCTL.FIELD_EN = 1 ∧ AirIdle (tField 2 1) 0 ∧
      ((tField 0 1).pset 0 TXSTAT.HELD 1).pget 0 TXSTAT.HELD = 1 :=
  ⟨by decide +kernel, by decide +kernel, by decide +kernel, by decide +kernel, by decide +kernel, by decide +kernel,
    by decide +kernel, ⟨by decide +kernel, by decide +kernel, by decide +kernel⟩, by decide +kernel⟩

theorem test_witness_ramp_ends :
    (tField 1 1).fieldState 0 = 1 ∧ (tField 1 1).findJob (fieldOnOf 0) = none ∧
      (∃ r, ({ tField 1 1 with running := [tJob (.fieldOn 0 0)] } : State).findJob (fieldOnOf 0) = some r) ∧
      (∃ r, ({ tField 3 0 with running := [tJob (.fieldOff 0)] } : State).findJob (fieldOffOf 0) = some r) ∧
      (let s := tDomain.pset 0 TXSTAT.STATE 3
       s.fieldState 0 = 3 ∧ s.pget 0 TXSTAT.HELD = 0 ∧ (s.port 0).svc.svc = .opened ∧ s.portOn 0 = true ∧
        s.portOn (sibling 0) = true ∧ s.findJob (fieldOffOf 0) = none) ∧ NoImport (tField 3 0) 0 TXSTAT.reg :=
  ⟨by decide +kernel, by decide +kernel, ⟨_, rfl⟩, ⟨_, rfl⟩, by decide +kernel, fun i h => absurd h List.not_mem_nil⟩

theorem test_witness_phase_and_amplitude :
    (tField 2 1).pget 0 TXPHASE.COORD = 0 ∧ ((tField 2 1).pset 0 TXPHASE.COORD 1).pget 0 TXPHASE.COORD = 1 ∧
      ((tField 2 1).pset 0 TXPHASE.PENDING 1).pget 0 TXPHASE.PENDING = 1 ∧ (tField 2 1).quiet 0 = true ∧
      ((tField 2 1).modFramer 0 fun f => { f with rapidOn := true }).quiet 0 = false ∧
      tAmp.fieldState 0 = 2 ∧ tAmp.quiet 0 = true ∧ tAmp.leff 0 ≠ (tAmp.port 0).field.leff ∧
      (tAmp.port 0).field.calLevel = none ∧ tAmp.pget 0 TXSTAT.GOV_FACTOR ≤ 100 ∧
      tAmp.mapEntry 0 (tAmp.antenna 0) = 1024 ∧ tAmp.pget 0 TXSTAT.GOV_FACTOR = 100 ∧ (tAmp.port 0).field.sampled = false ∧
      ((tAmp.modPort 0 fun q => { q with field := { q.field with ramping := true } }).port 0).field.ramping = true := by
  decide +kernel

theorem test_witness_faults :
    NoWork (tField 2 1) 0 ∧ (tField 2 1).fieldState 0 ≠ 0 ∧ ((tField 2 1).pset 0 TXCTL.ANT_CHECK 1).pget 0 TXCTL.ANT_CHECK = 1 ∧
      ((tField 2 1).pset 0 TXCTL.ANT_CHECK 0).pget 0 TXCTL.ANT_CHECK = 0 ∧
      (let s := tDomain.pset 0 TXCTL.FIELD_EN 0
       s.pget 0 TXCTL.FIELD_EN = 0 ∧ s.fieldState 0 ≠ 0 ∧ (s.port 0).svc.svc = .opened ∧ s.portOn 0 = true ∧
        s.portOn (sibling 0) = true) ∧ (tField 0 0).fieldState 0 = 0 :=
  ⟨⟨fun r h => absurd h List.not_mem_nil, by decide +kernel, by decide +kernel⟩, by decide +kernel, by decide +kernel,
    by decide +kernel, by decide +kernel, by decide +kernel⟩

/-- Samples taken on both ports, on the even one alone and on the odd one alone. -/
def tSampled (a b : Bool) (s : State) : State :=
  (s.modPort 0 fun q => { q with field := { q.field with sampled := a } }).modPort 1
    fun q => { q with field := { q.field with sampled := b } }

theorem test_witness_rail_and_junction :
    (let s := tSampled true true (tField 0 0)
     FieldIdle s 0 ∧ FieldIdle s 1 ∧ (s.port 0).field.sampled = true ∧ (s.port 1).field.sampled = true) ∧
    (let s := tSampled true false tDomain
     s.pget 0 TXCTL.FIELD_EN = 1 ∧ s.fieldState 0 ≠ 0 ∧ (s.port 0).field.sampled = true ∧ (s.port 1).field.sampled = false ∧
      s.portOn 0 = true ∧ s.portOn 1 = true ∧ FieldIdle s 1) ∧
    (let s := tSampled false true ((State.reset.pset 1 TXCTL.FIELD_EN 1).pset 1 TXSTAT.STATE 2)
     s.pget 1 TXCTL.FIELD_EN = 1 ∧ s.fieldState 1 ≠ 0 ∧ (s.port 1).field.sampled = true ∧ (s.port 0).field.sampled = false ∧
      FieldIdle s 0) := by
  unfold FieldIdle; decide +kernel

/-- A Grate that settles, with and without a request, a command and a held field request. -/
def tSettle (req : Bool) : State :=
  tDomain.modPort 0 fun q => { q with grate := { q.grate with settling := true, request := req } }

theorem test_witness_grate :
    ((tSettle true).port 0).grate.settling = true ∧ ((tSettle true).port 0).grate.request = true ∧
      ((tSettle false).port 0).grate.request = false ∧ ((tSettle false).port 0).grate.held = false ∧
      (tSettle false).pget 0 TXSTAT.HELD = 0 ∧ (tSettle false).findJob (fun r => r.job == .grate 0) = none ∧
      (∃ r, ({ tSettle false with running := [tJob (.grate 0)] } : State).findJob (fun r => r.job == .grate 0) = some r) ∧
      (tField 0 0).pllLocked = true ∧ ((tField 0 0).port 0).grate.settling = false ∧
      (let u := ((tField 0 1).pset 0 TXSTAT.HELD 1)
       u.pget 0 TXSTAT.HELD = 1 ∧ u.fieldState 0 = 0 ∧ (u.port 0).field.vtxUv = false ∧ u.carrier 0 = true ∧
        (u.port 0).grate.busy = false ∧ u.dutySpent 0 = false) :=
  ⟨by decide +kernel, by decide +kernel, by decide +kernel, by decide +kernel, by decide +kernel, by decide +kernel,
    ⟨_, rfl⟩, by decide +kernel, by decide +kernel, by decide +kernel⟩

theorem test_witness_readings :
    tDomain.pget 0 TXSTAT.HELD = 0 ∧ (∀ p ∈ ([Fin.ofNat 8 (2 * (0 : Fin 4).val), Fin.ofNat 8 (2 * (0 : Fin 4).val + 1)] : List PortNum),
      tDomain.portOn p = true) ∧ tDomain.dev.full = false ∧ 128 + 2 * thermStart 0 ≤ 128 + 2 * thermStart 0 ∧ (0 + 1) * 75 ≤ 75 := by
  decide +kernel

/-- A target and a length for each row of the command reference. -/
def tRows : List (Op × Nat × Nat) :=
  [(opInfo, 15, 0), (opIdent, 15, 0), (opDevReset, 15, 2), (opGetLog, 15, 6), (opHostConfig, 15, 8), (opHostStatus, 15, 0),
   (opOwnClaim, 0, 2), (opOwnClaim, 8, 2), (opOwnClaim, 15, 2), (opOwnRelease, 0, 1), (opOwnQuery, 15, 0), (opPortOpen, 0, 0),
   (opPortClose, 0, 0), (opPortSet, 0, 12), (opPortSet, 0, 322), (opFieldOn, 0, 2), (opFieldOff, 0, 0), (opGrateSelect, 0, 4),
   (opPortReset, 0, 0), (opPortReset, 15, 1), (opPortGet, 0, 4), (opPortGet, 0, 130), (opPortStatus, 0, 0), (opGroupSet, 15, 12),
   (opGroupQuery, 15, 1)]
  ++ [(opTransceive, 0, 9), (opAActivate, 0, 5), (opBActivate, 0, 5), (opApdu, 0, 4), (opDeselect, 0, 0), (opVhbrParams, 0, 2),
   (opVCmd, 0, 10), (opInvConfig, 0, 30), (opInvStart, 0, 0), (opInvStop, 0, 0), (opInvQuery, 0, 0), (opTtRead, 0, 4),
   (opTtRead, 15, 4), (opTtFind, 15, 12), (opTtDelete, 15, 12), (opTtClear, 15, 0), (opTtSetFlags, 15, 14), (opTtConfig, 15, 4),
   (opAlScan, 0, 1), (opAlSelect, 0, 9), (opAlHalt, 0, 1), (opAlRead, 0, 3), (opAlWrite, 0, 18), (opAlLockBlock, 0, 2),
   (opAlAreaInfo, 0, 1), (opAlAuthPwd, 0, 5), (opAlSetPwd, 0, 5), (opAlUnlock, 0, 2), (opAlReadCnt, 0, 1), (opAlIncCnt, 0, 3)]
  ++ [(opOsGetId, 0, 0), (opOsReadPage, 0, 1), (opOsWritePage, 0, 5), (opOsLogin, 0, 4), (opOsLogout, 0, 0),
   (opOsSetPassword, 0, 4), (opOsLockPage, 0, 1), (opDbRun, 0, 4), (opDbCal, 0, 2), (opDbConfig, 0, 10), (opXpdrConfig, 8, 36),
   (opXpdrAreaSet, 8, 12), (opXpdrAreaSet, 8, 132), (opXpdrRead, 8, 4), (opXpdrWrite, 8, 20), (opXpdrWrite, 8, 260),
   (opXpdrCntRead, 8, 1), (opXpdrCntInc, 8, 8), (opXpdrAreaInfo, 8, 0), (opXpdrUnlock, 8, 68), (opXpdrStatus, 8, 0),
   (opCalRun, 0, 0), (opCalRun, 0, 12), (opCalExport, 15, 1), (opCalImport, 15, 4), (opCalCoupling, 15, 12), (opCalConfig, 15, 3),
   (opCalStatus, 15, 0)]
  ++ [(opPwrEnter, 15, 1), (opWakeConfig, 15, 14), (opEmberConfig, 15, 14), (opPwrStatus, 15, 0), (opKeyInfo, 15, 1),
   (opKeyGen, 15, 4), (opKeyImport, 15, 20), (opKeyImport, 15, 260), (opKeyExport, 15, 2), (opKeyDelete, 15, 1),
   (opKilnRandom, 15, 2), (opKilnSign, 15, 36), (opKilnChallenge, 15, 1), (opDebugUnlock, 15, 68), (opImageLoad, 15, 1),
   (opImageInfo, 15, 0), (opImageActivate, 15, 3), (opEngineReload, 0, 3), (opEngineReload, 15, 4), (opDiagCounters, 0, 1),
   (opPortIsolate, 15, 2), (opTmrConfig, 0, 12), (opTmrConfig, 15, 12), (opTmrArm, 15, 8), (opTmrRead, 15, 1),
   (opTimebaseRead, 15, 0), (opGpioConfig, 15, 4), (opGpioWrite, 15, 8), (opGpioRead, 15, 0), (opDbgRead, 15, 6),
   (opDbgWrite, 15, 12), (opDbgEngine, 0, 1)]

/-- Every row of the command reference is accepted in one state with a request of a length it has. -/
theorem test_witness_every_row_is_accepted :
    (tRows.all fun x => accepts tHost x.1 (tCmd x.2.1 (List.replicate x.2.2 0))) = true ∧
      accepts tKindling opKindlingScan (tCmd 0 []) = true := by decide +kernel

theorem test_witness_frmctl :
    (let s := ((tField 2 1).pset 0 FRMCTL.CODING 2).modFramer 0 fun f => { f with frmPend := true }
     (s.port 0).framer.frmPend = true ∧ s.idleOrOff 0 = true ∧
      codingKey ((s.port 0).word FRMCTL.reg) ≠ codingKey (s.port 0).framer.frm ∧ s.pget 0 RXCTL.RXAUTO = 1 ∧
      s.pget 0 FDT.AUTO = 1 ∧ s.pget 0 FWT.AUTO = 1 ∧ s.pget 0 BITTOL.AUTO = 1) ∧
    (let s := (tField 2 1).modFramer 0 fun f => { f with frmPend := true }
     codingKey ((s.port 0).word FRMCTL.reg) = codingKey (s.port 0).framer.frm) ∧
    (((tField 2 1).modPort 0 fun q => { q with chain := { q.chain with pend := true } }).port 0).chain.pend = true ∧
    (tField 1 1).idleOrOff 0 = false := by decide +kernel

/-- Port 0 receiving, its Damper at `a`. -/
def tAgc (a : Nat) : State := (((tField 2 1).pset 0 RXCTL.RX_EN 1).pset 0 DAMPER.AGC 1).pset 0 DAMPER.ATTEN a

theorem test_witness_agc :
    (tAgc 14).pon 0 DAMPER.AGC = true ∧ (tAgc 14).rxRuns 0 = true ∧ (tAgc 14).idlePoint 0 = true ∧
      (tAgc 14).cplFrozen 0 = false ∧ (tAgc 14).pget 0 DAMPER.ATTEN = 14 ∧ (tAgc 15).pget 0 DAMPER.ATTEN = 15 ∧
      (let hi := (tAgc 0).pget 0 DAMPER.HI
       let lo := max ((tAgc 0).pget 0 DAMPER.LO) (hi + 6)
       (-(4 * (hi : Int)) < 0 ∨ hi = 0) ∧ -(4 * (lo : Int)) - 1 < -(4 * (lo : Int)) ∧ -(4 * (lo : Int)) ≤ -(4 * (hi : Int))) ∧
      ((tField 2 1).pset 0 RXCTL.RX_EN 0).pon 0 RXCTL.RX_EN = false := by decide +kernel

theorem test_witness_receive_events :
    ((tAgc 0).port 0).framer.win = none ∧ ((tAgc 0).port 0).framer.stray = false ∧ (tAgc 0).dcFrozen 0 = false ∧
      (((tAgc 0).pset 0 DCBLK.FREEZE 1).dcFrozen 0 = true) ∧
      (let s := (tAgc 0).pset 0 DCBLK.ACQ 0
       s.pon 0 DCBLK.ACQ = false ∧ s.pon 0 NOISE.VALID = false ∧ s.rxRuns 0 = true ∧ s.idlePoint 0 = true ∧ s.dcFrozen 0 = false) ∧
      (let s := (tWin 0 (some 1500) false false).pset 0 RXCTL.RX_EN 1
       s.rxRuns 0 = true ∧ (s.port 0).framer.win.isSome = true ∧ ((s.port 0).framer.win.bind (·.start)) = some 1500) := by
  decide +kernel

def zeroFeed (n : Nat) (a : Half) : Half := (List.replicate n (0 : Byte)).foldl CrcKind.crcO.feed a

theorem zeroFeed_add (n m : Nat) (a : Half) : zeroFeed (n + m) a = zeroFeed m (zeroFeed n a) := by
  unfold zeroFeed
  rw [← List.replicate_append_replicate, List.foldl_append]

theorem crc_zeros1 : zeroFeed 32 0xFFFF = 61772 := by decide +kernel
theorem crc_zeros2 : zeroFeed 32 61772 = 55002 := by decide +kernel
theorem crc_zeros3 : zeroFeed 32 55002 = 35372 := by decide +kernel
theorem crc_zeros4 : zeroFeed 32 35372 = 61450 := by decide +kernel
theorem crc_zeros5 : zeroFeed 32 61450 = 1352 := by decide +kernel
theorem crc_zeros6 : zeroFeed 32 1352 = 33778 := by decide +kernel
theorem crc_zeros7 : zeroFeed 32 33778 = 46877 := by decide +kernel
theorem crc_zeros8 : zeroFeed 32 46877 = 16872 := by decide +kernel

/-- The CRC of a matrix of zeros. -/
theorem crc_of_zero_matrix : matrixCrc State.reset.coord.regs = 16872 ∧
    matrixCrc (State.reset.coordSet CPLCTL.CRC 16872).coord.regs = 16872 := by
  have z : zeroFeed (32 + 32 + 32 + 32 + 32 + 32 + 32 + 32) 0xFFFF = 16872 := by
    simp only [zeroFeed_add, crc_zeros1, crc_zeros2, crc_zeros3, crc_zeros4, crc_zeros5, crc_zeros6, crc_zeros7, crc_zeros8]
  have e : ∀ c, matrixWords c = List.replicate 64 0 → matrixCrc c = 16872 := by
    intro c h
    unfold matrixCrc CrcKind.of
    rw [h, show wordsBytes (List.replicate 64 (0 : Word)) = List.replicate 256 0 by decide +kernel]
    exact congrArg (· ^^^ (0 : Half)) z
  exact ⟨e _ (by decide +kernel), e _ (by decide +kernel)⟩

theorem test_witness_coupling :
    (let s := State.reset.coordSet CPLCTL.CRC 16872
     (matrixCrc s.coord.regs).toNat = s.coordGet CPLCTL.CRC) ∧
    (matrixCrc State.reset.coord.regs).toNat ≠ State.reset.coordGet CPLCTL.CRC ∧ State.reset.coordGet CPLCTL.VALID = 0 := by
  refine ⟨?_, ?_, by decide +kernel⟩
  · dsimp only
    rw [crc_of_zero_matrix.2]; decide +kernel
  · rw [crc_of_zero_matrix.1]; decide +kernel

/-- A matrix in force that no longer has its CRC. -/
theorem test_witness_background_check :
    let s := { State.reset with coord := { State.reset.coord with
      regs := Cells.set .coord [] CPLCTL.VALID 1, matrix := State.reset.coord.regs, crc := 0 } }
    s.coordGet CPLCTL.VALID = 1 ∧ matrixCrc s.coord.matrix ≠ s.coord.crc := by
  refine ⟨by decide +kernel, ?_⟩
  show matrixCrc State.reset.coord.regs ≠ 0
  rw [crc_of_zero_matrix.1]; decide

theorem test_witness_coupling_of_a_port :
    (tField 2 1).idleOrOff 0 = true ∧ (tField 1 1).idleOrOff 0 = false ∧
    ((tField 2 1).pset 0 LKCTL.ADAPT 1).pget 0 LKCTL.ADAPT = 1 ∧ ((tField 2 1).pset 0 LKCTL.ADAPT 0).pget 0 LKCTL.ADAPT = 0 := by
  decide +kernel

/-- Port 0 wanted by group 0 with and without a stagger. -/
def tGroup (stagger : Nat) : State :=
  ((tField 0 0).modSvc 0 fun v => { v with ready := true }).coordSet (GRPCFG.MEMBERS.nth 0 16) 1
    |>.coordSet (GRPCFG.STAGGER.nth 0 16) stagger

theorem test_witness_groups :
    (tGroup 1).wanted 0 = [0] ∧ (tGroup 1).coordGet (GRPCFG.STAGGER.nth 0 16) = 1 ∧
      (tGroup 0).coordGet (GRPCFG.STAGGER.nth 0 16) = 0 ∧
      (∀ h, h < 4 → nbit ((tGroup 0).coord.active.getD h 0) 0 = false) := by
  decide +kernel

/-- A packet of one word at the head of the TX FIFO may be sent, with a mate that is quiet, listens or holds air time. -/
theorem test_witness_grants :
    MaySend tMates 0 [tWord 0 4 true 0] ∧ tMates.mates 0 = [1] ∧ tMates.protects 1 = false ∧ (tMates.port 1).framer.tx = none ∧
      (tMates.modFramer 1 fun f => { f with reserved := true }).protects 1 = true ∧ tMates.dbWaiting 0 = false ∧
      (tMates.port 1).framer.reserved = false ∧ (tField 2 1).canSend 0 = false ∧ ((tField 2 1).port 0).framer.reqs = 0 ∧
      ((tMates.modFramer 0 fun f => { f with held := true }).port 0).framer.held = true ∧
      ((tMates.modFramer 0 fun f => { f with guard := true }).port 0).framer.guard = true := by
  refine ⟨⟨by decide +kernel, by decide +kernel, by decide +kernel, ?_, by decide, ⟨[], by decide +kernel⟩,
    ⟨[], _, rfl, by decide +kernel, by simp⟩, ?_⟩, by decide +kernel, by decide +kernel, by decide +kernel, by decide +kernel,
    by decide +kernel, by decide +kernel, by decide +kernel, by decide +kernel, by decide +kernel, by decide +kernel⟩
  · unfold Fifo.sound; decide +kernel
  · decide +kernel

/-- A window, its settings 14443-A on and off the grid, ISO/IEC 15693 and Aelyr link. -/
theorem test_witness_windows :
    (((tField 2 1).modFramer 0 fun f => { f with tx := some (txFrame f.frm [0x26]) }).port 0).framer.tx.isSome = true ∧
      (let s := (tWin 0 none true true).pset 0 RXCTL.RX_EN 1
       ((s.port 0).framer.win.map (·.start)) = some none ∧ (s.port 0).framer.stray = false ∧ s.rxRuns 0 = true ∧
        (s.port 0).framer.reqs = 0 ∧ codingOf 0 = 0) ∧
      (128 * 9 + 84 ≤ 1228 + 8 ∧ 1228 ≤ 128 * 9 + 84 + 8) ∧ (128 * 9 + 84 ≤ 1244 + 8 ∧ 1244 ≤ 128 * 9 + 84 + 8) ∧
      (¬∃ n, 9 ≤ n ∧ 128 * n + 84 ≤ 1245 + 8 ∧ 1245 ≤ 128 * n + 84 + 8) := by
  refine ⟨by decide +kernel, by decide +kernel, by decide, by decide, ?_⟩
  rintro ⟨n, h9, h1, h2⟩
  omega

/-- The frames of the four verdicts: a clean reply, an extension frame, one of a violation class, and a disturbance. -/
theorem test_witness_received_frames :
    (let s := tWin 0x3003 (some 1500) false false
     let rx := tRx ([0x00, 0x11] ++ CrcKind.crcAelyr.bytes [0x00, 0x11])
     (s.quality 0 0x3003 rx).judge 0 0x3003 rx = .accept ∧ collides 0x3003 rx = false ∧
      (s.port 0).framer.win.bind (fun w => w.extension rx) = none ∧ (s.port 0).framer.stray = false ∧
      (s.port 0).framer.reqs = 0 ∧ (s.fifo 0 .rx).sound) ∧
    (let s := tWin 0x3003 (some 1500) false false
     let rx := tRx ([0xEE, 0x01] ++ CrcKind.crcAelyr.bytes [0xEE, 0x01])
     (s.quality 0 0x3003 rx).judge 0 0x3003 rx = .accept ∧ (s.port 0).framer.win.bind (fun w => w.extension rx) = some 1) ∧
    (let s := tWin 0x3003 (some 1500) false false
     let rx := { tRx [0x00, 0x11] with codingErr := true }
     (s.quality 0 0x3003 rx).judge 0 0x3003 rx = .discard 1) ∧
    (let s := tWin 0x103000 (some 1500) false false
     let rx := { tRx [0x00, 0x11] with codingErr := true }
     (s.quality 0 0x103000 rx).judge 0 0x103000 rx = .disturbance) := by
  unfold Fifo.sound; decide +kernel

theorem test_witness_rapid_phase :
    (let s := ((tField 2 1).pset 0 TXCTL.RAPID_EN 1).modFramer 0 fun f => { f with rapidN := 16, reserved := true }
     0 < (s.port 0).framer.rapidN ∧ (s.port 0).framer.reserved = true ∧ (s.port 0).framer.rapidOn = false ∧
      s.pget 0 TXCTL.RAPID_EN = 1 ∧ (s.port 0).framer.tx = none ∧ (s.port 0).framer.win = none ∧ s.fieldState 0 = 2) ∧
    (let s := (tField 2 1).modFramer 0 fun f => { f with rapidOn := true, rapidN := 64, rapidSlot := 63 }
     (s.port 0).framer.rapidSlot < (s.port 0).framer.rapidN ∧ (s.port 0).framer.rapidN ≤ 64 ∧ s.pget 0 DBRES.ABSENT < 127 ∧
      s.pget 0 DBRES.LATE < 127) ∧
    (let s := (tField 2 1).modFramer 0 fun f => { f with rapidOn := true, rapidN := 64, rapidSlot := 64 }
     (s.port 0).framer.rapidSlot = (s.port 0).framer.rapidN ∧ (s.port 0).framer.reqs = 0 ∧ (s.port 0).svc.db = none ∧
      (s.port 0).tim.excess = []) ∧ ((tField 2 1).port 0).framer.rapidOn = false := by decide +kernel

/-- DB_RUN of 16 and of 64 challenges, beyond the tag's, without a session, without bounds, without a key, and with each state
of the TRNG. -/
theorem test_witness_db_run :
    accepts (tSession 1 64) opDbRun (tCmd 0 [64, 3, 1, 0]) = true ∧ ((tSession 1 64).port 0).svc.session.isSome = true ∧
      (((tSession 1 64).port 0).svc.session.map (·.bounds)) = some true ∧
      (((tSession 0 64).port 0).svc.session.map (·.bounds)) = some false ∧
      ((tSession 1 64).keyFor 3 [1] 0).isSome = true ∧ ((tSession 1 64).keyFor 4 [1] 0) = none ∧
      (tSession 1 64).calGet CALSTAT.NOSET ≠ 1 ∧ ((tSession 1 64).calSet CALSTAT.NOSET 1).calGet CALSTAT.NOSET = 1 ∧
      (tSession 1 64).mboxLen 0 = 64 ∧ 4 + 8 ≤ (tSession 1 64).mboxLen 0 ∧ tHost.mboxLen 0 < 4 + 8 ∧
      ((tSession 1 64).kilnSet KWSTAT.TRNG 1).kilnGet KWSTAT.TRNG = 1 ∧
      ((tSession 1 64).kilnSet KWSTAT.TRNG 3).kilnGet KWSTAT.TRNG = 3 ∧ (tSession 1 64).kilnGet KWSTAT.TRNG = 0 ∧
      (tHost.port 0).svc.session = none ∧
      accepts (tSession 1 64) opDbCal (tCmd 0 [0, 0]) = true ∧ (tSession 1 64).pget 0 DBCTL.LOCK ≠ 1 ∧
      ((tSession 1 64).pset 0 DBCTL.LOCK 1).pget 0 DBCTL.LOCK = 1 := by decide +kernel

theorem test_witness_db_verdict :
    (let s := tDb { DbRun.fresh false 16 3 true 0 with answered := true, phaseDone := true }
     (∃ r, s.findJob (dbOf 0) = some r) ∧ (s.port 0).svc.db = some { DbRun.fresh false 16 3 true 0 with answered := true, phaseDone := true } ∧
      (s.keyFor 3 [1] 0).isSome = true ∧ tHost.findJob (dbOf 0) = none) ∧
    (DbRun.fresh true 16 3 true 0).cal = true ∧ (DbRun.fresh false 16 3 true 0).answered = false ∧
    recPres 0x0800 = true ∧ recPres 0 = false ∧ recPhase 0x1800 = (true != false) :=
  ⟨⟨⟨_, rfl⟩, by decide +kernel, by decide +kernel, by decide +kernel⟩, rfl, rfl, by decide +kernel, by decide +kernel,
    by decide +kernel⟩

theorem test_witness_cal_run :
    accepts tHost opCalRun (tCmd 0 ([1, 0] ++ leBytes 2 1023 ++ leBytes 8 1)) = true ∧ leAt ([1, 0] ++ leBytes 2 1023 ++ leBytes 8 1) 2 2 = 1023 ∧
      leAt ([1, 0] ++ leBytes 2 1023 ++ leBytes 8 1) 4 8 = 1 ∧ (tHost.port 0).field.lockout = false ∧
      ((setLockout 0 true tHost).port 0).field.lockout = true ∧
      accepts (setLockout 0 true tHost) opCalRun (tCmd 0 []) = true := by decide +kernel

theorem crc_ok_of_own (k : CrcKind) (l : List Byte) : k.ok (l ++ k.bytes l) = true := by
  have h : (k.bytes l).length = 2 := rfl
  unfold CrcKind.ok
  simp [h]

/-- A blob for no port: the header with a version, the die bytes, 269 bytes, and its own CRC. -/
def tBlob (die z : List Byte) (version : Byte) : List Byte :=
  let body := 0x1B :: 0xCA :: 1 :: 0 :: 0x22 :: 0x01 :: version :: 0 :: (die ++ z)
  body ++ CrcKind.crcO.bytes body

/-- It is long enough, its fields are in range, no record is named, and its die bytes are this die's or another's. -/
theorem test_witness_cal_import (die z : List Byte) (hd : die.length = 11) (hz : z.length = 269) :
    (tBlob die z 0xC1).length = 290 ∧ leAt (tBlob die z 0xC1) 4 2 = 290 ∧ byteAt (tBlob die z 0xC1) 7 = 0 ∧
      blobBad (tBlob die z 0xC1) 31 = false ∧ byteAt (tBlob die z 0xC1) 6 = 0xC1 ∧ byteAt (tBlob die z 0xC2) 6 = 0xC2 ∧
      blobBad (tBlob die z 0xC2) 31 = false ∧ ((tBlob die z 0xC1).drop 8).take 11 = die := by
  have hb : ∀ v, blobBad (tBlob die z v) 31 = false := by
    intro v
    have h1 : CrcKind.crcO.ok (tBlob die z v) = true := crc_ok_of_own _ _
    have h2 : blobCount (tBlob die z v) = 0 := by
      show popCount 8 0 = 0
      decide
    unfold blobBad
    rw [h1, h2]
    rfl
  refine ⟨?_, rfl, rfl, hb _, rfl, rfl, hb _, ?_⟩
  · have h2 : ∀ l, (CrcKind.crcO.bytes l).length = 2 := fun _ => rfl
    unfold tBlob
    simp only [List.length_append, List.length_cons, h2, hd, hz]
  · show ((die ++ z) ++ _).take 11 = die
    rw [List.append_assoc, List.take_append_of_le_length (by omega), ← hd, List.take_length]

/-- CAL_COUPLING over ports 0 and 1, both open and idle; over one port; over a busy one. -/
theorem test_witness_cal_coupling :
    (let s := tHost.modSvc 1 fun v => { v with svc := .opened }
     accepts s opCalCoupling (tCmd 15 ([3, 0, 0, 0] ++ List.replicate 8 63)) = true ∧
      (∀ n ∈ [0, 1], (s.port (toPort n)).svc.svc = .opened ∧ s.portBusy (toPort n) = false ∧
        (s.port (toPort n)).svc.pass = none ∧ (s.port (toPort n)).svc.series = false)) ∧
      ((List.range 8).filter fun i => nbit 3 i) = [0, 1] ∧ (tHost.port 1).svc.svc ≠ .opened := by decide +kernel

/-- A CAL_RUN and a CAL_COUPLING in progress. -/
def tCal (c : CalRun) : State := { tField 2 1 with running := [tJob (.calRun 0 c)] }

def tCpl (c : CalCpl) : State := { tDomain with running := [tJob (.coupling c)] }

theorem test_witness_calibration_events :
    (let s := { tField 0 0 with xchkPend := [0] }
     s.xchkPend.contains 0 = true ∧ s.fieldState 0 = 0 ∧ s.portOn 0 = true) ∧ (tField 0 0).xchkPend.contains 0 = false ∧
    (tField 0 0).idleOrOff 0 = true ∧ (tField 0 0).xget XSTAT.SESSION = 0 ∧
    ((tField 0 0).xset XSTAT.SESSION 1).xget XSTAT.SESSION = 1 ∧ (tField 0 0).staged.find? (·.1 == 0) = none ∧
    (∃ r, (tCal ⟨7, 0, 500, [0], [0], 0, 0, 0, []⟩).findJob (calRunOf 0) = some r) ∧ nbit 7 2 = true ∧ nbit 3 2 = false ∧
    nbit 3 0 = true ∧ nbit 2 0 = false ∧ nbit 2 1 = true ∧ (tField 2 1).idlePoint 0 = true ∧
    ((⟨3, 0, 500, [0], [0], 63, 0, 0, []⟩ : CalRun).tuned 0).capNow = 64 ∧
    (∃ r, (tCpl ⟨[0], [0], 7, true, [], 0, []⟩).findJob couples = some r) ∧
    (∀ n ∈ [0], (tCpl ⟨[0], [0], 7, true, [], 0, []⟩).fieldState (toPort n) = 2) ∧ tHost.findJob couples = none :=
  ⟨by decide +kernel, by decide +kernel, by decide +kernel, by decide +kernel, by decide +kernel, by decide +kernel, ⟨_, rfl⟩,
    by decide +kernel, by decide +kernel, by decide +kernel, by decide +kernel, by decide +kernel, by decide +kernel,
    by decide +kernel, ⟨_, rfl⟩, by decide +kernel, by decide +kernel⟩

/-- The pass of antenna 0, with the message of a sighting of the tag 0x11 there at -50 dBFS. -/
def tSight (ant flags appear : Nat) (census : Bool) : State :=
  tMsg (tTable ant flags appear (tPass [] (some 0) census false none)) 2 (BitVec.ofNat 32 (4 + 16 + 65536 * (65536 - 200))) 0 0x11

theorem test_witness_passes :
    (let s := (tField 0 0).modSvc 0 fun v => { v with series := true }
     (s.port 0).svc.series = true ∧ (s.port 0).svc.pass = none ∧ (s.port 0).svc.svc = .opened ∧ s.portBusy 0 = false) ∧
    ((tField 0 0).port 0).svc.series = false ∧ (((tPass [63] none false false none).port 0).svc.pass.map (·.slot)) = some none ∧
    (((tPass [63] none false false none).port 0).svc.pass.map (·.left)) = some [63] ∧
    (((tPass [63] none true true (some 5)).port 0).svc.pass.map fun x => (x.stop, x.census, x.fault)) = some (true, true, some 5) := by
  decide +kernel

theorem test_witness_sighting :
    MessageWaits (tSight 0 1 0 false) 0 2 ∧ ((tSight 0 1 0 false).sightingMsg 0).key = tKey ∧
      ((tSight 0 1 0 false).sightingMsg 0).ant = 0 ∧ ((tSight 0 1 0 false).sightingMsg 0).rssi = -200 ∧
      ((tSight 0 1 0 false).sightingMsg 0).halted = false ∧ (∃ x, SlotOn (tSight 0 1 0 false) 0 x 0) ∧
      ((tSight 0 1 0 false).ttLookup tKey).1 = .found (homeOf tKey) ∧
      (tSight 5 1 0 false).ttEntry (homeOf tKey) = tEntry 5 1 0 ∧ nbit 1 0 = true ∧ nbit 0 0 = false ∧
      byteAt ((tSight 0 1 0 false).port 0).svc.inv 25 = 10 ∧ byteAt ((tSight 0 1 0 false).port 0).svc.inv 23 = 2 ∧
      (∀ x, ((tField 0 0).port 0).svc.pass = some x → x.slot = none) := by
  refine ⟨by unfold MessageWaits; decide +kernel, by decide +kernel, by decide +kernel, by decide +kernel, by decide +kernel,
    ⟨_, rfl, rfl⟩, by decide +kernel, by decide +kernel, by decide +kernel, by decide +kernel, by decide +kernel, by decide +kernel,
    fun x h => ?_⟩
  rw [show ((tField 0 0).port 0).svc.pass = none by decide +kernel] at h
  cases h

theorem full_table_lookup (k : Key) (s : State) (b : List Byte) (hb : entryGood b = true) (hk : keyOfBytes b ≠ k)
    (h : ∀ i, i < 8192 → s.slotAt i = some b) (n m i : Nat) (hi : i < 8192) (hn : m < n) :
    State.probeN k n m i s = (.full, s) := by
  induction n generalizing m i with
  | zero => omega
  | succ n ih =>
    unfold State.probeN
    rw [h i hi]
    by_cases hm : m = 0
    · simp [hb, hk, hm]
    · simp [hb, hk, hm]
      exact ih (m - 1) ((i + 1) % 8192) (Nat.mod_lt _ (by decide)) (by omega)

theorem find_of_mem (b : List Byte) (l : List Nat) (i : Nat) (h : i ∈ l) (hp : l.Pairwise (· < ·)) :
    Sparse.find (l.map fun i => (i, b)) i = some b := by
  induction l with
  | nil => cases h
  | cons a l ih =>
    simp only [List.map_cons, Sparse.find]
    rcases List.mem_cons.mp h with e | e
    · subst e; simp
    · have := (List.pairwise_cons.mp hp).1 i e
      rw [if_neg (by omega)]
      exact ih e (List.pairwise_cons.mp hp).2

theorem full_table (s : State) (b : List Byte) (n : Nat) (hn : n = 8192) (hs : s.table = (List.range n).map fun i => (i, b))
    (hb : usedBytes b = true) (i : Nat) (hi : i < 8192) : s.slotAt i = some b := by
  unfold State.slotAt
  rw [hs, find_of_mem b _ i (by rw [hn]; simpa using hi) List.pairwise_lt_range]
  simp [hb]

/-- A table with one entry in every place is full for another key. -/
theorem test_witness_full_table : ∃ s : State, s.ttFullPolicy = false ∧ s.ttLookup tKey = (.full, s) := by
  obtain ⟨n, hn⟩ : ∃ n, n = 8192 := ⟨_, rfl⟩
  refine ⟨{ State.reset with ttFullPolicy := false, table := (List.range n).map fun i =>
    (i, entryPack { tEntry 0 1 0 with uid := [0x22, 0, 0, 0, 0, 0, 0, 0, 0, 0] }) }, rfl, ?_⟩
  exact full_table_lookup tKey _ _ (by decide +kernel) (by decide +kernel) (full_table _ _ n hn rfl (by decide +kernel)) _ _ _
    (Nat.mod_lt _ (by decide)) (by decide)

theorem test_witness_slot_end :
    MessageWaits (tMsg (tPass [] (some 0) false false none) 3 0x100 0 0) 0 3 ∧
      (∃ x, SlotOn (tMsg (tPass [] (some 0) false false none) 3 0x100 0 0) 0 x 0 ∧ x.halted = []) ∧
      (let s := tMsg (tPass [] (some 0) false false none) 3 0x100 0 0
       wget ((s.port 0).word (DBH_MSG.reg + 4)) 0 6 = 0 ∧ wget ((s.port 0).word (DBH_MSG.reg + 4)) 8 2 = 1) ∧
      alertNew [] 0 = true ∧ alertNew [(0, 1)] 0 = false := by
  refine ⟨by unfold MessageWaits; decide +kernel, ⟨_, ⟨rfl, rfl⟩, rfl⟩, by decide +kernel, by decide +kernel, by decide +kernel⟩

/-- Requests ready to be shipped, at the ends of their ranges, and ones that lack their session. -/
theorem test_witness_shipped_requests :
    ShipReady (tSession 1 64) 0 (.transceive (tCmd 0 (15 :: 7 :: 7 :: 0 :: leBytes 4 (2 ^ 28 - 1)))) ∧
      ShipReady tHost 0 (.aActivate (tCmd 0 [1, 1, 14, 3, 3])) ∧ ShipReady tHost 0 (.bActivate (tCmd 0 [0, 16, 0, 3, 3])) ∧
      ShipReady tHost 0 (.vCmd (tCmd 0 [0, 2])) ∧ ShipReady tHost 0 (.alScan (tCmd 0 [32])) ∧
      ShipReady (tSession 1 64) 0 (.alRead (tCmd 0 [0, 0, 4])) ∧ ShipReady (tSession 1 64) 0 (.alUnlock (tCmd 0 [0, 3])) ∧
      ShipReady (tSession 1 64) 0 (.alSelect (tCmd 0 (List.replicate 8 0x11 ++ [2]))) ∧
      ShipReady tHost 0 (.osGetId (tCmd 0 [])) ∧
      ShipReady ((tSession 1 64).modSvc 0 fun v => { v with picc := some [] }) 0 (.apdu (tCmd 0 [1])) ∧
      NeedsTag tHost 0 (.alRead (tCmd 0 [0, 0, 1])) ∧ NeedsTag tHost 0 (.deselect (tCmd 0 [])) ∧
      9 ≤ (tSession 1 64).mboxLen 0 ∧ tHost.mboxLen 0 < 1 := by
  unfold ShipReady NeedsTag; decide +kernel

theorem test_witness_select_of_another_tag :
    byteAt (List.replicate 8 (0x22 : Byte) ++ [0]) 8 &&& 0xFD = 0 ∧
      (((tSession 1 64).port 0).svc.session.map fun x => decide (x.uid ≠ (List.replicate 8 0x22 ++ [0]).take 8)) = some true ∧
      9 ≤ (tSession 1 64).mboxLen 0 := by decide +kernel

/-- The engine's messages: ready, and the response to a shipped command of a customer image. -/
def tReady : State :=
  let s := tMsg (tDomain.modSvc 0 fun v => { v with ready := false }) 0 0 0 0
  { s with running := [{ tJob (.engineStart 0) with cmd := { (tJob .kiln).cmd with opcode := 0x0100 } }] }

def tReply (opcode : Half) (status : Nat) : State :=
  let s := tMsg ((tSession 1 64).modSvc 0 fun v => { v with customer := true, ready := true }) 1 (BitVec.ofNat 32 status) 0 0
  { s with running := [{ tJob (.shipped 0) with cmd := { (tJob .kiln).cmd with opcode } }] }

theorem test_witness_engine_messages :
    MessageWaits tReady 0 0 ∧ wget ((tReady.port 0).word DBH_MSG.reg) 8 1 = 0 ∧ (tReady.port 0).svc.ready = false ∧
      Ungrouped tReady 0 ∧ DomainOn tReady 0 ∧ (∃ r, tReady.findJob (engineStartOf 0) = some r ∧ r.cmd.opcode = 0x0100) ∧
      (tReady.port 0).svc.svc = .opened ∧ MessageWaits (tReply 0x0200 0) 0 1 ∧
      (∃ r, (tReply 0x0401 0).findJob (engineServes 0) = some r ∧ r.job = .shipped 0 ∧ r.cmd.opcode = 0x0401 ∧
        suspectDue r.cmd ((tReply 0x0401 0).engReply 0) = false) ∧
      ((tReply 0x0200 0).port 0).svc.customer = true ∧ ((tReply 0x0200 0).engReply 0).payload.length ≤ 4092 ∧
      ((tReply 0x0401 0).engReply 0).status = St.OK ∧ ((tReply 0x0401 1).engReply 0).status ≠ St.OK ∧
      byteAt ((tReply 0x0401 0).engReply 0).payload 0 ≠ 4 ∧ (∃ r ∈ (tReply 0x0200 0).running, r.job = .shipped 0) ∧
      (tReply 0x0401 0).slotAt (homeOf (keyOf 3 8 [])) = none ∧ ((tReply 0x0200 0).port 0).svc.ready = true := by
  refine ⟨by unfold MessageWaits; decide +kernel, by decide +kernel, by decide +kernel, by unfold Ungrouped; decide +kernel,
    by unfold DomainOn; decide +kernel, ⟨_, rfl, by decide +kernel⟩, by decide +kernel, by unfold MessageWaits; decide +kernel,
    ⟨_, rfl, rfl, by decide +kernel, by decide +kernel⟩, by decide +kernel, by decide +kernel, by decide +kernel, by decide +kernel,
    by decide +kernel, ⟨_, List.mem_cons_self, rfl⟩, by decide +kernel, by decide +kernel⟩

/-- An engine image of 4 bytes of code whose header lies within R454, of interface 0x00C1 and 0x00C2, signed by a customer
slot that is empty. -/
def tImage (iface : Nat) : List Byte :=
  leBytes 4 0x314E4B53 ++ leBytes 2 1 ++ [1, 3] ++ leBytes 4 0 ++ leBytes 4 0 ++ leBytes 2 iface ++ leBytes 2 0 ++ leBytes 4 4
    ++ leBytes 4 0 ++ leBytes 2 0 ++ leBytes 2 16 ++ List.replicate 232 0

theorem test_witness_engine_images :
    imgFieldsOk (tImage 0x00C1) = true ∧ imgNum (tImage 0x00C1) 16 2 ≤ 0x00C1 ∧ 0x00C1 < imgNum (tImage 0x00C2) 16 2 ∧
      imgFieldsOk (tImage 0x00C2) = true ∧ imgFieldsOk [] = false ∧ tHost.imgKey (tImage 0x00C1) = none ∧
      (∃ r, ({ tHost with running := [tJob (.reload 0 (tImage 0x00C2))] } : State).findJob reloads = some r) ∧
      tHost.imgCheck (tImage 0x00C2) = some 2 ∧ tHost.findJob reloads = none ∧ (State.reset.port 0).svc.svc = .closed :=
  ⟨by decide +kernel, by decide +kernel, by decide +kernel, by decide +kernel, by decide +kernel, by decide +kernel, ⟨_, rfl⟩,
    by decide +kernel, by decide +kernel, by decide +kernel⟩

theorem test_witness_queries :
    accepts tHost opGroupQuery (tCmd 15 [3]) = true ∧ accepts tHost opKeyInfo (tCmd 15 [63]) = true ∧
      accepts tHost opKeyInfo (tCmd 15 [64]) = true ∧ accepts tHost opDiagCounters (tCmd 0 [1]) = true ∧
      accepts tHost opDiagCounters (tCmd 0 [2]) = true := by decide +kernel

theorem test_witness_pin_and_wake_settings :
    accepts tHost opGpioConfig (tCmd 15 [23, 3, 1, 2]) = true ∧ gpioOffers 23 3 = true ∧ gpioOffers 15 3 = false ∧
      accepts tHost opWakeConfig (tCmd 15 (leBytes 2 1023 ++ leBytes 4 (2 ^ 23) ++ leBytes 4 (2 ^ 24 - 1) ++ leBytes 4 (2 ^ 24 - 1))) = true ∧
      (let s := { tHost with dev := { tHost.dev with gpioFunc := tHost.dev.gpioFunc.set 23 4 } }
       ∀ i < 24, nbit (2 ^ 23) i = true → s.gpioFn i = 4) ∧ tHost.gpioFn 23 ≠ 4 ∧
      accepts tHost opGpioWrite (tCmd 15 (leBytes 4 (2 ^ 24 - 1) ++ leBytes 4 (2 ^ 24))) = true ∧
      accepts tHost opCalConfig (tCmd 15 [1, 31, 3]) = true ∧ accepts tHost opTtConfig (tCmd 15 [1, 1, 1, 0]) = true := by
  decide +kernel

theorem test_witness_inventory_and_power_settings :
    invOk (tHost.port 0).svc.inv = true ∧ invOk (List.replicate 30 0) = false ∧
      accepts tHost opInvConfig (tCmd 0 (tHost.port 0).svc.inv) = true ∧ accepts tHost opPwrEnter (tCmd 15 [1]) = true ∧
      accepts (tHost.aonSet WKEN.SOURCES 1) opPwrEnter (tCmd 15 [4]) = true ∧
      (tHost.aonSet WKEN.SOURCES 1).aonGet WKEN.SOURCES &&& 0x3C3 ≠ 0 ∧ (tHost.aonSet WKEN.SOURCES 0).aonGet WKEN.SOURCES = 0 := by
  decide +kernel

theorem test_witness_host_and_distance_settings :
    accepts tHost opHostConfig (tCmd 15 ([3, 0] ++ leBytes 2 1023 ++ leBytes 4 95)) = true ∧
      accepts tHost opHostConfig { tCmd 15 ([3, 0] ++ leBytes 2 1023 ++ leBytes 4 120001) with hp := 2 } = true ∧
      accepts tHost opDbConfig (tCmd 0 ([31, 0] ++ leBytes 2 511 ++ [15, 0] ++ leBytes 2 511 ++ leBytes 2 65535)) = true ∧
      tHost.pget 0 DBCTL.LOCK ≠ 1 ∧ (tHost.pset 0 DBCTL.LOCK 1).pget 0 DBCTL.LOCK = 1 := by decide +kernel

theorem test_witness_timer_commands :
    tHost.tmrChannel (opTmrConfig.cmd (tCmd 15 ([7, 7, 127, 0] ++ List.replicate 8 0))) = .ok (.global 7) ∧
      tHost.tmrChannel (opTmrArm.cmd (tCmd 15 ([0, 0, 0, 0] ++ leBytes 4 1))) = .ok (.global 0) ∧
      tHost.tmrChannel (opTmrRead.cmd (tCmd 0 [3])) = .ok (.port 0 3) ∧ tHost.tmrChannel (opTmrRead.cmd (tCmd 0 [4])) = .error St.BAD_PARAM ∧
      tHost.tmrChannel (opTmrRead.cmd (tCmd 0 [1])) = .error St.BUSY ∧ tHost.tmrChannel (opTmrRead.cmd (tCmd 15 [8])) = .error St.BAD_PARAM :=
  ⟨rfl, rfl, rfl, rfl, rfl, rfl⟩

/-- HP0 owns the ports and is the only co-owner; HP1 has no right to claim; an unowned port. -/
theorem test_witness_ownership :
    accepts tHost opOwnClaim (tCmd 0 [1, 1]) = true ∧ hostNamed (tCmd 0 [1, 1]) = some 1 ∧ MayClaim tHost (tCmd 0 [1, 1]) 1 ∧
      tHost.ownerOf 0 ≠ some 1 ∧ MayClaim tHost (tCmd 0 [0xFF, 0]) 0 ∧ tHost.ownerOf 0 = some 0 ∧
      ¬MayClaim tHost { tCmd 0 [0xFF, 0] with hp := 1 } 1 ∧ accepts tHost opOwnClaim { tCmd 0 [0xFF, 0] with hp := 1 } = true ∧
      accepts tHost opOwnRelease { tCmd 8 [0xFF] with hp := 1 } = true ∧ tHost.devOwn.getLsbD 1 = false ∧
      (tHost.devOwn ||| BitVec.ofNat 4 (2 ^ 3)) ≠ tHost.devOwn ∧ hostNamed (tCmd 0 [4, 0]) = none ∧
      accepts tHost opDevReset (tCmd 15 [0xD0, 0xD0]) = true ∧ leAt [0xD0, 0xD0] 0 2 = 0xD0D0 ∧
      ({ tKindling with pcr := Cells.set .pcr [] CLKCTL.XTAL_OK 1 } : State).pcrGet CLKCTL.XTAL_OK = 1 ∧
      accepts { tKindling with pcr := Cells.set .pcr [] CLKCTL.XTAL_OK 1 } opKindlingScan (tCmd 0 []) = true ∧
      tKindling.pcrGet CLKCTL.XTAL_OK = 0 ∧ (∀ q ∈ allHosts, (tHost.host q).chains = []) := by
  unfold MayClaim; decide +kernel

theorem test_witness_spi :
    tHost.dev.inReset = false ∧ (tHost.host 0).spi = .idle ∧ (tHost.host 0).part = [] ∧ (tHost.host 0).refused = false ∧
      ((tPort 0 fun x => { x with spi := .first }).host 0).spi = .first ∧
      ((tPort 0 fun x => { x with part := [0x5C] }).host 0).part ≠ [] ∧
      (let h := (tPort 0 fun x => { x with spi := .read, out := [tOut false 12], taken := 4 }).host 0
       h.spi = .read ∧ h.awake = true ∧ h.out = tOut false 12 :: [] ∧ h.taken + 7 < (tOut false 12).bytes.length ∧
        h.taken + 8 = (tOut false 12).bytes.length ∧ h.lost = 0) ∧
      (tHost.host 0).inUse + (cmdBytes 0 1 15 0x0001 []).length ≤ 8192 ∧
      ((tPort 0 fun x => { x with awake := false, spi := .write }).host 0).awake = false := by decide +kernel

theorem test_witness_uart_and_i2c :
    (let s := { tPort 2 (fun x => { x with part := (cmdBytes 0 1 15 0x0001 []).take 9 }) with pcr := Cells.set .pcr [] CLKCTL.XTAL_OK 1 }
     (s.host 2).awake = true ∧ s.pcrGet CLKCTL.XTAL_OK = 1 ∧ (s.host 2).inUse < 8192 ∧ (s.host 2).refused = false ∧
      (s.host 2).part ++ [(cmdBytes 0 1 15 0x0001 []).getD 9 0] = cmdBytes 0 1 15 0x0001 [] ∧ (s.host 2).part ≠ []) ∧
    (let u := (tPort 2 fun x => { x with part := (cmdBytes 0 1 15 0x0001 []).take 8 }).host 2
     8 ≤ u.part.length ∧ u.part.length + 1 < 10 + leAt (u.part ++ [0]) 2 2) ∧
    ((tPort 2 fun x => { x with part := [0x5C, 0, 0, 0, 0, 0] }).host 2).part.length < 7 ∧ tKindling.pcrGet CLKCTL.XTAL_OK = 0 ∧
    (let u := (tPort 2 fun x => { x with out := [tOut false 12], taken := 10 }).host 2
     u.out = tOut false 12 :: [] ∧ u.taken + 1 < (tOut false 12).bytes.length) ∧
    ((tPort 3 fun x => { x with i2c := some false, part := (cmdBytes 0 1 15 0x0001 []).take 9 }).host 3).i2c = some false ∧
    (let w := (tPort 3 fun x => { x with i2c := some true, out := [tOut false 12], taken := 11 }).host 3
     w.i2c = some true ∧ w.i2cFirst = false ∧ w.taken + 1 = (tOut false 12).bytes.length) := by decide +kernel

theorem test_witness_taken_packets :
    tHost.hostRuns 1 = true ∧
      (let h := (tPort 1 fun x => { x with out := List.replicate 16 (tOut true 12), lost := 3 }).host 1
       h.out = tOut true 12 :: List.replicate 15 (tOut true 12) ∧ h.lost ≠ 0 ∧
        ((List.replicate 15 (tOut true 12)).filter (·.isEvent)).length < 16) ∧
      ((tPort 1 fun x => { x with more := [tOut false 12] }).host 1).more = tOut false 12 :: [] ∧
      (let h := (tPort 1 fun x => { x with chains := [⟨15, 0x0A00, [], false⟩] }).host 1
       (h.chains.find? fun x => x.target == 15) = some ⟨15, 0x0A00, [], false⟩) := by decide +kernel

theorem test_witness_timer_channels :
    tHost.chanOn (.port 0 0) = true ∧ tHost.chanOn (.global 0) = true ∧ tget (tHost.chan (.global 0)) TMR_CMPV.V = 0 ∧
      (let s := tHost.setChan (.global 0) (tset [] TMR_CMPV.V 1); 0 < tget (s.chan (.global 0)) TMR_CMPV.V) ∧
      (let t := tChan 100 99
       tget t TMR_STAT.ARMED = 1 ∧ tget t TMR_COUNT.V < 100 ∧ 99 ≤ tget t TMR_COUNT.V ∧ tget t TMR_STAT.SRCSTOP = 0 ∧
        tget t TMR_COUNT.V ≤ tget t TMR_CMPV.V ∧ tget t TMR_PACC.V < tmrPresc t) ∧
      (let s := tHost.setChan (.global 0) (tChan 100 99); s.chanFrozen (.global 0) = false) ∧
      (let s := { tHost with dev := { tHost.dev with jtagHalt := true } }.setChan (.global 0) (tset (tChan 100 99) TMR_CTL.FREEZE 1)
       s.chanFrozen (.global 0) = true) ∧
      (let t := tset (tset (tChan 100 99) TMR_CTL.CAPSEL 4) TMR_CTL.CAPEDGE 2
       1 ≤ tget t TMR_CTL.CAPSEL ∧ tget t TMR_CTL.CAPSEL ≤ 4 ∧ tget t TMR_CTL.CAPEDGE ≠ 1 ∧ tget t TMR_CTL.CAPEDGE ≠ 0) ∧
      (let t := tset (tChan 7000 0) TMR_STAT.SRCSTOP 1
       tget t TMR_STAT.SRCSTOP = 1 ∧ tget t TMR_COUNT.V + (0 * tmrFactor 2) / tmrPresc t < tget t TMR_CMPV.V ∧
        tget t TMR_CMPV.V ≤ tget t TMR_COUNT.V + (tget t TMR_PACC.V + 14000 * tmrFactor 2) / tmrPresc t) := by decide +kernel

theorem test_witness_port_services :
    (tHost.port 0).svc.svc = .opened ∧ accepts (tHost.modSvc 0 fun v => { v with svc := .isolated }) opPortOpen (tCmd 0 []) = true ∧
      ((tHost.modSvc 0 fun v => { v with svc := .isolated }).port 0).svc.svc = .isolated ∧
      accepts (tHost.modSvc 0 fun v => { v with svc := .closed }) opPortOpen (tCmd 0 []) = true ∧
      (tHost.modSvc 0 fun v => { v with svc := .closed }).imgStarts 0 = false ∧
      accepts tHost opPortReset (tCmd 15 [7]) = true ∧ accepts tHost opPortReset (tCmd 15 [8]) = true ∧
      accepts tHost opPortIsolate (tCmd 15 [7, 1]) = true ∧ accepts tHost opPortIsolate (tCmd 15 [0, 0]) = true ∧
      accepts tHost opEngineReload (tCmd 0 [0, 0, 0]) = true ∧ accepts tHost opEngineReload (tCmd 15 [1, 7, 0, 0]) = true := by
  decide +kernel

theorem test_witness_port_reset :
    (∃ t, (tHost.opened (opPortReset.cmd (tCmd 0 []))).portReset 0 = (false, t)) ∧
      (∃ t, ((tHost.modSvc 0 fun v => { v with svc := .closed }).opened (opPortReset.cmd (tCmd 0 []))).portReset 0 = (true, t)
        ∧ (t.port 0).svc.svc ≠ .opened) := by
  refine ⟨⟨_, Prod.ext (by decide +kernel) rfl⟩, ⟨_, Prod.ext (by decide +kernel) rfl, by decide +kernel⟩⟩

/-- PORT_SET and PORT_GET with one entry, with one that may not be written or read, and with a wrong count. -/
theorem test_witness_port_set_and_get :
    (let l := [1, 0] ++ leBytes 2 0x004 ++ leBytes 4 1 ++ leBytes 4 1
     accepts tHost opPortSet (tCmd 0 l) = true ∧ l.length = 2 + 10 * byteAt l 0 ∧
      (∀ e ∈ (List.range (byteAt l 0)).map (setEntry l), portSetOk e.1 = true ∧ e.2.1 &&& ~~~(writableBits e.1) = 0)) ∧
    portSetOk 0x010 = false ∧ 12 ≠ 2 + 10 * 2 ∧
    (let l := [2, 0] ++ leBytes 2 0x9FF ++ leBytes 2 0x000
     accepts tHost opPortGet (tCmd 0 l) = true ∧ l.length = 2 + 2 * byteAt l 0 ∧
      (∀ o ∈ (List.range (byteAt l 0)).map fun i => leAt l (2 + 2 * i) 2, o ≤ 0x9FF ∧ o ≠ VIOLCNT.reg ∧ o ≠ VIOLCNT1.reg)) := by
  decide +kernel

theorem test_witness_field_commands :
    accepts tHost opFieldOn (tCmd 0 (leBytes 2 1000)) = true ∧ accepts tHost opFieldOn (tCmd 0 (leBytes 2 1001)) = true ∧
      (setLockout 0 true tHost).fieldBlocked 0 = true ∧ tHost.pget 0 TXCTL.FIELD_EN = 0 ∧ tHost.fieldState 0 = 0 ∧
      (let s := tHost.modPort 0 fun q => { q with grate := { q.grate with settling := true } }
       s.fieldBlocked 0 = true ∧ (s.port 0).field.lockout = false ∧ accepts s opFieldOn (tCmd 0 (leBytes 2 1)) = true) ∧
      (let s := (tHost.pset 0 TXSTAT.STATE 2).pset 0 TXCTL.FIELD_EN 1
       accepts s opFieldOn (tCmd 0 (leBytes 2 1)) = true ∧ accepts s opFieldOff (tCmd 0 []) = true ∧ s.fieldState 0 = 2 ∧
        (∀ r ∈ s.running, r.job ≠ .fieldOn 0 0) ∧ accepts s opGrateSelect (tCmd 0 ([63, 0] ++ leBytes 2 1023)) = true) ∧
      FieldIdle tHost 0 := by
  unfold FieldIdle; decide +kernel

theorem test_witness_group_set :
    accepts tHost opGroupSet (tCmd 15 ([3, 0, 0, 0] ++ leBytes 4 0x000101FF ++ leBytes 4 0)) = true ∧
      wordAt ([3, 0, 0, 0] ++ leBytes 4 0x000101FF ++ leBytes 4 0) 4 &&& 0x0000FE00 = 0 ∧
      ¬(∃ k ∈ [0, 1, 2, 3], k ≠ 3 ∧ tHost.coordGet (GRPCFG.MEMBERS.nth k 16) &&& 0xFF ≠ 0) ∧
      (let s := tHost.coordSet (GRPCFG.MEMBERS.nth 0 16) 1
       ∃ k ∈ [0, 1, 2, 3], k ≠ 3 ∧ s.coordGet (GRPCFG.MEMBERS.nth k 16) &&& 0xFF ≠ 0) := by decide +kernel

theorem test_witness_inventory_commands :
    (tHost.port 0).svc.series = false ∧ ((tHost.modSvc 0 fun v => { v with series := true }).port 0).svc.series = true ∧
      accepts (tHost.modSvc 0 fun v => { v with series := true }) opInvStart (tCmd 0 []) = true ∧
      accepts tHost opTtRead (tCmd 15 (leBytes 2 8191 ++ [120, 3])) = true ∧ accepts tHost opTtRead (tCmd 0 (leBytes 2 8192 ++ [1, 0])) = true ∧
      keyOk tKey = true ∧ keyOk (5 :: List.replicate 11 0) = false ∧ accepts tHost opTtFind (tCmd 15 tKey) = true ∧
      ((tHost.opened (opTtFind.cmd (tCmd 15 tKey))).ttLookup tKey).1 = .free (homeOf tKey) ∧
      (((tTable 0 1 0 tHost).opened (opTtFind.cmd (tCmd 0 tKey))).ttLookup tKey).1 = .found (homeOf tKey) ∧
      byteAt ((Sparse.find (tTable 0 1 0 tHost).table (homeOf tKey)).getD []) 11 % 8 = 0 ∧
      accepts tHost opTtSetFlags (tCmd 15 (tKey ++ [2, 4])) = true ∧ (2 &&& 0xF9 = 0 ∧ 4 &&& 0xF9 = 0 ∧ 2 &&& 4 = 0) := by
  decide +kernel

/-- Slot commands, log packets, random bytes and challenges at the ends of their ranges. -/
theorem test_witness_kiln_commands :
    accepts tHost opGetLog (tCmd 15 (leBytes 4 0 ++ leBytes 2 4096)) = true ∧ usageFits 1 0x61 = false ∧ usageFits 1 0x60 = true ∧
      (tKiln 0 []).keyOrder 5 true true = none ∧ (tKiln 0 []).keyOrder 3 true true = some St.SECURITY_DENIED ∧
      (tKiln 0 []).keyOrder 3 true false = none ∧ ((tKiln 0 []).keyAt 3).isSome = true ∧ (tKiln 0 []).keyAt 5 = none ∧
      accepts (tKiln 0 []) opKeyExport (tCmd 15 [3, 3]) = true ∧ nbit 0x63 6 = true ∧ ((tKiln 0 []).keyFor 3 [1, 2] 5).isSome = true ∧
      (tKiln 0 []).keyLock = false ∧ (tKiln 0 []).kilnGet KWSTAT.TRNG = 1 ∧
      accepts tHost opKilnRandom (tCmd 15 (leBytes 2 4092)) = true ∧ accepts tHost opKilnChallenge (tCmd 15 [2]) = true ∧
      ((tKiln 0 []).keyFor 4 [3, 4] 3).isSome = true ∧ ((tKiln 0 []).keyFor 63 [3, 4] 3) = none ∧
      ((tKiln 0 []).kilnSet KWSTAT.KEYLOCK 1).keyLock = true ∧ (tDb (DbRun.fresh false 16 3 true 0)).slotInRun 3 = true ∧
      (tKiln 0 []).slotInRun 3 = false := by decide +kernel

/-- WRAPPED of a public key under the exchange form, and of a wrapped 16-byte key of 52 bytes. -/
theorem test_witness_key_import :
    State.wrapShape (opKeyImport.cmd (tCmd 15 ([5, 1] ++ leBytes 2 1 ++ [1, 0, 3, 1] ++ leBytes 2 1 ++ leBytes 2 16
      ++ List.replicate 44 0))) = none ∧
      (tKiln 0 []).wrapKey ([1, 0, 3, 1] ++ leBytes 2 1 ++ leBytes 2 16 ++ List.replicate 44 0) ≠ none ∧
      (tKiln 0 []).wrapKey [1, 0, 9] = none ∧
      State.wrapShape (opKeyImport.cmd (tCmd 15 ([5, 1] ++ leBytes 2 1 ++ List.replicate 20 0))) = some St.BAD_LENGTH := by
  decide +kernel

theorem test_witness_debug_unlock :
    accepts tHost opDebugUnlock (tCmd 15 (2 :: List.replicate 67 0)) = true ∧ tHost.debugLocked = false ∧
      ({ tHost with kiln := { tHost.kiln with dbgFails := 8 } } : State).debugLocked = true ∧ tHost.liveNonce tHost.kiln.nonceD = none ∧
      tHost.liveNonce (some ([1], 0)) = some [1] ∧
      ({ tHost with dev := { tHost.dev with timebase := 300 * 2 ^ 20 } } : State).liveNonce (some ([1], 0)) = none := by
  decide +kernel

theorem test_witness_images :
    accepts tHost opImageActivate (tCmd 15 [1, 0xD0, 0xD0]) = true ∧ leAt [1, 0xD0, 0xD0] 1 2 = 0xD0D0 ∧ tHost.slotState 1 ≠ 1 ∧
      ({ tHost with flashState := [0, 1] } : State).slotState 1 = 1 := by decide +kernel

theorem test_witness_kiln_ends :
    KilnEnds (tKiln 0x0906 [4]) (tKilnJob 0x0906 [4]) 0x0906 ∧ ((tKiln 0x0906 [4]).keyFor 4 [3, 4] 3).isSome = true ∧
      KilnEnds (tKiln 0x0901 [5, 1, 1, 0]) (tKilnJob 0x0901 [5, 1, 1, 0]) 0x0901 ∧
      (tKiln 0x0901 [5, 1, 1, 0]).keyOrder 5 (1 != 5 && usageFits 1 1) true = none ∧
      (tKiln 0x0902 ([5, 5] ++ leBytes 2 2 ++ [9])).unwrapKey (opKeyImport.cmd (tCmd 15 ([5, 1] ++ leBytes 2 2 ++ [9]))) = .error St.SECURITY_DENIED ∧
      tHost.findJob tHost.kilnEnds = none ∧ ((tKiln 0 []).kilnSet KWSTAT.STATE 2).kilnGet KWSTAT.STATE = 2 ∧
      needsRandom 0x0905 = true ∧ tHost.flashState.length = 2 ∧ (tKiln 0x0A00 []).imageCheck (tKiln 0x0A00 []).loadSlot = some 1 := by
  unfold KilnEnds
  refine ⟨⟨rfl, rfl, by decide, by decide +kernel, by decide +kernel, by decide +kernel⟩, by decide +kernel,
    ⟨?_, rfl, by decide, by decide +kernel, by decide +kernel, by decide +kernel⟩, by decide +kernel, rfl, by decide +kernel,
    by decide +kernel, by decide +kernel, by decide +kernel, by decide +kernel⟩
  decide +kernel

/-! ## Kiln's alarms, the log, resets, clocks and power -/

/-- Kiln serving with its TRNG at state `n`. -/
def tTrng (n : Nat) : State := (tKiln 0 []).kilnSet KWSTAT.TRNG n

/-- An item of the log's queue. -/
def tItem (type source : Nat) : AshItem := { type, source, flags := 0, time := 0, data := [1] }

/-- Kiln with a queue. -/
def tQueue (l : List AshItem) : State := { tKiln 0 [] with kiln := { (tKiln 0 []).kiln with queue := l } }

theorem test_witness_trng :
    (∃ s : State, s.raised = [] ∧ s.kilnGet KWSTAT.TRNG = 0) ∧ (tTrng 1).raised = [] ∧ (tTrng 1).kilnGet KWSTAT.TRNG = 1 ∧
      (tTrng 2).kilnGet KWSTAT.TRNG = 2 ∧ (tTrng 3).kilnGet KWSTAT.TRNG = 3 := by
  refine ⟨⟨State.reset, ?_⟩, ?_⟩ <;> decide +kernel

theorem test_witness_tamper :
    tHost.dev.vsysOk = true ∧ (tKiln 0 []).kilnServes = true ∧ NoRuns (tKiln 0 []) ∧ State.reset.kilnServes = false ∧
      State.reset.raised = [] ∧ State.reset.dev.vsysOk = true ∧
      (let s : State := { tKiln 0 [] with kiln := { (tKiln 0 []).kiln with deferred := [(1, 0)] } }
       s.kiln.deferred = [(1, 0)] ∧ s.kilnServes = true ∧ NoRuns s ∧ s.raised = []) ∧
      ({ State.reset with dev := { State.reset.dev with vsysOk := false } } : State).dev.vsysOk = false := by
  unfold NoRuns; decide +kernel

theorem test_witness_glitch :
    (let s := tHost; s.findJob jobAbandons = none ∧ NoRuns s ∧ s.raised = []) ∧
      (let s : State := { tHost with kiln := { tHost.kiln with glitchTimes := [0, 0] } }
       s.findJob jobAbandons = none ∧ NoRuns s ∧ 3 ≤ ((s.seconds :: s.kiln.glitchTimes.take 14).filter fun t => s.seconds < t + 10).length) ∧
      ¬3 ≤ ((tHost.seconds :: tHost.kiln.glitchTimes.take 14).filter fun t => tHost.seconds < t + 10).length ∧
      (∃ r, (tKiln 0x0905 []).findJob jobAbandons = some r) ∧ tHost.kiln.lockHot = false ∧
      ({ tHost with kiln := { tHost.kiln with lockHot := true } } : State).kiln.lockHot = true := by
  unfold NoRuns
  refine ⟨by decide +kernel, by decide +kernel, by decide +kernel, ⟨_, rfl⟩, by decide +kernel, by decide +kernel⟩

theorem test_witness_self_test_and_verdict :
    tHost.kilnGet KWSTAT.STATE = 0 ∧ tHost.kiln.deferred = [] ∧ tHost.raised = [] ∧ tHost.kindling = false ∧ (tKiln 0 []).kilnGet KWSTAT.STATE ≠ 0 ∧
      (let s : State := { tKindling with dev := { tKindling.dev with imgStat := 3 } }
       s.kindling = true ∧ s.dev.imgStat = 3 ∧ s.raised = [] ∧ s.kilnGet KWSTAT.STATE = 0) ∧
      (let s := ({ tKindling with dev := { tKindling.dev with imgStat := 3 } } : State).kilnSet KWSTAT.STATE 1
       s.kindling = true ∧ s.dev.imgStat = 3 ∧ s.kilnGet KWSTAT.STATE = 1 ∧ s.kiln.active < s.flashState.length ∧
        s.imageCheck s.kiln.active = some 1) := by decide +kernel

theorem test_witness_records :
    (tQueue [tItem 0x0030 16]).kilnGet KWSTAT.HARVEST = 0 ∧ (tQueue [tItem 0x0001 16]).raised = [] ∧
      (tQueue [tItem 0x0001 16]).kiln.queue = [tItem 0x0001 16] ∧ (∀ j ∈ ([] : List AshItem), j.source ≠ 8) ∧
      (tQueue [tItem 0x0001 16, tItem 0x0050 8]).kiln.queue = [tItem 0x0001 16] ++ tItem 0x0050 8 :: [] ∧
      (tItem 0x0050 8).source = 8 ∧ (∀ j ∈ [tItem 0x0001 16], j.source ≠ 8) ∧
      isFaultRecord 0x0060 = true ∧ isFaultRecord 0x0001 = false ∧ byteAt (tItem 0x0030 16).data 0 < 2 ∧
      ((tQueue []).kiln.faultTimes.filter fun t => (tQueue []).seconds < t + 60).length < 16 ∧
      (let s : State := { tQueue [tItem 0x0060 16] with kiln := { (tQueue [tItem 0x0060 16]).kiln with faultTimes := List.replicate 16 0, supCount := 1 } }
       ¬(s.kiln.faultTimes.filter fun t => s.seconds < t + 60).length < 16 ∧ s.kiln.supCount ≠ 0) ∧
      ({ tQueue [] with kiln := { (tQueue []).kiln with supCount := 1 } } : State).kiln.supCount ≠ 0 ∧
      ((tQueue [tItem 1 1]).kilnSet KWSTAT.HARVEST 1).kilnGet KWSTAT.HARVEST ≠ 0 ∧ (tQueue []).xpdr.reserve = false := by decide +kernel

theorem test_witness_resets :
    NoKilnWork tHost ∧ tHost.dev.inReset = false ∧ State.reset.dev.inReset = true ∧ NoKilnWork State.reset ∧
      [0, 2, 1, 3, 4, 5].find? (3 :: State.reset.dev.resetCauses).contains = some 0 ∧ tHost.raised = [] ∧ tHost.dev.vsysOk = true ∧
      (1 : BitVec 3).toNat ≠ 0 ∧ tHost.dev.power ≠ .sleep ∧ tHost.dev.power ≠ .off ∧
      (let s := tHost.pcrSet WDTCTL.EN 1
       s.pcrGet WDTCTL.EN = 1 ∧ s.dev.jtagHalt = false ∧ s.dev.inReset = false ∧ s.dev.power ≠ .sleep ∧ s.dev.power ≠ .off) ∧
      (∃ r ∈ ({ tHost with running := [tJob .devReset] } : State).running, r.job = .devReset) ∧
      (let s := ((tHost.xset XSTAT.FIELD 1).xset XSTAT.SUPPLY 1).xset XSTAT.H 15
       s.xget XSTAT.FIELD = 1 ∧ s.xget XSTAT.SUPPLY ≠ 0 ∧ 15 ≤ s.xget XSTAT.H ∧ s.dev.vsysOk = true ∧ NoKilnWork s ∧ s.raised = []) ∧
      tHost.xget XSTAT.FIELD ≠ 1 ∧
      ({ tHost with dev := { tHost.dev with power := .sleep } } : State).dev.power = .sleep := by
  unfold NoKilnWork; decide +kernel

/-- Flash slot 0 whose first word is the image header's. -/
def tMagic : State := { State.reset with flash := State.reset.flash.putBytes (slotBase 0) [0x48, 0x52, 0x54, 0x31] }

theorem test_witness_release :
    State.reset.dev.inReset = true ∧ State.reset.dev.vsysOk = true ∧ State.reset.imageNum State.reset.kiln.active 0 4 ≠ 0x31545248 ∧
      tMagic.dev.inReset = true ∧ tMagic.imageNum tMagic.kiln.active 0 4 = 0x31545248 ∧ tMagic.imageCheck tMagic.kiln.active = some 1 := by
  decide +kernel

theorem test_witness_full_service :
    (let s := { tKindling with dev := { tKindling.dev with imgStat := 0 } }
     s.kindling = true ∧ s.dev.imgStat = 0 ∧ s.dev.boot0 = false ∧ s.pcrGet CLKCTL.XTAL_OK = 0 ∧ s.running = []) ∧
    ((tHost.imageNum tHost.kiln.active 12 1 ≤ tHost.kiln.secver)) ∧
    (let s : State := { tHost with flash := tHost.flash.putBytes (slotBase tHost.kiln.active + 12) [7] }
     s.kiln.secver < s.imageNum s.kiln.active 12 1) := by decide +kernel

theorem test_witness_clocks :
    State.reset.pllLocked = false ∧ tHost.pllLocked = true ∧ (∀ p, FieldIdle tHost p) ∧ FieldIdle tHost 0 ∧ tHost.raised = [] ∧
      (let s := ((tHost.pcrSet CLKCTL.PLL_LOCK 0).pcrSet CLKCTL.PLL_EN 1).pcrSet CLKCTL.XTAL_OK 1
       s.pcrGet CLKCTL.PLL_EN = 1 ∧ s.pcrGet CLKCTL.XTAL_OK = 1 ∧ s.pllLocked = false ∧ (∀ r ∈ s.running, r.job ≠ .lock) ∧
        s.dev.wokeAt = none ∧ s.dev.full = true) ∧
      (let s := ((tKindling.pcrSet CLKCTL.PLL_LOCK 0).pcrSet CLKCTL.PLL_EN 1).pcrSet CLKCTL.XTAL_OK 1
       s.pllLocked = false ∧ s.dev.full = false ∧ s.dev.wokeAt = none) ∧
      (let s := ({ tHost with dev := { tHost.dev with wokeAt := some 1 } } : State).pcrSet CLKCTL.PLL_LOCK 0
       s.dev.wokeAt = some 1 ∧ s.pllLocked = false) ∧
      (tHost.pcrSet CLKCTL.XTAL_EN 1).pcrGet CLKCTL.XTAL_EN = 1 ∧ (tHost.pcrSet CLKCTL.XTAL_OK 1).pcrGet CLKCTL.XTAL_OK = 1 ∧
      (∃ p, (tHost.port p).svc.svc = .opened) ∧ wget 0x0A#32 1 1 = 1 ∧ wget 0x0A#32 3 1 = 1 ∧ wget 0x20#32 5 1 = 1 ∧
      tHost.aonGet SLOWCLK.FORCE_RC = 0 ∧ (tHost.aonSet SLOWCLK.FORCE_RC 1).aonGet SLOWCLK.FORCE_RC = 1 ∧
      tHost.aonGet SLOWCLK.SRC = 0 ∧ (tHost.aonSet SLOWCLK.SRC 1).aonGet SLOWCLK.SRC = 1 := by
  unfold FieldIdle; decide +kernel

theorem test_witness_power :
    tHost.dev.entry = none ∧
      (let s : State := { tHost with dev := { tHost.dev with entry := some 3 } }
       s.dev.entry = some 3 ∧ s.dev.banking = false ∧ s.entryClear 3 = true ∧ s.raised = []) ∧
      (let s : State := { tHost with dev := { tHost.dev with entry := some 4, banking := true } }
       s.dev.banking = true ∧ s.entryClear 4 = true ∧ (1#10).toNat &&& (s.aonSet WKEN.SOURCES 1).aonGet WKEN.SOURCES ≠ 0) ∧
      (let s := ({ tHost with dev := { tHost.dev with power := .sleep } } : State).aonSet WKEN.SOURCES 1
       s.seen 1 ≠ 0 ∧ s.dev.power = .sleep) ∧
      (let s := ({ tHost with dev := { tHost.dev with power := .off } } : State).aonSet WKEN.SOURCES 1
       s.seen 1 &&& 0x3C3 ≠ 0 ∧ s.dev.power = .off ∧ s.dev.vsysOk = true) ∧
      (let s := ({ tHost with dev := { tHost.dev with wkcmp := 0 } } : State).aonSet WKCTL.EN 1
       s.dev.vsysOk = true ∧ s.aonGet WKCTL.EN = 1 ∧ s.dev.wkcmp ≤ s.dev.timebase) := by decide +kernel

/-! ## Ember, pins, packets, chains and debug -/

/-- Asleep with Ember on port 0, its amplitude threshold 1. -/
def tEmber (base : List (Nat × (Int × Int))) (again : List Nat) : State :=
  ((({ tHost with dev := { tHost.dev with power := .sleep, embBase := base, embRepeat := again } } : State).aonSet WKEN.SOURCES 64).aonSet
    EMBCTL.PORTS 1).aonSet EMBTH.AMP_TH 1

theorem test_witness_ember :
    EmberOn (tEmber [] []) 0 ∧ ¬EmberOn tHost 0 ∧ (tEmber [] []).emberBase 0 = none ∧ (tEmber [] []).raised = [] ∧
      (tEmber [(0, (0, 0))] [0]).emberBase 0 = some (0, 0) ∧ EmberOn (tEmber [(0, (0, 0))] [0]) 0 ∧
      0 ∈ (tEmber [(0, (0, 0))] [0]).dev.embRepeat ∧ (tEmber [(0, (0, 0))] [0]).dev.power ≠ .off ∧
      Exceeds (tEmber [(0, (0, 0))] [0]) (0, 0) 251 0 ∧ ¬Exceeds (tEmber [(0, (0, 0))] [0]) (0, 0) 250 0 ∧
      0 ∉ (tEmber [] []).dev.embRepeat := by
  unfold EmberOn Exceeds; decide +kernel

theorem test_witness_ember_config_and_pins :
    accepts tHost opEmberConfig (tCmd 15 ([1, 0] ++ leBytes 2 8 ++ List.replicate 8 63 ++ [1, 0])) = true ∧
      ¬(leAt ([1, 0] ++ leBytes 2 8 ++ List.replicate 8 63 ++ [1, 0]) 2 2 < 8) ∧
      ¬(∃ i < 8, 63 < byteAt ([1, 0] ++ leBytes 2 8 ++ List.replicate 8 63 ++ [1, 0]) (4 + i)) ∧
      (tHost.kilnSet KWSTAT.DEBUG 2).kilnGet KWSTAT.DEBUG = 2 ∧ tHost.kilnGet KWSTAT.DEBUG ≠ 2 ∧
      tHost.dev.gpioIn.getLsbD 3 ≠ true ∧ tHost.dev.gpioFunc.getD 3 0 = 0 ∧ tHost.dev.gpioDir.getLsbD 3 = false ∧ tHost.dev.full = true ∧
      tHost.hostOn = true ∧
      (let s : State := { tHost with dev := { tHost.dev with gpioFunc := List.replicate 24 1 } }
       s.dev.gpioFunc.getD 3 0 = 1 ∧ s.pllLocked = true) := by decide +kernel

/-- INFO passes every check; each of the checks fails somewhere. -/
theorem test_witness_judged :
    Accepted tHost opInfo (tCmd 15 []) ∧ EarlyOk tHost opInfo (tCmd 15 []) ∧ TargetFree tHost opInfo (tCmd 15 []) ∧ NoChain tHost (tCmd 15 []) := by
  have a := accepts_sound tHost opInfo (tCmd 15 []) (by decide +kernel)
  refine ⟨a, ⟨by decide +kernel, by decide +kernel, by decide +kernel, ?_⟩, ⟨by decide +kernel, by decide +kernel⟩, ?_⟩
  · decide +kernel
  · unfold NoChain; decide +kernel

theorem test_witness_judged_otherwise :
    hostOp (.info (tCmd 9 [])) = some (opInfo, tCmd 9 []) ∧ 9 ∉ opInfo.targets ∧ opFieldOn.kindling = false ∧ tKindling.dev.full = false ∧
      opKindlingScan.full = false ∧ opPortSet.anyHost = false ∧ tHost.owns 1 0 = false ∧
      (let s := tHost.modSvc 0 fun v => { v with svc := .closed }
       s.targetHeld opFieldOn (opFieldOn.cmd (tCmd 0 [0, 0])) = true) ∧ opFieldOn.lens 0 0 = false ∧
      (let s := tHost.pcrSet CLKCTL.PLL_LOCK 0
       let t : State := { s with dev := { s.dev with power := .doze } }
       (opFieldOn.needsPll (opFieldOn.cmd (tCmd 0 [0, 0])) && t.pllAwaited) = true) := by
  refine ⟨rfl, ?_⟩; decide +kernel

/-- INFO's packet on host port 0. -/
def tRaw : List Byte := (opInfo.cmd (tCmd 15 [])).raw

theorem test_witness_packets :
    tHost.raised = [] ∧ (∀ q, (tHost.host q).landed = []) ∧ tHost.hostRuns 0 = true ∧ State.reset.hostRuns 0 = false ∧
      (let s := tPort 0 fun x => { x with ready := false }
       s.hostRuns 0 = true ∧ (s.host 0).ready = false ∧ ∀ q, (s.host q).landed = []) ∧
      (let s := tPort 0 fun x => { x with open_ := [⟨15, tRaw, false⟩] }
       ∃ y ∈ (s.host 0).open_, y.raw = tRaw) ∧
      (let s := tPort 0 fun x => { x with kept := [⟨15, tRaw, [tOut false 8]⟩] }
       ((s.host 0).kept.find? fun y => y.target = (tCmd 15 []).target && y.raw == tRaw) = some ⟨15, tRaw, [tOut false 8]⟩ ∧
        (s.host 0).more = [] ∧ ∀ y ∈ (s.host 0).open_, y.raw ≠ tRaw) ∧
      (let s := tPort 0 fun x => { x with open_ := [⟨15, [1], false⟩] }
       (∃ y ∈ (s.host 0).open_, y.target = 15) ∧ (∀ y ∈ (s.host 0).kept, y.raw ≠ tRaw) ∧ ∀ y ∈ (s.host 0).open_, y.raw ≠ tRaw) ∧
      (let s := tPort 1 fun x => { x with landed := [tRaw] }
       CrcKind.crcO.ok tRaw = true ∧ (s.host 1).landed = [tRaw]) ∧
      (let s := tPort 1 fun x => { x with landed := [List.replicate 8 1] }
       s.dev.inReset = false ∧ (s.host 1).ready = true ∧ (s.host 1).awake = true ∧ (s.host 1).landed = [List.replicate 8 1] ∧
        (s.host 1).more = [] ∧ (∀ p, p ≠ 1 → (s.host p).landed = []) ∧ CrcKind.crcO.ok (List.replicate 8 1) = false) ∧
      tHost.checkEarly (some opOwnClaim) (opOwnClaim.cmd (tCmd 15 [0])) = none ∧
      tHost.checkEarly (some opInfo) (opInfo.cmd (tCmd 15 [])) = none ∧ isClaim opOwnClaim.opcode = true := by decide +kernel

/-- A host port with a chain of KEY_IMPORT on the device. -/
def tChained (op : Half) (data : List Byte) (expired : Bool) : State :=
  tPort 0 fun x => { x with chains := [⟨15, op, data, expired⟩] }

theorem test_witness_segments :
    opOf 0x0902 = some opKeyImport ∧ BitVec.ofNat 16 opKeyImport.opcode = 0x0902 ∧
      Arrives tHost opKeyImport (segOf (tCmd 15 [1])) ∧ EarlyOk tHost opKeyImport (segOf (tCmd 15 [1])) ∧
      TargetFree tHost opKeyImport (segOf (tCmd 15 [1])) ∧ NoChain tHost (tCmd 15 [1]) ∧
      (∀ (u : State) n, opKeyImport.onSegment (opKeyImport.cmd (segOf (tCmd 15 [1]))) n u = u) ∧
      Arrives (tChained 0x0902 [1] false) opKeyImport (segOf (tCmd 15 [1])) ∧
      EarlyOk (tChained 0x0902 [1] false) opKeyImport (segOf (tCmd 15 [1])) ∧
      TargetFree (tChained 0x0902 [1] false) opKeyImport (segOf (tCmd 15 [1])) ∧
      ((tChained 0x0902 [1] false).host 0).chainOf 15 = some ⟨15, 0x0902, [1], false⟩ ∧
      ((tChained 0x0902 [1] true).host 0).chainOf 15 = some ⟨15, 0x0902, [1], true⟩ := by
  refine ⟨rfl, rfl, ⟨?_, ?_, ?_, ?_, ?_, ?_, ?_, ?_⟩, ⟨?_, ?_, ?_, ?_⟩, ⟨?_, ?_⟩, ?_, fun _ _ => rfl, ⟨?_, ?_, ?_, ?_, ?_, ?_, ?_, ?_⟩, ⟨?_, ?_, ?_, ?_⟩,
    ⟨?_, ?_⟩, ?_, ?_⟩ <;> (try unfold NoChain) <;> decide +kernel

theorem test_witness_aborts :
    Arrives (tChained 0x0A00 [1] false) opImageLoad (abortOf (tCmd 15 [])) ∧ EarlyOk (tChained 0x0A00 [1] false) opImageLoad (abortOf (tCmd 15 [])) ∧
      ((tChained 0x0A00 [1] false).host 0).chainOf (tCmd 15 []).target = some ⟨15, 0x0A00, [1], false⟩ ∧
      Arrives tHost opKeyImport (abortOf (tCmd 15 [])) ∧ EarlyOk tHost opKeyImport (abortOf (tCmd 15 [])) ∧ NoChain tHost (tCmd 15 []) := by
  refine ⟨⟨?_, ?_, ?_, ?_, ?_, ?_, ?_, ?_⟩, ⟨?_, ?_, ?_, ?_⟩, ?_, ⟨?_, ?_, ?_, ?_, ?_, ?_, ?_, ?_⟩, ⟨?_, ?_, ?_, ?_⟩, ?_⟩ <;> (try unfold NoChain) <;>
    decide +kernel

theorem test_witness_last_segment :
    let s := tChained 0x0902 [1] false
    let h := tCmd 15 (List.replicate 59 0)
    hostOp (.keyImport h) = some (opKeyImport, h) ∧ Arrives s opKeyImport h ∧ EarlyOk s opKeyImport h ∧ h.flags = 0 ∧ TargetFree s opKeyImport h ∧
      (opKeyImport.needsPll (opKeyImport.cmd h) && s.pllAwaited) = false ∧
      (s.host h.hp).chainOf h.target = some ⟨15, 0x0902, [1], false⟩ ∧ 1 + 59 ≤ opKeyImport.bound ∧ opKeyImport.lens 15 60 = true := by
  refine ⟨rfl, ⟨?_, ?_, ?_, ?_, ?_, ?_, ?_, ?_⟩, ⟨?_, ?_, ?_, ?_⟩, rfl, ⟨?_, ?_⟩, ?_, ?_, ?_, ?_⟩ <;> decide +kernel

theorem test_witness_unknown_code :
    opOf 0x0FFF = none ∧ tHost.hostRuns 0 = true ∧ 15 ∈ ownTargets ∧ 9 ∉ ownTargets ∧
      (∀ y ∈ (tHost.host 0).open_, y.raw ≠ cmdBytes 1 1 15 0x0FFF []) ∧ ∀ y ∈ (tHost.host 0).kept, y.raw ≠ cmdBytes 1 1 15 0x0FFF [] := by
  refine ⟨rfl, ?_⟩; decide +kernel

theorem test_witness_debug :
    accepts tHost opDbgRead (tCmd 15 (leBytes 4 0x20000000 ++ leBytes 2 1)) = true ∧
      accepts tHost opDbgWrite (tCmd 15 (leBytes 4 0x20000000 ++ [1, 0, 0, 0] ++ leBytes 4 7)) = true ∧
      (leBytes 4 0x20000000 ++ [1, 0, 0, 0] ++ leBytes 4 7).length = 8 + 4 * 1 ∧
      [0x20000000, 0x200FFFFC].findSome? (tHost.dbgRefusal true) = none ∧ [0x200FFFFC, 0x20100000].findSome? (tHost.dbgRefusal true) = some St.BAD_PARAM ∧
      placeOf 0x20100000 = none ∧ placeOf 0x08003000 = some (.nvm 0x3000) ∧ placeOf 0x50000000 = some (.kiln 0) ∧
      placeOf 0x30000000 = some (.engCode 0 0) ∧ placeOf 0x30008000 = some (.engData 0 0) ∧ placeOf 0x40000000 = some (.port 0 0) ∧
      placeOf 0x24000000 = some (.spill 0x24000000) ∧ placeOf 0x40080000 = some (.xpdr 0) ∧ placeOf 0 = some (.rom 0) ∧ tHost.engState 0 = 1 ∧
      tHost.placeOn (.port 0 0) = true ∧ tHost.placeOn (.sram 0x20000000) = true ∧ tHost.placeOn (.engData 0 0) = true ∧ tHost.placeOn (.xpdr 0) = true ∧
      accepts (tHost.kilnSet KWSTAT.DEBUG 1) opDbgEngine (tCmd 0 [3]) = true ∧ (tHost.kilnSet KWSTAT.DEBUG 1).kilnGet KWSTAT.DEBUG ≠ 0 ∧
      accepts tHost opDbgEngine (tCmd 0 [3]) = true ∧ tHost.kilnGet KWSTAT.DEBUG = 0 ∧ tHost.dev.inReset = false := by
  refine ⟨?_, ?_, ?_, ?_, ?_, ?_, ?_, ?_, ?_, ?_, ?_, ?_, ?_, ?_, ?_, ?_, ?_, ?_, ?_, ?_, ?_, ?_, ?_, ?_⟩ <;> decide +kernel

/-! ## Port T -/

/-- Port T in a field with its supply present, both protocols, distance bounding and the latch enabled; its keys in slots 3
and 5; its protocol state `st`. -/
def tT (st : TState) : State :=
  let s := ((((tHost.kilnSet KWSTAT.STATE 1).kilnSet KWSTAT.TRNG 1).xset XSTAT.FIELD 1).xset XSTAT.SUPPLY 1).xset XSTAT.H 20
  { s with
    kiln := { s.kiln with slots := [(3, ⟨1, 0x63, List.replicate 16 0⟩), (4, ⟨5, 2, List.replicate 64 0⟩), (5, ⟨1, 4, List.replicate 16 1⟩)] }
    xpdr := { s.xpdr with st, cfg := [0x0F, 3, 3, 5, 1, 2, 3, 4, 5, 6, 7, 8, 181, 255, 3, 0, 0, 40, 10, 0] ++ List.replicate 16 0xFF } }

/-- It with records that no copy of is valid. -/
def tTorn (st : TState) (k : Nat) : State :=
  let c : NvCopy := { data := [], seq := 1, locked := false, ok := false }
  (tT st).recordIs k ⟨c, c⟩

/-- It with area 0 holding these bytes. -/
def tArea (st : TState) (d : List Byte) : State :=
  let c : NvCopy := { data := padTo 16 d, seq := 2, locked := false, ok := true }
  (tT st).recordIs (areaKey 0) ⟨c, c⟩

/-- A configuration within its ranges; of one area that is all of the memory. -/
def tConfig : List Byte := [3, 0x7F, 3, 63] ++ List.replicate 10 0 ++ [3, 0, 15, 63, 10, 0] ++ List.replicate 16 0xFF

def tAreas : List Byte := [1, 0, 0, 0] ++ leBytes 2 1024 ++ [3, 1] ++ [1, 2, 3, 4]

theorem test_witness_configuration_fits :
    XpdrConfigFits tHost tConfig ∧ ¬XpdrConfigFits tHost (tConfig.set 0 16) := by
  unfold XpdrConfigFits; decide +kernel

theorem test_witness_area_set_fits : AreaSetFits tHost tAreas ∧ ¬AreaSetFits tHost (tAreas.set 7 0) := by
  dsimp only [AreaSetFits]; decide +kernel

theorem test_witness_port_t_commands :
    accepts tHost opXpdrConfig (tCmd 8 tConfig) = true ∧ accepts tHost opXpdrAreaSet (tCmd 8 tAreas) = true ∧ tAreas.length = 4 + 8 * 1 ∧
      accepts tHost opXpdrWrite (tCmd 8 (leBytes 2 1023 ++ [1, 0] ++ List.replicate 16 7)) = true ∧
      accepts tHost opXpdrCntInc (tCmd 8 ([15, 0, 0, 0] ++ leBytes 4 1)) = true ∧ tHost.tSession = false ∧ tHost.xpdr.deferred = [] ∧
      (tHost.xset XSTAT.SESSION 1).tSession = true ∧ accepts (tHost.xset XSTAT.SESSION 1) opXpdrCntInc (tCmd 8 ([15, 0, 0, 0] ++ leBytes 4 1)) = true ∧
      accepts tHost opXpdrRead (tCmd 8 (leBytes 2 768 ++ leBytes 2 256)) = true ∧ (∀ i, i < 256 → tHost.nvRead (blockKey (768 + i)) ≠ none) ∧
      (tTorn .idle 0).nvRead (blockKey 0) = none ∧ accepts tHost opXpdrCntRead (tCmd 8 [15]) = true ∧ (tHost.nvRead (counterKey 15)).isSome = true ∧
      (tTorn .idle 1024).nvRead (counterKey 0) = none ∧ accepts tHost opXpdrAreaInfo (tCmd 8 []) = true ∧ tHost.areaCount = 1 ∧
      (∀ i, i < 1 → tHost.nvRead (areaKey i) ≠ none) ∧ accepts tHost opXpdrStatus (tCmd 8 []) = true := by
  decide +kernel

/-- T without a field, its area 0 locked out. -/
def tLockedOut : State :=
  (tArea .off [0, 0, 0, 4, 0, 8, 8, 1]).xset XSTAT.FIELD 0

theorem test_witness_xpdr_unlock :
    accepts tLockedOut opXpdrUnlock (tCmd 8 (List.replicate 68 0)) = true ∧ tLockedOut.areaCount = 1 ∧ tLockedOut.nvRead (areaKey 0) ≠ none ∧
      areaLocked (tLockedOut.area 0) = true ∧ tLockedOut.unlockKeys ≠ [] ∧ areaLocked (tHost.area 0) = false ∧ tLockedOut.liveNonce tLockedOut.kiln.nonceX = none ∧
      tLockedOut.liveNonce (some ([1], 0)) = some [1] := by decide +kernel

/-- A host command on T's records that Kiln may end. -/
def tTJob (opcode : Half) (payload : List Byte) : Running :=
  ⟨{ hp := 0, seq := 1, flags := 0, target := 8, opcode, payload, raw := [] }, .kiln⟩

theorem test_witness_port_t_ends :
    (let r := tTJob 0x0605 [0, 0, 0, 0, 1, 0, 0, 0]
     KilnEndsT { tT .idle with running := [r] } r ∧
      (tT .idle).hostPlan r.cmd = .ok [(counterKey 0, leBytes 4 1 ++ [0xFF] ++ List.replicate 11 0)]) ∧
    (let r := tTJob 0x0607 (List.replicate 68 0)
     KilnEndsT { tT .idle with running := [r] } r) ∧
    (∃ r, (tT .idle).nvRead (counterKey 0) = some r ∧ r.value + 1 < 2 ^ 32 ∧ 2 ^ 32 ≤ r.value + 4294967296) := by
  unfold KilnEndsT
  refine ⟨⟨⟨rfl, rfl, ?_, ?_, ?_⟩, rfl⟩, ⟨rfl, rfl, ?_, ?_, ?_⟩, ⟨_, rfl, ?_⟩⟩ <;> decide +kernel

theorem test_witness_hears :
    Hears (tT .ready) .aelyr [] ∧ Hears (tT .opened) .osgil [] ∧ ¬Hears tHost .aelyr [] ∧ (tT .ready).raised = [] ∧
      (tT .ready).tCommitting = false ∧ (tT .ready).kilnGet KWSTAT.STATE ≠ 0 := by
  unfold Hears; decide +kernel

theorem test_witness_fields_at_t :
    tHost.xget XSTAT.FIELD ≠ 1 ∧ (tT .idle).xget XSTAT.FIELD = 1 ∧ tHost.dev.vsysOk = true ∧
      (((tHost.xset XSTAT.FIELD 1).xset XSTAT.H 15).tEn = true) ∧
      (({ tHost with xpdr := { tHost.xpdr with cfg := List.replicate 36 0 } } : State).tEn = false) ∧
      ((tT .idle).xset XSTAT.SESSION 1).xget XSTAT.SESSION = 1 ∧ (tT .idle).xget XSTAT.SESSION ≠ 1 ∧ (tT .idle).xget XSTAT.SUPPLY = 1 ∧
      15 ≤ (tT .idle).xget XSTAT.H ∧ ((tT .idle).xset XSTAT.H 14).xget XSTAT.H < 15 ∧
      (let s := ((tT .idle).xset XSTAT.SESSION 1).xset XSTAT.SUPPLY 2
       s.xget XSTAT.SESSION = 1 ∧ s.xget XSTAT.SUPPLY = 2 ∧ s.dev.vsysOk = true ∧ s.xpdr.vsysLow = false) := by decide +kernel

theorem test_witness_commits :
    MayCommit (tT .idle) ∧ ¬MayCommit ((tT .idle).kilnSet KWSTAT.STATE 2) ∧
      (let s : State := { tT .idle with xpdr := { (tT .idle).xpdr with journal := some (3, 7) } }
       s.xpdr.journal = some (3, 7) ∧ s.ashMay = true ∧ (s.nvRead 3).isSome = true ∧ (s.kilnSet KWSTAT.HARVEST 1).ashMay = false) ∧
      (let s : State := { tTorn .idle 3 with xpdr := { (tTorn .idle 3).xpdr with journal := some (3, 7) } }
       s.nvRead 3 = none ∧ s.ashMay = true) ∧
      (let s := (tT .idle).kilnSet KWSTAT.HARVEST 1
       s.kilnGet KWSTAT.HARVEST ≠ 0 ∧ s.xget XSTAT.FIELD ≠ 0 ∧ s.raised = []) := by
  unfold MayCommit; decide +kernel

/-- T in ACTIVE with nothing of a session yet. -/
def tHeardActive : State := (tT .active).heard .aelyr true true

theorem test_witness_aelyr_states :
    Hears (tT .halted) .aelyr [0, 0] ∧ prefixFits (tT .halted).tUid [] 0 = true ∧ prefixFits (tT .idle).tUid [0xFF] 8 = false ∧
      prefixFits (tT .idle).tUid ((tT .idle).tUid.take 8) 63 = true ∧ (tT .ready).tUid.length = 8 ∧
      (let s : State := { tT .ready with xpdr := { (tT .ready).xpdr with sibarm := true } }
       s.xpdr.st = .ready ∧ s.xpdr.sibarm = true ∧ Hears s .aelyr [1]) ∧
      Hears (tT .active) .aelyr [0, 0, 1] ∧ tHeardActive.xpdr.st = .active ∧ activeCmd (.read [0, 0, 1]) = some ([0, 0, 1], 3) ∧
      ((tT .idle).heard .aelyr true true).xpdr.st ≠ .active := by
  unfold Hears
  refine ⟨?_, ?_, ?_, ?_, ?_, ?_, ?_, ?_, rfl, ?_⟩ <;> decide +kernel

theorem test_witness_active_commands :
    (tHeardActive.nvRead (areaKey 0)).isSome = true ∧ tHeardActive.areaShut 1023 0 = false ∧ (tHeardActive.nvRead (blockKey 1023)).isSome = true ∧
      tHeardActive.writeStop 1023 = none ∧ tHeardActive.writeStop 1024 = some 1 ∧
      (let s := tArea .active [0, 0, 0, 4, 3, 8, 0, 0]
       Hears s .aelyr [0, 0, 1] ∧ (s.heard .aelyr true true).areaShut 0 0 = true ∧ (s.heard .aelyr true true).writeStop 0 = some 2) ∧
      (let s := (tTorn .active 0).heard .aelyr true true
       s.xpdr.st = .active ∧ s.nvRead (blockKey 0) = none ∧ s.writeStop 0 = some 6) ∧
      (let s := (tTorn .active 1040).heard .aelyr true true
       s.xpdr.st = .active ∧ s.nvRead (areaKey 0) = none) ∧
      tHeardActive.areaCount = 1 ∧ (tHeardActive.nvRead (counterKey 0)).isSome = true ∧ tHeardActive.tGuard 0 = 0xFF ∧
      (let s : State := { tHeardActive with xpdr := { tHeardActive.xpdr with opens := [0], keptReq := [0x29, 0, 0, 1, 0] } }
       s.areaOpen 0 = true ∧ s.xpdr.keptReq = 0x29 :: [0, 0, 1, 0]) ∧ tHeardActive.xpdr.keptReq ≠ 0x29 :: [0, 0, 1, 0] ∧
      tHeardActive.kilnGet KWSTAT.TRNG = 1 ∧ tHeardActive.kilnGet KWSTAT.STATE ≠ 2 := by
  unfold Hears; decide +kernel

/-- A password: right, wrong below LIMIT, wrong at LIMIT. -/
theorem test_witness_password :
    areaLocked (tHeardActive.area 0) = false ∧ areaPwd (tHeardActive.area 0) = [0, 0, 0, 0] ∧
      areaLimit (tHeardActive.area 0) = 8 ∧ min 255 (areaFails (tHeardActive.area 0) + 1) < 8 ∧
      (let s := tArea .active [0, 0, 0, 4, 0, 8, 7, 0]
       areaLocked (s.area 0) = false ∧ areaLimit (s.area 0) ≤ min 255 (areaFails (s.area 0) + 1)) := by decide +kernel

theorem test_witness_latch :
    Hears (tT .active) .aelyr (List.replicate 10 0) ∧ (tHeardActive.unlockKey 0).isSome = true ∧ (tHeardActive.unlockKey 1).isSome = true ∧
      (let s : State := { tT .active with xpdr := { (tT .active).xpdr with nonce := some [1] } }
       (s.heard .aelyr true true).xpdr.nonce = some [1] ∧ Hears s .aelyr (List.replicate 10 0)) ∧
      (tT .active).eoEn = true ∧ (tT .active).cfgByte 15 = 0 ∧ (tT .active).xget XEOSTAT.FIRING = 0 ∧
      (tT .active).xget XEOSTAT.VSTORE < 200 + 5 * min 50 ((tT .active).cfgByte 17) ∧
      (let s := (tT .active).xset XEOSTAT.VSTORE 400
       200 + 5 * min 50 (s.cfgByte 17) ≤ s.xget XEOSTAT.VSTORE) ∧ (tT .active).xpdr.eoCnt = none ∧
      (let s : State := { (tT .active).xset XEOSTAT.ARMED 1 with xpdr := { ((tT .active).xset XEOSTAT.ARMED 1).xpdr with eoCnt := some 0, eoVth := 400 } }
       s.xget XEOSTAT.ARMED = 1 ∧ s.xget XSTAT.FIELD = 1 ∧ s.xpdr.eoVth ≤ (400#10).toNat ∧ s.xpdr.eoCnt = some 0 ∧ s.ashMay = true ∧
        (s.nvRead (counterKey 0)).isSome = true) ∧
      ((tT .active).xset XEOSTAT.FIRING 1).xget XEOSTAT.FIRING = 1 := by
  unfold Hears; decide +kernel

theorem test_witness_tag_rapid_phase :
    (tT .active).tDb = true ∧ Hears (tT .active) .aelyr (16 :: List.replicate 8 0) ∧ tHost.tDb = false ∧
      (let x : State := { tT .active with xpdr := { (tT .active).xpdr with dbArmed := true, dbN := 16, a := List.replicate 16 0 } }
       x.xpdr.dbArmed = true ∧ x.xpdr.dbSync = false ∧ x.raised = []) ∧
      (let x : State := { tT .active with xpdr := { (tT .active).xpdr with dbArmed := true, dbSync := true, dbN := 16, a := List.replicate 16 0 } }
       x.xpdr.dbArmed = true ∧ x.xpdr.dbSync = true ∧ x.xpdr.crx.length < x.xpdr.dbN) ∧
      (let x : State := { tT .active with xpdr := { (tT .active).xpdr with dbArmed := true, dbSync := true, dbN := 16, crx := List.replicate 16 true } }
       (x.heard .aelyr true true).xpdr.dbArmed = true ∧ (x.heard .aelyr true true).xpdr.st = .active ∧ Hears x .aelyr []) := by
  unfold Hears; decide +kernel

theorem test_witness_osgil :
    Hears (tT .secured) .osgil [16] ∧ ((tT .secured).heard .osgil true true).xpdr.st = .secured ∧
      ((tT .secured).heard .osgil true true).blockFault 15 = false ∧ ((tT .secured).heard .osgil true true).pageStop 2 = none ∧
      ((tT .secured).heard .osgil true true).pageStop 63 = none ∧ ((tT .secured).heard .osgil true true).pageStop 64 = some 0x0B ∧
      ((tT .opened).heard .osgil true true).pageStop 2 = some 0x0A ∧ ((tTorn .secured 0).heard .osgil true true).blockFault 0 = true ∧
      (((tT .secured).heard .osgil true true).nvRead (areaKey 1)).isSome = true ∧ ((tT .opened).heard .osgil true true).xpdr.st ≠ .secured := by
  unfold Hears; decide +kernel

/-- The record of SEQ 0, chained from the device public key. -/
def tRecord : AshRec :=
  let body := leBytes 4 0 ++ List.replicate 26 0
  ⟨body, Config.sha256 (Config.sha256 (Config.p256Public Config.deviceKey) ++ body)⟩

/-- A log of that record, with INFO waiting in the queue of commands. -/
def tLogged : State := { tHost with pending := [.info (tCmd 15 [])], kiln := { tHost.kiln with log := [tRecord], logSeq := 1 } }

theorem test_witness_ash_sound : AshSound tLogged ∧ ∃ t, step tLogged = .next t :=
  ⟨⟨rfl, ⟨rfl, rfl, trivial⟩, ⟨rfl, trivial⟩⟩, ⟨_, rfl⟩⟩

end Sys2Proof.Tests
end

section
/-! PROOF. The engine's loads, stores and LDC: one lemma per place an address can lead to (R12, R422, R430). -/

namespace Sys2Proof.Machine

/-! ## Moving the base register and storing a value -/

@[simp] theorem State.bump_data (s : State) (e : PortNum) (r : RegNum) (post : Bool) (n : Nat) :
    ((s.bump e r post n).eng e).data = (s.eng e).data := by
  cases post <;> simp [State.bump, State.setReg, State.eng]

@[simp] theorem State.bump_bits (s : State) (e : PortNum) (r : RegNum) (post : Bool) (n : Nat) :
    ((s.bump e r post n).eng e).bits = (s.eng e).bits := by
  cases post <;> simp [State.bump, State.setReg, State.eng]

section
variable (s : State) (e : PortNum) (w : MemW) (v : Word) (a : Nat)

@[simp] theorem State.reg_storeAt_data (r : RegNum) : (s.storeAt e w v (.data a)).reg e r = s.reg e r := by
  simp [State.storeAt, State.reg, State.eng]

@[simp] theorem State.eswBit_storeAt_data (j : Nat) : (s.storeAt e w v (.data a)).eswBit e j = s.eswBit e j := by
  simp [State.storeAt, State.eswBit, State.eng]

@[simp] theorem State.storeAt_data_bits : ((s.storeAt e w v (.data a)).eng e).bits = (s.eng e).bits := by
  simp [State.storeAt, State.eng]

theorem State.storeAt_data_data :
    ((s.storeAt e w v (.data a)).eng e).data = (s.eng e).data.putBytes a (leBytes w.size v.toNat) := by
  simp [State.storeAt, State.eng]

theorem State.storeAt_data_engSide : EngSide s (s.storeAt e w v (.data a)) e :=
  (EngSide.refl s e).mod _ fun x => ⟨x.g, x.esw, x.data.putBytes a (leBytes w.size v.toNat), x.bits, rfl⟩

end

/-- A memory that took bytes holds them, and every other byte is left. -/
theorem dataTo_putBytes {s t : State} {e : PortNum} {a : Nat} {l : List Byte}
    (h : (t.eng e).data = (s.eng e).data.putBytes a l) : DataTo s t e a l := by
  unfold DataTo
  rw [h]
  exact ⟨Mem.bytes_putBytes _ a l, fun b hb => Mem.read_putBytes_out _ a b l hb⟩

/-! ## Where the accesses lead -/

theorem State.engDo_load (s : State) (e : PortNum) (w : MemW) (rd ra : RegNum) (post : Bool) (off : BitVec 17) :
    s.engDo e (.load w rd ra post off) = s.doLoad e w rd ra post off := rfl

theorem State.engDo_store (s : State) (e : PortNum) (w : MemW) (rd ra : RegNum) (post : Bool) (off : BitVec 17) :
    s.engDo e (.store w rd ra post off) = s.doStore e w rd ra post off := rfl

section
variable {s : State} {e : PortNum} {i : Instr} {w : MemW} {rd ra : RegNum} {post : Bool} {off : BitVec 17}

/-- A load from an aligned address of data memory. -/
theorem answers_load_data (hr : EngReady s e) (hi : engRow i = some (e, .load w rd ra post off))
    (ha : (s.memAddr e ra off).toNat < 0x2000) (hn : (s.memAddr e ra off).toNat % w.size = 0) :
    Answers i s fun t =>
      t.reg e rd = BitVec.ofNat 32 (fromLe ((s.eng e).data.bytes (s.memAddr e ra off).toNat w.size)) ∧
      (ra ≠ rd → t.reg e ra = if post then s.reg e ra + BitVec.ofNat 32 w.size else s.reg e ra) ∧
      (∀ r, r ≠ rd → r ≠ ra → t.reg e r = s.reg e r) ∧ FlagsKept s t e ∧ t.pc e = s.pc e + 4 ∧ RegInstrFrame s t e := by
  refine answers_load (cyc := 1) hr (congrFun (engRow_exec hi) s) ?_ Nat.one_ne_zero
  rw [State.engDo_load, State.doLoad, dataPlace_data ha hn]
  rfl

/-- A store to an aligned address of data memory. -/
theorem answers_store_data (hr : EngReady s e) (hi : engRow i = some (e, .store w rd ra post off))
    (ha : (s.memAddr e ra off).toNat < 0x2000) (hn : (s.memAddr e ra off).toNat % w.size = 0) :
    Answers i s fun t =>
      RegTo s t e ra (if post then s.reg e ra + BitVec.ofNat 32 w.size else s.reg e ra) ∧
      DataTo s t e (s.memAddr e ra off).toNat (leBytes w.size (s.reg e rd).toNat) ∧ (t.eng e).bits = (s.eng e).bits ∧
      FlagsKept s t e ∧ t.pc e = s.pc e + 4 ∧ EngInstrFrame s t e := by
  have hd : s.engDo e (.store w rd ra post off) =
      (.next, 1, (s.storeAt e w (s.reg e rd) (.data (s.memAddr e ra off).toNat)).bump e ra post w.size) := by
    rw [State.engDo_store, State.doStore, dataPlace_data ha hn]
    rfl
  obtain ⟨k, l, hx, hframe⟩ := answers_eng hr (congrFun (engRow_exec hi) s) hd Nat.one_ne_zero
    ((State.storeAt_data_engSide ..).bump ra post w.size)
  refine ⟨_, hx, ⟨?_, fun r hne => ?_⟩, dataTo_putBytes ?_, ?_, fun j => ?_, State.after_pc .., hframe⟩
  · simp [State.reg_bump]
  · simp [State.reg_bump_ne _ _ _ _ _ _ hne]
  · simp [State.storeAt_data_data]
  · simp
  · simp

/-- A load or store that leads to no memory raises BUS, one that is misaligned in data memory ALIGN. -/
theorem traps_access {x : EngInstr} {c : Nat} (hr : EngReady s e) (h6 : s.eswBit e 6 = false)
    (hi : engRow i = some (e, x)) (hx : x = .load w rd ra post off ∨ x = .store w rd ra post off)
    (hp : dataPlace (s.memAddr e ra off) w = .bus ∧ c = 3 ∨ dataPlace (s.memAddr e ra off) w = .align ∧ c = 2) :
    Traps i s e c (s.pc e) := by
  refine answers_trap (cyc := 1) hr (congrFun (engRow_exec hi) s) ?_ Nat.one_ne_zero (by omega) h6
  rcases hx with rfl | rfl
  · rw [State.engDo_load]
    rcases hp with ⟨hp, rfl⟩ | ⟨hp, rfl⟩ <;> rw [State.doLoad, hp]
  · rw [State.engDo_store]
    rcases hp with ⟨hp, rfl⟩ | ⟨hp, rfl⟩ <;> rw [State.doStore, hp]

/-- A load or store outside the data ranges raises BUS. -/
theorem traps_bus {x : EngInstr} (hr : EngReady s e) (h6 : s.eswBit e 6 = false) (hi : engRow i = some (e, x))
    (hx : x = .load w rd ra post off ∨ x = .store w rd ra post off)
    (ha : 0x2000 ≤ (s.memAddr e ra off).toNat ∧ (s.memAddr e ra off).toNat < 0x4000 ∨
      0x5000 ≤ (s.memAddr e ra off).toNat) : Traps i s e 3 (s.pc e) :=
  traps_access hr h6 hi hx (.inl ⟨dataPlace_bus ha, rfl⟩)

/-- A misaligned load or store of data memory raises ALIGN. -/
theorem traps_align {x : EngInstr} (hr : EngReady s e) (h6 : s.eswBit e 6 = false) (hi : engRow i = some (e, x))
    (hx : x = .load w rd ra post off ∨ x = .store w rd ra post off) (ha : (s.memAddr e ra off).toNat < 0x2000)
    (hn : (s.memAddr e ra off).toNat % w.size ≠ 0) : Traps i s e 2 (s.pc e) :=
  traps_access hr h6 hi hx (.inr ⟨dataPlace_align ha hn, rfl⟩)

/-- An access of the port window that is narrow or misaligned in the data space is so at its offset too. -/
theorem not_word_aligned_in_window {n : Nat} (h : 0x4000 ≤ n) (hw : w ≠ .word ∨ n % 4 ≠ 0) :
    ¬ (w = .word ∧ (n - 0x4000) % 4 = 0) := by
  rintro ⟨rfl, h4⟩
  rcases hw with hw | hw
  · exact hw rfl
  · omega

/-- A narrow or misaligned load from the port window reads 0. -/
theorem computes_load_window (hr : EngReady s e) (hi : engRow i = some (e, .load w rd ra false off))
    (h1 : 0x4000 ≤ (s.memAddr e ra off).toNat) (h2 : (s.memAddr e ra off).toNat < 0x5000)
    (hw : w ≠ .word ∨ (s.memAddr e ra off).toNat % 4 ≠ 0) : Computes i s e rd 0 (fun t => FlagsKept s t e) := by
  refine computes_move (cyc := 3) hr (congrFun (engRow_exec hi) s) ?_ (by decide)
  rw [State.engDo_load, State.doLoad, dataPlace_window h1 h2]
  simp only [State.loadAt, if_neg (not_word_aligned_in_window h1 hw)]
  rfl

/-- A narrow or misaligned store to the port window has no effect. -/
theorem goesTo_store_window (hr : EngReady s e) (hi : engRow i = some (e, .store w rd ra false off))
    (h1 : 0x4000 ≤ (s.memAddr e ra off).toNat) (h2 : (s.memAddr e ra off).toNat < 0x5000)
    (hw : w ≠ .word ∨ (s.memAddr e ra off).toNat % 4 ≠ 0) : GoesTo i s e (s.pc e + 4) := by
  refine goesTo_next (cyc := 1) hr (congrFun (engRow_exec hi) s) ?_ Nat.one_ne_zero
  rw [State.engDo_store, State.doStore, dataPlace_window h1 h2]
  simp only [State.storeAt, if_neg (not_word_aligned_in_window h1 hw)]
  rfl

/-- LDC from an address of code memory that is a word's. -/
theorem answers_ldc_code (hr : EngReady s e) (hi : engRow i = some (e, .ldc rd ra post off))
    (ha : (s.memAddr e ra off).toNat < 0x8000) (h4 : (s.memAddr e ra off).toNat % 4 = 0) :
    Answers i s fun t =>
      t.reg e rd = (s.eng e).code.word (s.memAddr e ra off).toNat ∧
      (ra ≠ rd → t.reg e ra = if post then s.reg e ra + 4 else s.reg e ra) ∧
      (∀ r, r ≠ rd → r ≠ ra → t.reg e r = s.reg e r) ∧ FlagsKept s t e ∧ t.pc e = s.pc e + 4 ∧ RegInstrFrame s t e := by
  refine answers_load (n := 4) (cyc := 2) hr (congrFun (engRow_exec hi) s) ?_ (by decide)
  show s.doLdc e rd ra post off = _
  exact if_pos ⟨ha, h4⟩

end

end Sys2Proof.Machine

open Sys2Proof Sys2Proof.Machine

/-- Settles O10, by the place the address leads to: data memory, the port window, a BUS or an ALIGN trap. -/
theorem engineLoadsAndStoresReachTheirMemoriesOrTrap : Obligations.EngineLoadsAndStoresReachTheirMemoriesOrTrap := by
  unfold Obligations.EngineLoadsAndStoresReachTheirMemoriesOrTrap
  refine ⟨?data, ?traps, ?window, ?code⟩
  case data =>
    intro s e w rd ra post off hr a n ld st base ha hn
    have hld : engRow ld = some (e, .load w rd ra post off) := by cases w <;> rfl
    have hst : engRow st = some (e, .store w rd ra post off) := by cases w <;> rfl
    have hsize : n = w.size := memW_size w
    clear_value n
    subst hsize
    exact ⟨answers_load_data hr hld ha hn, answers_store_data hr hst ha hn⟩
  case traps =>
    intro s e rd ra post off hr h6
    refine ⟨fun hbus i hi => ?_, fun ha hn => ?_, fun ha hn => ?_⟩
    · simp only [List.mem_cons, List.not_mem_nil, or_false] at hi
      rcases hi with rfl | rfl | rfl | rfl | rfl | rfl
      · exact traps_bus hr h6 rfl (.inl rfl) hbus
      · exact traps_bus hr h6 rfl (.inl rfl) hbus
      · exact traps_bus hr h6 rfl (.inl rfl) hbus
      · exact traps_bus hr h6 rfl (.inr rfl) hbus
      · exact traps_bus hr h6 rfl (.inr rfl) hbus
      · exact traps_bus hr h6 rfl (.inr rfl) hbus
    · exact ⟨traps_align (w := .word) hr h6 rfl (.inl rfl) ha hn, traps_align (w := .word) hr h6 rfl (.inr rfl) ha hn⟩
    · exact ⟨traps_align (w := .half) hr h6 rfl (.inl rfl) ha hn, traps_align (w := .half) hr h6 rfl (.inr rfl) ha hn⟩
  case window =>
    intro s e w rd ra off hr a ld st h1 h2 hw
    have hld : engRow ld = some (e, .load w rd ra false off) := by cases w <;> rfl
    have hst : engRow st = some (e, .store w rd ra false off) := by cases w <;> rfl
    exact ⟨computes_load_window hr hld h1 h2 hw, goesTo_store_window hr hst h1 h2 hw⟩
  case code =>
    intro s e rd ra post off hr a ha h4
    exact answers_ldc_code hr rfl ha h4
end

section
/-! PROOF. Kiln's record queue: which record is taken, and what its commit leaves (R25, R533-R537). -/

namespace Sys2Proof.Machine

/-! ## The record taken -/

section
variable {i : AshItem} {q l a b : List AshItem}

/-- The head is taken when it is T's, or when T has queued nothing behind it. -/
theorem nextItem_cons (h : i.source = 8 ∨ ∀ j ∈ l, j.source ≠ 8) :
    nextItem (i :: l) = some i ∧ afterItem (i :: l) = l := by
  by_cases h8 : i.source = 8
  · simp [nextItem, afterItem, dropFirst, h8]
  · have hl : ∀ j ∈ l, j.source ≠ 8 := h.resolve_left h8
    have hf : l.find? (·.source == 8) = none := by simpa using hl
    have ha : l.any (·.source == 8) = false := by simpa using hl
    simp [nextItem, afterItem, h8, hf, ha]

theorem dropFirst_append {α : Type} {sel : α → Bool} {x : α} {a : List α} (b : List α) (hx : sel x = true)
    (ha : ∀ y ∈ a, sel y = false) : dropFirst sel (a ++ x :: b) = a ++ b := by
  induction a with
  | nil => simp [dropFirst, hx]
  | cons y a ih =>
    rw [List.forall_mem_cons] at ha
    simp [dropFirst, ha.1, ih ha.2]

/-- T's oldest record is taken before the records of others. -/
theorem nextItem_append (h8 : i.source = 8) (ha : ∀ j ∈ a, j.source ≠ 8) :
    nextItem (a ++ i :: b) = some i ∧ afterItem (a ++ i :: b) = a ++ b := by
  have hf : a.find? (·.source == 8) = none := by simpa using ha
  refine ⟨by simp [nextItem, List.find?_append, hf, h8], ?_⟩
  unfold afterItem
  rw [if_pos (by simp [h8])]
  exact dropFirst_append b (by simp [h8]) (by simpa using ha)

theorem nextItem_of_taken (h : q = i :: l ∧ (i.source = 8 ∨ ∀ j ∈ l, j.source ≠ 8) ∨
      ∃ a b, q = a ++ i :: b ∧ l = a ++ b ∧ i.source = 8 ∧ ∀ j ∈ a, j.source ≠ 8) :
    nextItem q = some i ∧ afterItem q = l := by
  rcases h with ⟨rfl, h⟩ | ⟨a, b, rfl, rfl, h8, ha⟩
  · exact nextItem_cons h
  · exact nextItem_append h8 ha

end

/-! ## One step of the queue -/

theorem State.ashMay_iff (s : State) : s.ashMay = true ↔ s.kilnGet KWSTAT.HARVEST = 0 ∨ s.xpdr.reserve = true := by
  simp [State.ashMay]

theorem State.faultRoom_iff (s : State) :
    s.faultRoom = true ↔ (s.kiln.faultTimes.filter fun t => s.seconds < t + 60).length < 16 := by
  simp [State.faultRoom]

theorem State.ashMay_eq_false_iff (s : State) :
    s.ashMay = false ↔ ¬(s.kilnGet KWSTAT.HARVEST = 0 ∨ s.xpdr.reserve = true) := by
  rw [← s.ashMay_iff, Bool.not_eq_true]

theorem State.faultRoom_eq_false_iff (s : State) :
    s.faultRoom = false ↔ ¬(s.kiln.faultTimes.filter fun t => s.seconds < t + 60).length < 16 := by
  rw [← s.faultRoom_iff, Bool.not_eq_true]

/-- The model's commit is the append of the specification. -/
theorem State.ashCommit_eq_logged (s : State) (i : AshItem) : s.ashCommit i = s.logged i := by
  unfold State.ashCommit State.logged
  by_cases h : s.kiln.log.length < 4096
  · simp only [if_pos h, if_neg (Nat.not_le.2 h)]
    rfl
  · simp only [if_neg h, if_pos (Nat.not_lt.1 h)]
    rfl

theorem State.ashStep_idle {s : State} (h : s.kiln.queue = [] ∨ s.ashMay = false) : s.ashStep = s := by
  unfold State.ashStep
  rcases h with h | h
  · rw [h]; rfl
  · rw [h]
    cases nextItem s.kiln.queue <;> rfl

section
variable {s : State} {i : AshItem} {l : List AshItem}

theorem State.ashStep_counted (ht : nextItem s.kiln.queue = some i ∧ afterItem s.kiln.queue = l) (hm : s.ashMay = true)
    (hf : isFaultRecord i.type = true) (hr : s.faultRoom = false) :
    s.ashStep = ({ s with kiln := { s.kiln with queue := l } } : State).ashCount i.type := by
  have hr' : ({ s with kiln := { s.kiln with queue := l } } : State).faultRoom = false := hr
  simp [State.ashStep, ht, hm, hf, hr']

/-- No fault record is a TAMPER record. -/
theorem isFaultRecord_ne_tamper {t : Nat} (h : isFaultRecord t = true) : t ≠ 0x0030 := by
  rintro rfl
  exact absurd h (by decide)

theorem State.ashStep_fault (ht : nextItem s.kiln.queue = some i ∧ afterItem s.kiln.queue = l) (hm : s.ashMay = true)
    (hf : isFaultRecord i.type = true) (hr : s.faultRoom = true) :
    s.ashStep = ({ s with kiln := { s.kiln with
      queue := l, faultTimes := (s.seconds :: s.kiln.faultTimes).take 16 } } : State).logged i := by
  have hr' : ({ s with kiln := { s.kiln with queue := l } } : State).faultRoom = true := hr
  simp only [State.ashStep, ht, hm, hf, hr', isFaultRecord_ne_tamper hf, State.ashCommit_eq_logged, Bool.not_true,
    Bool.and_false, Bool.false_eq_true, if_true, if_false, false_and]
  rfl

theorem State.ashStep_plain (ht : nextItem s.kiln.queue = some i ∧ afterItem s.kiln.queue = l) (hm : s.ashMay = true)
    (hf : isFaultRecord i.type = false) (h : ¬(i.type = 0x0030 ∧ byteAt i.data 0 < 2)) :
    s.ashStep = ({ s with kiln := { s.kiln with queue := l } } : State).logged i := by
  simp only [State.ashStep, ht, hm, hf, State.ashCommit_eq_logged, Bool.not_true, Bool.false_and, Bool.false_eq_true, if_false]
  exact if_neg h

theorem State.ashStep_tamper (ht : nextItem s.kiln.queue = some i ∧ afterItem s.kiln.queue = l) (hm : s.ashMay = true)
    (h : i.type = 0x0030) (hb : byteAt i.data 0 < 2) :
    s.ashStep = (({ s with kiln := { s.kiln with queue := l } } : State).logged i).aonSet (tampLatch (byteAt i.data 0)) 0 := by
  have hf : isFaultRecord i.type = false := by rw [h]; rfl
  simp only [State.ashStep, ht, hm, hf, State.ashCommit_eq_logged, Bool.not_true, Bool.false_and, Bool.false_eq_true, if_false]
  exact if_pos ⟨h, hb⟩

end

/-! ## The SUPPRESSED record -/

/-- The record that tells of the records counted since the last one. -/
def State.suppressedItem (s : State) : AshItem :=
  { type := 0x0003, source := 0x10, flags := s.ashFlags, time := s.ashTime,
    data := leBytes 2 s.kiln.supCount ++ leBytes 2 s.kiln.supFirst ++ leBytes 2 s.kiln.supLast }

theorem State.suppressedStep_idle {s : State} (h : s.kiln.supCount = 0 ∨ s.faultRoom = false ∨ s.ashMay = false) :
    s.suppressedStep = s := by
  unfold State.suppressedStep
  exact if_pos (by simpa using h)

theorem State.suppressedStep_logged {s : State} (hc : s.kiln.supCount ≠ 0) (hr : s.faultRoom = true) (hm : s.ashMay = true) :
    s.suppressedStep = { s.logged s.suppressedItem with
      kiln := { (s.logged s.suppressedItem).kiln with supCount := 0, supFirst := 0, supLast := 0 } } := by
  unfold State.suppressedStep
  rw [if_neg (by simp [hc, hr, hm])]
  simp only [State.ashCommit_eq_logged]
  rfl

end Sys2Proof.Machine

open Sys2Proof Sys2Proof.Machine

/-- Settles O43, by what one step of the record queue does with the record it takes. -/
theorem recordsAreCommittedInOrderAndChained : Obligations.RecordsAreCommittedInOrderAndChained := by
  unfold Obligations.RecordsAreCommittedInOrderAndChained
  intro s hraised may room
  have hmay : may → s.ashMay = true := s.ashMay_iff.2
  have hwait : ¬may → s.ashMay = false := s.ashMay_eq_false_iff.2
  have hroom : room → s.faultRoom = true := s.faultRoom_iff.2
  have hfull : ¬room → s.faultRoom = false := s.faultRoom_eq_false_iff.2
  refine ⟨fun h => ?idle, ?taken, fun h => ?supIdle, fun hc hr hm => ?suppressed⟩
  case idle => exact exec_to rfl (State.ashStep_idle (h.imp_right hwait)) hraised rfl
  case taken =>
    intro i l hm htaken u
    have ht := nextItem_of_taken htaken
    refine ⟨fun hf hr => ?_, fun hf hr => ?_, fun hf h => ?_, fun h hb => ?_, fun h hb => ?_⟩
    · exact exec_to rfl (State.ashStep_counted ht (hmay hm) hf (hfull hr)) hraised rfl
    · exact exec_to rfl (State.ashStep_fault ht (hmay hm) hf (hroom hr)) hraised rfl
    · exact exec_to rfl (State.ashStep_plain ht (hmay hm) hf fun hx => h hx.1) hraised rfl
    · exact exec_to rfl (State.ashStep_tamper ht (hmay hm) h hb) hraised rfl
    · have hf : isFaultRecord i.type = false := by rw [h]; rfl
      exact exec_to rfl (State.ashStep_plain ht (hmay hm) hf fun hx => Nat.not_lt.2 hb hx.2) hraised rfl
  case supIdle => exact exec_to rfl (State.suppressedStep_idle (h.imp_right (Or.imp hfull hwait))) hraised rfl
  case suppressed =>
    exact ⟨s.suppressedItem, rfl, rfl, rfl, exec_to rfl (State.suppressedStep_logged hc (hroom hr) (hmay hm)) hraised rfl⟩
end

section
/-! PROOF. Boot, the start of full service and the clocks (R29, R30, R465, R486-R488, R496-R500, R522). -/

namespace Sys2Proof.Machine

/-! ## One-bit fields of the clock block -/

theorem Cells.get_lt (b : Block) (c : Cells) (f : Fld) : Cells.get b c f < 2 ^ f.len := Nat.mod_lt _ (Nat.two_pow_pos _)

theorem Cells.get_ne_one_iff (b : Block) (c : Cells) (f : Fld) (h : f.len = 1) : Cells.get b c f ≠ 1 ↔ Cells.get b c f = 0 := by
  have hlt := Cells.get_lt b c f
  rw [h] at hlt
  omega

section
variable (s : State) (f g : Fld) (v : Nat)

theorem State.pcrGet_ne_one_iff (h : f.len = 1) : s.pcrGet f ≠ 1 ↔ s.pcrGet f = 0 := Cells.get_ne_one_iff _ _ f h

theorem State.pcrGet_pcrSet (h : f.fits) : (s.pcrSet f v).pcrGet f = v % 2 ^ f.len := Cells.get_set _ _ _ _ h

theorem State.pcrGet_pcrSet_ne (h : g.fits) (hd : f.apart g) : (s.pcrSet g v).pcrGet f = s.pcrGet f :=
  Cells.get_set_ne _ _ _ _ _ h hd

theorem State.pllLocked_pcrSet (h : g.fits) (hd : CLKCTL.PLL_LOCK.apart g) : (s.pcrSet g v).pllLocked = s.pllLocked := by
  unfold State.pllLocked
  rw [State.pcrGet_pcrSet_ne _ _ _ _ h hd]

theorem State.pllLocked_iff : s.pllLocked = true ↔ s.pcrGet CLKCTL.PLL_LOCK = 1 := beq_iff_eq

end

/-! ## A change of every host port, and of every reader port -/

theorem vector_ext_get {α : Type} {n : Nat} {v w : Vector α n} (h : ∀ i, v.get i = w.get i) : v = w :=
  Vector.ext fun i hi => h ⟨i, hi⟩

theorem vget_map {α β : Type} {n : Nat} (v : Vector α n) (f : α → β) (i : Fin n) : (v.map f).get i = f (v.get i) :=
  Vector.getElem_map f i.isLt

theorem vget_ofFn {α : Type} {n : Nat} (f : Fin n → α) (i : Fin n) : (Vector.ofFn f).get i = f i :=
  Vector.getElem_ofFn i.isLt

theorem foldl_modHost_host (f : HostPort → HostPort) (l : List HostNum) (hl : l.Nodup) (s : State) (q : HostNum) :
    (l.foldl (fun t h => t.modHost h f) s).host q = if q ∈ l then f (s.host q) else s.host q := by
  induction l generalizing s with
  | nil => rfl
  | cons h l ih =>
    obtain ⟨hh, hl⟩ := List.nodup_cons.1 hl
    rw [List.foldl_cons, ih hl]
    by_cases e : q = h
    · subst e; simp [hh]
    · simp [e]

theorem foldl_modHost_eq (f : HostPort → HostPort) (l : List HostNum) (s : State) :
    l.foldl (fun t h => t.modHost h f) s = { s with hosts := (l.foldl (fun t h => t.modHost h f) s).hosts } := by
  induction l generalizing s with
  | nil => rfl
  | cons h l ih =>
    rw [List.foldl_cons]
    conv => lhs; rw [ih]
    rfl

theorem modHost_all (s : State) (f : HostPort → HostPort) :
    allHosts.foldl (fun (t : State) h => t.modHost h f) s = { s with hosts := s.hosts.map f } := by
  rw [foldl_modHost_eq]
  congr 1
  refine vector_ext_get fun q => ?_
  rw [vget_map]
  exact (foldl_modHost_host f allHosts (by decide) s q).trans (if_pos (by revert q; decide))

theorem foldl_modPort_port (f : Port → Port) (l : List PortNum) (hl : l.Nodup) (s : State) (q : PortNum) :
    (l.foldl (fun t p => t.modPort p f) s).port q = if q ∈ l then f (s.port q) else s.port q := by
  induction l generalizing s with
  | nil => rfl
  | cons p l ih =>
    obtain ⟨hp, hl⟩ := List.nodup_cons.1 hl
    rw [List.foldl_cons, ih hl]
    by_cases e : q = p
    · subst e; simp [hp]
    · simp [e]

theorem foldl_modPort_eq (f : Port → Port) (l : List PortNum) (s : State) :
    l.foldl (fun t p => t.modPort p f) s = { s with ports := (l.foldl (fun t p => t.modPort p f) s).ports } := by
  induction l generalizing s with
  | nil => rfl
  | cons p l ih =>
    rw [List.foldl_cons]
    conv => lhs; rw [ih]
    rfl

/-- The ports of a list changed alike. -/
theorem foldl_modPort (f : Port → Port) (l : List PortNum) (hl : l.Nodup) (s : State) :
    l.foldl (fun t p => t.modPort p f) s = { s with ports := Vector.ofFn fun p => if p ∈ l then f (s.port p) else s.port p } := by
  rw [foldl_modPort_eq]
  congr 1
  refine vector_ext_get fun q => ?_
  rw [vget_ofFn]
  exact foldl_modPort_port f l hl s q

/-! ## What a queued Ash record leaves -/

/-- A record changes Kiln's queue and the counts of the next SUPPRESSED record alone. -/
theorem ashPut_kiln (s : State) (i : AshItem) : ∃ q c f l, (s.ashPut i).kiln =
    { s.kiln with queue := q, supCount := c, supFirst := f, supLast := l } := by
  unfold State.ashPut
  split
  · exact ⟨_, s.kiln.supCount, s.kiln.supFirst, s.kiln.supLast, rfl⟩
  · exact ⟨s.kiln.queue, _, _, _, rfl⟩

theorem ash_kiln (s : State) (a b : Nat) (d : List Byte) : ∃ q c f l, (s.ash a b d).kiln =
    { s.kiln with queue := q, supCount := c, supFirst := f, supLast := l } := by
  unfold State.ash
  dsimp only
  split
  · exact ashPut_kiln _ _
  · obtain ⟨q, c, f, l, h⟩ := ashPut_kiln s { type := a, source := b, flags := s.ashFlags, data := d.take 18, time := s.ashTime }
    obtain ⟨q', c', f', l', h'⟩ := ashPut_kiln
      (s.ashPut { type := a, source := b, flags := s.ashFlags, data := d.take 18, time := s.ashTime })
      { type := a, source := b, flags := s.ashFlags ||| 1, data := d.drop 18, time := s.ashTime }
    exact ⟨q', c', f', l', by rw [h', h]⟩

theorem ash_active (s : State) (a b : Nat) (d : List Byte) : (s.ash a b d).kiln.active = s.kiln.active := by
  obtain ⟨q, c, f, l, h⟩ := ash_kiln s a b d
  rw [h]

theorem ash_secver (s : State) (a b : Nat) (d : List Byte) : (s.ash a b d).kiln.secver = s.kiln.secver := by
  obtain ⟨q, c, f, l, h⟩ := ash_kiln s a b d
  rw [h]

/-! ## Firmware images -/

/-- Two states hold the same images, the same active slot and the same rollback floor. -/
structure SameImages (s t : State) : Prop where
  flash : t.flash = s.flash
  state : t.flashState = s.flashState
  active : t.kiln.active = s.kiln.active
  secver : t.kiln.secver = s.kiln.secver

section
variable {s t : State}

theorem SameImages.ash (h : SameImages s t) (a b : Nat) (d : List Byte) : SameImages s (t.ash a b d) where
  flash := by rw [ash_frame]; exact h.flash
  state := by rw [ash_frame]; exact h.state
  active := (ash_active t a b d).trans h.active
  secver := (ash_secver t a b d).trans h.secver

theorem SameImages.imageNum (h : SameImages s t) (slot ofs k : Nat) : t.imageNum slot ofs k = s.imageNum slot ofs k := by
  unfold State.imageNum
  rw [h.flash]

theorem SameImages.imageCheck (h : SameImages s t) (slot : Nat) : t.imageCheck slot = s.imageCheck slot := by
  unfold State.imageCheck State.imageNum
  rw [h.flash, h.secver]

theorem headerStat_noHeader (h : s.imageNum s.kiln.active 0 4 ≠ 0x31545248) : s.headerStat = 1 := if_pos h

theorem headerStat_rejected {k : Nat} (h : s.imageNum s.kiln.active 0 4 = 0x31545248)
    (hc : s.imageCheck s.kiln.active = some k) (hk : k ≤ 3) : s.headerStat = 2 := by
  unfold State.headerStat
  rw [if_neg (not_not.2 h), hc]
  exact if_pos hk

theorem headerStat_checking (h : s.imageNum s.kiln.active 0 4 = 0x31545248)
    (hc : ∀ k, s.imageCheck s.kiln.active = some k → 3 < k) : s.headerStat = 3 := by
  unfold State.headerStat
  rw [if_neg (not_not.2 h)]
  cases e : s.imageCheck s.kiln.active with
  | none => rfl
  | some k => exact if_neg (Nat.not_le.2 (hc k e))

theorem SameImages.headerStat (h : SameImages s t) : t.headerStat = s.headerStat := by
  unfold State.headerStat
  rw [h.active, h.imageNum, h.imageCheck]

theorem judgeSlot_rejected {slot k : Nat} (hc : s.imageCheck slot = some k) :
    s.judgeSlot slot = ({ s with flashState := s.flashState.set slot 2 } : State).ash 0x0010 0x10
      (leBytes 1 0 ++ leBytes 1 slot ++ leBytes 1 k ++ leBytes 4 (s.imageNum slot 8 4) ++ leBytes 4 0) := by
  unfold State.judgeSlot
  rw [hc]

end

/-! ## The rollback floor (R522) -/

section
variable {s : State}

theorem raiseSecver_kept (h : s.imageNum s.kiln.active 12 1 ≤ s.kiln.secver) : s.raiseSecver = s := if_pos h

theorem raiseSecver_raised (h : s.kiln.secver < s.imageNum s.kiln.active 12 1) :
    s.raiseSecver = ({ s with kiln := { s.kiln with secver := s.imageNum s.kiln.active 12 1 } } : State).ash 0x0012 0x10
      (leBytes 1 s.kiln.secver ++ leBytes 1 (s.imageNum s.kiln.active 12 1)) := if_neg (Nat.not_le.2 h)

theorem raiseSecver_secver (s : State) : s.raiseSecver.kiln.secver = max s.kiln.secver (s.imageNum s.kiln.active 12 1) := by
  rcases Nat.lt_or_ge s.kiln.secver (s.imageNum s.kiln.active 12 1) with h | h
  · rw [raiseSecver_raised h, ash_secver]
    exact (max_eq_right h.le).symm
  · rw [raiseSecver_kept h]
    exact (max_eq_left h).symm

end

/-! ## The release of SYS reset (R496-R498) -/

theorem lockSync_lockTamper (s : State) (b : Bool) :
    ({ s with kiln := { s.kiln with lockTamper := b } } : State).lockSync = s.lockedBy b := rfl

/-- The RESET record queued where the reset had a brown-out or the watchdog among its causes (R492, R534). -/
def State.resetRecord (s : State) (causes : List Nat) : State :=
  if causes.contains 2 || causes.contains 3 then
    s.ash 0x0001 0x0F (leBytes 1 (s.aonGet RSTCAUSE.LAST) ++ leBytes 1 (s.aonGet RSTCAUSE.BOR))
  else s

theorem resetRecord_parts (s : State) (l : List Nat) : (s.resetRecord l).raised = s.raised ∧ (s.resetRecord l).pending = s.pending := by
  unfold State.resetRecord
  split
  · exact ash_parts s _ _ _
  · exact ⟨rfl, rfl⟩

theorem resetRecord_images {s t : State} (h : SameImages s t) (l : List Nat) : SameImages s (t.resetRecord l) := by
  unfold State.resetRecord
  split
  · exact h.ash _ _ _
  · exact h

theorem powered_first (s : State) :
    [0, 1].foldl (fun (t : State) p => t.modSvc p fun v => { v with powered := true }) s =
      { s with ports := Vector.ofFn fun p : PortNum =>
        { s.port p with svc := { (s.port p).svc with powered := p.val < 2 || (s.port p).svc.powered } } } := by
  refine (foldl_modPort (fun q => { q with svc := { q.svc with powered := true } }) [0, 1] (by decide) s).trans ?_
  congr 2
  funext p
  have hp : p ∈ [(0 : PortNum), 1] ↔ p.val < 2 := by revert p; decide
  by_cases h : p.val < 2
  · rw [if_pos (hp.2 h)]; simp [h]
  · rw [if_neg (mt hp.1 h)]; simp [h]

theorem grate_shifted (s : State) :
    allPorts.foldl (fun (t : State) p => t.modPort p fun q => { q with grate := { q.grate with kept := 0 } }) s =
      { s with ports := Vector.ofFn fun p => { s.port p with grate := { (s.port p).grate with kept := 0 } } } := by
  refine (foldl_modPort _ allPorts (by decide) s).trans ?_
  congr 2
  funext p
  exact if_pos (by revert p; decide)

/-- The state that the release leaves before Kiln's part of it. -/
theorem released_eq (s : State) (b0 b1 : Bool) :
    [0, 1].foldl (fun (t : State) p => t.modSvc p fun v => { v with powered := true })
      (allPorts.foldl (fun (t : State) p => t.modPort p fun q => { q with grate := { q.grate with kept := 0 } })
        (allHosts.foldl (fun t h => t.modHost h fun x => { x with awake := true })
          (((s.modDev fun d => { d with
            inReset := false, boot := true, full := false, boot0Pin := b0, boot1Pin := b1, boot0 := b0, boot1 := b1
            resetCauses := [], readyCount := 0, wdtCount := 0, power := .run }).pcrSet WDTCTL.EN 1).pcrSet CLKCTL.XTAL_EN 1)))
      = s.released b0 b1 := by
  rw [modHost_all, grate_shifted, powered_first]
  unfold State.released State.port
  simp only [vget_ofFn]
  rfl

section
variable {s : State} (b0 b1 : Bool)

/-- The state after the release, its key lock formed and its reset recorded. -/
def State.booted (s : State) (b0 b1 : Bool) : State :=
  ((s.released b0 b1).lockedBy (s.aonGet TAMPSTAT.LEVEL0 == 1 || s.aonGet TAMPSTAT.LEVEL1 == 1)).resetRecord s.dev.resetCauses

theorem booted_images (s : State) (b0 b1 : Bool) : SameImages s (s.booted b0 b1) :=
  resetRecord_images (s := s) (t := (s.released b0 b1).lockedBy _) ⟨rfl, rfl, rfl, rfl⟩ _

theorem booted_parts (s : State) (b0 b1 : Bool) : (s.booted b0 b1).raised = s.raised ∧ (s.booted b0 b1).pending = s.pending :=
  resetRecord_parts _ _

/-- The release judges the header that it finds and tells DEV_READY. -/
def State.bootRom (s : State) : State :=
  (if s.headerStat = 2 then s.judgeSlot s.kiln.active else s).devReady 0 s.headerStat

/-- The effect of SYS_RESET_RELEASE. -/
def releaseOf (b0 b1 : Bool) (s : State) : State :=
  if !s.dev.inReset ∨ !s.dev.vsysOk then s else (s.booted b0 b1).bootRom

theorem exec_release : exec (.sysResetRelease b0 b1) = run (releaseOf b0 b1) := by
  refine congrArg run (funext fun s => ?_)
  unfold releaseOf
  refine if_congr Iff.rfl rfl ?_
  dsimp only
  rw [released_eq, lockSync_lockTamper]
  rfl

theorem release_ignored (h : s.dev.inReset = false ∨ s.dev.vsysOk = false) : releaseOf b0 b1 s = s :=
  if_pos (by simpa using h)

theorem release_boots (hr : s.dev.inReset = true) (hv : s.dev.vsysOk = true) : releaseOf b0 b1 s = (s.booted b0 b1).bootRom :=
  if_neg (by simp [hr, hv])

theorem bootRom_told {k : Nat} (h : s.headerStat = k) (hk : k ≠ 2) : s.bootRom = s.devReady 0 k := by
  unfold State.bootRom
  rw [h, if_neg hk]

theorem bootRom_judged (h : s.headerStat = 2) : s.bootRom = (s.judgeSlot s.kiln.active).devReady 0 2 := by
  unfold State.bootRom
  rw [if_pos h, h]

section
variable (hq : s.raised = []) (hr : s.dev.inReset = true) (hv : s.dev.vsysOk = true)
include hq hr hv

/-- A release after which the header needs no verdict tells DEV_READY with what was found. -/
theorem release_told {k : Nat} (h : s.headerStat = k) (hk : k ≠ 2) :
    exec (.sysResetRelease b0 b1) s = .next ((s.booted b0 b1).readyTold 0 k) := by
  obtain ⟨hraised, hpending⟩ := booted_parts s b0 b1
  have hst : (s.booted b0 b1).headerStat = k := (booted_images s b0 b1).headerStat.trans h
  exact exec_ready (exec_release b0 b1) ((release_boots b0 b1 hr hv).trans (bootRom_told hst hk)) (hraised.trans hq) hpending

theorem release_noHeader (h : s.imageNum s.kiln.active 0 4 ≠ 0x31545248) :
    exec (.sysResetRelease b0 b1) s = .next ((s.booted b0 b1).readyTold 0 1) :=
  release_told b0 b1 hq hr hv (headerStat_noHeader h) (by decide)

theorem release_checking (h : s.imageNum s.kiln.active 0 4 = 0x31545248) (hc : ∀ k, s.imageCheck s.kiln.active = some k → 3 < k) :
    exec (.sysResetRelease b0 b1) s = .next ((s.booted b0 b1).readyTold 0 3) :=
  release_told b0 b1 hq hr hv (headerStat_checking h hc) (by decide)

/-- A header that fails one of the first three checks makes its slot invalid, with an IMAGE_REJECTED record. -/
theorem release_rejected {k : Nat} (h : s.imageNum s.kiln.active 0 4 = 0x31545248) (hc : s.imageCheck s.kiln.active = some k) (hk : k ≤ 3) :
    exec (.sysResetRelease b0 b1) s = .next
      ((({ s.booted b0 b1 with flashState := s.flashState.set s.kiln.active 2 } : State).ash 0x0010 0x10 (leBytes 1 0
        ++ leBytes 1 s.kiln.active ++ leBytes 1 k ++ leBytes 4 (s.imageNum s.kiln.active 8 4) ++ leBytes 4 0)).readyTold 0 2) := by
  obtain ⟨hraised, hpending⟩ := booted_parts s b0 b1
  have hi := booted_images s b0 b1
  have hst : (s.booted b0 b1).headerStat = 2 := hi.headerStat.trans (headerStat_rejected h hc hk)
  have hck : (s.booted b0 b1).imageCheck s.kiln.active = some k := (hi.imageCheck _).trans hc
  have hash := ash_parts ({ s.booted b0 b1 with flashState := s.flashState.set s.kiln.active 2 } : State) 0x0010 0x10
    (leBytes 1 0 ++ leBytes 1 s.kiln.active ++ leBytes 1 k ++ leBytes 4 (s.imageNum s.kiln.active 8 4) ++ leBytes 4 0)
  refine exec_ready (exec_release b0 b1) ((release_boots b0 b1 hr hv).trans ?_) (hash.1.trans (hraised.trans hq)) (hash.2.trans hpending)
  rw [bootRom_judged hst, hi.active, judgeSlot_rejected hck, hi.imageNum, hi.state]

end

end

/-! ## Full service (R333, R498, R501) -/

/-- Full service may start: a verified image, BOOT0 low, a complete lifecycle, the clock settled, no Kindling command. -/
def State.mayServe (s : State) : Prop :=
  s.kindling = true ∧ s.dev.imgStat = 0 ∧ s.dev.boot0 = false ∧ Config.lifecycleDone = true ∧
    (s.pllLocked = true ∨ s.pcrGet CLKCTL.XTAL_OK = 0) ∧ s.running = []

theorem mayServe_iff (s : State) : s.mayServe ↔ ¬(!s.kindling ∨ s.dev.imgStat ≠ 0 ∨ s.dev.boot0 ∨ !Config.lifecycleDone
    ∨ (!s.pllLocked ∧ s.pcrGet CLKCTL.XTAL_OK = 1) ∨ !s.running.isEmpty) := by
  have hx : s.pcrGet CLKCTL.XTAL_OK ≠ 1 ↔ s.pcrGet CLKCTL.XTAL_OK = 0 := s.pcrGet_ne_one_iff _ rfl
  have hc : (s.pllLocked = true ∨ s.pcrGet CLKCTL.XTAL_OK = 0) ↔ ¬((!s.pllLocked) = true ∧ s.pcrGet CLKCTL.XTAL_OK = 1) := by
    rw [← hx, Bool.not_eq_true', not_and_or, Bool.not_eq_false]
  unfold State.mayServe
  rw [hc]
  simp

/-! ## PLL and crystal (R30, R465, R486, R487) -/

/-- What no channel's registers decide is as it was when sources stop. -/
theorem stopSources_keeps {α : Type} (g : State → α) (h : ∀ t ch x, g (t.setChan ch x) = g t) (s : State) (sel : Nat → Bool) :
    g (s.stopSources sel) = g s := by
  unfold State.stopSources
  generalize allChannels = l
  induction l generalizing s with
  | nil => rfl
  | cons ch l ih =>
    rw [List.foldl_cons, ih]
    split
    · exact h _ _ _
    · rfl

theorem setChan_port_regs (s : State) (ch : Channel) (x : Cells) (p : PortNum) : ((s.setChan ch x).port p).regs = (s.port p).regs := by
  cases ch with
  | global c => rfl
  | port q c =>
    by_cases h : p = q
    · subst h; simp [State.setChan]
    · simp [State.setChan, h]

theorem stopSources_pget (s : State) (sel : Nat → Bool) (p : PortNum) (f : Fld) : (s.stopSources sel).pget p f = s.pget p f := by
  unfold State.pget Port.get
  rw [stopSources_keeps (fun t => (t.port p).regs) fun t ch x => setChan_port_regs t ch x p]

theorem FieldIdle.stopSources {s : State} {p : PortNum} (h : FieldIdle s p) (sel : Nat → Bool) : FieldIdle (s.stopSources sel) p :=
  ⟨(stopSources_pget s sel p _).trans h.1, (stopSources_pget s sel p _).trans h.2⟩

theorem FieldIdle.pcrSet {s : State} {p : PortNum} (h : FieldIdle s p) (f : Fld) (v : Nat) : FieldIdle (s.pcrSet f v) p := h

theorem foldl_fieldFault_idle {s : State} {c : Cause} (h : ∀ p, FieldIdle s p) (l : List PortNum) :
    l.foldl (fun t p => t.fieldFault p c) s = s := List.foldl_fixed' (fun p => fault_idle s p c (h p)) l

/-- The clocks at the loss of PLL lock, before the fields fault. -/
def State.unlocked (s : State) : State :=
  (((s.pcrSet CLKCTL.PLL_LOCK 0).pcrSet CLKCTL.UNLOCK 1).pcrSet CLKCTL.HSRC 0).stopSources srcPll

theorem unlocked_parts (s : State) : s.unlocked.raised = s.raised ∧ s.unlocked.pending = s.pending :=
  ⟨stopSources_keeps State.raised (fun t ch x => (setChan_rest t ch x).2.1) _ _,
    stopSources_keeps State.pending (fun t ch x => (setChan_rest t ch x).2.2) _ _⟩

theorem pllLost_unlocked {s : State} (h : s.pllLocked = false) : s.pllLost = s := if_pos (by rw [h]; rfl)

theorem pllLost_locked {s : State} (h : s.pllLocked = true) :
    s.pllLost = allPorts.foldl (fun t p => t.fieldFault p .pll) s.unlocked := if_neg (by rw [h]; simp)

theorem pllLost_idle {s : State} (h : s.pllLocked = true) (hi : ∀ p, FieldIdle s p) : s.pllLost = s.unlocked := by
  rw [pllLost_locked h]
  exact foldl_fieldFault_idle (fun p => ((((hi p).pcrSet _ _).pcrSet _ _).pcrSet _ _).stopSources srcPll) _

/-- A lost carrier ends nothing where Kindling neither drives nor serves P0. -/
theorem kindlingFault_idle {s : State} (hi : s.kindling = false ∨ (FieldIdle s 0 ∧ NoWork s 0)) :
    (if s.kindling then (s.fieldFault 0 .pll).endPort 0 St.FIELD_FAULT else s) = s := by
  rcases hi with hk | ⟨hf, hw⟩
  · exact if_neg (by rw [hk]; decide)
  · rw [fault_idle s 0 .pll hf, State.endPort, endWhere_none s _ _ hw.running, ite_self]

theorem xtalFail_idle {s : State} (hl : s.pllLocked = false) (hi : s.kindling = false ∨ (FieldIdle s 0 ∧ NoWork s 0)) :
    (let t := (s.pcrSet CLKCTL.XTAL_OK 0).pllLost
     if t.kindling then (t.fieldFault 0 .pll).endPort 0 St.FIELD_FAULT else t) = s.pcrSet CLKCTL.XTAL_OK 0 := by
  have hlost : (s.pcrSet CLKCTL.XTAL_OK 0).pllLost = s.pcrSet CLKCTL.XTAL_OK 0 :=
    pllLost_unlocked ((State.pllLocked_pcrSet s _ 0 (by decide) (by decide)).trans hl)
  rw [hlost]
  exact kindlingFault_idle (hi.imp_right fun h => ⟨h.1.pcrSet _ _, h.2.congr rfl rfl⟩)

/-! ## The commands that wait for the lock (R480, R485) -/

/-- The PLL may lock: it and the crystal run, and it is not locked. -/
def State.mayLock (s : State) : Prop :=
  s.pcrGet CLKCTL.PLL_EN = 1 ∧ s.pcrGet CLKCTL.XTAL_OK = 1 ∧ s.pllLocked = false

theorem mayLock_iff (s : State) : s.mayLock ↔ ¬(s.pcrGet CLKCTL.PLL_EN = 0 ∨ s.pcrGet CLKCTL.XTAL_OK = 0 ∨ s.pllLocked) := by
  have he : s.pcrGet CLKCTL.PLL_EN ≠ 1 ↔ s.pcrGet CLKCTL.PLL_EN = 0 := s.pcrGet_ne_one_iff _ rfl
  have hx : s.pcrGet CLKCTL.XTAL_OK ≠ 1 ↔ s.pcrGet CLKCTL.XTAL_OK = 0 := s.pcrGet_ne_one_iff _ rfl
  unfold State.mayLock
  rw [← he, ← hx, not_or, not_or, not_not, not_not, Bool.not_eq_true]

/-- The commands that waited for the lock run in their order. -/
def State.runWaiting (s : State) : State :=
  (s.running.filter isLock).foldl State.runLocked { s with running := s.running.filter fun r => !isLock r }

theorem runWaiting_none {s : State} (h : ∀ r ∈ s.running, r.job ≠ .lock) : s.runWaiting = s := by
  have hl : ∀ r ∈ s.running, isLock r = false := fun r hr => by simpa [isLock] using h r hr
  have h1 : s.running.filter isLock = [] := by simpa using hl
  have h2 : (s.running.filter fun r => !isLock r) = s.running := by simpa using hl
  unfold State.runWaiting
  rw [h1, h2]
  rfl

section
variable {s : State}

theorem afterLock_woken {l : Nat} (h : s.dev.wokeAt = some l) :
    s.afterLock = ({ s.pcrSet CLKCTL.HSRC 1 with dev := { s.dev with wokeAt := none } } : State).raiseDev 0x0880 (leBytes 2 l) := by
  unfold State.afterLock
  rw [h]
  rfl

theorem afterLock_full (h : s.dev.wokeAt = none) (hf : s.dev.full = true) :
    s.afterLock = ({ s with dev := { s.dev with power := if s.dev.power = .doze then .run else s.dev.power } } : State).pcrSet
      CLKCTL.HSRC 1 := by
  unfold State.afterLock
  rw [h]
  exact if_pos hf

theorem afterLock_kindling (h : s.dev.wokeAt = none) (hf : s.dev.full = false) : s.afterLock = s := by
  unfold State.afterLock
  rw [h]
  exact if_neg (by rw [hf]; decide)

theorem raiseDev_running (s : State) (code : Nat) (pl : List Byte) (target : Nat) :
    (s.raiseDev code pl target).running = s.running := by
  unfold State.raiseDev State.raiseAll
  generalize allHosts.filter _ = l
  generalize hs : s.running = r
  induction l generalizing s with
  | nil => exact hs
  | cons h l ih => exact ih (s.raiseTo h target code pl) hs

theorem afterLock_running (s : State) : s.afterLock.running = s.running := by
  unfold State.afterLock
  split
  · exact raiseDev_running _ _ _ _
  · split <;> rfl

theorem afterLock_quiet (hn : ∀ r ∈ s.running, r.job ≠ .lock) : s.afterLock.runWaiting = s.afterLock :=
  runWaiting_none (by rw [afterLock_running]; exact hn)

end

/-! ## A write of CLKCTL (R486) -/

/-- A clock's bit moved: set, kept or cleared. -/
def State.clkMove (s : State) (f : Fld) (set keep : Bool) : State :=
  if set then s.pcrSet f 1 else if keep then s else s.pcrSet f 0

section
variable (s : State) (f g : Fld) (a k : Bool)

theorem clkMove_eq : s.clkMove f a k = { s with pcr := (s.clkMove f a k).pcr } := by
  unfold State.clkMove
  split
  · rfl
  · split <;> rfl

theorem clkMove_word (o : Nat) (h : o ≠ f.off) : Cells.word .pcr (s.clkMove f a k).pcr o = Cells.word .pcr s.pcr o := by
  unfold State.clkMove
  split
  · exact Cells.word_set_ne _ _ _ _ _ h
  · split
    · rfl
    · exact Cells.word_set_ne _ _ _ _ _ h

theorem clkMove_get (h : f.fits) (hl : f.len = 1) :
    (s.clkMove f a k).pcrGet f = if a then 1 else if k then s.pcrGet f else 0 := by
  unfold State.clkMove
  split
  · rw [State.pcrGet_pcrSet _ _ _ h, hl]; rfl
  · split
    · rfl
    · rw [State.pcrGet_pcrSet _ _ _ h, hl]; rfl

theorem clkMove_get_ne (h : g.fits) (hd : f.apart g) : (s.clkMove g a k).pcrGet f = s.pcrGet f := by
  unfold State.clkMove
  split
  · exact State.pcrGet_pcrSet_ne _ _ _ _ h hd
  · split
    · rfl
    · exact State.pcrGet_pcrSet_ne _ _ _ _ h hd

end

theorem pcr_trans {x y s : State} (h1 : x = { y with pcr := x.pcr }) (h2 : y = { s with pcr := y.pcr }) :
    x = { s with pcr := x.pcr } := by
  calc x = { y with pcr := x.pcr } := h1
    _ = { s with pcr := x.pcr } := by rw [h2]

/-- A reader port is open. -/
def State.anyOpen (s : State) : Bool := allPorts.any fun p => (s.port p).svc.svc == .opened

theorem anyOpen_iff (s : State) : s.anyOpen = true ↔ ∃ p, (s.port p).svc.svc = .opened := by
  have hall : ∀ p : PortNum, p ∈ allPorts := by decide
  simp [State.anyOpen, hall]

/-- CLKCTL after the bits that a write moves first: UNLOCK cleared by a 1, HSRC as far as the PLL is locked. -/
def State.clkSourced (s : State) (w : Word) : State :=
  (s.clkMove CLKCTL.UNLOCK false (wget w 5 1 != 1)).clkMove CLKCTL.HSRC (wget w 0 1 == 1 && s.pllLocked) (wget w 0 1 == 1)

/-- The clocks are in use: a port is open, or Hearth runs from the PLL. -/
def State.clkInUse (s : State) : Bool := s.anyOpen || s.pcrGet CLKCTL.HSRC == 1

theorem clkSourced_eq (s : State) (w : Word) : s.clkSourced w = { s with pcr := (s.clkSourced w).pcr } :=
  pcr_trans (clkMove_eq _ _ _ _) (clkMove_eq _ _ _ _)

theorem clkSourced_hsrc (s : State) (w : Word) : (s.clkSourced w).pcrGet CLKCTL.HSRC =
    if wget w 0 1 = 1 then (if s.pllLocked then 1 else s.pcrGet CLKCTL.HSRC) else 0 := by
  unfold State.clkSourced
  rw [clkMove_get _ _ _ _ (by decide) rfl, clkMove_get_ne _ _ _ _ _ (by decide) (by decide)]
  by_cases h : wget w 0 1 = 1 <;> simp [h]

theorem clkSourced_unlock (s : State) (w : Word) : (s.clkSourced w).pcrGet CLKCTL.UNLOCK =
    if wget w 5 1 = 1 then 0 else s.pcrGet CLKCTL.UNLOCK := by
  unfold State.clkSourced
  rw [clkMove_get_ne _ _ _ _ _ (by decide) (by decide), clkMove_get _ _ _ _ (by decide) rfl]
  by_cases h : wget w 5 1 = 1 <;> simp [h]

theorem clkSourced_get (s : State) (w : Word) (f : Fld) (hu : f.apart CLKCTL.UNLOCK) (hh : f.apart CLKCTL.HSRC) :
    (s.clkSourced w).pcrGet f = s.pcrGet f := by
  unfold State.clkSourced
  rw [clkMove_get_ne _ _ _ _ _ (by decide) hh, clkMove_get_ne _ _ _ _ _ (by decide) hu]

theorem clkSourced_word (s : State) (w : Word) (o : Nat) (h : o ≠ CLKCTL.reg) :
    Cells.word .pcr (s.clkSourced w).pcr o = Cells.word .pcr s.pcr o :=
  (clkMove_word _ _ _ _ o h).trans (clkMove_word _ _ _ _ o h)

theorem clkSourced_inUse_iff (s : State) (w : Word) : (s.clkSourced w).clkInUse = true ↔
    (∃ p, (s.port p).svc.svc = .opened) ∨ (s.clkSourced w).pcrGet CLKCTL.HSRC = 1 := by
  have h : (s.clkSourced w).anyOpen = s.anyOpen := by rw [clkSourced_eq]; rfl
  rw [State.clkInUse, h, Bool.or_eq_true, anyOpen_iff, beq_iff_eq]

/-- A write of CLKCTL: the sources first, then PLL_EN and XTAL_EN, of which a clock in use keeps its own. -/
theorem clkctlWrite_eq (s : State) (w : Word) : s.clkctlWrite w =
    ((s.clkSourced w).clkMove CLKCTL.PLL_EN (wget w 1 1 == 1) (s.clkSourced w).clkInUse).clkMove
      CLKCTL.XTAL_EN (wget w 3 1 == 1) (s.clkSourced w).clkInUse := by
  have hu : (if wget w 5 1 = 1 then s.pcrSet CLKCTL.UNLOCK 0 else s) = s.clkMove CLKCTL.UNLOCK false (wget w 5 1 != 1) := by
    by_cases h : wget w 5 1 = 1 <;> simp [State.clkMove, h]
  have hl : (s.clkMove CLKCTL.UNLOCK false (wget w 5 1 != 1)).pllLocked = s.pllLocked := by
    unfold State.pllLocked
    rw [clkMove_get_ne _ _ _ _ _ (by decide) (by decide)]
  have hs (t : State) : (if wget w 0 1 = 1 then (if t.pllLocked then t.pcrSet CLKCTL.HSRC 1 else t) else t.pcrSet CLKCTL.HSRC 0)
      = t.clkMove CLKCTL.HSRC (wget w 0 1 == 1 && t.pllLocked) (wget w 0 1 == 1) := by
    by_cases h : wget w 0 1 = 1 <;> simp [State.clkMove, h]
  have he (t : State) (f : Fld) (i : Nat) (k : Bool) : (if wget w i 1 = 1 then t.pcrSet f 1 else if k then t else t.pcrSet f 0)
      = t.clkMove f (wget w i 1 == 1) k := by
    by_cases h : wget w i 1 = 1 <;> simp [State.clkMove, h]
  unfold State.clkctlWrite
  rw [hu]
  dsimp only
  rw [hs, he, he, hl]
  rfl

/-- What a write of CLKCTL leaves: the other words of the block as they were, its own bits as each row states. -/
theorem clkctlWrite_pcr (s : State) (w : Word) : ∃ pcr, s.clkctlWrite w = { s with pcr } ∧
    (∀ o, o ≠ CLKCTL.reg → Cells.word .pcr pcr o = Cells.word .pcr s.pcr o) ∧
    (∀ f : Fld, f.apart CLKCTL.PLL_EN → f.apart CLKCTL.XTAL_EN → Cells.get .pcr pcr f = (s.clkSourced w).pcrGet f) ∧
    (Cells.get .pcr pcr CLKCTL.PLL_EN = if wget w 1 1 = 1 then 1 else if (s.clkSourced w).clkInUse then s.pcrGet CLKCTL.PLL_EN else 0) ∧
    (Cells.get .pcr pcr CLKCTL.XTAL_EN = if wget w 3 1 = 1 then 1 else if (s.clkSourced w).clkInUse then s.pcrGet CLKCTL.XTAL_EN else 0) := by
  let t := (s.clkSourced w).clkMove CLKCTL.PLL_EN (wget w 1 1 == 1) (s.clkSourced w).clkInUse
  let u := t.clkMove CLKCTL.XTAL_EN (wget w 3 1 == 1) (s.clkSourced w).clkInUse
  refine ⟨u.pcr, ?_, fun o ho => ?_, fun f hp hx => ?_, ?_, ?_⟩
  · exact (clkctlWrite_eq s w).trans (pcr_trans (clkMove_eq _ _ _ _) (pcr_trans (clkMove_eq _ _ _ _) (clkSourced_eq s w)))
  · exact ((clkMove_word _ _ _ _ o ho).trans (clkMove_word _ _ _ _ o ho)).trans (clkSourced_word s w o ho)
  · exact (clkMove_get_ne _ _ _ _ _ (by decide) hx).trans (clkMove_get_ne _ _ _ _ _ (by decide) hp)
  · refine (clkMove_get_ne _ _ _ _ _ (by decide) (by decide)).trans ((clkMove_get _ _ _ _ (by decide) rfl).trans ?_)
    rw [clkSourced_get _ _ _ (by decide) (by decide)]
    simp only [beq_iff_eq]
  · refine (clkMove_get _ _ _ _ (by decide) rfl).trans ?_
    rw [clkMove_get_ne _ _ _ _ _ (by decide) (by decide), clkSourced_get _ _ _ (by decide) (by decide)]
    simp only [beq_iff_eq]

end Sys2Proof.Machine

open Sys2Proof Sys2Proof.Machine

/-- Settles O45, row by row: each clause is what the row's effect is in the branch that its hypotheses pick. -/
theorem theDeviceBootsAndItsClocksFollowTheirSources : Obligations.TheDeviceBootsAndItsClocksFollowTheirSources := by
  unfold Obligations.TheDeviceBootsAndItsClocksFollowTheirSources
  intro s hraised
  refine ⟨fun h b0 b1 => ?heldReset, fun hr hv b0 b1 => ?release, ?full, ?floor, fun h => ?unlockIdle, fun h => ?unlock, ?lock,
    fun h => ?xtalOn, fun h => ?xtalOff, fun h => ?failNone, fun h => ?fail, fun h w => ?clkReset, fun h w => ?clk,
    fun h b => ?slowOff, fun h => ?slow⟩
  case heldReset => exact exec_to (exec_release b0 b1) (release_ignored b0 b1 h) hraised rfl
  case release =>
    exact ⟨release_noHeader b0 b1 hraised hr hv, fun hm k hc hk => release_rejected b0 b1 hraised hr hv hm hc hk,
      release_checking b0 b1 hraised hr hv⟩
  case full =>
    have hmay := mayServe_iff s
    exact ⟨fun h => exec_to rfl (if_pos (not_not.1 (mt hmay.2 h))) hraised rfl,
      fun h => leaves_of rfl (if_neg (hmay.1 h))⟩
  case floor => exact ⟨raiseSecver_secver s, raiseSecver_kept, raiseSecver_raised⟩
  case unlockIdle => exact exec_to rfl (pllLost_unlocked h) hraised rfl
  case unlock =>
    obtain ⟨hq, hp⟩ := unlocked_parts s
    exact ⟨leaves_of rfl (pllLost_locked h), fun hi => exec_to rfl (pllLost_idle h hi) (hq.trans hraised) hp⟩
  case lock =>
    have hmay := mayLock_iff s
    refine ⟨fun h => exec_to rfl (if_pos (not_not.1 (mt hmay.2 h))) hraised rfl, fun h hn => ?_,
      fun h => leaves_of rfl (if_neg (hmay.1 h))⟩
    have hquiet := afterLock_quiet (s := s.pcrSet CLKCTL.PLL_LOCK 1) hn
    refine ⟨fun l hw => ?_, fun hw hf => ?_, fun hw hf => ?_⟩
    · exact exec_toldDev rfl ((if_neg (hmay.1 h)).trans (hquiet.trans (afterLock_woken hw))) hraised rfl
    · exact exec_to rfl ((if_neg (hmay.1 h)).trans (hquiet.trans (afterLock_full hw hf))) hraised rfl
    · exact exec_to rfl ((if_neg (hmay.1 h)).trans (hquiet.trans (afterLock_kindling hw hf))) hraised rfl
  case xtalOn => exact exec_to rfl (if_pos h) hraised rfl
  case xtalOff => exact exec_to rfl (if_neg (by rw [h]; decide)) hraised rfl
  case failNone => exact exec_to rfl (if_pos h) hraised rfl
  case fail =>
    have hok : s.pcrGet CLKCTL.XTAL_OK ≠ 0 := h.trans_ne Nat.one_ne_zero
    exact ⟨leaves_of rfl (if_neg hok), fun hl hi => exec_to rfl ((if_neg hok).trans (xtalFail_idle hl hi)) hraised rfl⟩
  case clkReset => exact exec_to rfl (if_pos h) hraised rfl
  case clk =>
    obtain ⟨pcr, he, hword, hget, hpll, hxtal⟩ := clkctlWrite_pcr s w
    have hsrc := (hget CLKCTL.HSRC (by decide) (by decide)).trans (clkSourced_hsrc s w)
    have huse := clkSourced_inUse_iff s w
    rw [clkSourced_hsrc] at huse
    refine ⟨pcr, exec_to rfl ((if_neg (by rw [h]; decide)).trans he) hraised rfl, hword, hsrc, ?_, ?_, ?_, ?_, ?_, ?_, ?_⟩
    · exact (hget _ (by decide) (by decide)).trans (clkSourced_get s w _ (by decide) (by decide))
    · exact (hget _ (by decide) (by decide)).trans (clkSourced_get s w _ (by decide) (by decide))
    · exact (hget _ (by decide) (by decide)).trans (clkSourced_unlock s w)
    · exact fun h1 => hpll.trans (if_pos h1)
    · exact fun h3 => hxtal.trans (if_pos h3)
    · intro h1
      rw [h1, if_neg (by decide)] at hpll
      exact ⟨fun hk => hpll.trans (if_pos (huse.2 hk)), fun hk => hpll.trans (if_neg (mt huse.1 hk))⟩
    · intro h3
      rw [h3, if_neg (by decide)] at hxtal
      exact ⟨fun hk => hxtal.trans (if_pos (huse.2 hk)), fun hk => hxtal.trans (if_neg (mt huse.1 hk))⟩
  case slowOff => exact exec_to rfl (if_pos (by rw [h]; rfl)) hraised rfl
  case slow =>
    have hv : ¬(!s.dev.vsysOk) = true := by rw [h]; decide
    have hne {f : Fld} (h1 : s.aonGet f = 1) : s.aonGet f ≠ 0 := h1.trans_ne Nat.one_ne_zero
    refine ⟨fun hf => ?_, fun hf => ?_, fun hs => ?_, fun hs hf => ?_, fun hs hf => ?_⟩
    · exact exec_to rfl ((if_neg hv).trans ((if_pos rfl).trans (if_pos hf))) hraised rfl
    · exact exec_to rfl ((if_neg hv).trans ((if_pos rfl).trans (if_neg (hne hf)))) hraised rfl
    · exact exec_to rfl ((if_neg hv).trans ((if_neg Bool.false_ne_true).trans (if_pos hs))) hraised rfl
    · exact exec_to rfl ((if_neg hv).trans ((if_neg Bool.false_ne_true).trans ((if_neg (hne hs)).trans (if_pos hf)))) hraised rfl
    · have hf0 : s.aonGet SLOWCLK.FORCE_RC ≠ 1 := hf.trans_ne Nat.zero_ne_one
      exact exec_to rfl ((if_neg hv).trans ((if_neg Bool.false_ne_true).trans ((if_neg (hne hs)).trans (if_neg hf0)))) hraised rfl
end

section
/-! PROOF. The fields, the Grate and the governor of a port: what starts and ends a ramp, what puts an amplitude in force,
what a shift frame latches and what a reading sets (R39-R47, R57-R61, R63, R64, R70). -/

namespace Sys2Proof.Machine

/-! ## Rows that end a command -/

theorem endJob_port (s : State) (sel : Running → Bool) (st : Nat) (pl : List Byte) (q : PortNum) :
    (s.endJob sel st pl).port q = s.port q := by
  unfold State.endJob
  split <;> rfl

/-- A row whose effect ends the command that waits for it answers that command where one waits. -/
theorem exec_endJob {i : Instr} {f : State → State} {s u : State} {sel : Running → Bool} {st : Nat} {pl : List Byte}
    (e : exec i = run f) (h : f s = u.endJob sel st pl) (hr : u.raised = []) (hp : u.pending = s.pending)
    (hj : u.running = s.running) :
    (s.findJob sel = none → exec i s = .next u) ∧
      ∀ r, s.findJob sel = some r → exec i s = .next (u.ended sel r st pl) := by
  refine ⟨fun hn => ?_, fun r hs => ?_⟩
  · exact exec_to e (h.trans (endJob_nil _ _ _ _ ((findJob_run hj sel).trans hn))) hr hp
  · exact exec_ended e (h.trans (endJob_of _ _ _ _ _ ((findJob_run hj sel).trans hs))) hp

theorem idleWork_parts (s : State) (p : PortNum) : (s.idleWork p).raised = s.raised ∧
    (s.idleWork p).pending = s.pending ∧ (s.idleWork p).running = s.running := by
  obtain ⟨⟨c, i, r, e⟩, -⟩ := idleWork_facts s p
  rw [e]
  exact ⟨rfl, rfl, rfl⟩

/-! ## The start of a ramp (R41, R69) -/

section
variable {s : State} {p : PortNum}

theorem rampStart_of_rail (hv : (s.port p).field.vtxUv = false) :
    s.rampStart p = ((s.pset p TXSTAT.STATE 1).pset p TXSTAT.HELD 0).takeLeff p := by
  have hrail : ((((s.pset p TXSTAT.STATE 1).pset p TXSTAT.HELD 0).takeLeff p).port p).field.vtxUv = false := by
    rw [(takeLeff_facts _ p).1]
    simpa [Port.set] using hv
  exact if_neg (by rw [hrail]; decide)

theorem tryRamp_ramps (hh : s.pget p TXSTAT.HELD = 1) (h0 : s.fieldState p = 0) (hm : MayRamp s p)
    (hv : (s.port p).field.vtxUv = false) :
    s.tryRamp p = ((s.pset p TXSTAT.STATE 1).pset p TXSTAT.HELD 0).takeLeff p :=
  (if_pos ⟨hh, h0, (blocked_iff s p).2 hm⟩).trans (rampStart_of_rail hv)

theorem tryRamp_not_held (hh : s.pget p TXSTAT.HELD = 0) : s.tryRamp p = s :=
  if_neg fun h => absurd (hh.symm.trans h.1) (by decide)

/-! ## Writes of FIELD_EN (R41-R44, R108) -/

theorem writeFieldEn_set (hen : s.pget p TXCTL.FIELD_EN = 1) : s.writeFieldEn p true = s := by
  unfold State.writeFieldEn
  rw [hen]
  rfl

theorem writeFieldEn_unset (hen : s.pget p TXCTL.FIELD_EN = 0) : s.writeFieldEn p false = s :=
  if_neg (by rw [hen]; decide)

theorem writeFieldEn_lockedOut (hen : s.pget p TXCTL.FIELD_EN = 0) (hl : (s.port p).field.lockout = true)
    (hpass : (s.port p).svc.pass = none) (hseries : (s.port p).svc.series = false) : s.writeFieldEn p true = s := by
  have hsvc : s.writeFieldEn p true = s.modSvc p fun x => { x with
      series := x.series && x.pass.isNone
      pass := x.pass.map fun y => { y with fault := some St.THERMAL_LIMIT } } := by
    unfold State.writeFieldEn
    rw [hen, hl]
    rfl
  have hs : ((s.port p).svc.series && (s.port p).svc.pass.isNone) = (s.port p).svc.series := by rw [hseries]; rfl
  have hp : ((s.port p).svc.pass.map fun y => { y with fault := some St.THERMAL_LIMIT }) = (s.port p).svc.pass := by
    rw [hpass]; rfl
  rw [hsvc]
  refine State.modPort_self s p _ ?_
  dsimp only
  rw [hs, hp]

theorem fieldBlocked_requested (s : State) (p : PortNum) : (s.pset p TXCTL.FIELD_EN 1).fieldBlocked p = s.fieldBlocked p :=
  blocked_pset s p _ _ (by decide) (by decide)

theorem fieldState_requested (s : State) (p : PortNum) : (s.pset p TXCTL.FIELD_EN 1).fieldState p = s.fieldState p :=
  State.pget_pset_ne s p _ _ _ (by decide) (by decide)

/-- A request outside thermal lockout is held where something blocks it, and else turns or starts the ramp. -/
theorem writeFieldEn_request (hen : s.pget p TXCTL.FIELD_EN = 0) (hl : (s.port p).field.lockout = false) :
    s.writeFieldEn p true =
      if s.fieldBlocked p then (s.pset p TXCTL.FIELD_EN 1).pset p TXSTAT.HELD 1
      else if s.fieldState p = 3 then (s.pset p TXCTL.FIELD_EN 1).pset p TXSTAT.STATE 1
      else if s.fieldState p = 0 then (s.pset p TXCTL.FIELD_EN 1).rampStart p
      else s.pset p TXCTL.FIELD_EN 1 := by
  rw [← fieldBlocked_requested, ← fieldState_requested]
  unfold State.writeFieldEn
  rw [hen, hl]
  rfl

theorem writeFieldEn_held (hen : s.pget p TXCTL.FIELD_EN = 0) (hl : (s.port p).field.lockout = false) (hm : ¬MayRamp s p) :
    s.writeFieldEn p true = (s.pset p TXCTL.FIELD_EN 1).pset p TXSTAT.HELD 1 := by
  rw [← blocked_iff, Bool.not_eq_false] at hm
  rw [writeFieldEn_request hen hl, if_pos hm]

theorem writeFieldEn_turns (hen : s.pget p TXCTL.FIELD_EN = 0) (hm : MayRamp s p) (h3 : s.fieldState p = 3) :
    s.writeFieldEn p true = (s.pset p TXCTL.FIELD_EN 1).pset p TXSTAT.STATE 1 := by
  rw [writeFieldEn_request hen hm.cool, (blocked_iff s p).2 hm, if_neg (by decide), if_pos h3]

theorem writeFieldEn_ramps (hen : s.pget p TXCTL.FIELD_EN = 0) (hm : MayRamp s p) (h0 : s.fieldState p = 0)
    (hv : (s.port p).field.vtxUv = false) :
    s.writeFieldEn p true = (((s.pset p TXCTL.FIELD_EN 1).pset p TXSTAT.STATE 1).pset p TXSTAT.HELD 0).takeLeff p := by
  rw [writeFieldEn_request hen hm.cool, (blocked_iff s p).2 hm, if_neg (by decide), if_neg (by rw [h0]; decide), if_pos h0]
  exact rampStart_of_rail (by simpa [Port.set] using hv)

/-- FIELD_EN cleared with nothing on the air: a field that is up ramps down. -/
theorem writeFieldEn_down (hen : s.pget p TXCTL.FIELD_EN = 1) (ha : AirIdle s p) :
    s.writeFieldEn p false =
      if s.fieldState p = 1 ∨ s.fieldState p = 2 then ((s.pset p TXCTL.FIELD_EN 0).pset p TXSTAT.HELD 0).pset p TXSTAT.STATE 3
      else (s.pset p TXCTL.FIELD_EN 0).pset p TXSTAT.HELD 0 := by
  have hst : ((s.pset p TXCTL.FIELD_EN 0).pset p TXSTAT.HELD 0).fieldState p = s.fieldState p := by
    unfold State.fieldState
    rw [State.pget_pset_ne _ _ _ _ _ (by decide) (by decide), State.pget_pset_ne _ _ _ _ _ (by decide) (by decide)]
  have hdown : s.writeFieldEn p false = s.fieldDown p := rfl
  rw [hdown, State.fieldDown, if_pos hen]
  dsimp only
  rw [hst]
  split <;> exact air_down _ p (ha.congr (by simp [Port.set]))

/-! ## The ends of the ramps (R41, R43, R60, R84) -/

theorem rampUpDone_up (h1 : s.fieldState p = 1) : s.rampUpDone p =
    ((((s.pset p TXSTAT.STATE 2).takeLeff p).pset p DCBLK.ACQ 1).idleWork p).endJob (fieldOnOf p) St.OK [2, 0] :=
  if_pos h1

/-- A field that went off keeps its port's domain on where the port is open, and starts no ramp where none is asked for. -/
theorem rampDownDone_down (hi : NoImport s p TXSTAT.reg) (h3 : s.fieldState p = 3) (hh : s.pget p TXSTAT.HELD = 0)
    (ho : (s.port p).svc.svc = .opened) (hon : DomainOn s p) :
    s.rampDownDone p = (s.fieldIsOff p).endJob (fieldOffOf p) St.OK := by
  obtain ⟨-, hother, ⟨r, n, hport⟩, -, hoff⟩ := fieldIsOff_frame s p
  obtain ⟨-, hfields, -⟩ := hoff hi
  have hself := endJob_port (s.fieldIsOff p) (fieldOffOf p) St.OK []
  have hsvc : (((s.fieldIsOff p).endJob (fieldOffOf p) St.OK).port p).svc = (s.port p).svc := by rw [hself, hport]
  have hheld : ((s.fieldIsOff p).endJob (fieldOffOf p) St.OK).pget p TXSTAT.HELD = 0 := by
    unfold State.pget
    rw [hself]
    exact (hfields TXSTAT.HELD rfl (by decide)).trans hh
  have hpow : ((s.fieldIsOff p).endJob (fieldOffOf p) St.OK).powerSync p = (s.fieldIsOff p).endJob (fieldOffOf p) St.OK :=
    powerSync_held _ p (hon.congr (by rw [hsvc]) ((hself _).trans (hother _ (sibling_ne p))))
      (holds_opened _ p (by rw [hsvc]; exact ho))
  refine (if_pos h3).trans ?_
  refine (congrArg (State.tryRamp · p) hpow).trans (tryRamp_not_held hheld)

end

/-! ## The amplitude (R45) -/

section
variable {s : State} {p : PortNum}

theorem State.leffRaw_uncalibrated (hc : (s.port p).field.calLevel = none) : s.leffRaw p =
    min (s.pget p TXAMP.LEVEL) (s.pget p TXAMP.PMAX_LEVEL) * s.mapEntry p (s.antenna p) / 1024
      * s.pget p TXSTAT.GOV_FACTOR / 100 := by
  unfold State.leffRaw
  rw [hc]

theorem State.mapEntry_le (s : State) (p : PortNum) (ant : Nat) : s.mapEntry p ant ≤ 1024 := min_le_left _ _

/-- The map and the governor only lower the amplitude. -/
theorem State.leff_le_level (hc : (s.port p).field.calLevel = none) (hg : s.pget p TXSTAT.GOV_FACTOR ≤ 100) :
    s.leff p ≤ min (s.pget p TXAMP.LEVEL) (s.pget p TXAMP.PMAX_LEVEL) := by
  refine (min_le_left _ _).trans ?_
  rw [State.leffRaw_uncalibrated hc]
  calc _ ≤ min (s.pget p TXAMP.LEVEL) (s.pget p TXAMP.PMAX_LEVEL) * 1024 / 1024 * 100 / 100 := by
        gcongr
        exact s.mapEntry_le p _
    _ = _ := by rw [Nat.mul_div_cancel _ (by decide), Nat.mul_div_cancel _ (by decide)]

/-- With a full map entry and governor, and no rail read, the level is the amplitude: it has 10 bits, the ceiling 1023. -/
theorem State.leff_eq_level (hc : (s.port p).field.calLevel = none) (hm : s.mapEntry p (s.antenna p) = 1024)
    (hg : s.pget p TXSTAT.GOV_FACTOR = 100) (hs : (s.port p).field.sampled = false) :
    s.leff p = min (s.pget p TXAMP.LEVEL) (s.pget p TXAMP.PMAX_LEVEL) := by
  have hraw : s.leffRaw p = min (s.pget p TXAMP.LEVEL) (s.pget p TXAMP.PMAX_LEVEL) := by
    rw [State.leffRaw_uncalibrated hc, hm, hg, Nat.mul_div_cancel _ (by decide), Nat.mul_div_cancel _ (by decide)]
  have hroom : s.headroom p = 1023 := by
    unfold State.headroom
    rw [hs]
    rfl
  have hlevel : s.pget p TXAMP.LEVEL < 1024 := Cells.get_lt .port _ TXAMP.LEVEL
  rw [State.leff, hraw, hroom]
  omega

/-! ## Phase (R39, R40) -/

theorem phaseWrite_coordinated (h : s.pget p TXPHASE.COORD = 1) (v : Nat) : s.phaseWrite p v = s := if_pos h

theorem phaseWrite_own (h : s.pget p TXPHASE.COORD = 0) {v : Nat} (hv : v < 256) :
    s.phaseWrite p v = (s.pset p TXPHASE.PHASE v).pset p TXPHASE.PENDING (if v = s.pget p TXPHASE.APPLIED then 0 else 1) := by
  have hphase : (s.pset p TXPHASE.PHASE v).pget p TXPHASE.PHASE = v :=
    (State.pget_pset s p _ v (by decide)).trans (Nat.mod_eq_of_lt hv)
  have happlied : (s.pset p TXPHASE.PHASE v).pget p TXPHASE.APPLIED = s.pget p TXPHASE.APPLIED :=
    State.pget_pset_ne s p _ _ v (by decide) (by decide)
  unfold State.phaseWrite
  rw [if_neg (by rw [h]; decide)]
  dsimp only
  rw [hphase, happlied]
  congr 1
  by_cases e : v = s.pget p TXPHASE.APPLIED <;> simp [bit, e]

end

/-! ## The Grate (R58-R61, R89) -/

/-- A shift frame on one port: a word that was asked for is latched and settles. -/
def latchGrate (q : Port) : Port :=
  if q.grate.request then
    { q with grate := { q.grate with kept := q.grate.reg.setWidth 16, request := false, settling := true } }
  else q

theorem modPort_latchGrate (s : State) (p : PortNum) :
    (if (s.port p).grate.request then
      s.modPort p fun q =>
        { q with grate := { q.grate with kept := q.grate.reg.setWidth 16, request := false, settling := true } }
    else s) = s.modPort p latchGrate := by
  split
  · rename_i h
    unfold State.modPort latchGrate
    rw [if_pos h]
  · rename_i h
    exact (State.modPort_self s p _ (if_neg h)).symm

theorem mem_allPorts (p : PortNum) : p ∈ allPorts := by
  revert p; decide

/-- A shift frame latches the word of every port that asked for it. -/
theorem grateShift_eq {s : State} (h : s.pllLocked = true ∨ s.kindling = true) :
    s.grateShift = { s with ports := Vector.ofFn fun p => latchGrate (s.port p) } := by
  have hclock : (s.pllLocked || s.kindling) = true := by simpa using h
  have hframe : allPorts.foldl (fun t p => t.modPort p latchGrate) s =
      { s with ports := Vector.ofFn fun p => latchGrate (s.port p) } := by
    refine (foldl_modPort latchGrate allPorts (by decide) s).trans ?_
    congr 2
    funext p
    exact if_pos (mem_allPorts p)
  unfold State.grateShift
  simp only [hclock, Bool.true_and, modPort_latchGrate]
  rw [hframe]
  refine ite_eq_left_iff.2 fun hnone => ?_
  have hid : ∀ p, latchGrate (s.port p) = s.port p := fun p =>
    if_neg fun hp => hnone (List.any_eq_true.2 ⟨p, mem_allPorts p, hp⟩)
  simp only [hid]
  cases s
  congr 1
  exact (vector_ext_get fun p => vget_ofFn _ p).symm

theorem grateWrite_parts (s : State) (p : PortNum) (w : Word) :
    (s.grateWrite p w).raised = s.raised ∧ (s.grateWrite p w).pending = s.pending := by
  unfold State.grateWrite
  dsimp only
  split <;> exact ⟨rfl, rfl⟩

/-- The port once its settle time is over. -/
def State.unsettled (s : State) (p : PortNum) : State :=
  s.modPort p fun q => { q with grate := { q.grate with settling := false } }

section
variable {s : State} {p : PortNum}

theorem grateSettled_idle (h : (s.port p).grate.settling = false) : s.grateSettled p = s := if_neg (by rw [h]; decide)

theorem unsettled_busy (s : State) (p : PortNum) :
    ((s.unsettled p).port p).grate.busy = ((s.port p).grate.request || (s.port p).grate.held) := by
  simp [State.unsettled, Grate.busy]

theorem grateSettled_waits (h : (s.port p).grate.settling = true)
    (hb : (s.port p).grate.request = true ∨ (s.port p).grate.held = true) : s.grateSettled p = s.unsettled p :=
  (if_pos h).trans (if_pos ((unsettled_busy s p).trans (by simpa using hb)))

theorem grateSettled_free (h : (s.port p).grate.settling = true) (hr : (s.port p).grate.request = false)
    (hh : (s.port p).grate.held = false) :
    s.grateSettled p = ((s.unsettled p).endJob (fun r => r.job == .grate p) St.OK [0]).tryRamp p := by
  have hb : ¬((s.unsettled p).port p).grate.busy = true := by rw [unsettled_busy, hr, hh]; decide
  exact (if_pos h).trans (if_neg hb)

theorem unsettled_pget (s : State) (p : PortNum) (f : Fld) : (s.unsettled p).pget p f = s.pget p f := by
  simp [State.unsettled, State.pget, Port.get]

/-- A settle time that ends with no field request held ends the command that waited for it. -/
theorem grateSettled_ends (h : (s.port p).grate.settling = true) (hr : (s.port p).grate.request = false)
    (hh : (s.port p).grate.held = false) (hheld : s.pget p TXSTAT.HELD = 0) :
    s.grateSettled p = (s.unsettled p).endJob (fun r => r.job == .grate p) St.OK [0] := by
  rw [grateSettled_free h hr hh]
  refine tryRamp_not_held ?_
  unfold State.pget
  rw [endJob_port]
  exact (unsettled_pget s p _).trans hheld

theorem exec_grateSettleEnd_ends (hraised : s.raised = []) (h : (s.port p).grate.settling = true)
    (hr : (s.port p).grate.request = false) (hh : (s.port p).grate.held = false) (hheld : s.pget p TXSTAT.HELD = 0) :
    (s.findJob (fun r => r.job == .grate p) = none → exec (.grateSettleEnd p) s = .next (s.unsettled p)) ∧
      ∀ r, s.findJob (fun r => r.job == .grate p) = some r →
        exec (.grateSettleEnd p) s = .next ((s.unsettled p).ended (fun r => r.job == .grate p) r St.OK [0]) :=
  exec_endJob (f := (State.grateSettled · p)) rfl (grateSettled_ends h hr hh hheld) hraised rfl rfl

/-- A settle time that ends with a field request held and no command waiting starts the ramp. -/
theorem grateSettled_ramps (h : (s.port p).grate.settling = true) (hr : (s.port p).grate.request = false)
    (hh : (s.port p).grate.held = false) (hheld : s.pget p TXSTAT.HELD = 1) (h0 : s.fieldState p = 0)
    (hm : MayRamp (s.unsettled p) p) (hv : (s.port p).field.vtxUv = false)
    (hj : s.findJob (fun r => r.job == .grate p) = none) :
    s.grateSettled p = (((s.unsettled p).pset p TXSTAT.STATE 1).pset p TXSTAT.HELD 0).takeLeff p := by
  rw [grateSettled_free h hr hh, endJob_nil (s.unsettled p) _ _ _ hj]
  refine tryRamp_ramps ((unsettled_pget s p _).trans hheld) ((unsettled_pget s p _).trans h0) hm ?_
  simpa [State.unsettled] using hv

end

/-! ## Readings and duty (R63, R64, R70) -/

theorem govFactor_full {start tj : Nat} (slope : Nat) (h : tj ≤ 128 + 2 * thermStart start) : govFactor start slope tj = 100 :=
  if_pos (by omega)

theorem govFactor_above {start tj n : Nat} (slope : Nat) (h : tj = 128 + 2 * thermStart start + (n + 1)) :
    govFactor start slope tj = max 25 (100 - (slope + 1) * (n + 1)) := by
  have habove : ((tj : Int) - 128 - 2 * (thermStart start : Int)) = ((n + 1 : Nat) : Int) := by omega
  unfold govFactor
  rw [habove]
  exact if_neg (by omega)

/-- Up to a quarter, each half degree above START takes SLOPE + 1 from the factor. -/
theorem govFactor_slope {start slope tj n : Nat} (h : tj = 128 + 2 * thermStart start + n) (hn : (slope + 1) * n ≤ 75) :
    govFactor start slope tj = 100 - (slope + 1) * n := by
  cases n with
  | zero => exact govFactor_full slope h.le
  | succ n => rw [govFactor_above slope h]; omega

theorem govFactor_bounds (start slope tj : Nat) : 25 ≤ govFactor start slope tj ∧ govFactor start slope tj ≤ 100 := by
  by_cases h : tj ≤ 128 + 2 * thermStart start
  · rw [govFactor_full slope h]; decide
  · obtain ⟨n, hn⟩ : ∃ n, tj = 128 + 2 * thermStart start + (n + 1) :=
      ⟨tj - (128 + 2 * thermStart start) - 1, by omega⟩
    rw [govFactor_above slope hn]
    omega

/-- What a reading leaves of a port `q`: its temperature, rail, governor factor and hot state, and no other register. -/
structure PortSampled (q r : Port) (tj vtx : Nat) : Prop where
  temp : r.get TXMON.TJ = tj
  rail : r.get TXMON.VTX = vtx
  factor : r.get TXSTAT.GOV_FACTOR = govFactor (q.get THERM.START) (q.get THERM.SLOPE) tj
  field : r.field = { q.field with
    sampled := true
    hot := decide (2 * (thermStart (q.get THERM.START) + q.get THERM.DUTY_AT) + 128 ≤ tj)
    debt := r.field.debt
    dutyUsed := r.field.dutyUsed }
  word : ∀ o, o ≠ TXMON.reg → o ≠ TXSTAT.reg → r.word o = q.word o

theorem thermPort_frame (s : State) (p : PortNum) (tj vtx : Nat) :
    s.thermPort p tj vtx = { s with ports := (s.thermPort p tj vtx).ports } := rfl

theorem thermPort_port_ne (s : State) {p q : PortNum} (tj vtx : Nat) (h : q ≠ p) : (s.thermPort p tj vtx).port q = s.port q := by
  simp [State.thermPort, h]

theorem Port.get_set (q : Port) (f : Fld) (v : Nat) (h : f.fits) : (q.set f v).get f = v % 2 ^ f.len := Cells.get_set _ _ _ _ h

theorem Port.get_set_ne (q : Port) (f g : Fld) (v : Nat) (h : g.fits) (hd : f.apart g) : (q.set g v).get f = q.get f :=
  Cells.get_set_ne _ _ _ _ _ h hd

/-- The registers that a reading writes: TXMON, the governor factor and GOV. -/
def Port.writeReading (q : Port) (tj vtx factor gov : Nat) : Port :=
  (((q.set TXMON.TJ tj).set TXMON.VTX vtx).set TXSTAT.GOV_FACTOR factor).set TXSTAT.GOV gov

section
variable (q : Port) {tj vtx factor : Nat} (gov : Nat)

theorem writeReading_temp (h : tj < 512) : (q.writeReading tj vtx factor gov).get TXMON.TJ = tj := by
  unfold Port.writeReading
  rw [Port.get_set_ne _ _ _ _ (by decide) (by decide), Port.get_set_ne _ _ _ _ (by decide) (by decide),
    Port.get_set_ne _ _ _ _ (by decide) (by decide), Port.get_set _ _ _ (by decide)]
  exact Nat.mod_eq_of_lt h

theorem writeReading_rail (h : vtx < 1024) : (q.writeReading tj vtx factor gov).get TXMON.VTX = vtx := by
  unfold Port.writeReading
  rw [Port.get_set_ne _ _ _ _ (by decide) (by decide), Port.get_set_ne _ _ _ _ (by decide) (by decide),
    Port.get_set _ _ _ (by decide)]
  exact Nat.mod_eq_of_lt h

theorem writeReading_factor (h : factor < 128) : (q.writeReading tj vtx factor gov).get TXSTAT.GOV_FACTOR = factor := by
  unfold Port.writeReading
  rw [Port.get_set_ne _ _ _ _ (by decide) (by decide), Port.get_set _ _ _ (by decide)]
  exact Nat.mod_eq_of_lt h

theorem writeReading_word {o : Nat} (hmon : o ≠ TXMON.reg) (hstat : o ≠ TXSTAT.reg) :
    (q.writeReading tj vtx factor gov).word o = q.word o := by
  unfold Port.writeReading
  rw [Port.word_set_ne _ _ _ _ hstat, Port.word_set_ne _ _ _ _ hstat, Port.word_set_ne _ _ _ _ hmon,
    Port.word_set_ne _ _ _ _ hmon]

end

/-- The port after a reading; what its debt, its time used and GOV become follows from its duty mode. -/
theorem thermPort_port (s : State) (p : PortNum) (tj vtx : Nat) : ∃ gov debt used, (s.thermPort p tj vtx).port p =
    { (s.port p).writeReading tj vtx (govFactor (s.pget p THERM.START) (s.pget p THERM.SLOPE) tj) gov with
      field := { (s.port p).field with
        sampled := true
        hot := decide (2 * (thermStart (s.pget p THERM.START) + s.pget p THERM.DUTY_AT) + 128 ≤ tj)
        debt := debt
        dutyUsed := used } } := by
  have hkept : ∀ f : Fld, f.off = THERM.reg →
      ((s.pset p TXMON.TJ tj).pset p TXMON.VTX vtx).pget p f = s.pget p f := fun f hf => by
    rw [State.pget_pset_ne _ _ _ _ _ (by decide) (.inl (by rw [hf]; decide)),
      State.pget_pset_ne _ _ _ _ _ (by decide) (.inl (by rw [hf]; decide))]
  unfold State.thermPort
  dsimp only
  rw [hkept THERM.START rfl, hkept THERM.SLOPE rfl, hkept THERM.DUTY_AT rfl]
  simp only [State.pset_port, State.modPort_port, Port.set]
  exact ⟨_, _, _, rfl⟩

theorem thermPort_sampled (s : State) (p : PortNum) {tj vtx : Nat} (ht : tj < 512) (hv : vtx < 1024) :
    PortSampled (s.port p) ((s.thermPort p tj vtx).port p) tj vtx := by
  obtain ⟨gov, debt, used, e⟩ := thermPort_port s p tj vtx
  rw [e]
  exact
    { temp := writeReading_temp _ gov ht
      rail := writeReading_rail _ gov hv
      factor := writeReading_factor _ gov ((govFactor_bounds _ _ _).2.trans_lt (by decide))
      field := rfl
      word := fun _ hmon hstat => writeReading_word _ gov hmon hstat }

/-- A reading of the rail and junction that two ports share. -/
def State.thermPair (s : State) (k : Fin 4) (tj vtx : Nat) : State :=
  (s.thermPort (toPort (2 * k.val)) tj vtx).thermPort (toPort (2 * k.val + 1)) tj vtx

theorem mem_pairPorts {k : Fin 4} {p : PortNum} : p ∈ pairPorts k ↔ p = toPort (2 * k.val) ∨ p = toPort (2 * k.val + 1) := by
  simp [pairPorts, toPort]

theorem toPort_pair_ne (k : Fin 4) : toPort (2 * k.val) ≠ toPort (2 * k.val + 1) := by
  revert k; decide

section
variable (s : State) (k : Fin 4) (tj vtx : Nat)

theorem thermPair_frame : ∃ r, s.thermPair k tj vtx = { s with ports := r } :=
  ⟨_, ports_trans (thermPort_frame _ _ _ _) (thermPort_frame _ _ _ _)⟩

theorem thermPair_port_ne {p : PortNum} (h : p ∉ pairPorts k) : (s.thermPair k tj vtx).port p = s.port p := by
  rw [mem_pairPorts, not_or] at h
  exact (thermPort_port_ne _ _ _ h.2).trans (thermPort_port_ne _ _ _ h.1)

theorem thermPair_sampled {p : PortNum} (hp : p ∈ pairPorts k) (ht : tj < 512) (hv : vtx < 1024) :
    PortSampled (s.port p) ((s.thermPair k tj vtx).port p) tj vtx := by
  unfold State.thermPair
  rcases mem_pairPorts.1 hp with rfl | rfl
  · rw [thermPort_port_ne _ _ _ (toPort_pair_ne k)]
    exact thermPort_sampled s _ ht hv
  · rw [← thermPort_port_ne s tj vtx (toPort_pair_ne k).symm]
    exact thermPort_sampled _ _ ht hv

theorem livePorts_pair (h : ∀ p ∈ pairPorts k, s.portOn p = true) : s.livePorts k.val = [2 * k.val, 2 * k.val + 1] := by
  have hk : k.val ≠ 4 := by omega
  have ha : s.portOn (toPort (2 * k.val)) = true := h _ (mem_pairPorts.2 (.inl rfl))
  have hb : s.portOn (toPort (2 * k.val + 1)) = true := h _ (mem_pairPorts.2 (.inr rfl))
  simp [State.livePorts, domainPorts, hk, ha, hb]

end

theorem recalTrigger_off {s : State} (h : s.dev.full = false ∨ s.calGet CALCFG.AUTO = 0) (d tj : Nat) :
    s.recalTrigger d tj = s := by
  refine if_neg ?_
  rintro ⟨hfull, hauto, -⟩
  rcases h with h | h
  · rw [h] at hfull; cases hfull
  · rw [h] at hauto; cases hauto

/-- A reading of a powered domain without a recalibration to do sets what it sets on both ports. -/
theorem exec_thermSample_pair {s : State} {k : Fin 4} (hraised : s.raised = []) (h : ∀ p ∈ pairPorts k, s.portOn p = true)
    (ha : s.dev.full = false ∨ s.calGet CALCFG.AUTO = 0) (tj : BitVec 9) (vtx : BitVec 10) :
    exec (.thermSample ⟨k.val, by omega⟩ tj vtx) s = .next (s.thermPair k tj.toNat vtx.toNat) := by
  obtain ⟨r, e⟩ := thermPair_frame s k tj.toNat vtx.toNat
  have hk : k.val ≠ 4 := by omega
  have hoff : (s.thermPair k tj.toNat vtx.toNat).recalTrigger k.val tj.toNat = s.thermPair k tj.toNat vtx.toNat :=
    recalTrigger_off (by rw [e]; exact ha) _ _
  refine exec_to rfl ?_ (by rw [e]; exact hraised) (by rw [e])
  simp only [livePorts_pair s k h, hk, List.isEmpty_cons, Bool.false_eq_true, if_false, List.foldl_cons, List.foldl_nil]
  exact hoff

/-- What a window leaves of a port: the time beyond its cap is carried on as debt. -/
def State.dutyCarried (s : State) (p : PortNum) (n : Nat) : State :=
  s.modPort p fun q => { q with field := { q.field with
    debt := if s.dutyOn p then (q.field.debt + n) - s.dutyCap p else 0
    dutyUsed := if s.dutyOn p then (q.field.debt + n) - s.dutyCap p else 0 } }

theorem dutyCarried_pget (s : State) (p : PortNum) (n : Nat) (f : Fld) : (s.dutyCarried p n).pget p f = s.pget p f := by
  simp [State.dutyCarried, State.pget, Port.get]

end Sys2Proof.Machine

open Sys2Proof Sys2Proof.Machine

/-- Settles O19, by what a write of FIELD_EN, the start and the two ends of a ramp, and an idle point do. -/
theorem fieldsRampAndChangesTakeEffectWhenQuiet : Obligations.FieldsRampAndChangesTakeEffectWhenQuiet := by
  unfold Obligations.FieldsRampAndChangesTakeEffectWhenQuiet
  refine ⟨fun s p hraised => ?field, fun s p hraised => ?quiet⟩
  case field =>
    refine ⟨fun hon hen => ?request, fun hon hen => ?set, fun hon hen ha => ?down, fun hh h0 hm hv => ?held, fun h1 => ?up,
      fun hi h3 hh ho hon hon' => ?off, fun hi => ?leavesOff, takeLeff_facts s p⟩
    case request =>
      refine ⟨fun hm h0 hv => ?_, fun hm h3 => ?_, fun hl hm => ?_, fun hl hpass hseries => ?_, ?_⟩
      · exact exec_to rfl ((if_pos hon).trans (writeFieldEn_ramps hen hm h0 hv)) hraised rfl
      · exact exec_to rfl ((if_pos hon).trans (writeFieldEn_turns hen hm h3)) hraised rfl
      · exact exec_to rfl ((if_pos hon).trans (writeFieldEn_held hen hl hm)) hraised rfl
      · exact exec_to rfl ((if_pos hon).trans (writeFieldEn_lockedOut hen hl hpass hseries)) hraised rfl
      · exact exec_to rfl ((if_pos hon).trans (writeFieldEn_unset hen)) hraised rfl
    case set => exact exec_to rfl ((if_pos hon).trans (writeFieldEn_set hen)) hraised rfl
    case down =>
      refine exec_to rfl ((if_pos hon).trans (writeFieldEn_down hen ha)) ?_ ?_
      · split <;> exact hraised
      · split <;> rfl
    case held => exact exec_to rfl (tryRamp_ramps hh h0 hm hv) hraised rfl
    case up =>
      obtain ⟨hr, hp, hj⟩ := idleWork_parts (((s.pset p TXSTAT.STATE 2).takeLeff p).pset p DCBLK.ACQ 1) p
      exact exec_endJob rfl (rampUpDone_up h1) (hr.trans hraised) hp hj
    case off =>
      obtain ⟨hframe, -⟩ := fieldIsOff_frame s p
      obtain ⟨hr, hp, hj, -⟩ := f1_frame_raised hframe
      exact exec_endJob rfl (rampDownDone_down hi h3 hh ho ⟨hon, hon'⟩) (hr.trans hraised) hp hj
    case leavesOff =>
      obtain ⟨hframe, hother, ⟨r, n, hport⟩, -, hoff⟩ := fieldIsOff_frame s p
      obtain ⟨h0, -, hidle⟩ := hoff hi
      obtain ⟨-, -, hj, hhosts, -, haon, htable⟩ := f1_frame_raised hframe
      exact ⟨h0, by rw [hport], by rw [hport], hidle, hother, hhosts, hj, haon, htable⟩
  case quiet =>
    refine ⟨fun v hon hc => ?own, fun v hon hc => ?coordinated, fun hp hq => ?phase, fun h0 hq => ?phaseWaits,
      fun h2 hq hl => ?amp, fun h => ?ampWaits, fun hr => ?ramped, fun hon => ?lock, ?amplitude⟩
    case own => exact exec_to rfl ((if_pos hon).trans (phaseWrite_own hc v.isLt)) hraised rfl
    case coordinated => exact exec_to rfl ((if_pos hon).trans (phaseWrite_coordinated hc _)) hraised rfl
    case phase => exact exec_to rfl (if_pos ⟨hp, hq⟩) hraised rfl
    case phaseWaits => exact exec_to rfl (if_neg fun h => by simp [h0, hq] at h) hraised rfl
    case amp => exact exec_to rfl (if_pos ⟨h2, hq, hl⟩) hraised rfl
    case ampWaits =>
      refine exec_to rfl (if_neg fun hx => ?_) hraised rfl
      obtain ⟨h2, hq, -⟩ := hx
      simp [h2, hq] at h
    case ramped =>
      obtain ⟨hr', hp, -⟩ := idleWork_parts
        ((s.modPort p fun q => { q with field := { q.field with ramping := false } }).acquire p) p
      exact exec_to rfl (if_pos hr) (hr'.trans hraised) hp
    case lock => exact exec_to rfl (if_pos hon) hraised rfl
    case amplitude => exact fun hc hg => ⟨State.leff_le_level hc hg, fun hm hg' hs => State.leff_eq_level hc hm hg' hs⟩

/-- Settles O21, by what a write of GRATE, a shift frame and the end of a settle time do. -/
theorem grateWordsShiftOnceTheFieldIsOffAndSettle : Obligations.GrateWordsShiftOnceTheFieldIsOffAndSettle := by
  unfold Obligations.GrateWordsShiftOnceTheFieldIsOffAndSettle
  refine ⟨fun s p hraised => ⟨fun w => ?write, fun hset => ⟨fun hb => ?waits, fun hr hh =>
    ⟨fun hheld hj => ?ends, fun hheld r hj => ?answers, fun hheld h0 hm hv hj => ?ramps⟩⟩, fun hset => ?idle⟩,
    fun s hraised hclock => ?frame⟩
  case write =>
    obtain ⟨hr, hp⟩ := grateWrite_parts s p w
    exact exec_to rfl rfl (hr.trans hraised) hp
  case waits => exact exec_to rfl (grateSettled_waits hset hb) hraised rfl
  case ends => exact (exec_grateSettleEnd_ends hraised hset hr hh hheld).1 hj
  case answers => exact (exec_grateSettleEnd_ends hraised hset hr hh hheld).2 r hj
  case ramps => exact exec_to rfl (grateSettled_ramps hset hr hh hheld h0 hm hv hj) hraised rfl
  case idle => exact exec_to rfl (grateSettled_idle hset) hraised rfl
  case frame => exact ⟨_, exec_to rfl (grateShift_eq hclock) hraised rfl, rfl, fun p => vget_ofFn _ p⟩

/-- Settles O22, by what a window and a reading of a domain leave of its ports, and the governor's slope. -/
theorem readingsGovernThePortAndItsDuty : Obligations.ReadingsGovernThePortAndItsDuty := by
  unfold Obligations.ReadingsGovernThePortAndItsDuty
  intro s hraised
  refine ⟨fun p n hon hh => ?window, fun k tj vtx hon ha => ?reading, fun start slope tj => ?factor⟩
  case window =>
    have hheld : (s.dutyCarried p n).pget p TXSTAT.HELD = 0 := (dutyCarried_pget s p n _).trans hh
    exact exec_to rfl ((if_pos hon).trans (tryRamp_not_held hheld)) hraised rfl
  case reading =>
    obtain ⟨r, e⟩ := thermPair_frame s k tj.toNat vtx.toNat
    refine ⟨_, exec_thermSample_pair hraised hon ha tj vtx, by rw [e], fun p hp => thermPair_port_ne s k _ _ hp, fun p hp => ?_⟩
    obtain ⟨htj, hvtx, hfactor, hfield, hword⟩ := thermPair_sampled s k _ _ hp tj.isLt vtx.isLt
    exact ⟨htj, hvtx, hfactor, hfield, hword⟩
  case factor => exact ⟨govFactor_full slope, fun n h hn => govFactor_slope h hn, govFactor_bounds start slope tj⟩
end

section
/-! PROOF. The receive settings of a port and what its chain measures: FRMCTL and the settings that wait for an idle
point, the AGC, overloads, the DC blocker and the noise floor (R74-R78, R84, R87, R89, R91-R94, R103, R113, R142). -/

namespace Sys2Proof.Machine

/-! ## Fields loaded together -/

/-- Fields of a port written one after another. -/
def State.psets (s : State) (p : PortNum) (l : List (Fld × Nat)) : State := l.foldl (fun t x => t.pset p x.1 x.2) s

/-- Values that fit their fields, the fields apart from each other: each can then be read back. -/
def Loadable (l : List (Fld × Nat)) : Prop :=
  (∀ x ∈ l, x.1.fits ∧ x.2 < 2 ^ x.1.len) ∧ l.Pairwise fun x y => x.1.apart y.1

/-- Of the state, only the registers of port `p` and its receive settings differ. -/
structure SettingsSide (s t : State) (p : PortNum) : Prop where
  rest : t = { s with ports := t.ports }
  others : ∀ q, q ≠ p → t.port q = s.port q
  framer : (t.port p).framer = (s.port p).framer

theorem SettingsSide.refl (s : State) (p : PortNum) : SettingsSide s s p := ⟨rfl, fun _ _ => rfl, rfl⟩

theorem SettingsSide.trans {s t u : State} {p : PortNum} (a : SettingsSide s t p) (b : SettingsSide t u p) :
    SettingsSide s u p :=
  ⟨ports_trans b.rest a.rest, fun q hq => (b.others q hq).trans (a.others q hq), b.framer.trans a.framer⟩

section
variable (s : State) (p : PortNum)

theorem pset_side (f : Fld) (v : Nat) : SettingsSide s (s.pset p f v) p :=
  ⟨rfl, fun _ hq => State.pset_port_ne _ _ _ _ _ hq, by rw [State.pset_port]; rfl⟩

theorem psets_side (l : List (Fld × Nat)) : SettingsSide s (s.psets p l) p := by
  induction l generalizing s with
  | nil => exact SettingsSide.refl s p
  | cons x l ih => exact (pset_side s p x.1 x.2).trans (ih _)

theorem psets_pget_ne (l : List (Fld × Nat)) (f : Fld) (h : ∀ g ∈ l.map Prod.fst, g.fits ∧ f.apart g) :
    (s.psets p l).pget p f = s.pget p f := by
  induction l generalizing s with
  | nil => rfl
  | cons x l ih =>
    rw [List.map_cons, List.forall_mem_cons] at h
    obtain ⟨⟨hx, hf⟩, hl⟩ := h
    exact (ih _ hl).trans (State.pget_pset_ne _ _ _ _ _ hx hf)

theorem psets_pget {l : List (Fld × Nat)} (h : Loadable l) {f : Fld} {v : Nat} (hx : (f, v) ∈ l) :
    (s.psets p l).pget p f = v := by
  induction l generalizing s with
  | nil => cases hx
  | cons y l ih =>
    obtain ⟨hfits, happart⟩ := h
    rw [List.forall_mem_cons] at hfits
    rw [List.pairwise_cons] at happart
    rcases List.mem_cons.1 hx with rfl | hx
    · have hleft : ((s.pset p f v).psets p l).pget p f = (s.pset p f v).pget p f :=
        psets_pget_ne _ p l _ fun g hg => by
          obtain ⟨y, hy, rfl⟩ := List.mem_map.1 hg
          exact ⟨(hfits.2 y hy).1, happart.1 y hy⟩
      exact hleft.trans ((State.pget_pset _ _ _ _ hfits.1.1).trans (Nat.mod_eq_of_lt hfits.1.2))
    · exact ih _ ⟨hfits.2, happart.2⟩ hx

end

/-! ## The settings that wait (R74) -/

theorem foldl_put_word (b : Block) (g : Nat → Word) (l : List Nat) (c : Cells) (o : Nat) :
    Cells.word b (l.foldl (fun c o => Cells.put b c o (g o)) c) o = if o ∈ l then g o else Cells.word b c o := by
  induction l generalizing c with
  | nil => rfl
  | cons k l ih =>
    rw [List.foldl_cons, ih]
    by_cases hl : o ∈ l
    · rw [if_pos hl, if_pos (List.mem_cons_of_mem _ hl)]
    · rw [if_neg hl]
      by_cases hk : o = k
      · subst hk
        rw [if_pos List.mem_cons_self, Cells.word_put]
      · rw [if_neg (by simp [hk, hl]), Cells.word_put_ne _ _ _ _ _ hk]

section
variable (s : State) (p : PortNum)

theorem applyRx_port : (s.applyRx p).port p = { s.port p with chain := { (s.port p).chain with
    inForce := ((s.applyRx p).port p).chain.inForce, pend := false } } := by
  unfold State.applyRx
  rw [State.modPort_port]

/-- The staged registers are in force as they are written. -/
theorem applyRx_inForce {o : Nat} (h : o ∈ stagedRegs) :
    Cells.word .port ((s.applyRx p).port p).chain.inForce o = (s.port p).word o := by
  unfold State.applyRx
  rw [State.modPort_port]
  exact (foldl_put_word .port (s.port p).word _ _ o).trans (if_pos h)

theorem applyRx_port_ne {q : PortNum} (h : q ≠ p) : (s.applyRx p).port q = s.port q := State.modPort_port_ne _ _ _ _ h

theorem applyRx_side : SettingsSide s (s.applyRx p) p :=
  ⟨rfl, fun _ hq => applyRx_port_ne s p hq, by rw [applyRx_port]⟩

theorem stageRx_side : SettingsSide s (s.stageRx p) p := by
  unfold State.stageRx
  split
  · exact applyRx_side s p
  · exact ⟨rfl, fun _ hq => State.modPort_port_ne _ _ _ _ hq, by rw [State.modPort_port]⟩

theorem stageRx_pget (f : Fld) : (s.stageRx p).pget p f = s.pget p f := by
  unfold State.stageRx State.pget
  split
  · rw [applyRx_port]; rfl
  · rw [State.modPort_port]; rfl

end

/-! ## A change of coding (R75, R89, R103, R113, R142) -/

/-- The fields that RXAUTO loads, with their defaults. -/
def rxLoads (w : Word) : List (Fld × Nat) :=
  [(DECIM.K, (rxDefaults w).1), (MEDIAN.TAPS, (rxDefaults w).2.1), (MEDIAN.RANK, (rxDefaults w).2.2.1),
    (FIRCTL.SET, (rxDefaults w).2.2.2)]

/-- The fields that FDT.AUTO loads. -/
def fdtLoads (w : Word) : List (Fld × Nat) :=
  [(FDT.MIN, (windowDefaults (codingOf w)).1), (FDT.GRID, (windowDefaults (codingOf w)).2.1)]

/-- The field that FWT.AUTO loads. -/
def fwtLoads (w : Word) : List (Fld × Nat) := [(FWT.WAIT, (windowDefaults (codingOf w)).2.2.1)]

/-- The field that BITTOL.AUTO loads. -/
def bittolLoads (w : Word) : List (Fld × Nat) := [(BITTOL.TOL, (windowDefaults (codingOf w)).2.2.2)]

/-- The fields under an AUTO bit, loaded where it is set. -/
def State.autoLoad (s : State) (p : PortNum) (auto : Fld) (l : List (Fld × Nat)) : State :=
  if s.pget p auto = 1 then s.psets p l else s

/-- The receive defaults, loaded and staged where RXAUTO is set. -/
def State.rxLoad (s : State) (p : PortNum) (w : Word) : State :=
  if s.pget p RXCTL.RXAUTO = 1 then (s.psets p (rxLoads w)).stageRx p else s

theorem codingLoads_eq (s : State) (p : PortNum) (w : Word) :
    s.codingLoads p w = ((((s.rxLoad p w).autoLoad p FDT.AUTO (fdtLoads w)).autoLoad p FWT.AUTO (fwtLoads w)).autoLoad p
      BITTOL.AUTO (bittolLoads w)).pset p AFC.SEEDVALID 0 := rfl

theorem rxDefaults_lt (w : Word) : (rxDefaults w).1 < 8 ∧ (rxDefaults w).2.1 < 4 ∧ (rxDefaults w).2.2.1 < 8 ∧
    (rxDefaults w).2.2.2 < 8 := by
  unfold rxDefaults
  split
  · split <;> decide
  · decide
  · decide
  · split <;> decide

theorem windowDefaults_lt (c : Nat) : (windowDefaults c).1 < 2 ^ 18 ∧ (windowDefaults c).2.1 < 2 ∧
    (windowDefaults c).2.2.1 < 2 ^ 28 ∧ (windowDefaults c).2.2.2 < 16 := by
  unfold windowDefaults
  split <;> decide

theorem rxLoads_loadable (w : Word) : Loadable (rxLoads w) := by
  obtain ⟨hk, htaps, hrank, hset⟩ := rxDefaults_lt w
  refine ⟨?_, ?_⟩
  · simp only [rxLoads, List.forall_mem_cons, List.not_mem_nil, false_imp_iff, implies_true, and_true]
    exact ⟨⟨by decide, hk⟩, ⟨by decide, htaps⟩, ⟨by decide, hrank⟩, by decide, hset⟩
  · exact List.pairwise_map.1 (by decide : [DECIM.K, MEDIAN.TAPS, MEDIAN.RANK, FIRCTL.SET].Pairwise Fld.apart)

theorem fdtLoads_loadable (w : Word) : Loadable (fdtLoads w) := by
  obtain ⟨hmin, hgrid, -⟩ := windowDefaults_lt (codingOf w)
  refine ⟨?_, ?_⟩
  · simp only [fdtLoads, List.forall_mem_cons, List.not_mem_nil, false_imp_iff, implies_true, and_true]
    exact ⟨⟨by decide, hmin⟩, by decide, hgrid⟩
  · exact List.pairwise_map.1 (by decide : [FDT.MIN, FDT.GRID].Pairwise Fld.apart)

theorem loadable_singleton {f : Fld} {v : Nat} (h : f.fits) (hv : v < 2 ^ f.len) : Loadable [(f, v)] :=
  ⟨fun x hx => by rw [List.mem_singleton.1 hx]; exact ⟨h, hv⟩, List.pairwise_singleton _ _⟩

section
variable (s : State) (p : PortNum) (auto f : Fld) (l : List (Fld × Nat)) (w : Word)

theorem autoLoad_side : SettingsSide s (s.autoLoad p auto l) p := by
  unfold State.autoLoad
  split
  · exact psets_side s p l
  · exact SettingsSide.refl s p

theorem autoLoad_pget_ne (h : ∀ g ∈ l.map Prod.fst, g.fits ∧ f.apart g) : (s.autoLoad p auto l).pget p f = s.pget p f := by
  unfold State.autoLoad
  split
  · exact psets_pget_ne s p l f h
  · rfl

theorem autoLoad_pget_ne_single {g : Fld} (v : Nat) (hg : g.fits) (hf : f.apart g) :
    (s.autoLoad p auto [(g, v)]).pget p f = s.pget p f :=
  autoLoad_pget_ne s p auto f _ (List.forall_mem_singleton.2 ⟨hg, hf⟩)

variable {s auto f l} in
theorem autoLoad_pget (hauto : s.pget p auto = 1) (h : Loadable l) {v : Nat} (hx : (f, v) ∈ l) :
    (s.autoLoad p auto l).pget p f = v := by
  unfold State.autoLoad
  rw [if_pos hauto]
  exact psets_pget s p h hx

theorem rxLoad_side : SettingsSide s (s.rxLoad p w) p := by
  unfold State.rxLoad
  split
  · exact (psets_side s p _).trans (stageRx_side _ p)
  · exact SettingsSide.refl s p

theorem rxLoad_pget_ne (h : ∀ g ∈ (rxLoads w).map Prod.fst, g.fits ∧ f.apart g) : (s.rxLoad p w).pget p f = s.pget p f := by
  unfold State.rxLoad
  split
  · exact (stageRx_pget _ p f).trans (psets_pget_ne s p _ f h)
  · rfl

variable {s f} in
theorem rxLoad_pget (hauto : s.pget p RXCTL.RXAUTO = 1) {v : Nat} (hx : (f, v) ∈ rxLoads w) :
    (s.rxLoad p w).pget p f = v := by
  unfold State.rxLoad
  rw [if_pos hauto]
  exact (stageRx_pget _ p _).trans (psets_pget s p (rxLoads_loadable w) hx)

theorem codingLoads_side : SettingsSide s (s.codingLoads p w) p := by
  rw [codingLoads_eq]
  exact ((((rxLoad_side s p w).trans (autoLoad_side _ p _ _)).trans (autoLoad_side _ p _ _)).trans
    (autoLoad_side _ p _ _)).trans (pset_side _ p _ _)

/-- A field apart from what FWT.AUTO, BITTOL.AUTO and the AFC seed write is left by these. -/
theorem codingLoads_pget_of_apart (h : ∀ g ∈ [FWT.WAIT, BITTOL.TOL, AFC.SEEDVALID], g.fits ∧ f.apart g) :
    (s.codingLoads p w).pget p f = ((s.rxLoad p w).autoLoad p FDT.AUTO (fdtLoads w)).pget p f := by
  simp only [List.forall_mem_cons] at h
  obtain ⟨hwait, htol, hseed, -⟩ := h
  rw [codingLoads_eq, State.pget_pset_ne _ _ _ _ _ hseed.1 hseed.2,
    bittolLoads, autoLoad_pget_ne_single _ _ _ _ _ htol.1 htol.2, fwtLoads, autoLoad_pget_ne_single _ _ _ _ _ hwait.1 hwait.2]

variable {s} in
/-- Under RXAUTO the receive defaults of the coding are loaded. -/
theorem codingLoads_rx (hauto : s.pget p RXCTL.RXAUTO = 1) :
    (s.codingLoads p w).pget p DECIM.K = (rxDefaults w).1 ∧
      (s.codingLoads p w).pget p MEDIAN.TAPS = (rxDefaults w).2.1 ∧
      (s.codingLoads p w).pget p MEDIAN.RANK = (rxDefaults w).2.2.1 ∧
      (s.codingLoads p w).pget p FIRCTL.SET = (rxDefaults w).2.2.2 := by
  have hapart : ∀ f ∈ (rxLoads w).map Prod.fst, (∀ g ∈ [FWT.WAIT, BITTOL.TOL, AFC.SEEDVALID], g.fits ∧ f.apart g) ∧
      ∀ g ∈ (fdtLoads w).map Prod.fst, g.fits ∧ f.apart g := by
    show ∀ f ∈ [DECIM.K, MEDIAN.TAPS, MEDIAN.RANK, FIRCTL.SET], _ ∧ ∀ g ∈ [FDT.MIN, FDT.GRID], _
    decide
  have hload {f : Fld} {v : Nat} (hx : (f, v) ∈ rxLoads w) : (s.codingLoads p w).pget p f = v := by
    obtain ⟨hlater, hfdt⟩ := hapart f (List.mem_map_of_mem hx)
    rw [codingLoads_pget_of_apart _ _ _ _ hlater, autoLoad_pget_ne _ _ _ _ _ hfdt]
    exact rxLoad_pget p w hauto hx
  exact ⟨hload (.head _), hload (.tail _ (.head _)), hload (.tail _ (.tail _ (.head _))),
    hload (.tail _ (.tail _ (.tail _ (.head _))))⟩

variable {s} in
/-- Under FDT.AUTO the window's start and its grid are loaded. -/
theorem codingLoads_fdt (hauto : s.pget p FDT.AUTO = 1) :
    (s.codingLoads p w).pget p FDT.MIN = (windowDefaults (codingOf w)).1 ∧
      (s.codingLoads p w).pget p FDT.GRID = (windowDefaults (codingOf w)).2.1 := by
  have hrx : ∀ g ∈ [DECIM.K, MEDIAN.TAPS, MEDIAN.RANK, FIRCTL.SET], g.fits ∧ FDT.AUTO.apart g := by decide
  have hkept : (s.rxLoad p w).pget p FDT.AUTO = 1 := (rxLoad_pget_ne s p FDT.AUTO w hrx).trans hauto
  rw [codingLoads_pget_of_apart _ _ _ _ (by decide), codingLoads_pget_of_apart _ _ _ _ (by decide)]
  exact ⟨autoLoad_pget p hkept (fdtLoads_loadable w) (.head _), autoLoad_pget p hkept (fdtLoads_loadable w) (.tail _ (.head _))⟩

/-- A field apart from what the receive and window defaults write keeps its value through them. -/
theorem fdtLoad_pget_ne (h : ∀ g ∈ [DECIM.K, MEDIAN.TAPS, MEDIAN.RANK, FIRCTL.SET, FDT.MIN, FDT.GRID], g.fits ∧ f.apart g) :
    ((s.rxLoad p w).autoLoad p FDT.AUTO (fdtLoads w)).pget p f = s.pget p f := by
  obtain ⟨hrx, hfdt⟩ := (List.forall_mem_append (l₁ := (rxLoads w).map Prod.fst) (l₂ := (fdtLoads w).map Prod.fst)).1 h
  exact (autoLoad_pget_ne _ _ _ _ _ hfdt).trans (rxLoad_pget_ne _ _ _ _ hrx)

variable {s} in
/-- Under FWT.AUTO the waiting time is loaded. -/
theorem codingLoads_fwt (hauto : s.pget p FWT.AUTO = 1) :
    (s.codingLoads p w).pget p FWT.WAIT = (windowDefaults (codingOf w)).2.2.1 := by
  obtain ⟨-, -, hwait, -⟩ := windowDefaults_lt (codingOf w)
  rw [codingLoads_eq, State.pget_pset_ne _ _ _ _ _ (by decide) (by decide),
    bittolLoads, autoLoad_pget_ne_single _ _ _ _ _ (by decide) (by decide)]
  exact autoLoad_pget p ((fdtLoad_pget_ne s p FWT.AUTO w (by decide)).trans hauto) (loadable_singleton (by decide) hwait)
    List.mem_cons_self

variable {s} in
/-- Under BITTOL.AUTO the bit tolerance is loaded. -/
theorem codingLoads_bittol (hauto : s.pget p BITTOL.AUTO = 1) :
    (s.codingLoads p w).pget p BITTOL.TOL = (windowDefaults (codingOf w)).2.2.2 := by
  obtain ⟨-, -, -, htol⟩ := windowDefaults_lt (codingOf w)
  have hkept : (((s.rxLoad p w).autoLoad p FDT.AUTO (fdtLoads w)).autoLoad p FWT.AUTO (fwtLoads w)).pget p BITTOL.AUTO = 1 :=
    (autoLoad_pget_ne_single _ _ _ _ _ (by decide) (by decide)).trans
      ((fdtLoad_pget_ne s p BITTOL.AUTO w (by decide)).trans hauto)
  rw [codingLoads_eq, State.pget_pset_ne _ _ _ _ _ (by decide) (by decide)]
  exact autoLoad_pget p hkept (loadable_singleton (by decide) htol) List.mem_cons_self

theorem codingLoads_seed : (s.codingLoads p w).pget p AFC.SEEDVALID = 0 := by
  rw [codingLoads_eq]
  exact State.pget_pset _ p AFC.SEEDVALID 0 (by decide)

end

/-- FRMCTL as written is in force. -/
def State.frmTaken (s : State) (p : PortNum) : State :=
  s.modFramer p fun f => { f with frm := (s.port p).word FRMCTL.reg, frmPend := false }

section
variable {s : State} {p : PortNum}

theorem frmTaken_pget (f : Fld) : (s.frmTaken p).pget p f = s.pget p f := by
  simp [State.frmTaken, State.pget, Port.get]

theorem frmTaken_port_ne {q : PortNum} (h : q ≠ p) : (s.frmTaken p).port q = s.port q := State.modFramer_port_ne _ _ _ _ h

theorem applyFrm_same (h : codingKey ((s.port p).word FRMCTL.reg) = codingKey (s.port p).framer.frm) :
    s.applyFrm p = s.frmTaken p := if_pos h

theorem applyFrm_loads (h : codingKey ((s.port p).word FRMCTL.reg) ≠ codingKey (s.port p).framer.frm) :
    s.applyFrm p = (s.frmTaken p).codingLoads p ((s.port p).word FRMCTL.reg) := if_neg h

/-- A row that waits for an idle point does its work there. -/
theorem idleRow_works {b : Bool} {u : State} (hb : b = true) (hi : s.idleOrOff p = true) :
    (if b && s.idleOrOff p then u else s) = u := if_pos (by rw [hb, hi]; rfl)

/-- Without something that waits, or away from an idle point, such a row does nothing. -/
theorem idleRow_waits {b : Bool} {u : State} (h : b = false ∨ s.idleOrOff p = false) :
    (if b && s.idleOrOff p then u else s) = s := if_neg (by rcases h with h | h <;> simp [h])

end

/-! ## The AGC (R76, R77) -/

/-- The port with its Damper moved to step `n`, in force at once, and a new DC acquisition begun. -/
def State.damped (s : State) (p : PortNum) (n : Nat) : State :=
  ((s.pset p DAMPER.ATTEN n).pset p DCBLK.ACQ 1).modPort p fun q => { q with chain := { q.chain with
    inForce := Cells.put .port q.chain.inForce DAMPER.reg (q.word DAMPER.reg) } }

/-- The lower mark that the AGC uses, at least 6 below the upper one. -/
def State.agcLow (s : State) (p : PortNum) : Nat := max (s.pget p DAMPER.LO) (s.pget p DAMPER.HI + 6)

/-- The step that a window with this peak asks for. -/
def State.agcStep (s : State) (p : PortNum) (peak : Int) : Nat :=
  if -(4 * (s.pget p DAMPER.HI : Int)) < peak then min 15 (s.pget p DAMPER.ATTEN + 1)
  else if peak < -(4 * (s.agcLow p : Int)) then s.pget p DAMPER.ATTEN - 1
  else s.pget p DAMPER.ATTEN

section
variable {s : State} {p : PortNum} {peak : Int}

theorem agcWindow_idle (h : s.pon p DAMPER.AGC = false ∨ s.rxRuns p = false ∨ s.idlePoint p = false) :
    s.agcWindow p peak = s := if_neg (by rcases h with h | h | h <;> simp [h])

theorem agcWindow_runs (ha : s.pon p DAMPER.AGC = true) (hr : s.rxRuns p = true) (hi : s.idlePoint p = true)
    (hc : s.cplFrozen p = false) :
    s.agcWindow p peak = if s.agcStep p peak = s.pget p DAMPER.ATTEN then s else s.damped p (s.agcStep p peak) :=
  if_pos (by simp [ha, hr, hi, hc])

theorem agcStep_above (h : -(4 * (s.pget p DAMPER.HI : Int)) < peak) :
    s.agcStep p peak = min 15 (s.pget p DAMPER.ATTEN + 1) := if_pos h

theorem agcStep_below (h : peak < -(4 * (s.agcLow p : Int))) : s.agcStep p peak = s.pget p DAMPER.ATTEN - 1 := by
  have hmarks : s.pget p DAMPER.HI + 6 ≤ s.agcLow p := le_max_right _ _
  exact (if_neg (by omega)).trans (if_pos h)

theorem agcStep_between (hlo : -(4 * (s.agcLow p : Int)) ≤ peak) (hhi : peak ≤ -(4 * (s.pget p DAMPER.HI : Int))) :
    s.agcStep p peak = s.pget p DAMPER.ATTEN := (if_neg (by omega)).trans (if_neg (by omega))

end

/-! ## Overloads (R78) -/

section
variable {s : State} {p : PortNum}

/-- A frame is on the air: one of the window's that has begun, or a stray one. -/
def State.midFrame (s : State) (p : PortNum) : Bool :=
  ((s.port p).framer.win.map (·.start.isSome)).getD false || (s.port p).framer.stray

/-- The port after an overload: OVL set, and the frame on the air marked. -/
def State.overloaded (s : State) (p : PortNum) : State :=
  (s.pset p RXCTL.OVL 1).modPort p fun q => { q with chain := { q.chain with clipped := q.chain.clipped || s.midFrame p } }

theorem exec_adcOverload (hraised : s.raised = []) (hr : s.rxRuns p = true) : exec (.adcOverload p) s = .next (s.overloaded p) :=
  exec_to rfl (if_pos hr) hraised rfl

theorem overloaded_quiet (hw : (s.port p).framer.win = none) (hs : (s.port p).framer.stray = false) :
    s.overloaded p = s.pset p RXCTL.OVL 1 := by
  have hnone : s.midFrame p = false := by rw [State.midFrame, hw, hs]; rfl
  exact State.modPort_self _ p _ (by simp only [hnone, Bool.or_false])

theorem overloaded_marks {w : Window} {t : Nat} (hw : (s.port p).framer.win = some w) (ht : w.start = some t) :
    s.overloaded p = (s.pset p RXCTL.OVL 1).modPort p fun q => { q with chain := { q.chain with clipped := true } } := by
  have hframe : s.midFrame p = true := by simp [State.midFrame, hw, ht]
  unfold State.overloaded
  simp only [hframe, Bool.or_true]

/-! ## The noise floor (R92, R93) -/

theorem clampInt_eq_self {lo hi v : Int} (hlo : lo ≤ v) (hhi : v ≤ hi) : clampInt lo hi v = v :=
  (if_neg hlo.not_gt).trans (if_neg hhi.not_gt)

/-- The first window sets the floor. -/
theorem noiseResult_first {r : Int} (hlo : -1024 ≤ r) (hhi : r ≤ 1023) (h : s.pon p NOISE.VALID = false) :
    s.noiseResult p r = ((s.pset p NOISE.LEVEL (unsigned 11 r)).pset p NOISE.VALID 1).pset p NOISE.WINDOWS
      (min 65535 (s.pget p NOISE.WINDOWS + 1)) := by
  have hcount : ((s.pset p NOISE.LEVEL (unsigned 11 r)).pset p NOISE.VALID 1).pget p NOISE.WINDOWS =
      s.pget p NOISE.WINDOWS := by
    rw [State.pget_pset_ne _ _ _ _ _ (by decide) (by decide), State.pget_pset_ne _ _ _ _ _ (by decide) (by decide)]
  unfold State.noiseResult
  simp only [h, Bool.false_eq_true, if_false, clampInt_eq_self hlo hhi, hcount]

end

end Sys2Proof.Machine

open Sys2Proof Sys2Proof.Machine

/-- Settles O23, by what an idle point puts in force, what a change of coding loads and what each end of a window sets. -/
theorem receiveSettingsAndMeasurementsMoveTheirRegisters :
    Obligations.ReceiveSettingsAndMeasurementsMoveTheirRegisters := by
  unfold Obligations.ReceiveSettingsAndMeasurementsMoveTheirRegisters
  refine ⟨fun s p hraised => ?settings, fun s p hraised => ?measured⟩
  case settings =>
    refine ⟨fun hp hi => ⟨fun hk => ?same, fun hk => ?loads⟩, fun h => ?frmWaits, fun hp hi => ?receive, fun h => ?rxWaits⟩
    case same => exact exec_to rfl ((idleRow_works hp hi).trans (applyFrm_same hk)) hraised rfl
    case loads =>
      have hside := codingLoads_side (s.frmTaken p) p ((s.port p).word FRMCTL.reg)
      have hrest := ports_trans hside.rest (rfl : s.frmTaken p = { s with ports := (s.frmTaken p).ports })
      have hauto {f : Fld} (h : s.pget p f = 1) : (s.frmTaken p).pget p f = 1 := (frmTaken_pget f).trans h
      exact ⟨_, exec_to rfl ((idleRow_works hp hi).trans (applyFrm_loads hk)) (by rw [hrest]; exact hraised) (by rw [hrest]),
        hrest, fun q hq => (hside.others q hq).trans (frmTaken_port_ne hq), hside.framer,
        fun h => codingLoads_rx p _ (hauto h), fun h => codingLoads_fdt p _ (hauto h), fun h => codingLoads_fwt p _ (hauto h),
        fun h => codingLoads_bittol p _ (hauto h), codingLoads_seed _ p _⟩
    case frmWaits => exact exec_to rfl (idleRow_waits h) hraised rfl
    case receive =>
      exact ⟨_, exec_to rfl (idleRow_works hp hi) hraised rfl, rfl, fun q hq => applyRx_port_ne s p hq, applyRx_port s p,
        fun o ho => applyRx_inForce s p ho⟩
    case rxWaits => exact exec_to rfl (idleRow_waits h) hraised rfl
  case measured =>
    refine ⟨fun peak ha hr hi hc => ?agc, fun peak h => ?agcIdle, fun hr hw hs => ?overload, fun w t hr hw ht => ?marked,
      fun h => ?acquired, fun h => ?frozen, fun r hlo hhi hr hi hf ha hv => ?floor, fun r => ?noisy, fun h => ?restart⟩
    case agc =>
      have hkeeps (h : s.agcStep p peak = s.pget p DAMPER.ATTEN) : exec (.agcWindowEnd p peak) s = .next s :=
        exec_to rfl ((agcWindow_runs ha hr hi hc).trans (if_pos h)) hraised rfl
      have hmoves {n : Nat} (h : s.agcStep p peak = n) (hn : n ≠ s.pget p DAMPER.ATTEN) :
          exec (.agcWindowEnd p peak) s = .next (s.damped p n) := by
        subst h
        exact exec_to rfl ((agcWindow_runs ha hr hi hc).trans (if_neg hn)) hraised rfl
      refine ⟨fun h h15 => ?_, fun h h15 => ?_, fun h h0 => ?_, fun h h0 => ?_, fun hl hh => ?_⟩
      · exact hmoves ((agcStep_above h).trans (min_eq_right h15)) (Nat.succ_ne_self _)
      · exact hkeeps ((agcStep_above h).trans (by rw [h15]; rfl))
      · exact hmoves (agcStep_below h) (Nat.sub_one_lt h0.ne').ne
      · exact hkeeps ((agcStep_below h).trans (by rw [h0]))
      · exact hkeeps (agcStep_between hl hh)
    case agcIdle => exact exec_to rfl (agcWindow_idle h) hraised rfl
    case overload => exact (exec_adcOverload hraised hr).trans (congrArg _ (overloaded_quiet hw hs))
    case marked => exact (exec_adcOverload hraised hr).trans (congrArg _ (overloaded_marks hw ht))
    case acquired => exact exec_to rfl (if_neg (by rw [h]; decide)) hraised rfl
    case frozen => exact exec_to rfl (if_pos h) hraised rfl
    case floor =>
      exact exec_to rfl ((if_pos (by simp [hr, hi, hf, ha])).trans (noiseResult_first hlo hhi hv)) hraised rfl
    case noisy => exact exec_to rfl (if_neg Bool.false_ne_true) hraised rfl
    case restart => exact exec_to rfl (if_pos h) hraised rfl
end

section
/-! PROOF. Response windows: what opens and closes them, the starts and ends of replies, results and violations
(R107-R119, R123, R129-R131, R152-R154, R443). -/

namespace Sys2Proof.Machine

/-! ## The framer's requests and the rows that end with them (R415, R600) -/

/-- The framer takes no packet away: none is requested, or a frame or a window stands before it. -/
def Framer.Waits (f : Framer) : Prop := f.reqs = 0 ∨ f.win ≠ none ∨ f.tx ≠ none

theorem framerAdvance_waits {s : State} {p : PortNum} (h : (s.port p).framer.Waits) : s.framerAdvance p = s := by
  unfold State.framerAdvance
  cases hn : (s.port p).framer.reqs with
  | zero => rfl
  | succ n =>
    have hair : (s.port p).framer.tx ≠ none ∨ (s.port p).framer.win ≠ none := by
      rcases h with h | h | h
      · rw [hn] at h; cases h
      · exact .inr h
      · exact .inl h
    refine if_pos ?_
    simpa [Option.isSome_iff_ne_none, hn] using hair

/-- A row that ends with the work of the framer and of the idle point, where its effect leaves the framer waiting. -/
theorem exec_framer {i : Instr} {f : State → State} {s u : State} {p : PortNum}
    (e : exec i = run fun s => ((f s).framerAdvance p).idleWork p) (h : f s = u) (hw : (u.port p).framer.Waits)
    (hr : u.raised = []) (hp : u.pending = s.pending) : exec i s = .next (u.idleWork p) := by
  obtain ⟨hr', hp', -⟩ := idleWork_parts u p
  refine exec_to e ?_ (hr'.trans hr) (hp'.trans hp)
  rw [h, framerAdvance_waits hw]

section
variable (s : State) (p : PortNum)

theorem State.modFramer_congr {f g : Framer → Framer} (h : f (s.port p).framer = g (s.port p).framer) :
    s.modFramer p f = s.modFramer p g :=
  congrArg (fun x : Framer => s.setPort p { s.port p with framer := x }) h

@[simp] theorem State.pget_modFramer (g : Framer → Framer) (f : Fld) : (s.modFramer p g).pget p f = s.pget p f := by
  simp [State.pget, Port.get]

@[simp] theorem State.pset_framer (f : Fld) (v : Nat) : ((s.pset p f v).port p).framer = (s.port p).framer := by
  simp [Port.set]

/-! ## Results (R443) -/

theorem putResult_room {w : Word} (h : (s.port p).framer.results.length < 4) :
    s.putResult p w = s.modFramer p fun f => { f with results := f.results ++ [w] } := if_pos h

theorem putResult_full {w : Word} (h : (s.port p).framer.results.length = 4) : s.putResult p w =
    (s.modFramer p fun f => { f with results := f.results.drop 1 ++ [w] }).modEng p fun e => { e with esw := e.esw ||| 0x80 } :=
  if_neg (by rw [h]; decide)

theorem putResult_parts (w : Word) : (s.putResult p w).raised = s.raised ∧ (s.putResult p w).pending = s.pending := by
  unfold State.putResult
  dsimp only
  split <;> exact ⟨rfl, rfl⟩

theorem putResult_framer (w : Word) : ∃ l, ((s.putResult p w).port p).framer = { (s.port p).framer with results := l } := by
  unfold State.putResult
  dsimp only
  split
  · exact ⟨_, by rw [State.modFramer_port]⟩
  · exact ⟨_, by rw [State.modEng_port, State.modFramer_port]⟩

theorem putResult_full_rqovf {w : Word} (h : (s.port p).framer.results.length = 4) :
    ((s.putResult p w).port p).framer.results = (s.port p).framer.results.drop 1 ++ [w] ∧
      (s.putResult p w).eswBit p 7 = true := by
  rw [putResult_full s p h]
  refine ⟨by rw [State.modEng_port, State.modFramer_port], ?_⟩
  unfold State.eswBit State.eng
  rw [State.modEng_port, BitVec.getLsbD_or]
  exact Bool.or_true _

variable {s p} in
theorem Framer.Waits.putResult {w : Word} (h : (s.port p).framer.Waits) : ((s.putResult p w).port p).framer.Waits := by
  obtain ⟨l, e⟩ := putResult_framer s p w
  rw [e]
  exact h

variable {s p} in
/-- A row that ends with a result for the framer's queue. -/
theorem exec_result {i : Instr} {f : State → State} {t u : State} {w : Word}
    (e : exec i = run fun s => ((f s).framerAdvance p).idleWork p) (h : f t = u.putResult p w) (hw : (u.port p).framer.Waits)
    (hr : u.raised = []) (hp : u.pending = t.pending) : exec i t = .next ((u.putResult p w).idleWork p) := by
  obtain ⟨hr', hp'⟩ := putResult_parts u p w
  exact exec_framer e h hw.putResult (hr'.trans hr) (hp'.trans hp)

/-! ## A window closes (R109, R112, R115, R152) -/

/-- The framer with its window closed: the first of two windows is followed by the second, any other by the guard. -/
def Framer.closed (f : Framer) (w : Window) (time : Nat) (ok : Bool) : Framer :=
  if w.haltNext = true ∧ w.second = false then
    { f with waitSum := f.waitSum + time
             win := some { w with second := true, opened := false, firstOk := ok, viol := false, start := none
                                  min := 1472, wait := 1504, grid := false } }
  else { f with waitSum := f.waitSum + time, win := none, guard := true, reserved := f.reserved && ok }

theorem closeWindow_eq {w : Window} (h : (s.port p).framer.win = some w) (time : Nat) (ok : Bool) :
    s.closeWindow p time ok = s.modFramer p fun f => f.closed w time ok := by
  refine State.modFramer_congr s p ?_
  simp [h, Framer.closed]

theorem Framer.closed_reqs (f : Framer) (w : Window) (time : Nat) (ok : Bool) : (f.closed w time ok).reqs = f.reqs := by
  unfold Framer.closed
  split <;> rfl

/-- A closed window leaves the framer waiting where no packet is requested or a second window follows. -/
theorem closed_waits {f : Framer} {w : Window} (h : f.reqs = 0 ∨ w.haltNext = true ∧ w.second = false) (time : Nat)
    (ok : Bool) : (f.closed w time ok).Waits := by
  rcases h with h | h
  · exact .inl ((f.closed_reqs w time ok).trans h)
  · refine .inr (.inl ?_)
    unfold Framer.closed
    rw [if_pos h]
    exact Option.some_ne_none _

theorem closeWindow_parts (time : Nat) (ok : Bool) : (s.closeWindow p time ok).raised = s.raised ∧
    (s.closeWindow p time ok).pending = s.pending := ⟨rfl, rfl⟩

theorem closeWindow_waits {w : Window} (hw : (s.port p).framer.win = some w)
    (h : (s.port p).framer.reqs = 0 ∨ w.haltNext = true ∧ w.second = false) (time : Nat) (ok : Bool) :
    ((s.closeWindow p time ok).port p).framer.Waits := by
  rw [closeWindow_eq s p hw, State.modFramer_port]
  exact closed_waits h time ok

/-! ## Violations (R123, R129) -/

theorem violFld_fits (c : Nat) : (violFld c).fits ∧ (violFld c).len = 8 ∧ (violFld c).off ≠ FRMSTAT.reg := by
  unfold violFld
  split <;> decide

/-- The framer with a violation counted in its window. -/
def Framer.violated (f : Framer) : Framer := { f with win := f.win.map fun w => { w with viol := true } }

theorem violation_framer (c : Nat) : ((s.violation p c).port p).framer = (s.port p).framer.violated := by
  simp [State.violation, Framer.violated, Port.set]

theorem violation_parts (c : Nat) : (s.violation p c).raised = s.raised ∧ (s.violation p c).pending = s.pending :=
  ⟨rfl, rfl⟩

theorem violation_port_ne (c : Nat) {q : PortNum} (h : q ≠ p) : (s.violation p c).port q = s.port q := by
  simp [State.violation, h]

/-- A field of FRMSTAT holds after a violation what DISCARD and VCLASS left of it. -/
theorem violation_pget_frmstat (c : Nat) {f : Fld} (h : f.off = FRMSTAT.reg) :
    (s.violation p c).pget p f = ((s.pset p FRMSTAT.DISCARD 1).pset p FRMSTAT.VCLASS c).pget p f := by
  obtain ⟨hfits, -, hoff⟩ := violFld_fits c
  unfold State.violation
  rw [State.pget_modFramer, State.pget_pset_ne _ _ _ _ _ hfits (.inl (by rw [h]; exact hoff.symm))]

theorem violation_discard (c : Nat) : (s.violation p c).pget p FRMSTAT.DISCARD = 1 := by
  rw [violation_pget_frmstat s p c rfl, State.pget_pset_ne _ _ _ _ _ (by decide) (by decide), State.pget_pset _ _ _ _ (by decide)]
  rfl

theorem violation_vclass {c : Nat} (h : c < 8) : (s.violation p c).pget p FRMSTAT.VCLASS = c := by
  rw [violation_pget_frmstat s p c rfl, State.pget_pset _ _ _ _ (by decide)]
  exact Nat.mod_eq_of_lt h

theorem violation_count (c : Nat) :
    (s.violation p c).pget p (violFld c) = min 255 (s.pget p (violFld c) + 1) := by
  obtain ⟨hfits, hlen, hoff⟩ := violFld_fits c
  unfold State.violation
  rw [State.pget_modFramer, State.pget_pset _ _ _ _ hfits, State.pget_pset_ne _ _ _ _ _ (by decide) (.inl hoff),
    State.pget_pset_ne _ _ _ _ _ (by decide) (.inl hoff), hlen]
  exact Nat.mod_eq_of_lt (by omega)

theorem violation_word_ne (c : Nat) {o : Nat} (h : o ≠ FRMSTAT.reg) (hc : o ≠ (violFld c).off) :
    ((s.violation p c).port p).word o = (s.port p).word o := by
  unfold State.violation
  rw [State.modFramer_port]
  exact (State.word_pset_ne _ _ _ _ _ hc).trans ((State.word_pset_ne _ _ _ _ _ h).trans (State.word_pset_ne _ _ _ _ _ h))

/-- Both words of the class counters are read and cleared (R131). -/
theorem violRead_both : ((s.violRead p VIOLCNT.reg).2.violRead p VIOLCNT1.reg).2 =
    s.modPort p fun q => (q.putWord VIOLCNT.reg 0).putWord VIOLCNT1.reg 0 :=
  State.modPort_modPort s p (fun q => q.putWord VIOLCNT.reg 0) fun q => q.putWord VIOLCNT1.reg 0

end

/-! ## Starts of replies (R109-R111) -/

section
variable {s : State} {p : PortNum} {w : Window} {t : Nat}

/-- Off the grid of ISO/IEC 14443-3 type A, a start is in time between MIN and WAIT. -/
theorem Window.inTime_free (h : codingOf w.frm ≠ 0 ∨ w.grid = false) (ht : t ≤ w.wait) :
    w.inTime t = true ↔ w.min ≤ t := by
  have hgrid : ¬(codingOf w.frm = 0 ∧ w.grid = true) := by
    rintro ⟨h0, hg⟩
    rcases h with h | h
    · exact h h0
    · rw [hg] at h; cases h
  simp [Window.inTime, ht, hgrid]

/-- A grid point at least the ninth lies within 8 cycles of a start exactly where the model's remainder says so. -/
theorem grid_iff (base t : Nat) : (9 * 128 + base ≤ t + 8 ∧ (t + 8 - base) % 128 ≤ 16) ↔
    ∃ n, 9 ≤ n ∧ 128 * n + base ≤ t + 8 ∧ t ≤ 128 * n + base + 8 := by
  constructor
  · rintro ⟨h9, hmod⟩
    exact ⟨(t + 8 - base) / 128, by omega, by omega, by omega⟩
  · rintro ⟨n, h9, hlo, hhi⟩
    omega

theorem Window.inTime_grid (h0 : codingOf w.frm = 0) (hg : w.grid = true) (ht : t ≤ w.wait) :
    w.inTime t = true ↔ ∃ n, 9 ≤ n ∧ 128 * n + (if w.lastOne then 84 else 20) ≤ t + 8 ∧
      t ≤ 128 * n + (if w.lastOne then 84 else 20) + 8 := by
  rw [← grid_iff]
  simp [Window.inTime, ht, h0, hg]

/-- A window that may take a start: open, without one, its receiver running and no stray reply in progress. -/
structure Listens (s : State) (p : PortNum) (w : Window) : Prop where
  win : (s.port p).framer.win = some w
  opened : w.opened = true
  start : w.start = none
  stray : (s.port p).framer.stray = false
  runs : s.rxRuns p = true

theorem replyStart_late (h : Listens s p w) (ht : w.wait < t) : s.replyStart p t = s := by
  unfold State.replyStart
  simp only [h.win]
  exact if_neg (by simp [ht])

theorem replyStart_listens (h : Listens s p w) (ht : t ≤ w.wait) : s.replyStart p t =
    if w.inTime t then s.modFramer p fun f => { f with win := some { w with start := some t } }
    else (s.violation p 0).modFramer p fun f => { f with stray := true } := by
  unfold State.replyStart
  simp only [h.win]
  exact if_pos (by simp [ht, h.opened, h.start, h.stray, h.runs])

theorem exec_replyStart_taken (hr : s.raised = []) (h : Listens s p w) (ht : t ≤ w.wait) (hin : w.inTime t = true) :
    exec (.replyStart p t) s = .next (s.modFramer p fun f => { f with win := some { w with start := some t } }) :=
  exec_to rfl ((replyStart_listens h ht).trans (if_pos hin)) hr rfl

theorem exec_replyStart_early (hr : s.raised = []) (h : Listens s p w) (ht : t ≤ w.wait) (hin : ¬w.inTime t = true) :
    exec (.replyStart p t) s = .next ((s.violation p 0).modFramer p fun f => { f with stray := true }) :=
  exec_to rfl ((replyStart_listens h ht).trans (if_neg hin)) hr rfl

/-! ## Windows that end without a reply (R109, R115, R120) -/

theorem waitOver_closes (hw : (s.port p).framer.win = some w) (ho : w.opened = true) (hs : w.start = none) :
    s.waitOver p = ((s.pset p FRMSTAT.TIMEOUT 1).closeWindow p (w.wait - (if w.second then 1472 else 0)) false).putResult p
      (resultWord 2 false 0 false 0 (s.pget p FRMSTAT.VCLASS) w.viol false w.second) := by
  have hclass : (s.pset p FRMSTAT.TIMEOUT 1).pget p FRMSTAT.VCLASS = s.pget p FRMSTAT.VCLASS :=
    State.pget_pset_ne _ _ _ _ _ (by decide) (by decide)
  unfold State.waitOver
  simp only [hw]
  rw [if_pos (by simp [ho, hs]), hclass]

/-- Marked as the second one, a window closes into the guard, and no reservation outlives it. -/
theorem close_as_second (u : State) (hw : (u.port p).framer.win = some w) :
    (u.modFramer p fun f => { f with win := f.win.map fun w => { w with second := true } }).closeWindow p 0 false =
      u.modFramer p fun f => { f with win := none, guard := true, reserved := false } := by
  rw [closeWindow_eq _ p (w := { w with second := true }) (by simp [hw])]
  unfold State.modFramer
  rw [State.modPort_modPort]
  simp [Framer.closed]

theorem waitLimit_closes (hw : (s.port p).framer.win = some w) (ho : w.opened = true) (hs : w.start = none) :
    s.waitLimit p = ((((s.pset p FRMSTAT.TIMEOUT 1).pset p FRMSTAT.WLIM 1).violation p 7).modFramer p
      fun f => { f with win := none, guard := true, reserved := false }).putResult p
        (resultWord 2 false 0 false 0 7 true true w.second) := by
  have hviol : ((((s.pset p FRMSTAT.TIMEOUT 1).pset p FRMSTAT.WLIM 1).violation p 7).port p).framer.win =
      some { w with viol := true } := by
    rw [violation_framer, State.pset_framer, State.pset_framer]
    simp [Framer.violated, hw]
  unfold State.waitLimit
  simp only [hw]
  rw [if_pos (by simp [ho, hs]), close_as_second _ hviol]

end

theorem Window.opened_if_second (w : Window) :
    (if w.second then { w with opened := true } else w) = { w with opened := w.opened || w.second } := by
  by_cases h : w.second = true
  · rw [if_pos h, h, Bool.or_true]
  · have hkept : (w.opened || w.second) = w.opened := by simp [h]
    rw [if_neg h, hkept]

/-! ## What a frame's measurement leaves (R88-R90, R95-R99) -/

/-- Of the state, only registers of port `p` and its receive chain differ. -/
def ChainSide (s t : State) (p : PortNum) : Prop := ∃ r c, t = s.setPort p { s.port p with regs := r, chain := c }

section
variable {s t u : State} {p : PortNum}

theorem ChainSide.refl (s : State) (p : PortNum) : ChainSide s s p :=
  ⟨_, _, (State.setPort_self s p).symm⟩

theorem ChainSide.pset (h : ChainSide s t p) (f : Fld) (v : Nat) : ChainSide s (t.pset p f v) p := by
  obtain ⟨r, c, rfl⟩ := h
  exact ⟨Cells.set .port r f v, c, by simp [State.pset, State.modPort, Port.set]⟩

theorem ChainSide.modChain (h : ChainSide s t p) (g : RxChain → RxChain) :
    ChainSide s (t.modPort p fun q => { q with chain := g q.chain }) p := by
  obtain ⟨r, c, rfl⟩ := h
  exact ⟨r, g c, by simp [State.modPort]⟩

theorem ChainSide.framer (h : ChainSide s t p) : (t.port p).framer = (s.port p).framer := by
  obtain ⟨r, c, rfl⟩ := h
  rw [State.setPort_port]

theorem ChainSide.fifo (h : ChainSide s t p) (d : Dir) : t.fifo p d = s.fifo p d := by
  obtain ⟨r, c, rfl⟩ := h
  unfold State.fifo
  rw [State.setPort_port]
  cases d <;> rfl

theorem ChainSide.parts (h : ChainSide s t p) : t.raised = s.raised ∧ t.pending = s.pending := by
  obtain ⟨r, c, rfl⟩ := h
  exact ⟨rfl, rfl⟩

theorem quality_side (s : State) (p : PortNum) (w : Word) (rx : RxFrame) : ChainSide s (s.quality p w rx) p := by
  unfold State.quality
  extract_lets afc est lim afcSet ant afcDone n eye seq floor sig lvl eyeSet marked levels numbered
  have hafc : ChainSide s afcDone p := by
    unfold afcDone
    split
    · exact ((((ChainSide.refl s p).pset _ _).pset _ _).pset _ _).modChain
        fun c => { c with seedAnt := ant, seedCod := codingOf w }
    · exact ChainSide.refl s p
  have heye : ChainSide s eyeSet p := ((hafc.pset _ _).pset _ _).pset _ _
  have hmarked : ChainSide s marked p := ((heye.pset _ _).pset _ _).pset _ _
  have hlevels : ChainSide s levels p := (hmarked.pset _ _).pset _ _
  have hnumbered : ChainSide s numbered p := ((hlevels.pset _ _).pset _ _).pset _ _
  exact hnumbered.modChain fun c => { c with clipped := false }

end

/-! ## The end of a reply (R107, R118, R119, R123, R130, R153) -/

/-- A reply in progress in a window: it started at `start`, its frame ends, and no further packet is requested. -/
structure ReplyOn (s : State) (p : PortNum) (w : Window) (start : Nat) : Prop where
  stray : (s.port p).framer.stray = false
  win : (s.port p).framer.win = some w
  start : w.start = some start
  reqs : (s.port p).framer.reqs = 0

/-- The RX FIFO after a reply, with the registers that tell of it. -/
def State.replied (u : State) (p : PortNum) (w : Window) (rx : RxFrame) : State :=
  (((State.pushPacket p .rx (if wget w.frm 12 1 = 1 then rx.bytes.take (rx.bytes.length - 2) else rx.bytes) u).pset p
    FRMSTAT.RXDONE 1).pset p FRMSTAT.COLL 0).pset p FRMSTAT.RXBITS rx.lastBits.val

section
variable {s : State} {p : PortNum} {w : Window} {start : Nat} {rx : RxFrame}

theorem receiveEnd_reply (h : ReplyOn s p w start) : s.receiveEnd p rx = s.replyEnd p w start rx := by
  unfold State.receiveEnd
  simp only [h.stray, h.win, h.start, Bool.false_eq_true, if_false]

theorem replyEnd_discard {c : Nat} (hv : (s.quality p w.frm rx).judge p w.frm rx = .discard c) :
    s.replyEnd p w start rx = (((s.quality p w.frm rx).violation p c).closeWindow p (start + rx.dur) false).putResult p
      (resultWord 3 false 0 (s.port p).chain.clipped 0 c true false w.second) := by
  unfold State.replyEnd
  simp only [hv]

theorem replyEnd_disturbance (hv : (s.quality p w.frm rx).judge p w.frm rx = .disturbance) :
    s.replyEnd p w start rx =
      (s.quality p w.frm rx).modFramer p fun f => { f with win := some { w with start := none } } := by
  unfold State.replyEnd
  simp only [hv]

/-- The framer with its window moved by an extension of `m` base windows. -/
def Framer.extended (f : Framer) (w : Window) (time m : Nat) : Framer :=
  { f with
    waitSum := f.waitSum + time
    win := some { w with min := 336, wait := m * w.base, grid := false, exts := w.exts + 1
                         extSum := w.extSum + m * w.base, start := none } }

theorem replyEnd_extension {m : Nat} (hv : (s.quality p w.frm rx).judge p w.frm rx = .accept) (hm : w.extension rx = some m) :
    s.replyEnd p w start rx = (s.quality p w.frm rx).modFramer p fun f => f.extended w (start + rx.dur) m := by
  unfold State.replyEnd
  simp only [hv, hm]
  rfl

theorem dbAccepted_other {u : State} (h : w.dbBegin = false) (data : List Byte) : u.dbAccepted p w data = u := by
  unfold State.dbAccepted
  rw [h]
  rfl

theorem replied_side {u : State} (h : (u.fifo p .rx).sound) : ((u.replied p w rx).port p).framer = (u.port p).framer ∧
    (u.replied p w rx).raised = u.raised ∧ (u.replied p w rx).pending = u.pending := by
  have hside := pushPacket_side p .rx (if wget w.frm 12 1 = 1 then rx.bytes.take (rx.bytes.length - 2) else rx.bytes) u h
  obtain ⟨g, r, e⟩ := hside.own
  unfold State.replied
  rw [State.pset_framer, State.pset_framer, State.pset_framer, e]
  refine ⟨rfl, ?_, ?_⟩
  · rw [State.pset_raised, State.pset_raised, State.pset_raised, hside.rest]
  · rw [State.pset_pending, State.pset_pending, State.pset_pending, hside.rest]

theorem replyEnd_reply (hv : (s.quality p w.frm rx).judge p w.frm rx = .accept) (hm : w.extension rx = none)
    (hc : collides w.frm rx = false) (hd : w.dbBegin = false)
    (hwin : (((s.quality p w.frm rx).replied p w rx).port p).framer.win = some w) :
    s.replyEnd p w start rx =
      (((s.quality p w.frm rx).replied p w rx).closeWindow p (start + rx.dur) true).putResult p
        (resultWord 1 false rx.lastBits.val (s.port p).chain.clipped
          (((s.quality p w.frm rx).replied p w rx).pget p FRMSTAT.COLLPOS)
          (((s.quality p w.frm rx).replied p w rx).pget p FRMSTAT.VCLASS) w.viol false w.second) := by
  unfold State.replied at hwin
  unfold State.replyEnd State.replied
  simp only [hv, hm, hc, dbAccepted_other hd, Bool.false_eq_true, if_false, bit, hwin, Option.map_some, Option.getD_some]

end

section
variable {s : State} {p : PortNum} {w : Window} {start : Nat} {rx : RxFrame} (hr : s.raised = []) (h : ReplyOn s p w start)
include hr h

theorem exec_frameReceiveEnd_discard {c : Nat} (hv : (s.quality p w.frm rx).judge p w.frm rx = .discard c) :
    exec (.frameReceiveEnd p rx) s =
      .next (((((s.quality p w.frm rx).violation p c).closeWindow p (start + rx.dur) false).putResult p
        (resultWord 3 false 0 (s.port p).chain.clipped 0 c true false w.second)).idleWork p) := by
  have hside := quality_side s p w.frm rx
  obtain ⟨hr', hp⟩ := hside.parts
  have hviol := (violation_framer (s.quality p w.frm rx) p c).trans (congrArg Framer.violated hside.framer)
  refine exec_result rfl ((receiveEnd_reply h).trans (replyEnd_discard hv))
    (closeWindow_waits _ p (w := { w with viol := true }) ?_ (.inl ?_) _ _)
    ((closeWindow_parts ..).1.trans ((violation_parts ..).1.trans (hr'.trans hr)))
    ((closeWindow_parts ..).2.trans ((violation_parts ..).2.trans hp))
  · rw [hviol, Framer.violated, h.win]; rfl
  · rw [hviol]; exact h.reqs

theorem exec_frameReceiveEnd_disturbance (hv : (s.quality p w.frm rx).judge p w.frm rx = .disturbance) :
    exec (.frameReceiveEnd p rx) s =
      .next (((s.quality p w.frm rx).modFramer p fun f => { f with win := some { w with start := none } }).idleWork p) := by
  obtain ⟨hr', hp⟩ := (quality_side s p w.frm rx).parts
  refine exec_framer rfl ((receiveEnd_reply h).trans (replyEnd_disturbance hv)) (.inr (.inl ?_))
    ((State.modFramer_raised ..).trans (hr'.trans hr)) ((State.modFramer_pending ..).trans hp)
  rw [State.modFramer_port]
  exact Option.some_ne_none _

theorem exec_frameReceiveEnd_extension {m : Nat} (hv : (s.quality p w.frm rx).judge p w.frm rx = .accept)
    (hm : w.extension rx = some m) : exec (.frameReceiveEnd p rx) s =
      .next (((s.quality p w.frm rx).modFramer p fun f => f.extended w (start + rx.dur) m).idleWork p) := by
  obtain ⟨hr', hp⟩ := (quality_side s p w.frm rx).parts
  refine exec_framer rfl ((receiveEnd_reply h).trans (replyEnd_extension hv hm)) (.inr (.inl ?_))
    ((State.modFramer_raised ..).trans (hr'.trans hr)) ((State.modFramer_pending ..).trans hp)
  rw [State.modFramer_port]
  exact Option.some_ne_none _

theorem exec_frameReceiveEnd_reply (hv : (s.quality p w.frm rx).judge p w.frm rx = .accept) (hm : w.extension rx = none)
    (hc : collides w.frm rx = false) (hd : w.dbBegin = false) (hs : (s.fifo p .rx).sound) :
    let x := (s.quality p w.frm rx).replied p w rx
    exec (.frameReceiveEnd p rx) s = .next (((x.closeWindow p (start + rx.dur) true).putResult p
      (resultWord 1 false rx.lastBits.val (s.port p).chain.clipped (x.pget p FRMSTAT.COLLPOS) (x.pget p FRMSTAT.VCLASS)
        w.viol false w.second)).idleWork p) := by
  intro x
  have hside := quality_side s p w.frm rx
  obtain ⟨hr', hp⟩ := hside.parts
  have hsound : ((s.quality p w.frm rx).fifo p .rx).sound := by rw [hside.fifo]; exact hs
  obtain ⟨hxf, hxr, hxp⟩ := replied_side (w := w) (rx := rx) hsound
  have hwin : (x.port p).framer.win = some w := by rw [hxf, hside.framer]; exact h.win
  have hreqs : (x.port p).framer.reqs = 0 := by rw [hxf, hside.framer]; exact h.reqs
  exact exec_result rfl ((receiveEnd_reply h).trans (replyEnd_reply hv hm hc hd hwin))
    (closeWindow_waits _ p hwin (.inl hreqs) _ _)
    ((closeWindow_parts ..).1.trans (hxr.trans (hr'.trans hr))) ((closeWindow_parts ..).2.trans (hxp.trans hp))

end

end Sys2Proof.Machine

open Sys2Proof Sys2Proof.Machine

/-- Settles O25, by what opens a window, what a start, an expiry and the end of a frame do to it, and what it leaves. -/
theorem windowsTimeTheRepliesThatFramesBring : Obligations.WindowsTimeTheRepliesThatFramesBring := by
  unfold Obligations.WindowsTimeTheRepliesThatFramesBring
  refine ⟨fun s p hraised => ?windows, fun s p hraised => ?replies⟩
  case windows =>
    refine ⟨fun x hx => ?opens, fun hx => ?nothingSent, fun w t hw ho hs hstray hruns => ?starts, fun w hw ho hs hq => ?timeout,
      fun w hw ho hs hq => ?limit, fun w time ok hw => closeWindow_eq s p hw time ok,
      fun r => ⟨putResult_room s p, putResult_full_rqovf s p⟩, ?second, exec_to rfl rfl hraised rfl⟩
    case opens => exact exec_to rfl (by rw [hx]; rfl) hraised rfl
    case nothingSent => exact exec_to rfl (by rw [hx]) hraised rfl
    case starts =>
      have hl : Listens s p w := ⟨hw, ho, hs, hstray, hruns⟩
      refine ⟨fun ht => exec_to rfl (replyStart_late hl ht) hraised rfl, fun hfree ht => ⟨fun hmin => ?_, fun hmin => ?_⟩,
        fun h0 hg ht => ⟨fun hn => ?_, fun hn => ?_⟩⟩
      · exact exec_replyStart_taken hraised hl ht ((Window.inTime_free hfree ht).2 hmin)
      · exact exec_replyStart_early hraised hl ht fun hin => Nat.not_lt.2 ((Window.inTime_free hfree ht).1 hin) hmin
      · exact exec_replyStart_taken hraised hl ht ((Window.inTime_grid h0 hg ht).2 hn)
      · exact exec_replyStart_early hraised hl ht fun hin => hn ((Window.inTime_grid h0 hg ht).1 hin)
    case timeout =>
      refine exec_result rfl (waitOver_closes hw ho hs) (closeWindow_waits _ p (w := w) ?_ ?_ _ _) hraised rfl
      · rw [State.pset_framer]; exact hw
      · rw [State.pset_framer]; exact hq
    case limit =>
      refine exec_result rfl (waitLimit_closes hw ho hs) (.inl ?_) hraised rfl
      rw [State.modFramer_port, violation_framer, State.pset_framer, State.pset_framer]
      exact hq
    case second =>
      exact exec_to rfl (State.modFramer_congr s p (by simp only [Window.opened_if_second])) hraised rfl
  case replies =>
    refine ⟨fun w rx at_ hstray hw hs hq => ?ends, fun hon => ⟨?protocol, ?extend⟩, fun c hc => ?violation, ?cleared⟩
    case ends =>
      have h : ReplyOn s p w at_ := ⟨hstray, hw, hs, hq⟩
      intro u clipped v
      refine ⟨fun c hv => ?_, fun hv => ?_, fun m hv hm => ?_, fun hv hm hc hd => ?_⟩
      · exact exec_frameReceiveEnd_discard hraised h hv
      · exact exec_frameReceiveEnd_disturbance hraised h hv
      · exact exec_frameReceiveEnd_extension hraised h hv hm
      · exact exec_frameReceiveEnd_reply hraised h hv hm hc hd
    case protocol => exact exec_to rfl (if_pos hon) hraised rfl
    case extend => exact exec_to rfl (if_pos hon) hraised rfl
    case violation =>
      exact ⟨rfl, fun q hq => violation_port_ne s p c hq, violation_discard s p c, violation_vclass s p hc,
        violation_count s p c, violation_framer s p c, fun o ho hoc => violation_word_ne s p c ho hoc⟩
    case cleared => exact exec_to rfl (violRead_both s p) hraised rfl
end

section
/-! PROOF. Coordination: the coupling matrix and its adaptation, the schedules of the groups, and the grant, the hold and
the override of frames (R112, R210-R212, R217-R229). -/

namespace Sys2Proof.Machine

/-! ## The coupling matrix (R210-R212) -/

/-- The matrix in force holds the entries of the staged copy. -/
theorem matrixOnly_word (c : Cells) {i : Nat} (h : i < 64) :
    Cells.word .coord (matrixOnly c) (CPLM.reg + 4 * i) = Cells.word .coord c (CPLM.reg + 4 * i) := by
  have hfold : matrixOnly c = ((List.range 64).map fun i => CPLM.reg + 4 * i).foldl
      (fun m o => Cells.put .coord m o (Cells.word .coord c o)) [] :=
    (List.foldl_map (g := fun m o => Cells.put .coord m o (Cells.word .coord c o))).symm
  rw [hfold, foldl_put_word, if_pos (List.mem_map_of_mem (List.mem_range.2 h))]

/-- The staged copy taken as the matrix in force. -/
def State.matrixTaken (s : State) : State :=
  ({ s with coord := { s.coord with
      matrix := matrixOnly s.coord.regs, crc := matrixCrc s.coord.regs
      cplPend := [0, 1, 2, 3, 4, 5, 6, 7] } }).coordSet CPLCTL.VALID 1

theorem cplCheck_keeps {s : State} (h : s.coordGet CPLCTL.VALID = 0 ∨ matrixCrc s.coord.matrix = s.coord.crc) :
    s.cplCheck = s := by
  refine if_neg ?_
  rintro ⟨hvalid, hcrc⟩
  rcases h with h | h
  · rw [h] at hvalid; cases hvalid
  · exact hcrc h

/-- A record leaves the co-owners of the device as they are. -/
theorem ash_coOwners (s : State) (a b : Nat) (d : List Byte) : (s.ash a b d).coOwners = s.coOwners := by
  rw [ash_frame]
  rfl

/-- A row whose effect ends with an Ash record and the event that tells it to the co-owners of the device. -/
theorem exec_ash_told {i : Instr} {f : State → State} {s u : State} {a b code : Nat} {d e : List Byte}
    (hi : exec i = run f) (h : f s = (u.ash a b d).raiseDev code e) (hr : u.raised = []) (hp : u.pending = s.pending) :
    exec i s = .next ((u.ash a b d).told u.coOwners 0x0F (BitVec.ofNat 16 code) e) := by
  obtain ⟨hr', hp'⟩ := ash_parts u a b d
  refine exec_flush hi h ?_ ((told_pending ..).trans (hp'.trans hp))
  rw [raiseDev_flush _ _ (hr'.trans hr), ash_coOwners]

/-! ## Trims (R217-R219, R296) -/

/-- The offset of the trim of a source. -/
def coefReg (j : Nat) : Nat := LKCOEF.reg + 4 * j

theorem coefReg_inj {i j : Nat} : coefReg i = coefReg j ↔ i = j := by
  unfold coefReg
  omega

/-- A port with the trims of some sources written. -/
def Port.putCoefs (q : Port) (trims : List Word) (l : List Nat) : Port :=
  l.foldl (fun q j => q.putWord (coefReg j) (trims.getD j (q.word (coefReg j)))) q

theorem putCoefs_word_other (trims : List Word) (l : List Nat) (q : Port) {o : Nat} (h : ∀ j ∈ l, o ≠ coefReg j) :
    (q.putCoefs trims l).word o = q.word o := by
  induction l generalizing q with
  | nil => rfl
  | cons j l ih =>
    rw [List.forall_mem_cons] at h
    exact (ih _ h.2).trans (Port.word_putWord_ne _ _ _ _ h.1)

theorem putCoefs_word {trims : List Word} {l : List Nat} (hl : l.Nodup) (q : Port) {j : Nat} (h : j ∈ l)
    (hj : j < trims.length) : (q.putCoefs trims l).word (coefReg j) = trims.getD j 0 := by
  induction l generalizing q with
  | nil => cases h
  | cons k l ih =>
    obtain ⟨hk, hl⟩ := List.nodup_cons.1 hl
    rcases List.mem_cons.1 h with rfl | h
    · refine (putCoefs_word_other trims l _ fun i hi => ?_).trans ?_
      · rw [Ne, coefReg_inj]
        rintro rfl
        exact hk hi
      · rw [Port.word_putWord, List.getD_eq_getElem _ _ hj, List.getD_eq_getElem _ _ hj]
    · exact ih hl _ h

/-- The sources whose trims a port adapts now. -/
def State.liveSources (s : State) (p : PortNum) : List Nat := [0, 1, 2, 3, 4, 5, 6, 7].filter fun j => s.adapts p j

section
variable (s : State) (p : PortNum)

theorem mem_liveSources {j : Nat} : j ∈ s.liveSources p ↔ j < 8 ∧ j ≠ p.val ∧ j ∉ s.coord.suspended := by
  have hrange : j ∈ [0, 1, 2, 3, 4, 5, 6, 7] ↔ j < 8 := List.mem_range (n := 8)
  rw [State.liveSources, List.mem_filter, hrange]
  simp [State.adapts]

theorem liveSources_nodup : (s.liveSources p).Nodup := List.Nodup.filter _ (by decide)

variable (a b : Nat) (l : List Word) (c : Nat)

theorem depthBlock_eq : ∃ lim, s.depthBlock p a b l c =
    ((s.modPort p fun q => q.putCoefs l (s.liveSources p)).pset p LKSTAT.DEPTH
      (if b = 0 then 60 else min 60 (floorDb a b))).pset p LKSTAT.LIMIT lim := ⟨_, rfl⟩

theorem depthBlock_depth :
    (s.depthBlock p a b l c).pget p LKSTAT.DEPTH = if b = 0 then 60 else min 60 (floorDb a b) := by
  obtain ⟨lim, e⟩ := depthBlock_eq s p a b l c
  rw [e, State.pget_pset_ne _ _ _ _ _ (by decide) (by decide), State.pget_pset _ _ _ _ (by decide)]
  refine Nat.mod_eq_of_lt (lt_of_le_of_lt (b := 60) ?_ (by decide))
  split
  · exact le_rfl
  · exact min_le_left _ _

theorem depthBlock_word {o : Nat} (h : o ≠ LKSTAT.reg) :
    ((s.depthBlock p a b l c).port p).word o = ((s.port p).putCoefs l (s.liveSources p)).word o := by
  obtain ⟨lim, e⟩ := depthBlock_eq s p a b l c
  rw [e, State.word_pset_ne _ _ LKSTAT.LIMIT _ _ h, State.word_pset_ne _ _ LKSTAT.DEPTH _ _ h, State.modPort_port]

theorem coefReg_ne_lkstat (j : Nat) : coefReg j ≠ LKSTAT.reg := by
  unfold coefReg LKCOEF.reg LKSTAT.reg
  omega

theorem depthBlock_coef (hl : l.length = 8) {j : Nat} (hj : j < 8) : ((s.depthBlock p a b l c).port p).word (coefReg j) =
    if j ≠ p.val ∧ j ∉ s.coord.suspended then l.getD j 0 else (s.port p).word (coefReg j) := by
  rw [depthBlock_word s p a b l c (coefReg_ne_lkstat j)]
  by_cases h : j ∈ s.liveSources p
  · rw [putCoefs_word (liveSources_nodup s p) _ h (hj.trans_eq hl.symm), if_pos ((mem_liveSources s p).1 h).2]
  · rw [if_neg fun hx => h ((mem_liveSources s p).2 ⟨hj, hx⟩)]
    refine putCoefs_word_other _ _ _ fun i hi => ?_
    rw [Ne, coefReg_inj]
    rintro rfl
    exact h hi

theorem depthBlock_word_other {o : Nat} (h : o ≠ LKSTAT.reg) (hc : ∀ j, j < 8 → o ≠ coefReg j) :
    ((s.depthBlock p a b l c).port p).word o = (s.port p).word o :=
  (depthBlock_word s p a b l c h).trans
    (putCoefs_word_other _ _ _ fun j hj => hc j ((mem_liveSources s p).1 hj).1)

theorem depthBlock_port_ne {q : PortNum} (h : q ≠ p) : (s.depthBlock p a b l c).port q = s.port q := by
  obtain ⟨lim, e⟩ := depthBlock_eq s p a b l c
  rw [e, State.pset_port_ne _ _ _ _ _ h, State.pset_port_ne _ _ _ _ _ h, State.modPort_port_ne _ _ _ _ h]

end

/-! ## Schedules of the groups (R221, R222) -/

/-- Of the state, only the ports differ, and of their registers only TXPHASE. -/
structure PhaseSide (s t : State) : Prop where
  rest : t = { s with ports := t.ports }
  word : ∀ p o, o ≠ TXPHASE.reg → (t.port p).word o = (s.port p).word o

theorem PhaseSide.refl (s : State) : PhaseSide s s := ⟨rfl, fun _ _ _ => rfl⟩

theorem PhaseSide.trans {s t u : State} (a : PhaseSide s t) (b : PhaseSide t u) : PhaseSide s u :=
  ⟨ports_trans b.rest a.rest, fun p o ho => (b.word p o ho).trans (a.word p o ho)⟩

theorem PhaseSide.coord {s t : State} (h : PhaseSide s t) : t.coord = s.coord := by rw [h.rest]

theorem pset_phaseSide (s : State) (p : PortNum) {f : Fld} (v : Nat) (hf : f.off = TXPHASE.reg) : PhaseSide s (s.pset p f v) := by
  refine ⟨rfl, fun q o ho => ?_⟩
  by_cases hq : q = p
  · subst hq
    exact State.word_pset_ne _ _ _ _ _ (by rw [hf]; exact ho)
  · rw [State.pset_port_ne _ _ _ _ _ hq]

section
variable (s : State) (p : PortNum)

theorem stagger_side (v : Nat) : PhaseSide s (s.stagger p v) :=
  ((pset_phaseSide s p _ rfl).trans (pset_phaseSide _ p _ rfl)).trans (pset_phaseSide _ p _ rfl)

theorem stagger_port_ne (v : Nat) {q : PortNum} (h : q ≠ p) : (s.stagger p v).port q = s.port q := by
  unfold State.stagger
  rw [State.pset_port_ne _ _ _ _ _ h, State.pset_port_ne _ _ _ _ _ h, State.pset_port_ne _ _ _ _ _ h]

theorem stagger_coord (v : Nat) : (s.stagger p v).pget p TXPHASE.COORD = 1 := by
  unfold State.stagger
  rw [State.pget_pset_ne _ _ _ _ _ (by decide) (by decide), State.pget_pset_ne _ _ _ _ _ (by decide) (by decide),
    State.pget_pset _ _ _ _ (by decide)]
  rfl

theorem stagger_phase {v : Nat} (h : v < 256) : (s.stagger p v).pget p TXPHASE.PHASE = v := by
  unfold State.stagger
  rw [State.pget_pset_ne _ _ _ _ _ (by decide) (by decide), State.pget_pset _ _ _ _ (by decide)]
  exact Nat.mod_eq_of_lt h

end

section
variable (base step : Nat)

theorem staggerFrom_side (m : Nat) (l : List PortNum) (s : State) : PhaseSide s (State.staggerFrom base step m l s) := by
  induction l generalizing m s with
  | nil => exact PhaseSide.refl s
  | cons p l ih => exact (stagger_side s p _).trans (ih _ _)

theorem staggerFrom_port_ne (m : Nat) (l : List PortNum) (s : State) {q : PortNum} (h : q ∉ l) :
    (State.staggerFrom base step m l s).port q = s.port q := by
  induction l generalizing m s with
  | nil => rfl
  | cons p l ih =>
    rw [List.mem_cons, not_or] at h
    exact (ih _ _ h.2).trans (stagger_port_ne s p _ h.1)

/-- Each port of a list takes the phase of its place. -/
theorem staggerFrom_pget (m : Nat) {l : List PortNum} (hl : l.Nodup) (s : State) (i : Nat) (hi : i < l.length) :
    (State.staggerFrom base step m l s).pget l[i] TXPHASE.COORD = 1 ∧
      (State.staggerFrom base step m l s).pget l[i] TXPHASE.PHASE = (base + (m + i) * step) % 256 := by
  induction l generalizing m s i with
  | nil => cases hi
  | cons p l ih =>
    obtain ⟨hp, hl⟩ := List.nodup_cons.1 hl
    cases i with
    | zero =>
      have hkept : (State.staggerFrom base step m (p :: l) s).port p = (s.stagger p ((base + m * step) % 256)).port p :=
        staggerFrom_port_ne base step (m + 1) l _ hp
      unfold State.pget
      rw [List.getElem_cons_zero, hkept]
      exact ⟨stagger_coord s p _, stagger_phase s p (Nat.mod_lt _ (by decide))⟩
    | succ i =>
      rw [List.getElem_cons_succ, Nat.add_comm i 1, ← Nat.add_assoc]
      exact ih (m + 1) hl _ i (Nat.lt_of_succ_lt_succ hi)

end

/-- A port that leaves a group's schedule has COORD cleared, unless another schedule holds it. -/
def State.phaseFreed (g : Nat) (s : State) (p : PortNum) : State := if s.inOther g p then s else s.pset p TXPHASE.COORD 0

section
variable (g : Nat) (s : State) (p q : PortNum)

theorem phaseFreed_side : PhaseSide s (s.phaseFreed g p) := by
  unfold State.phaseFreed
  split
  · exact PhaseSide.refl s
  · exact pset_phaseSide s p _ rfl

theorem foldl_phaseFreed_side (l : List PortNum) : PhaseSide s (l.foldl (State.phaseFreed g) s) := by
  induction l generalizing s with
  | nil => exact PhaseSide.refl s
  | cons p l ih => exact (phaseFreed_side g s p).trans (ih _)

theorem PhaseSide.inOther {s t : State} (h : PhaseSide s t) : t.inOther g p = s.inOther g p := by
  unfold State.inOther
  rw [h.coord]

variable {g s p} in
theorem phaseFreed_coord (ho : s.inOther g p = false) (h : s.pget p TXPHASE.COORD = 0 ∨ p = q) :
    (s.phaseFreed g q).pget p TXPHASE.COORD = 0 := by
  by_cases hpq : p = q
  · subst hpq
    unfold State.phaseFreed
    rw [if_neg (by rw [ho]; decide), State.pget_pset _ _ _ _ (by decide)]
    rfl
  · have h0 : s.pget p TXPHASE.COORD = 0 := h.resolve_right hpq
    unfold State.phaseFreed
    split
    · exact h0
    · rw [State.pget_pset_port _ _ _ _ _ _ hpq, h0]

variable {g s p} in
/-- Of the listed ports, those that no other schedule holds have COORD cleared. -/
theorem foldl_phaseFreed_coord (l : List PortNum) (ho : s.inOther g p = false)
    (h : s.pget p TXPHASE.COORD = 0 ∨ p ∈ l) : (l.foldl (State.phaseFreed g) s).pget p TXPHASE.COORD = 0 := by
  induction l generalizing s with
  | nil => exact h.resolve_right List.not_mem_nil
  | cons q l ih =>
    have ho' : (s.phaseFreed g q).inOther g p = false := ((phaseFreed_side g s q).inOther g p).trans ho
    rcases h with h | h
    · exact ih ho' (.inl (phaseFreed_coord q ho (.inl h)))
    · rcases List.mem_cons.1 h with h | h
      · exact ih ho' (.inl (phaseFreed_coord q ho (.inr h)))
      · exact ih ho' (.inr h)

end

/-- The members of a group in its schedule now. -/
def State.scheduled (s : State) (g : Nat) : List PortNum := allPorts.filter fun p => nbit (s.coord.active.getD g 0) p.val

/-- The members whose phase a group's boundary frees: those that leave, and all without a stagger. -/
def State.freed (s : State) (g : Nat) : List PortNum :=
  ((s.scheduled g).filter fun p => !(s.wanted g).contains p) ++
    (if s.coordGet (GRPCFG.STAGGER.nth g 16) = 1 then [] else s.wanted g)

/-- The group with its new schedule in force. -/
def State.rescheduled (s : State) (g : Nat) : State :=
  { s with coord := { s.coord with
      active := s.coord.active.set g (portMask (s.wanted g)), change := s.coord.change.set g false } }

/-- The state of a group's boundary before its members are staggered. -/
def State.unstaggered (s : State) (g : Nat) : State := (s.freed g).foldl (State.phaseFreed g) (s.rescheduled g)

section
variable (s : State) (g : Nat)

theorem wanted_nodup : (s.wanted g).Nodup := List.Nodup.filter _ (by decide)

theorem unstaggered_side : PhaseSide (s.rescheduled g) (s.unstaggered g) := foldl_phaseFreed_side g _ _

theorem unstaggered_coordGet (f : Fld) : (s.unstaggered g).coordGet f = s.coordGet f := by
  unfold State.coordGet
  rw [(unstaggered_side s g).coord]
  rfl

theorem groupBoundary_eq : s.groupBoundary g =
    if s.coordGet (GRPCFG.STAGGER.nth g 16) = 1 then
      State.staggerFrom (s.coordGet (GRPCFG.BASE.nth g 16)) (s.coordGet (GRPCFG.STEP.nth g 16)) 0 (s.wanted g) (s.unstaggered g)
    else s.unstaggered g := by
  rw [← unstaggered_coordGet s g (GRPCFG.STAGGER.nth g 16), ← unstaggered_coordGet s g (GRPCFG.BASE.nth g 16),
    ← unstaggered_coordGet s g (GRPCFG.STEP.nth g 16)]
  rfl

theorem groupBoundary_side : PhaseSide (s.rescheduled g) (s.groupBoundary g) := by
  rw [groupBoundary_eq]
  split
  · exact (unstaggered_side s g).trans (staggerFrom_side ..)
  · exact unstaggered_side s g

variable {s g} in
/-- A port that no other group's schedule holds is in no other one after the boundary either. -/
theorem rescheduled_inOther {p : PortNum} (h : ∀ k, k ≠ g → k < 4 → nbit (s.coord.active.getD k 0) p.val = false) :
    (s.rescheduled g).inOther g p = false := by
  unfold State.inOther
  rw [List.any_eq_false]
  intro k hk
  have hk4 : k < 4 := (List.mem_range (n := 4)).1 hk
  by_cases hkg : k = g
  · simp [hkg]
  · have hother : (s.rescheduled g).coord.active.getD k 0 = s.coord.active.getD k 0 := by
      simp [State.rescheduled, List.getD, List.getElem?_set_ne (Ne.symm hkg)]
    rw [hother, h k hkg hk4]
    simp

variable {s g} in
theorem groupBoundary_freed (h0 : s.coordGet (GRPCFG.STAGGER.nth g 16) = 0) {p : PortNum} (hp : p ∈ s.wanted g)
    (h : ∀ k, k ≠ g → k < 4 → nbit (s.coord.active.getD k 0) p.val = false) :
    (s.groupBoundary g).pget p TXPHASE.COORD = 0 := by
  have hone : ¬s.coordGet (GRPCFG.STAGGER.nth g 16) = 1 := by rw [h0]; decide
  rw [groupBoundary_eq, if_neg hone]
  refine foldl_phaseFreed_coord _ (rescheduled_inOther h) (.inr ?_)
  rw [State.freed, if_neg hone]
  exact List.mem_append_right _ hp

variable {s g} in
theorem groupBoundary_staggered (h1 : s.coordGet (GRPCFG.STAGGER.nth g 16) = 1) (m : Nat) (h : m < (s.wanted g).length) :
    (s.groupBoundary g).pget (s.wanted g)[m] TXPHASE.COORD = 1 ∧
      (s.groupBoundary g).pget (s.wanted g)[m] TXPHASE.PHASE =
        (s.coordGet (GRPCFG.BASE.nth g 16) + m * s.coordGet (GRPCFG.STEP.nth g 16)) % 256 := by
  rw [groupBoundary_eq, if_pos h1]
  have hphase := staggerFrom_pget (s.coordGet (GRPCFG.BASE.nth g 16)) (s.coordGet (GRPCFG.STEP.nth g 16)) 0 (wanted_nodup s g)
    (s.unstaggered g) m h
  rwa [Nat.zero_add] at hphase

end

/-! ## A packet taken from the head (R403, R410) -/

theorem settleN_head (n : Nat) (f : Fifo) : ∃ l, (Fifo.settleN n f).head = f.head ++ l := by
  induction n generalizing f with
  | zero => exact ⟨[], (List.append_nil _).symm⟩
  | succ n ih =>
    unfold Fifo.settleN
    split
    · exact ⟨[], (List.append_nil _).symm⟩
    · rename_i w r _
      split
      · obtain ⟨l, e⟩ := ih ((({ f with tail := r, head := f.head ++ [w] } : Fifo).adv 1 1).adv 5 1)
        exact ⟨w :: l, e.trans (List.append_assoc _ _ _)⟩
      · exact ⟨[], (List.append_nil _).symm⟩

/-- Words taken from the head of a FIFO: only the FIFO and the register of its last tags differ. -/
structure WordsTaken (s t : State) (p : PortNum) (d : Dir) (n : Nat) : Prop where
  own : ∃ g c, t = s.setPort p { (s.port p).setFifo d g with regs := c }
  row : (t.fifo p d).row = (s.fifo p d).row.drop n
  regs : ∀ o, o ≠ (RX_STAT.UNDER.dir d).off → (t.port p).word o = (s.port p).word o

theorem WordsTaken.trans {s t u : State} {p : PortNum} {d : Dir} {m n : Nat} (a : WordsTaken s t p d m)
    (b : WordsTaken t u p d n) : WordsTaken s u p d (m + n) := by
  obtain ⟨g, c, e⟩ := a.own
  obtain ⟨g', c', e'⟩ := b.own
  refine ⟨⟨g', c', ?_⟩, ?_, fun o ho => (b.regs o ho).trans (a.regs o ho)⟩
  · rw [e', e]
    cases d <;> simp [Port.setFifo]
  · rw [b.row, a.row, List.drop_drop]

section
variable {s : State} {p : PortNum} {d : Dir} {w : FWord} {r : List FWord}

theorem takeHead_taken (hh : (s.fifo p d).head = w :: r) : WordsTaken s (s.takeHead p d w) p d 1 := by
  obtain ⟨g, c, own, hpop, regs⟩ := takeHead_popped hh
  exact ⟨⟨g, c, own⟩, hpop.1, regs⟩

theorem takeHead_fifo (s : State) (p : PortNum) (d : Dir) (w : FWord) : (s.takeHead p d w).fifo p d =
    (({ s.fifo p d with head := (s.fifo p d).head.drop 1,
                        pkts := if w.eop then (s.fifo p d).pkts - 1 else (s.fifo p d).pkts } : Fifo).adv 6 1).settle := by
  unfold State.takeHead State.fset
  rw [State.fifo_pset, State.fifo_pset, State.fifo_pset, State.fifo_setFifo]

/-- The words behind the one taken stay at the head, in order, in packets of the same numbers. -/
theorem takeHead_head {l : List FWord} (hh : (s.fifo p d).head = w :: (l ++ r)) :
    (∃ r', ((s.takeHead p d w).fifo p d).head = l ++ r') ∧ ((s.takeHead p d w).fifo p d).pktNo = (s.fifo p d).pktNo := by
  rw [takeHead_fifo]
  refine ⟨?_, (Fifo.settle_facts _).2.2.2.1⟩
  obtain ⟨x, e⟩ := settleN_head 16 (({ s.fifo p d with
    head := (s.fifo p d).head.drop 1
    pkts := if w.eop then (s.fifo p d).pkts - 1 else (s.fifo p d).pkts } : Fifo).adv 6 1)
  refine ⟨r ++ x, e.trans ?_⟩
  simp [Fifo.adv, hh]

theorem takeWord_word (hs : (s.fifo p d).sound) (hh : (s.fifo p d).head = w :: r) (hv : w.pkt ≠ (s.fifo p d).pktNo) :
    s.takeWord p d = (.word w, s.takeHead p d w) := by
  unfold State.takeWord
  rw [takeNow_word hs hh hv]

/-- A packet that lies whole at the head is taken through its EOP. -/
theorem takePacket_taken {a : List FWord} {n : Nat} (acc : List Byte) (cin : Bool) (heop : w.eop = true)
    (ha : ∀ x ∈ a, x.eop = false) (hs : (s.fifo p d).sound) (hh : (s.fifo p d).head = a ++ [w] ++ r)
    (hv : ∀ x ∈ a ++ [w], x.pkt ≠ (s.fifo p d).pktNo ∧ x.cin = false) (hn : a.length < n) :
    ∃ t, State.takePacket p d n acc cin s = (acc ++ wordsData (a ++ [w]), cin, t) ∧ WordsTaken s t p d (a ++ [w]).length := by
  induction a generalizing s r n acc with
  | nil =>
    obtain ⟨n, rfl⟩ : ∃ k, n = k + 1 := ⟨n - 1, by omega⟩
    obtain ⟨hpkt, hcin⟩ := hv w (List.mem_singleton.2 rfl)
    refine ⟨s.takeHead p d w, ?_, takeHead_taken hh⟩
    rw [State.takePacket, takeWord_word hs hh hpkt]
    simp [hcin, heop, wordsData]
  | cons x a ih =>
    obtain ⟨n, rfl⟩ : ∃ k, n = k + 1 := ⟨n - 1, by omega⟩
    rw [List.forall_mem_cons] at ha
    obtain ⟨hxe, hae⟩ := ha
    obtain ⟨hpkt, hcin⟩ := hv x List.mem_cons_self
    obtain ⟨⟨r', hhead⟩, hno⟩ := takeHead_head (l := a ++ [w]) hh
    have hsound := (takeHead_side s p d x).sound hs
    obtain ⟨t, htake, htaken⟩ := ih (acc ++ (wordBytes x.data).take x.vb) hae hsound hhead
      (fun y hy => by rw [hno]; exact hv y (List.mem_cons_of_mem _ hy)) (Nat.lt_of_succ_lt_succ hn)
    refine ⟨t, ?_, ?_⟩
    · rw [State.takePacket, takeWord_word hs hh hpkt]
      simp [hcin, hxe, htake, wordsData]
    · have hlen : ((x :: a) ++ [w]).length = 1 + (a ++ [w]).length := by simp; omega
      rw [hlen]
      exact (takeHead_taken hh).trans htaken

/-- The oldest packet, whole at the head, is taken with its bytes. -/
theorem takePacket_headPacket {ws : List FWord} (h : HeadPacket (s.fifo p d) ws) :
    ∃ t, State.takePacket p d 8300 [] false s = (wordsData ws, false, t) ∧ WordsTaken s t p d ws.length := by
  obtain ⟨hs, hlen, ⟨r, hh⟩, ⟨a, w, rfl, heop, ha⟩, hv⟩ := h
  refine takePacket_taken [] false heop ha hs hh hv ?_
  rw [List.length_append, List.length_singleton] at hlen
  omega

end

/-! ## The start of a frame (R51, R52, R109, R229, R442) -/

theorem modDefaults_lt (w : Word) :
    (modDefaults w).1 < 2 ^ 8 ∧ (modDefaults w).2.1 < 2 ^ 6 ∧ (modDefaults w).2.2 < 2 ^ 6 := by
  unfold modDefaults
  dsimp only
  repeat' split
  all_goals decide

/-- The fields that MODCTL.AUTO loads. -/
def modLoads (w : Word) : List (Fld × Nat) :=
  [(MODCTL.DEPTH, (modDefaults w).1), (MODCTL.FALL, (modDefaults w).2.1), (MODCTL.RISE, (modDefaults w).2.2), (MODCTL.SHAPE, 0)]

theorem modLoads_loadable (w : Word) : Loadable (modLoads w) := by
  obtain ⟨hdepth, hfall, hrise⟩ := modDefaults_lt w
  refine ⟨?_, ?_⟩
  · simp only [modLoads, List.forall_mem_cons, List.not_mem_nil, false_imp_iff, implies_true, and_true]
    exact ⟨⟨by decide, hdepth⟩, ⟨by decide, hfall⟩, ⟨by decide, hrise⟩, by decide, by decide⟩
  · exact List.pairwise_map.1 (by decide : [ MODCTL.DEPTH, MODCTL.FALL, MODCTL.RISE, MODCTL.SHAPE].Pairwise Fld.apart)

/-- CLAMP for a DEPTH. -/
def clampOf (depth : Nat) : Nat := if 101 ≤ depth ∧ depth ≤ 254 then 1 else 0

section
variable (s : State) (p : PortNum) (w : Word)

theorem modulation_eq : s.modulation p w = (s.autoLoad p MODCTL.AUTO (modLoads w)).pset p MODCTL.CLAMP
    (clampOf ((s.autoLoad p MODCTL.AUTO (modLoads w)).pget p MODCTL.DEPTH)) := by
  have hload : s.autoLoad p MODCTL.AUTO (modLoads w) = if s.pon p MODCTL.AUTO then s.psets p (modLoads w) else s :=
    if_congr (by simp [State.pon, Port.on, State.pget]) rfl rfl
  have hclamp (d : Nat) : clampOf d = bit (decide (101 ≤ d) && decide (d ≤ 254)) := by
    simp [clampOf, bit]
  rw [hload, hclamp]
  rfl

theorem psets_chainSide (l : List (Fld × Nat)) {t : State} (h : ChainSide s t p) : ChainSide s (t.psets p l) p := by
  induction l generalizing t with
  | nil => exact h
  | cons x l ih => exact ih (h.pset _ _)

theorem modulation_side : ChainSide s (s.modulation p w) p := by
  rw [modulation_eq]
  refine ChainSide.pset ?_ _ _
  unfold State.autoLoad
  split
  · exact psets_chainSide s p _ (ChainSide.refl s p)
  · exact ChainSide.refl s p

theorem psets_word_ne (l : List (Fld × Nat)) {o : Nat} (h : ∀ x ∈ l, o ≠ x.1.off) :
    ((s.psets p l).port p).word o = (s.port p).word o := by
  induction l generalizing s with
  | nil => rfl
  | cons x l ih =>
    rw [List.forall_mem_cons] at h
    exact (ih _ h.2).trans (State.word_pset_ne _ _ _ _ _ h.1)

theorem modulation_word_ne {o : Nat} (h : o ≠ MODCTL.reg) : ((s.modulation p w).port p).word o = (s.port p).word o := by
  rw [modulation_eq, State.word_pset_ne _ _ MODCTL.CLAMP _ _ h]
  unfold State.autoLoad
  split
  · refine psets_word_ne s p _ ?_
    simp only [modLoads, List.forall_mem_cons, List.not_mem_nil, false_imp_iff, implies_true, and_true]
    exact ⟨h, h, h, h⟩
  · rfl

variable {s}

/-- Under AUTO a frame is sent with the modulation of its coding. -/
theorem modulation_auto (h : s.pget p MODCTL.AUTO = 1) : let m := modDefaults w
    (s.modulation p w).pget p MODCTL.DEPTH = m.1 ∧ (s.modulation p w).pget p MODCTL.FALL = m.2.1 ∧
      (s.modulation p w).pget p MODCTL.RISE = m.2.2 ∧ (s.modulation p w).pget p MODCTL.SHAPE = 0 := by
  have hload {f : Fld} {v : Nat} (hx : (f, v) ∈ modLoads w) (hf : f.apart MODCTL.CLAMP) :
      (s.modulation p w).pget p f = v := by
    rw [modulation_eq, State.pget_pset_ne _ _ _ _ _ (by decide) hf]
    exact autoLoad_pget p h (modLoads_loadable w) hx
  exact ⟨hload (.head _) (by decide), hload (.tail _ (.head _)) (by decide), hload (.tail _ (.tail _ (.head _))) (by decide),
    hload (.tail _ (.tail _ (.tail _ (.head _)))) (by decide)⟩

theorem modulation_fixed (h : s.pget p MODCTL.AUTO = 0) :
    (s.modulation p w).pget p MODCTL.DEPTH = s.pget p MODCTL.DEPTH ∧
      (s.modulation p w).pget p MODCTL.CLAMP = clampOf (s.pget p MODCTL.DEPTH) := by
  have hnone : s.autoLoad p MODCTL.AUTO (modLoads w) = s := if_neg (by rw [h]; decide)
  have hlt (d : Nat) : clampOf d < 2 := by
    unfold clampOf
    split <;> decide
  rw [modulation_eq, hnone]
  exact ⟨State.pget_pset_ne _ _ _ _ _ (by decide) (by decide),
    (State.pget_pset _ _ _ _ (by decide)).trans (Nat.mod_eq_of_lt (hlt _))⟩

end

/-- What DB_BEGIN captures at its grant. -/
def State.dbCaptured (s : State) (p : PortNum) : Timing :=
  { chal := (s.port p).word DBCHAL1.reg ++ (s.port p).word DBCHAL0.reg
    dint := (s.trimAt 4 p.val (s.pget p TXMON.TJ) % 65536).toNat, snrSum := 0, excess := [], onsets := [] }

/-- The registers of a port at the grant of DB_BEGIN: the records cleared, DINT and the reading it was computed at. -/
def State.dbRegs (s : State) (p : PortNum) : Cells :=
  let regs := (List.range 32).foldl (fun c m => Cells.put .port c (DBREC.reg + 4 * m) 0) (s.port p).regs
  let regs := Cells.put .port regs DBRES.reg (resetWord .port DBRES.reg)
  let regs := Cells.put .port regs DBEXC.reg (resetWord .port DBEXC.reg)
  let regs := Cells.put .port regs DBSNR.reg (resetWord .port DBSNR.reg)
  Cells.set .port (Cells.set .port regs DBINT.DINT (s.trimAt 4 p.val (s.pget p TXMON.TJ) % 65536).toNat) DBINT.TJ
    (s.pget p TXMON.TJ)

theorem dbGranted_eq (s : State) (p : PortNum) :
    s.dbGranted p = s.setPort p { s.port p with regs := s.dbRegs p, tim := s.dbCaptured p } := rfl

theorem clearRecs_word (c : Cells) {o : Nat} (h : ∀ m, o ≠ DBREC.reg + 4 * m) :
    Cells.word .port ((List.range 32).foldl (fun c m => Cells.put .port c (DBREC.reg + 4 * m) 0) c) o = Cells.word .port c o := by
  have hfold : (List.range 32).foldl (fun c m => Cells.put .port c (DBREC.reg + 4 * m) 0) c =
      ((List.range 32).map fun m => DBREC.reg + 4 * m).foldl (fun c o => Cells.put .port c o 0) c :=
    (List.foldl_map (g := fun c o => Cells.put .port c o 0)).symm
  rw [hfold, foldl_put_word .port fun _ => 0]
  refine if_neg fun hm => ?_
  obtain ⟨m, -, rfl⟩ := List.mem_map.1 hm
  exact h m rfl

/-- The grant of DB_BEGIN leaves the modulation. -/
theorem dbRegs_modctl (s : State) (p : PortNum) : Cells.word .port (s.dbRegs p) MODCTL.reg = (s.port p).word MODCTL.reg := by
  unfold State.dbRegs
  dsimp only
  rw [Cells.word_set_ne _ _ DBINT.TJ _ _ (by decide), Cells.word_set_ne _ _ DBINT.DINT _ _ (by decide),
    Cells.word_put_ne _ _ _ _ _ (by decide), Cells.word_put_ne _ _ _ _ _ (by decide), Cells.word_put_ne _ _ _ _ _ (by decide)]
  refine clearRecs_word _ fun m => ?_
  unfold MODCTL.reg DBREC.reg
  omega

/-- The framer with a frame on the air. -/
def Framer.sending (f : Framer) (x : TxFrame) : Framer :=
  { f with reqs := f.reqs - 1, tx := some x, held := false, holdCounted := false, reserved := x.dbBegin }

section
variable {s : State} {p : PortNum} {ws : List FWord}

/-- The state with the taken packet on the air under the modulation of its coding. -/
def State.aired (t : State) (p : PortNum) (x : TxFrame) : State :=
  (t.modFramer p fun f => f.sending x).modulation p x.frm

theorem sendStart_eq {t : State} {data : List Byte} {b : Bool} (h : State.takePacket p .tx 8300 [] false s = (data, b, t)) :
    s.sendStart p =
      let x := txFrame (t.port p).framer.frm data
      if x.dbBegin then (t.aired p x).dbGranted p else t.aired p x := by
  unfold State.sendStart
  rw [h]
  rfl

/-- What is left by the start of a frame before DB_BEGIN captures its challenges. -/
structure FrameAired (s m : State) (p : PortNum) (ws : List FWord) : Prop where
  own : ∃ g c r, m = s.setPort p { s.port p with
    framer := (s.port p).framer.sending (txFrame (s.port p).framer.frm (wordsData ws)), txf := g, chain := c, regs := r }
  row : (m.fifo p .tx).row = (s.fifo p .tx).row.drop ws.length
  auto : s.pget p MODCTL.AUTO = 1 → let d := modDefaults (s.port p).framer.frm
    m.pget p MODCTL.DEPTH = d.1 ∧ m.pget p MODCTL.FALL = d.2.1 ∧ m.pget p MODCTL.RISE = d.2.2 ∧ m.pget p MODCTL.SHAPE = 0
  fixed : s.pget p MODCTL.AUTO = 0 →
    m.pget p MODCTL.DEPTH = s.pget p MODCTL.DEPTH ∧ m.pget p MODCTL.CLAMP = clampOf (s.pget p MODCTL.DEPTH)
  word : ∀ o, o ≠ MODCTL.reg → o ≠ TX_STAT.reg → (m.port p).word o = (s.port p).word o

theorem aired_frameAired {t : State} (h : WordsTaken s t p .tx ws.length) :
    FrameAired s (t.aired p (txFrame (s.port p).framer.frm (wordsData ws))) p ws := by
  obtain ⟨⟨g, c, own⟩, row, regs⟩ := h
  set x := txFrame (s.port p).framer.frm (wordsData ws)
  have hside := modulation_side (t.modFramer p fun f => f.sending x) p x.frm
  have hword {o : Nat} (ho : o ≠ TX_STAT.reg) : ((t.modFramer p fun f => f.sending x).port p).word o = (s.port p).word o := by
    rw [State.modFramer_port]
    exact regs o ho
  have hget {f : Fld} (hf : f.off = MODCTL.reg) : (t.modFramer p fun f => f.sending x).pget p f = s.pget p f := by
    unfold State.pget
    rw [Port.get_word, Port.get_word, hword (by rw [hf]; decide)]
  refine ⟨?_, ?_, fun ha => ?_, fun hf => ?_, fun o hm ht => ?_⟩
  · obtain ⟨r, ch, e⟩ := hside
    refine ⟨g, ch, r, e.trans ?_⟩
    rw [own]
    simp [State.modFramer, State.modPort, Port.setFifo, x]
  · rw [State.aired, hside.fifo, ← row]
    simp [State.fifo, Port.fifo]
  · exact modulation_auto p x.frm ((hget rfl).trans ha)
  · obtain ⟨hd, hc⟩ := modulation_fixed p x.frm ((hget rfl).trans hf)
    rw [hget rfl] at hd hc
    exact ⟨hd, hc⟩
  · exact (modulation_word_ne _ _ _ hm).trans (hword ht)

/-- A frame of no DB_BEGIN is out once it is on the air. -/
theorem FrameAired.out {m : State} (h : FrameAired s m p ws)
    (hd : (txFrame (s.port p).framer.frm (wordsData ws)).dbBegin = false) : FrameOut s m p ws := by
  obtain ⟨⟨g, c, r, e⟩, row, auto, fixed, word⟩ := h
  have hport := (congrArg (State.port · p) e).trans (State.setPort_port ..)
  exact
    { rest := by rw [e]; rfl
      others := fun q hq => by rw [e, State.setPort_port_ne _ _ _ _ hq]
      framer := by rw [hport]; rfl
      fifo := ⟨row, by rw [State.fifo, hport]; rfl⟩
      auto := auto
      fixed := fixed
      regs := fun _ => ⟨by rw [hport], word⟩
      begun := fun hb => absurd (hd.symm.trans hb) (by decide) }

/-- DB_BEGIN is out once it is on the air and its challenges are captured. -/
theorem FrameAired.begun {m : State} (h : FrameAired s m p ws)
    (hd : (txFrame (s.port p).framer.frm (wordsData ws)).dbBegin = true) : FrameOut s (m.dbGranted p) p ws := by
  obtain ⟨⟨g, c, r, e⟩, row, auto, fixed, word⟩ := h
  have hgrant := dbGranted_eq m p
  have hport := (congrArg (State.port · p) e).trans (State.setPort_port ..)
  have hgport := (congrArg (State.port · p) hgrant).trans (State.setPort_port ..)
  have hget {f : Fld} (hf : f.off = MODCTL.reg) : (m.dbGranted p).pget p f = m.pget p f := by
    unfold State.pget
    rw [hgport]
    show wget (Cells.word .port (m.dbRegs p) f.off) _ _ = wget ((m.port p).word f.off) _ _
    rw [hf, dbRegs_modctl]
  have htim : m.dbCaptured p = s.dbCaptured p := by
    have htrim (tj : Nat) : m.trimAt 4 p.val tj = s.trimAt 4 p.val tj := by rw [e]; rfl
    unfold State.dbCaptured State.pget
    rw [Port.get_word, Port.get_word, word _ (by decide) (by decide), word _ (by decide) (by decide),
      word _ (by decide) (by decide), htrim]
  exact
    { rest := by rw [hgrant, e]; rfl
      others := fun q hq => by rw [hgrant, State.setPort_port_ne _ _ _ _ hq, e, State.setPort_port_ne _ _ _ _ hq]
      framer := by rw [hgport, hport]; rfl
      fifo := ⟨by rw [← row, State.fifo, hgport]; rfl, by rw [State.fifo, hgport, hport]; rfl⟩
      auto := fun ha => by
        rw [hget rfl, hget rfl, hget rfl, hget rfl]
        exact auto ha
      fixed := fun hf => by
        rw [hget rfl, hget rfl]
        exact fixed hf
      regs := fun hb => absurd (hd.symm.trans hb) (by decide)
      begun := fun _ => by rw [hgport]; exact htim }

/-- The start of a frame puts the oldest packet on the air. -/
theorem sendStart_frameOut (h : HeadPacket (s.fifo p .tx) ws) : FrameOut s (s.sendStart p) p ws := by
  obtain ⟨t, htake, htaken⟩ := takePacket_headPacket h
  have hfrm : (t.port p).framer.frm = (s.port p).framer.frm := by
    obtain ⟨g, c, e⟩ := htaken.own
    rw [e, State.setPort_port]
    rfl
  rw [sendStart_eq htake, hfrm]
  have haired := aired_frameAired htaken
  dsimp only
  split
  · exact haired.begun ‹_›
  · exact haired.out (Bool.eq_false_iff.2 ‹_›)

end

/-! ## Grant, hold and override (R112, R225-R227) -/

theorem cinderFirst_append {w : FWord} (hw : w.cin = false) (heop : w.eop = true) (a r : List FWord)
    (ha : ∀ x ∈ a, x.cin = false) : cinderFirst (a ++ w :: r) = false := by
  induction a with
  | nil => simp [cinderFirst, hw, heop]
  | cons x a ih =>
    rw [List.forall_mem_cons] at ha
    simp [cinderFirst, ha.1, ih ha.2]

/-- A packet whole at the head without a Cinder is the oldest committed one, and holds none. -/
theorem HeadPacket.noCinder {f : Fifo} {ws : List FWord} (h : HeadPacket f ws) : cinderFirst f.committed = false := by
  obtain ⟨-, -, ⟨r, hh⟩, ⟨a, w, rfl, heop, -⟩, hv⟩ := h
  have hvisible : (a ++ [w]).filter f.visible = a ++ [w] :=
    List.filter_eq_self.2 fun x hx => bne_iff_ne.2 (hv x hx).1
  have hcommitted : f.committed = a ++ w :: (r ++ f.win ++ f.tail).filter f.visible := by
    unfold Fifo.committed
    rw [hh, List.append_assoc, List.append_assoc, List.filter_append, hvisible]
    simp
  rw [hcommitted]
  exact cinderFirst_append (hv w (by simp)).2 heop a _ fun x hx => (hv x (List.mem_append_left _ hx)).2

section
variable {s : State} {p : PortNum} {ws : List FWord}

theorem MaySend.air (h : MaySend s p ws) : (s.port p).framer.tx = none ∧ (s.port p).framer.win = none := by
  have hready := h.ready
  simp only [State.canSend, Bool.and_eq_true, Option.isNone_iff_eq_none] at hready
  obtain ⟨⟨⟨⟨⟨⟨-, htx⟩, hwin⟩, -⟩, -⟩, -⟩, -⟩ := hready
  exact ⟨htx, hwin⟩

/-- No requested packet is taken away while the oldest one may be sent. -/
theorem MaySend.framerAdvance (h : MaySend s p ws) : s.framerAdvance p = s := by
  unfold State.framerAdvance
  cases hn : (s.port p).framer.reqs with
  | zero => rfl
  | succ n =>
    obtain ⟨htx, hwin⟩ := h.air
    unfold State.framerAdvanceN
    simp [hn, htx, hwin, h.packet.noCinder, h.enabled]

/-- A request whose frame may go is decided by what its mates protect. -/
theorem MaySend.grant (h : MaySend s p ws) : s.grant p =
    if (s.mates p).any fun o => s.protects o then s.hold p
    else if (s.mates p).any fun o => (s.port o).framer.tx.isSome then
      let (fits, s) := s.drawBool
      if fits then s.sendStart p else s.hold p
    else s.sendStart p := by
  unfold State.grant
  simp [h.framerAdvance, h.ready, h.settled]

theorem grant_sends (h : MaySend s p ws) (hm : ∀ o ∈ s.mates p, s.protects o = false ∧ (s.port o).framer.tx = none) :
    s.grant p = s.sendStart p := by
  have hprotects : ((s.mates p).any fun o => s.protects o) = false := by
    rw [List.any_eq_false]
    exact fun o ho => by rw [(hm o ho).1]; decide
  have hsends : ((s.mates p).any fun o => (s.port o).framer.tx.isSome) = false := by
    rw [List.any_eq_false]
    exact fun o ho => by rw [(hm o ho).2]; decide
  rw [h.grant, hprotects, hsends]
  rfl

theorem grant_holds (h : MaySend s p ws) (hm : ∃ o ∈ s.mates p, s.protects o = true) : s.grant p = s.hold p := by
  rw [h.grant, if_pos (List.any_eq_true.2 hm)]

theorem grant_idle (hc : s.canSend p = false) (h : (s.port p).framer.Waits) : s.grant p = s := by
  unfold State.grant
  simp [framerAdvance_waits h, hc]

theorem holdOver_sends (hheld : (s.port p).framer.held = true) (hc : s.canSend p = true) (hd : s.dbWaiting p = false)
    (hm : ∀ o ∈ s.mates p, (s.port o).framer.reserved = false) :
    s.holdOver p = (schCounted (SCHCNT.OVERRIDES.nth p.val) s).sendStart p := by
  have hreserved : ((s.mates p).any fun o => (s.port o).framer.reserved) = false := by
    rw [List.any_eq_false]
    exact fun o ho => by rw [hm o ho]; decide
  exact if_pos (by rw [hheld, hc, hd, hreserved]; rfl)

theorem holdOver_idle (h : (s.port p).framer.held = false ∨ s.canSend p = false ∨ s.dbWaiting p = true ∨
    ∃ o ∈ s.mates p, (s.port o).framer.reserved = true) : s.holdOver p = s := by
  refine if_neg fun hx => ?_
  simp only [Bool.and_eq_true, Bool.not_eq_true', List.any_eq_false] at hx
  obtain ⟨⟨⟨hheld, hc⟩, hd⟩, hm⟩ := hx
  rcases h with h | h | h | ⟨o, ho, h⟩
  · rw [h] at hheld; cases hheld
  · rw [h] at hc; cases hc
  · rw [h] at hd; cases hd
  · exact hm o ho h

/-- A row whose effect puts a frame on the air. -/
theorem exec_frameOut {i : Instr} {f : State → State} {u : State} (e : exec i = run f) (hu : f s = u.sendStart p)
    (h : FrameOut u (u.sendStart p) p ws) (hr : u.raised = []) (hp : u.pending = s.pending) :
    ∃ t, exec i s = .next t ∧ FrameOut u t p ws :=
  ⟨_, exec_to e hu (by rw [h.rest]; exact hr) (by rw [h.rest]; exact hp), h⟩

end

end Sys2Proof.Machine

open Sys2Proof Sys2Proof.Machine

/-- Settles O24, by what a COMMIT and its check, a block of the adaptation, a group's boundary and a request do. -/
theorem couplingAndGroupsAreTakenWholeAndGranted : Obligations.CouplingAndGroupsAreTakenWholeAndGranted := by
  unfold Obligations.CouplingAndGroupsAreTakenWholeAndGranted
  refine ⟨⟨fun s hraised => ?matrix, fun s p hraised => ?trims⟩, fun s g hraised => ?groups, fun s p hraised => ?frames⟩
  case matrix =>
    refine ⟨fun hcrc => ?taken, fun hcrc => ?failed, fun h => ?kept, fun hv hcrc => ?withdrawn⟩
    case taken =>
      exact ⟨s.matrixTaken, exec_to rfl (if_pos hcrc) hraised rfl, rfl, rfl, rfl,
        (Cells.get_set .coord s.coord.regs CPLCTL.VALID 1 (by decide)).trans rfl, rfl, rfl,
        fun i hi => matrixOnly_word s.coord.regs hi, fun o ho => Cells.word_set_ne _ _ _ _ _ ho⟩
    case failed => exact exec_to rfl (if_neg hcrc) hraised rfl
    case kept => exact exec_to rfl (cplCheck_keeps h) hraised rfl
    case withdrawn => exact exec_ash_told rfl (if_pos ⟨hv, hcrc⟩) hraised rfl
  case trims =>
    refine ⟨fun h => ?applied, fun h => ?waits, exec_to rfl rfl hraised rfl, fun h a b l c => ?off,
      fun h a b l c hl => ?block⟩
    case applied => exact exec_to rfl (if_pos h) hraised rfl
    case waits => exact exec_to rfl (if_neg (by rw [h]; decide)) hraised rfl
    case off => exact exec_to rfl (if_neg fun hx => absurd (h.symm.trans (beq_iff_eq.1 hx)) (by decide)) hraised rfl
    case block =>
      exact ⟨s.depthBlock p a b l c.toNat, exec_to rfl (if_pos (beq_iff_eq.2 h)) hraised rfl, rfl,
        fun q hq => depthBlock_port_ne s p a b l _ hq, depthBlock_depth s p a b l _,
        fun j hj => depthBlock_coef s p a b l _ hl hj, fun o ho hc => depthBlock_word_other s p a b l _ ho hc⟩
  case groups =>
    have hside := groupBoundary_side s g.val
    refine ⟨s.groupBoundary g.val, exec_to rfl rfl ?_ ?_, ?_, hside.coord, hside.word,
      fun h1 m h => groupBoundary_staggered h1 m h, fun h0 p hp h => groupBoundary_freed h0 hp h⟩
    · rw [hside.rest]; exact hraised
    · rw [hside.rest]; rfl
    · rw [hside.rest]; rfl
  case frames =>
    refine ⟨fun ws h => ⟨fun hm => ?sent, fun hm => ?held, fun hheld hd hm => ?overridden⟩, fun hc h => ?idle,
      fun h => ?kept, fun h => ?guardEnds, fun h => ?noGuard, exec_to rfl rfl hraised rfl⟩
    case sent => exact exec_frameOut rfl (grant_sends h hm) (sendStart_frameOut h.packet) hraised rfl
    case held =>
      refine exec_to rfl (grant_holds h hm) ?_ ?_
      · split <;> exact hraised
      · split <;> rfl
    case overridden =>
      exact exec_frameOut rfl (holdOver_sends hheld h.ready hd hm) (sendStart_frameOut h.packet) hraised rfl
    case idle => exact exec_to rfl (grant_idle hc h) hraised rfl
    case kept => exact exec_to rfl (holdOver_idle h) hraised rfl
    case guardEnds => exact exec_to rfl (if_pos h) hraised rfl
    case noGuard => exact exec_to rfl (if_neg (by rw [h]; decide)) hraised rfl
end

section
/-! PROOF. How a frame reaches port T: what T hears, the state it is acted on in, and how a command's rule takes it
(R135, R147, R153, R159, R166, R171, R250, R267). -/

namespace Sys2Proof.Machine

/-! ## What T hears -/

section
variable {s : State} {p : LinkProto} {body : List Byte} {valid nvm : Bool} {f : State → State} {len : Nat}

theorem tHears_iff : s.tHears p body = true ↔ Hears s p body := by
  unfold State.tHears Hears
  cases p <;> cases s.xpdr.spoke <;> simp [and_assoc]

theorem tFrame_heard (h : Hears s p body) : s.tFrame p body valid nvm f = f (s.heard p valid nvm) := by
  unfold State.tFrame
  rw [tHears_iff.2 h]
  rfl

theorem tFrame_unheard (h : ¬Hears s p body) : s.tFrame p body valid nvm f = s.tQuiet := by
  unfold State.tFrame
  rw [Bool.eq_false_iff.2 fun hx => h (tHears_iff.1 hx)]
  rfl

/-! ## A command of ACTIVE, and an Osgil command (R147, R168) -/

theorem tCmd_silent (h : Hears s .aelyr body) (ha : (s.heard .aelyr (body.length == len) true).xpdr.st ≠ .active) :
    s.tCmd body len f = (s.heard .aelyr (body.length == len) true).tQuiet := by
  unfold State.tCmd
  dsimp only
  rw [tFrame_heard h, if_pos (by simpa [State.tActive] using ha)]

theorem tCmd_active (h : Hears s .aelyr body) (ha : (s.heard .aelyr (body.length == len) true).xpdr.st = .active) :
    s.tCmd body len f = if body.length == len then f (s.heard .aelyr (body.length == len) true)
      else (s.heard .aelyr (body.length == len) true).tReply [1] := by
  unfold State.tCmd
  dsimp only
  rw [tFrame_heard h, if_neg (by simpa [State.tActive] using ha)]

theorem tCmd_param (h : Hears s .aelyr body) (ha : (s.heard .aelyr (body.length == len) true).xpdr.st = .active)
    (hl : body.length ≠ len) : s.tCmd body len f = (s.heard .aelyr (body.length == len) true).tReply [1] :=
  (tCmd_active h ha).trans (if_neg (by simpa using hl))

theorem tCmd_fits (h : Hears s .aelyr body) (ha : (s.heard .aelyr true true).xpdr.st = .active) (hl : body.length = len) :
    s.tCmd body len f = f (s.heard .aelyr true true) := by
  have hb : (body.length == len) = true := beq_iff_eq.2 hl
  have := tCmd_active (f := f) (len := len) h (by rw [hb]; exact ha)
  rwa [hb] at this

theorem oCmd_fits (h : Hears s .osgil body) (hl : body.length = len) : s.oCmd body len f = f (s.heard .osgil true true) := by
  have hb : (body.length == len) = true := beq_iff_eq.2 hl
  unfold State.oCmd
  dsimp only
  rw [tFrame_heard h, if_pos hb, hb]

/-! ## A frame that is not heard -/

theorem tCmd_unheard (h : ¬Hears s .aelyr body) : s.tCmd body len f = s.tQuiet := by
  unfold State.tCmd
  exact tFrame_unheard h

theorem oCmd_unheard (h : ¬Hears s .osgil body) : s.oCmd body len f = s.tQuiet := by
  unfold State.oCmd
  exact tFrame_unheard h

theorem tDbCmd_unheard (h : ¬Hears s .aelyr body) : s.tDbCmd body len f = s.tQuiet := by
  unfold State.tDbCmd
  split
  · exact tCmd_unheard h
  · exact tFrame_unheard h

end

/-- No frame of the air does anything where T does not hear it. -/
theorem airFrame_unheard {i : Instr} {p : LinkProto} {body : List Byte} (e : airFrame i = some (p, body)) {s : State}
    (h : ¬Hears s p body) : ∃ f, exec i = run f ∧ f s = s.tQuiet := by
  cases i
  case scan b =>
    cases e
    refine ⟨_, rfl, ?_⟩
    dsimp only
    split <;> exact tFrame_unheard h
  case select b | aelyrHalt b =>
    cases e
    exact ⟨_, rfl, tFrame_unheard h⟩
  case read b | write b | lockBlock b | areaInfo b | authPwd b | setPwd b | getNonce b | unlock b | readCnt b | incCnt b =>
    cases e
    exact ⟨_, rfl, tCmd_unheard h⟩
  case dbBegin b | dbEnd b =>
    cases e
    exact ⟨_, rfl, tDbCmd_unheard h⟩
  case getId b | readPage b | writePage b | login b | logout b | setPassword b | lockPage b =>
    cases e
    exact ⟨_, rfl, oCmd_unheard h⟩
  case unknownCode q c b =>
    cases e
    cases p <;> exact ⟨_, rfl, tFrame_unheard h⟩
  all_goals exact absurd e nofun

/-! ## The state in which a frame is acted on -/

section
variable (s : State) (p : LinkProto) (fits nvm : Bool)

theorem dbDisarm_eq : s.dbDisarm = { s with xpdr := { s.xpdr with
    dbArmed := s.xpdr.dbArmed && s.xpdr.dbSync && s.xpdr.crx.length == s.xpdr.dbN } } := by
  unfold State.dbDisarm
  dsimp only
  rw [Bool.and_assoc]
  generalize (s.xpdr.dbSync && s.xpdr.crx.length == s.xpdr.dbN) = complete
  cases ha : s.xpdr.dbArmed
  · rw [Bool.false_and, Bool.false_and, if_neg Bool.false_ne_true, ← ha]
  · cases complete
    · rfl
    · rw [Bool.true_and, Bool.true_and, if_neg (by decide), ← ha]

theorem tSession_iff : s.tSession = true ↔ s.xget XSTAT.SESSION = 1 := beq_iff_eq

/-- The protocol settled by a valid frame, the session's registers left. -/
def State.spokenTo : State := s.modX fun x =>
  { x with
    spoke := some p
    st := match p, x.st with
      | .osgil, .secured => .secured
      | .osgil, _ => .opened
      | .aelyr, t => t }

theorem spokenTo_eq : s.spokenTo p = { s with xpdr := { s.xpdr with
    spoke := some p, st := if p = .osgil ∧ s.xpdr.st ≠ .secured then .opened else s.xpdr.st } } := by
  have hst : (s.spokenTo p).xpdr.st = if p = .osgil ∧ s.xpdr.st ≠ .secured then .opened else s.xpdr.st := by
    unfold State.spokenTo State.modX
    cases p <;> dsimp only <;> cases s.xpdr.st <;> rfl
  rw [← hst]
  rfl

theorem tAccept_within (h : s.tSession = true) : s.tAccept p = s.spokenTo p := if_pos h

/-- A valid frame starts a session where none runs, and with it settles the protocol (R171, R250). -/
theorem tAccept_starts (h : ¬s.tSession = true) :
    s.tAccept p = ((s.spokenTo p).xset XSTAT.SESSION 1).xset XSTAT.PROTO (protoCode p) :=
  (if_neg h).trans (by cases p <;> rfl)

theorem tWait_at_once (hc : s.tCommitting = false) (hk : s.kilnGet KWSTAT.STATE ≠ 0) : s.tWait = s := by
  unfold State.tWait
  rw [if_neg (by simp [hc, hk])]

theorem tAccept_tCommitting : (s.tAccept p).tCommitting = s.tCommitting := by
  by_cases h : s.tSession = true
  · rw [tAccept_within s p h]; rfl
  · rw [tAccept_starts s p h]; rfl

theorem tAccept_kiln : (s.tAccept p).kiln = s.kiln := by
  by_cases h : s.tSession = true
  · rw [tAccept_within s p h]; rfl
  · rw [tAccept_starts s p h]; rfl

/-- The state that a frame finds, before it starts a session: nothing sent, DB_ARMED left only to a complete phase. -/
def State.roused : State := s.tQuiet.dbDisarm

theorem roused_eq : s.roused = { s with xpdr := { s.xpdr with
    reply := [], replyExt := 0, burst := none
    dbArmed := s.xpdr.dbArmed && s.xpdr.dbSync && s.xpdr.crx.length == s.xpdr.dbN } } := dbDisarm_eq s.tQuiet

variable {s p fits nvm}

theorem heard_unfit : s.heard p false false = s.roused := rfl

theorem heard_fit : s.heard p true false = s.roused.tAccept p := rfl

/-- A frame waits only for a host commit in progress and for Kiln's start (R267, R495). -/
theorem heard_at_once (hn : nvm = true → s.tCommitting = false ∧ s.kilnGet KWSTAT.STATE ≠ 0) :
    s.heard p fits nvm = s.heard p fits false := by
  cases nvm
  · rfl
  · obtain ⟨hc, hk⟩ := hn rfl
    have hrc : s.roused.tCommitting = s.tCommitting := by rw [roused_eq]; rfl
    have hrk : s.roused.kiln = s.kiln := by rw [roused_eq]
    cases fits
    · exact tWait_at_once s.roused (hrc.trans hc) (by unfold State.kilnGet at *; rwa [hrk])
    · exact tWait_at_once (s.roused.tAccept p) (((tAccept_tCommitting _ _).trans hrc).trans hc)
        (by unfold State.kilnGet at *; rwa [tAccept_kiln, hrk])

theorem heard_eq : s.heard p fits false = { s with xpdr := { s.xpdr with
    regs := (s.heard p fits false).xpdr.regs, reply := [], replyExt := 0, burst := none
    spoke := if fits then some p else s.xpdr.spoke
    st := if fits ∧ p = .osgil ∧ s.xpdr.st ≠ .secured then .opened else s.xpdr.st
    dbArmed := s.xpdr.dbArmed && s.xpdr.dbSync && s.xpdr.crx.length == s.xpdr.dbN } } := by
  cases fits
  · rw [heard_unfit, roused_eq]
    simp only [Bool.false_eq_true, false_and, if_false]
  · rw [heard_fit]
    by_cases h : s.roused.tSession = true
    · rw [tAccept_within _ _ h, spokenTo_eq, roused_eq]
      simp only [true_and, if_true]
    · rw [tAccept_starts _ _ h, spokenTo_eq, roused_eq]
      simp only [true_and, if_true]
      rfl

theorem roused_xget (f : Fld) : s.roused.xget f = s.xget f := by rw [roused_eq]; rfl

theorem heard_session : (s.heard p fits false).xget XSTAT.SESSION = if fits then 1 else s.xget XSTAT.SESSION := by
  cases fits
  · exact roused_xget _
  · rw [heard_fit, if_pos rfl]
    by_cases h : s.roused.tSession = true
    · rw [tAccept_within _ _ h]
      exact (tSession_iff _).1 h
    · rw [tAccept_starts _ _ h, xget_xset_ne _ _ _ _ (by decide) (by decide), xget_xset _ _ _ (by decide)]
      rfl

theorem heard_proto : (s.heard p fits false).xget XSTAT.PROTO =
    if fits ∧ s.xget XSTAT.SESSION ≠ 1 then protoCode p else s.xget XSTAT.PROTO := by
  cases fits
  · exact roused_xget _
  · rw [heard_fit]
    have hs : s.roused.tSession = true ↔ s.xget XSTAT.SESSION = 1 := by rw [tSession_iff, roused_xget]
    by_cases h : s.roused.tSession = true
    · rw [tAccept_within _ _ h, if_neg fun hx => hx.2 (hs.1 h)]
      exact roused_xget _
    · rw [tAccept_starts _ _ h, if_pos ⟨rfl, fun hx => h (hs.2 hx)⟩, xget_xset _ _ _ (by decide)]
      cases p <;> rfl

theorem heard_xget_ne {f : Fld} (hs : XSTAT.SESSION.apart f) (hp : XSTAT.PROTO.apart f) :
    (s.heard p fits false).xget f = s.xget f := by
  have hs' : f.apart XSTAT.SESSION := by unfold Fld.apart at *; omega
  have hp' : f.apart XSTAT.PROTO := by unfold Fld.apart at *; omega
  cases fits
  · exact roused_xget _
  · rw [heard_fit]
    by_cases h : s.roused.tSession = true
    · rw [tAccept_within _ _ h]
      exact roused_xget _
    · rw [tAccept_starts _ _ h, xget_xset_ne _ _ _ _ (by decide) hp', xget_xset_ne _ _ _ _ (by decide) hs']
      exact roused_xget _

end

end Sys2Proof.Machine
end

section
/-! PROOF. The field of port T: how it appears, gaps and is lost, the end of a session, and the supply modes
(R143, R250-R253, R256, R257, R277). -/

namespace Sys2Proof.Machine

/-- A change of T that leaves its registers. -/
theorem xget_modX (s : State) {g : Xpdr → Xpdr} (hg : ∀ x, (g x).regs = x.regs) (f : Fld) : (s.modX g).xget f = s.xget f :=
  congrArg (Cells.get .xpdr · f) (hg _)

/-! ## A waiting configuration, a cold start, a fresh start -/

section
variable (s : State)

/-- A waiting configuration takes effect (R256). -/
theorem waitingCfg_eq : (if s.xpdr.cfgNext = true then s.loadCfg else s) = { s with xpdr := { s.xpdr with
    cfg := if s.xpdr.cfgNext then s.readCfg else s.xpdr.cfg, cfgNext := false } } := by
  cases h : s.xpdr.cfgNext
  · rw [if_neg Bool.false_ne_true, if_neg Bool.false_ne_true, ← h]
  · rw [if_pos rfl, if_pos rfl]; rfl

theorem tColdStart_eq : s.tColdStart = { s with
    kiln := { s.kiln with regs := [] }
    xpdr := { s.xpdr with regs := s.tColdStart.xpdr.regs, cfg := s.readCfg, cfgNext := false } } := rfl

theorem tColdStart_vstore : s.tColdStart.xget XEOSTAT.VSTORE = s.xget XEOSTAT.VSTORE :=
  (Cells.get_set _ _ _ _ (by decide)).trans (Nat.mod_eq_of_lt (Cells.get_lt .xpdr s.xpdr.regs XEOSTAT.VSTORE))

theorem tFresh_closed : s.tFresh.xpdr.closed := ⟨rfl, rfl, rfl, rfl, rfl, rfl, rfl⟩

theorem tFresh_st : s.tFresh.xpdr.st =
    if s.xpdr.st = .off then .off else if s.xpdr.st = .opened ∨ s.xpdr.st = .secured then .opened else .idle := by
  unfold State.tFresh State.leaveActive State.modX
  dsimp only
  cases s.xpdr.st <;> rfl

/-! ## The end of a session -/

/-- T with its session over and a waiting configuration in force (R250, R256). -/
def State.sessionOver : State :=
  let u := (s.xset XSTAT.SESSION 0).xset XSTAT.PROTO 0
  { u with xpdr := { u.xpdr with cfg := if s.xpdr.cfgNext then u.readCfg else s.xpdr.cfg, cfgNext := false } }

theorem sessionOver_eq : (let u := (s.xset XSTAT.SESSION 0).xset XSTAT.PROTO 0; if u.xpdr.cfgNext = true then u.loadCfg else u) =
    s.sessionOver := waitingCfg_eq _

theorem sessionOver_regs : s.sessionOver.xpdr.regs =
    Cells.set .xpdr (Cells.set .xpdr s.xpdr.regs XSTAT.SESSION 0) XSTAT.PROTO 0 := rfl

theorem sessionOver_supply : s.sessionOver.xget XSTAT.SUPPLY = s.xget XSTAT.SUPPLY := by
  unfold State.xget
  rw [sessionOver_regs, Cells.get_set_ne _ _ _ _ _ (by decide) (by decide), Cells.get_set_ne _ _ _ _ _ (by decide) (by decide)]

/-- Battery mode. -/
def State.onBattery : State := (s.xset XSTAT.SUPPLY 1).kilnSet KWSTAT.HARVEST 0

/-- VSYS is back under a T in harvest mode (R252). -/
def State.vsysBack : Prop := s.xget XSTAT.SUPPLY = 2 ∧ s.dev.vsysOk = true ∧ s.xpdr.vsysLow = false

theorem sessionEnd_harvest (h : ¬s.vsysBack) : s.tSessionEnd = s.sessionOver := by
  unfold State.tSessionEnd
  dsimp only
  rw [sessionOver_eq]
  refine if_neg fun hx => h ⟨?_, hx.2.1, ?_⟩
  · rw [← sessionOver_supply]; exact hx.1
  · exact Bool.not_eq_true' _ ▸ hx.2.2

theorem sessionEnd_battery (h : s.vsysBack) :
    s.tSessionEnd = s.sessionOver.onBattery.tFresh := by
  unfold State.tSessionEnd
  dsimp only
  rw [sessionOver_eq]
  refine if_pos ⟨?_, h.2.1, ?_⟩
  · rw [sessionOver_supply]; exact h.1
  · show (!s.xpdr.vsysLow) = true
    rw [h.2.2]; rfl

/-! ## The loss of the field -/

/-- Nothing but registers of T differs. -/
def XRegsOnly (s t : State) : Prop := t = { s with xpdr := { s.xpdr with regs := t.xpdr.regs } }

/-- T's registers without a field, a session or an arming (R143, R253, R277). -/
def State.unfielded : State :=
  ((((s.sessionOver.xset XSTAT.FIELD 0).xset XSTAT.SUPPLY 0).xset XSTAT.H 0).xset XEOSTAT.ARMED 0).xset XEOSTAT.CHARGING 0

theorem XRegsOnly.refl : XRegsOnly s s := rfl

variable {s} in
theorem XRegsOnly.xset {t : State} (h : XRegsOnly s t) (f : Fld) (v : Nat) : XRegsOnly s (t.xset f v) := by
  unfold XRegsOnly at *
  generalize t.xpdr.regs = r at h
  rw [h]
  rfl

theorem sessionOver_frame : ∃ r c, s.sessionOver = { s with xpdr := { s.xpdr with regs := r, cfg := c, cfgNext := false } } :=
  ⟨_, _, rfl⟩

theorem unfielded_only : XRegsOnly s.sessionOver s.unfielded :=
  (((((XRegsOnly.refl _).xset _ _).xset _ _).xset _ _).xset _ _).xset _ _

theorem unfielded_eq : s.unfielded = { s with xpdr := { s.xpdr with
    regs := s.unfielded.xpdr.regs, cfg := s.sessionOver.xpdr.cfg, cfgNext := false } } := by
  have h := unfielded_only s
  unfold XRegsOnly at h
  generalize s.unfielded.xpdr.regs = r at h ⊢
  obtain ⟨r', c, hs⟩ := sessionOver_frame s
  rw [h, hs]

/-- What the loss of the field leaves: T's memory and what it is to commit (R143, R253, R277). -/
theorem tFieldGone_eq : ∃ k, s.tFieldGone = { s with
    kiln := k
    xpdr := { s.xpdr with
      regs := s.unfielded.xpdr.regs, cfg := s.sessionOver.xpdr.cfg, cfgNext := false, st := .off, spoke := none, sibarm := false
      reserve := false, reply := [], replyExt := 0, burst := none, opens := [], dbArmed := false, dbSync := false
      keptReq := [], keptRsp := [], nonce := none } } := by
  have e : s.tFieldGone = (State.leaveActive (if s.unfielded.dev.vsysOk = true ∧ (!s.unfielded.xpdr.vsysLow) = true
      then s.unfielded.kilnSet KWSTAT.HARVEST 0 else s.unfielded)).modX fun x =>
        { x with st := .off, spoke := none, sibarm := false, reserve := false, reply := [], replyExt := 0, burst := none } := by
    unfold State.tFieldGone
    dsimp only
    rw [sessionOver_eq]
    rfl
  have hu := unfielded_eq s
  generalize s.sessionOver.xpdr.cfg = cfg at hu ⊢
  generalize s.unfielded.xpdr.regs = r at hu ⊢
  rw [e, hu]
  split
  · exact ⟨_, rfl⟩
  · exact ⟨_, rfl⟩

theorem sessionOver_session : s.sessionOver.xget XSTAT.SESSION = 0 ∧ s.sessionOver.xget XSTAT.PROTO = 0 := by
  unfold State.xget
  rw [sessionOver_regs]
  simp (disch := decide) only [Cells.get_set, Cells.get_set_ne, Nat.zero_mod, and_self]

theorem tFieldGone_xget (f : Fld) : s.tFieldGone.xget f = s.unfielded.xget f := by
  obtain ⟨k, h⟩ := tFieldGone_eq s
  rw [h]
  simp only [State.xget]

theorem unfielded_gone : s.unfielded.xget XSTAT.FIELD = 0 ∧ s.unfielded.xget XSTAT.SUPPLY = 0 ∧ s.unfielded.xget XSTAT.SESSION = 0 ∧
    s.unfielded.xget XSTAT.PROTO = 0 ∧ s.unfielded.xget XSTAT.H = 0 ∧ s.unfielded.xget XEOSTAT.ARMED = 0 ∧
    s.unfielded.xget XEOSTAT.CHARGING = 0 := by
  unfold State.unfielded
  simp (disch := decide) only [xget_xset, xget_xset_ne, sessionOver_session, Nat.zero_mod, and_self]

/-! ## A field that appears (R251, R257) -/

/-- T in a field of a strength, from a cold start where nothing else supplies it. -/
def State.fielded (h : Byte) (low : Bool) : State :=
  (((if s.dev.vsysOk = false ∨ s.dev.power = .off then s.tColdStart else s).xset XSTAT.FIELD 1).xset XSTAT.H h.toNat).modX
    fun x => { x with vsysLow := low }

/-- The state of T at the start of its service in a field: OPEN where Osgil is the one protocol. -/
def State.entering (u : State) : State := u.modX fun x => { x with st := if u.tOsgil && !u.tAelyr then .opened else .idle }

theorem tCold_iff : s.tCold = true ↔ s.dev.vsysOk = false ∨ s.dev.power = .off := by
  simp [State.tCold]

theorem fieldAppear_again {h : Byte} {battery : Bool} (hr : s.raised = []) (hF : s.xget XSTAT.FIELD = 1) :
    exec (.xpdrFieldAppear h battery) s = .next (s.xset XSTAT.H h.toNat) :=
  exec_to rfl (if_pos hF) hr rfl

theorem fieldAppear_weak {h : Byte} {battery : Bool} (hr : s.raised = []) (hF : s.xget XSTAT.FIELD ≠ 1)
    (hn : h.toNat < if (battery && s.dev.vsysOk) = true then 3 else 15) : exec (.xpdrFieldAppear h battery) s = .next s :=
  exec_to rfl ((if_neg hF).trans (if_pos hn)) hr rfl

theorem coldStart_frame : let b := if s.dev.vsysOk = false ∨ s.dev.power = .off then s.tColdStart else s
    b.dev = s.dev ∧ b.raised = s.raised ∧ b.pending = s.pending := by
  split <;> exact ⟨rfl, rfl, rfl⟩

theorem fielded_frame (h : Byte) (low : Bool) : (s.fielded h low).raised = s.raised ∧ (s.fielded h low).pending = s.pending := by
  obtain ⟨-, hr, hp⟩ := coldStart_frame s
  unfold State.fielded
  simp only [State.modX_raised, State.modX_pending, State.xset_raised, State.xset_pending]
  exact ⟨hr, hp⟩

/-- A field of enough strength for T's supply: battery mode where VSYS feeds T, else harvest mode. -/
theorem fieldAppear_taken {h : Byte} {battery : Bool} (hF : s.xget XSTAT.FIELD ≠ 1)
    (hn : ¬h.toNat < if (battery && s.dev.vsysOk) = true then 3 else 15) : ∃ f, exec (.xpdrFieldAppear h battery) = run f ∧ f s =
      let w := s.fielded h (!(battery && s.dev.vsysOk) && s.dev.vsysOk)
      if (!w.tEn) = true then w
      else State.entering (if (battery && s.dev.vsysOk) = true then w.onBattery else w.tHarvest) := by
  refine ⟨_, rfl, (if_neg hF).trans ((if_neg hn).trans ?_)⟩
  simp only [tCold_iff, (coldStart_frame s).1]
  rfl

theorem entering_st (u : State) : u.entering.xpdr.st = if u.tOsgil = true ∧ u.tAelyr = false then .opened else .idle := by
  unfold State.entering State.modX
  cases u.tOsgil <;> cases u.tAelyr <;> rfl

variable (h : Byte) (low : Bool)

theorem fielded_xget (f : Fld) : (s.fielded h low).xget f =
    (((if s.dev.vsysOk = false ∨ s.dev.power = .off then s.tColdStart else s).xset XSTAT.FIELD 1).xset XSTAT.H h.toNat).xget f := by
  unfold State.fielded
  rw [xget_modX]
  intro x
  rfl

theorem fielded_field : (s.fielded h low).xget XSTAT.FIELD = 1 := by
  rw [fielded_xget, xget_xset_ne _ _ _ _ (by decide) (by decide), xget_xset _ _ _ (by decide)]
  rfl

theorem fielded_h : (s.fielded h low).xget XSTAT.H = h.toNat := by
  rw [fielded_xget, xget_xset _ _ _ (by decide)]
  exact Nat.mod_eq_of_lt h.isLt

end

/-! ## Battery and harvest mode (R251, R252) -/

section
variable (u : State)

theorem onBattery_xget {f : Fld} (hf : f.apart XSTAT.SUPPLY) : u.onBattery.xget f = u.xget f :=
  xget_xset_ne u f _ 1 (by decide) hf

theorem onBattery_supply : u.onBattery.xget XSTAT.SUPPLY = 1 :=
  xget_xset u _ 1 (by decide)

theorem onBattery_harvest : u.onBattery.kilnGet KWSTAT.HARVEST = 0 :=
  Cells.get_set .kiln u.kiln.regs _ 0 (by decide)

theorem tHarvest_xget {f : Fld} (hf : f.apart XSTAT.SUPPLY) : u.tHarvest.xget f = u.xget f :=
  xget_xset_ne u f _ 2 (by decide) hf

theorem tHarvest_supply : u.tHarvest.xget XSTAT.SUPPLY = 2 := xget_xset u _ 2 (by decide)

theorem tHarvest_harvest : u.tHarvest.kilnGet KWSTAT.HARVEST = 1 := Cells.get_set .kiln u.kiln.regs _ 1 (by decide)

theorem entering_xget (f : Fld) : u.entering.xget f = u.xget f := xget_modX u (fun _ => rfl) f

theorem leaveActive_xget (f : Fld) : u.leaveActive.xget f = u.xget f := xget_modX u (fun _ => rfl) f

theorem tFresh_xget (f : Fld) : u.tFresh.xget f = u.xget f :=
  (xget_modX u.leaveActive (fun _ => rfl) f).trans (leaveActive_xget u f)

theorem tFresh_kept : u.tFresh.xpdr.recs = u.xpdr.recs ∧ u.tFresh.xpdr.cfg = u.xpdr.cfg ∧
    u.tFresh.xpdr.vsysLow = u.xpdr.vsysLow ∧ u.tFresh.xpdr.reserve = u.xpdr.reserve := ⟨rfl, rfl, rfl, rfl⟩

theorem xset_xpdr (f : Fld) (v : Nat) : (u.xset f v).xpdr = { u.xpdr with regs := Cells.set .xpdr u.xpdr.regs f v } := rfl

end

/-! ## Rows that move T and Kiln alone -/

/-- Nothing but T and Kiln differs. -/
def TKilnOnly (s t : State) : Prop := t = { s with xpdr := t.xpdr, kiln := t.kiln }

section
variable {s t : State} (h : TKilnOnly s t)

theorem TKilnOnly.refl (s : State) : TKilnOnly s s := rfl

theorem TKilnOnly.trans {u : State} (h : TKilnOnly s t) (g : TKilnOnly t u) : TKilnOnly s u := by
  unfold TKilnOnly at *
  generalize u.xpdr = x, u.kiln = k at g ⊢
  generalize t.xpdr = y, t.kiln = l at h
  rw [g, h]

theorem modX_only (s : State) (g : Xpdr → Xpdr) : TKilnOnly s (s.modX g) := rfl

theorem xset_only (s : State) (f : Fld) (v : Nat) : TKilnOnly s (s.xset f v) := rfl

theorem kilnSet_only (s : State) (f : Fld) (v : Nat) : TKilnOnly s (s.kilnSet f v) := rfl

theorem sessionOver_only (s : State) : TKilnOnly s s.sessionOver := ((xset_only s _ _).trans (xset_only _ _ _)).trans rfl

theorem tFresh_only (s : State) : TKilnOnly s s.tFresh := (modX_only s _).trans (modX_only _ _)

theorem tHarvest_only (s : State) : TKilnOnly s s.tHarvest := ((xset_only s _ _).trans (kilnSet_only _ _ _)).trans (modX_only _ _)

theorem onBattery_only (s : State) : TKilnOnly s s.onBattery :=
  (xset_only s _ _).trans (kilnSet_only _ _ _)

theorem entering_only (s : State) : TKilnOnly s s.entering := modX_only s _

theorem TKilnOnly.parts (h : TKilnOnly s t) : t.raised = s.raised ∧ t.pending = s.pending := by
  unfold TKilnOnly at h
  generalize t.xpdr = x, t.kiln = k at h
  rw [h]
  exact ⟨rfl, rfl⟩

end

section
variable {s : State} {h : Byte} {battery : Bool} (hr : s.raised = []) (hF : s.xget XSTAT.FIELD ≠ 1)
include hr hF

/-- A T that is not enabled stays off in a field (R257). -/
theorem fieldAppear_disabled (hn : ¬h.toNat < if (battery && s.dev.vsysOk) = true then 3 else 15) {low : Bool}
    (hl : (!(battery && s.dev.vsysOk) && s.dev.vsysOk) = low) (hen : (s.fielded h low).tEn = false) :
    exec (.xpdrFieldAppear h battery) s = .next (s.fielded h low) := by
  obtain ⟨f, e, hf⟩ := fieldAppear_taken s hF hn
  subst hl
  exact exec_to e (hf.trans (if_pos (by rw [hen]; rfl))) ((fielded_frame s h _).1.trans hr) (fielded_frame s h _).2

/-- Battery mode: VSYS feeds T from 0.3 A/m on (R251). -/
theorem fieldAppear_battery (hb : (battery && s.dev.vsysOk) = true) (hn : ¬h.toNat < 3) (hen : (s.fielded h false).tEn = true) :
    exec (.xpdrFieldAppear h battery) s =
      .next (s.fielded h false).onBattery.entering := by
  obtain ⟨f, e, hf⟩ := fieldAppear_taken (battery := battery) s hF (by rwa [if_pos hb])
  have ho := (onBattery_only (s.fielded h false)).trans (entering_only _)
  refine exec_to e (hf.trans ?_) ((ho.parts.1.trans (fielded_frame s h _).1).trans hr) (ho.parts.2.trans (fielded_frame s h _).2)
  rw [hb]
  exact (if_neg (by rw [Bool.not_true, Bool.false_and, hen]; decide)).trans rfl

/-- Harvest mode: the field alone feeds T from 1.5 A/m on (R251). -/
theorem fieldAppear_harvest (hb : (battery && s.dev.vsysOk) = false) (hn : ¬h.toNat < 15)
    (hen : (s.fielded h s.dev.vsysOk).tEn = true) :
    exec (.xpdrFieldAppear h battery) s = .next (s.fielded h s.dev.vsysOk).tHarvest.entering := by
  obtain ⟨f, e, hf⟩ := fieldAppear_taken (battery := battery) s hF (by rwa [if_neg (by rw [hb]; decide)])
  have ho := (tHarvest_only (s.fielded h s.dev.vsysOk)).trans (entering_only _)
  refine exec_to e (hf.trans ?_) ((ho.parts.1.trans (fielded_frame s h _).1).trans hr) (ho.parts.2.trans (fielded_frame s h _).2)
  rw [hb]
  exact (if_neg (by rw [Bool.not_false, Bool.true_and, hen]; decide)).trans rfl

end

/-! ## The supply falls away under T (R252) -/

section
variable {s : State}

/-- T once VSYS has fallen away: a session under it is over. -/
def State.unsupplied (s : State) : State :=
  let u := s.modX fun x => { x with vsysLow := true }
  if u.tSession = true then u.sessionOver else u

theorem unsupplied_only (s : State) : TKilnOnly s s.unsupplied := by
  unfold State.unsupplied
  dsimp only
  split
  · exact (modX_only s _).trans (sessionOver_only _)
  · exact modX_only s _

theorem unsupplied_kept (s : State) : s.unsupplied.xpdr.recs = s.xpdr.recs ∧ s.unsupplied.xpdr.vsysLow = true ∧
    s.unsupplied.xpdr.st = s.xpdr.st := by
  unfold State.unsupplied State.sessionOver
  dsimp only
  split <;> simp only [xset_xpdr, State.modX_xpdr, and_self]

theorem unsupplied_session (s : State) : s.unsupplied.xget XSTAT.SESSION = 0 := by
  unfold State.unsupplied
  dsimp only
  split
  · exact (sessionOver_session _).1
  · next h =>
    exact (Cells.get_ne_one_iff .xpdr _ XSTAT.SESSION rfl).1 fun hx => h ((tSession_iff _).2 hx)

theorem supplyDrop_none (hr : s.raised = []) (hS : s.xget XSTAT.SUPPLY ≠ 1) :
    exec .xpdrSupplyDrop s = .next (s.modX fun x => { x with vsysLow := true }) :=
  exec_to rfl (if_pos fun hx => hS ((xget_modX s (fun _ => rfl) _).symm.trans hx)) hr rfl

theorem tFieldGone_only (s : State) : TKilnOnly s s.tFieldGone := by
  obtain ⟨k, h⟩ := tFieldGone_eq s
  rw [h]
  rfl

theorem supplyDrop_gone (hr : s.raised = []) (hS : s.xget XSTAT.SUPPLY = 1) (hH : s.xget XSTAT.H < 15) :
    exec .xpdrSupplyDrop s = .next (s.modX fun x => { x with vsysLow := true }).tFieldGone := by
  have hx (f : Fld) := xget_modX s (g := fun x => { x with vsysLow := true }) (fun _ => rfl) f
  have ho := (tFieldGone_only (s.modX fun x => { x with vsysLow := true })).parts
  exact exec_to rfl ((if_neg fun h => h ((hx _).trans hS)).trans (if_pos (by rw [hx]; exact hH))) (ho.1.trans hr) ho.2

theorem supplyDrop_fresh (hr : s.raised = []) (hS : s.xget XSTAT.SUPPLY = 1) (hH : ¬s.xget XSTAT.H < 15) :
    exec .xpdrSupplyDrop s = .next s.unsupplied.tHarvest.tFresh := by
  have hx (f : Fld) := xget_modX s (g := fun x => { x with vsysLow := true }) (fun _ => rfl) f
  have ho := (((unsupplied_only s).trans (tHarvest_only _)).trans (tFresh_only _)).parts
  refine exec_to rfl ((if_neg fun h => h ((hx _).trans hS)).trans ((if_neg (by rw [hx]; exact hH)).trans ?_)) (ho.1.trans hr) ho.2
  rw [sessionEnd_harvest _ fun h => Bool.false_ne_true h.2.2.symm]
  rfl

end

/-! ## T in service, and started again -/

section
variable (s u : State) (h : Byte) (low : Bool)

theorem protocols_congr {s t : State} (h : t.xpdr.cfg = s.xpdr.cfg) : t.tOsgil = s.tOsgil ∧ t.tAelyr = s.tAelyr := by
  unfold State.tOsgil State.tAelyr State.cfgByte
  rw [h]
  exact ⟨rfl, rfl⟩

theorem onBattery_cfg : u.onBattery.xpdr.cfg = u.xpdr.cfg := by
  simp only [State.onBattery, State.kilnSet_xpdr, xset_xpdr]

theorem tHarvest_cfg : u.tHarvest.xpdr.cfg = u.xpdr.cfg := by
  simp only [State.tHarvest, State.modX_xpdr, State.kilnSet_xpdr, xset_xpdr]

theorem entered_battery_st : u.onBattery.entering.xpdr.st = if u.tOsgil = true ∧ u.tAelyr = false then .opened else .idle := by
  obtain ⟨ho, ha⟩ := protocols_congr (onBattery_cfg u)
  rw [entering_st, ho, ha]

theorem entered_harvest_st : u.tHarvest.entering.xpdr.st = if u.tOsgil = true ∧ u.tAelyr = false then .opened else .idle := by
  obtain ⟨ho, ha⟩ := protocols_congr (tHarvest_cfg u)
  rw [entering_st, ho, ha]

theorem sessionOver_cfg (h : s.xpdr.cfgNext = false) : s.sessionOver.xpdr.cfg = s.xpdr.cfg := by
  show (if s.xpdr.cfgNext = true then _ else s.xpdr.cfg) = s.xpdr.cfg
  rw [h]
  rfl

/-- T in service on battery. -/
theorem entered_battery : u.onBattery.entering.xget XSTAT.SUPPLY = 1 ∧ u.onBattery.entering.xget XSTAT.FIELD = u.xget XSTAT.FIELD ∧
    u.onBattery.entering.xget XSTAT.H = u.xget XSTAT.H ∧ u.onBattery.entering.kilnGet KWSTAT.HARVEST = 0 ∧
    u.onBattery.entering.xpdr.recs = u.xpdr.recs := by
  simp only [entering_xget]
  exact ⟨onBattery_supply u, onBattery_xget u (by decide), onBattery_xget u (by decide), onBattery_harvest u, rfl⟩

theorem entered_battery_only : u.onBattery.entering = { u with
    xpdr := u.onBattery.entering.xpdr, kiln := u.onBattery.entering.kiln } :=
  (onBattery_only u).trans (entering_only _)

theorem entered_harvest_only : u.tHarvest.entering = { u with
    xpdr := u.tHarvest.entering.xpdr, kiln := u.tHarvest.entering.kiln } :=
  (tHarvest_only u).trans (entering_only _)

/-- T in service in harvest mode, its commit reserve not met. -/
theorem entered_harvest : u.tHarvest.entering.xget XSTAT.SUPPLY = 2 ∧ u.tHarvest.entering.xget XSTAT.FIELD = u.xget XSTAT.FIELD ∧
    u.tHarvest.entering.xget XSTAT.H = u.xget XSTAT.H ∧ u.tHarvest.entering.kilnGet KWSTAT.HARVEST = 1 ∧
    u.tHarvest.entering.xpdr.reserve = false ∧ u.tHarvest.entering.xpdr.recs = u.xpdr.recs := by
  simp only [entering_xget]
  exact ⟨tHarvest_supply u, tHarvest_xget u (by decide), tHarvest_xget u (by decide), tHarvest_harvest u, rfl, rfl⟩

/-- T started again on battery. -/
theorem refreshed_battery : u.onBattery.tFresh.xpdr.recs = u.xpdr.recs ∧ u.onBattery.tFresh.xpdr.cfg = u.xpdr.cfg ∧
    u.onBattery.tFresh.xget XSTAT.SUPPLY = 1 ∧ u.onBattery.tFresh.xget XSTAT.SESSION = u.xget XSTAT.SESSION ∧
    u.onBattery.tFresh.kilnGet KWSTAT.HARVEST = 0 ∧ u.onBattery.tFresh.xpdr.closed ∧ u.onBattery.tFresh.xpdr.st =
      if u.xpdr.st = .off then .off else if u.xpdr.st = .opened ∨ u.xpdr.st = .secured then .opened else .idle := by
  have hx : u.onBattery.xpdr.recs = u.xpdr.recs ∧ u.onBattery.xpdr.st = u.xpdr.st := by
    simp only [State.onBattery, State.kilnSet_xpdr, xset_xpdr, and_self]
  obtain ⟨hrecs, hcfg, -, -⟩ := tFresh_kept u.onBattery
  simp only [tFresh_xget]
  exact ⟨hrecs.trans hx.1, hcfg.trans (onBattery_cfg u), onBattery_supply u, onBattery_xget u (by decide), onBattery_harvest u,
    tFresh_closed _, by rw [tFresh_st, hx.2]⟩

/-- T started again in harvest mode. -/
theorem refreshed_harvest : u.tHarvest.tFresh.xpdr.recs = u.xpdr.recs ∧ u.tHarvest.tFresh.xpdr.vsysLow = u.xpdr.vsysLow ∧
    u.tHarvest.tFresh.xpdr.reserve = false ∧ u.tHarvest.tFresh.xget XSTAT.SUPPLY = 2 ∧
    u.tHarvest.tFresh.xget XSTAT.SESSION = u.xget XSTAT.SESSION ∧ u.tHarvest.tFresh.kilnGet KWSTAT.HARVEST = 1 ∧
    u.tHarvest.tFresh.xpdr.closed ∧ u.tHarvest.tFresh.xpdr.st =
      if u.xpdr.st = .off then .off else if u.xpdr.st = .opened ∨ u.xpdr.st = .secured then .opened else .idle := by
  have hx : u.tHarvest.xpdr.recs = u.xpdr.recs ∧ u.tHarvest.xpdr.vsysLow = u.xpdr.vsysLow ∧ u.tHarvest.xpdr.reserve = false ∧
      u.tHarvest.xpdr.st = u.xpdr.st := by
    simp only [State.tHarvest, State.modX_xpdr, State.kilnSet_xpdr, xset_xpdr, and_self]
  obtain ⟨hrecs, -, hlow, hres⟩ := tFresh_kept u.tHarvest
  simp only [tFresh_xget]
  exact ⟨hrecs.trans hx.1, hlow.trans hx.2.1, hres.trans hx.2.2.1, tHarvest_supply u, tHarvest_xget u (by decide),
    tHarvest_harvest u, tFresh_closed _, by rw [tFresh_st, hx.2.2.2]⟩

end

end Sys2Proof.Machine

open Sys2Proof Sys2Proof.Machine

/-- Settles O53, by what a field, a gap, the end of a session and the fall of the supply leave of T and Kiln. -/
theorem framesAndFieldsReachPortT : Obligations.FramesAndFieldsReachPortT := by
  unfold Obligations.FramesAndFieldsReachPortT
  refine ⟨fun i p body s e hr h => ?unheard, fun s hr => exec_to rfl rfl hr rfl, fun s p fits nvm hn => ?heard,
    fun s hr => ⟨fun h battery => ?appears, fun gap hg => ?short, fun gap hF hg => ?long, fun gap hF h1 h5 => ?between,
      fun hS => ?noSession, fun hS => ?ended, fun hS => supplyDrop_none hr hS,
      fun hS hH => supplyDrop_gone hr hS hH, fun hS hH => ?fresh⟩,
    fun s => ?lost, fun s => ⟨tColdStart_eq s, tColdStart_vstore s⟩⟩
  case unheard =>
    obtain ⟨f, e, hf⟩ := airFrame_unheard e h
    exact exec_to e hf hr rfl
  case heard =>
    dsimp only
    rw [heard_at_once hn]
    exact ⟨heard_eq, heard_session, heard_proto, fun f _ hs hp => heard_xget_ne hs hp⟩
  case appears =>
    intro bat i v w
    have hw (low : Bool) : w low = s.fielded h low := rfl
    have hv (low : Bool) : v.tEn = (s.fielded h low).tEn ∧ v.tOsgil = (s.fielded h low).tOsgil ∧
        v.tAelyr = (s.fielded h low).tAelyr ∧ v.xpdr.recs = (s.fielded h low).xpdr.recs := ⟨rfl, rfl, rfl, rfl⟩
    have hbat : bat ↔ (battery && s.dev.vsysOk) = true := (Bool.and_eq_true_iff ..).symm
    clear_value bat v w
    simp only [hw, hbat, ← Bool.and_eq_true]
    refine ⟨fieldAppear_again s hr, fieldAppear_weak s hr, fun hF hn => ⟨fun hen => ?disabled, fun hen hb => ?battery,
      fun hen hb => ?harvest⟩⟩
    case disabled =>
      have hl : (!(battery && s.dev.vsysOk) && s.dev.vsysOk) = (!battery && s.dev.vsysOk) := by
        cases battery <;> cases s.dev.vsysOk <;> rfl
      exact fieldAppear_disabled hr hF (Nat.not_lt.2 hn) hl ((hv _).1.symm.trans hen)
    case battery =>
      rw [if_pos hb] at hn
      obtain ⟨hE, hO, hA, hR⟩ := hv false
      rw [hO, hA, hR]
      obtain ⟨hs, hf, hh, hk, hrecs⟩ := entered_battery (s.fielded h false)
      exact ⟨_, fieldAppear_battery hr hF hb (Nat.not_lt.2 hn) (hE.symm.trans hen), _, _, entered_battery_only _, hs,
        hf.trans (fielded_field ..), hh.trans (fielded_h ..), hk, hrecs, entered_battery_st _⟩
    case harvest =>
      rw [if_neg hb] at hn
      obtain ⟨hE, hO, hA, hR⟩ := hv s.dev.vsysOk
      rw [hO, hA, hR]
      obtain ⟨hs, hf, hh, hk, hres, hrecs⟩ := entered_harvest (s.fielded h s.dev.vsysOk)
      exact ⟨_, fieldAppear_harvest hr hF (Bool.eq_false_iff.2 hb) (Nat.not_lt.2 hn) (hE.symm.trans hen), _, _, entered_harvest_only _, hs,
        hf.trans (fielded_field ..), hh.trans (fielded_h ..), hk, hres, hrecs, entered_harvest_st _⟩
  case short => exact exec_to rfl (if_pos hg) hr rfl
  case long =>
    have ho := (tFieldGone_only s).parts
    exact exec_to rfl ((if_neg (by omega)).trans (if_pos hg)) (ho.1.trans hr) ho.2
  case between =>
    have ho := (tFieldGone_only { s with free := s.free + 1 }).parts
    have e : (if s.xget XSTAT.FIELD = 0 ∨ gap < 1000 then s else if 5000 ≤ gap then s.tFieldGone else
        if (s.drawBool).1 = true then (s.drawBool).2.tFieldGone else (s.drawBool).2) =
        if Config.freeBool s.free = true then ({ s with free := s.free + 1 } : State).tFieldGone else { s with free := s.free + 1 } :=
      (if_neg (by omega)).trans (if_neg (by omega))
    refine ⟨s.free + 1, ?_⟩
    by_cases hl : Config.freeBool s.free = true
    · exact .inr (exec_to rfl (e.trans (if_pos hl)) (ho.1.trans hr) ho.2)
    · exact .inl (exec_to rfl (e.trans (if_neg hl)) hr rfl)
  case noSession => exact exec_to rfl (if_neg fun h => hS ((tSession_iff s).1 h)) hr rfl
  case ended =>
    intro u v back
    have hv : v = s.sessionOver := rfl
    have hback : back ↔ s.vsysBack := Iff.rfl
    clear_value v back
    simp only [hv, hback]
    refine ⟨fun hb => ?harvest, fun hb => ?battery⟩
    case harvest =>
      obtain ⟨hr', hp'⟩ := (sessionOver_only s).parts
      exact exec_to rfl ((if_pos ((tSession_iff s).2 hS)).trans (sessionEnd_harvest s hb)) (hr'.trans hr) hp'
    case battery =>
      have ho := (onBattery_only s.sessionOver).trans (tFresh_only _)
      obtain ⟨hr', hp'⟩ := ((sessionOver_only s).trans ho).parts
      obtain ⟨hrecs, hcfg, hsup, hses, hk, hclosed, hst⟩ := refreshed_battery s.sessionOver
      exact ⟨s.sessionOver.onBattery.tFresh,
        exec_to rfl ((if_pos ((tSession_iff s).2 hS)).trans (sessionEnd_battery s hb)) (hr'.trans hr) hp', _, _, ho,
        hrecs, hcfg, hsup, hses.trans (sessionOver_session s).1, hk, hclosed, hst⟩
  case fresh =>
    have ho := ((unsupplied_only s).trans (tHarvest_only _)).trans (tFresh_only _)
    obtain ⟨hrecs, hlow, hst⟩ := unsupplied_kept s
    obtain ⟨hrecs', hlow', hres, hsup, hses, hk, hclosed, hst'⟩ := refreshed_harvest s.unsupplied
    rw [hst] at hst'
    exact ⟨s.unsupplied.tHarvest.tFresh, supplyDrop_fresh hr hS (Nat.not_lt.2 hH), _, _, ho, hrecs'.trans hrecs, hlow'.trans hlow,
      hres, hsup, hses.trans (unsupplied_session s), hk, hclosed, hst'⟩
  case lost =>
    obtain ⟨k, h⟩ := tFieldGone_eq s
    simp only [tFieldGone_xget]
    rw [h]
    exact ⟨_, k, rfl, rfl, rfl, rfl, ⟨rfl, rfl, rfl, rfl, rfl, rfl, rfl⟩, rfl, rfl, rfl, rfl, rfl, rfl, sessionOver_cfg s, unfielded_gone s⟩
end

section
/-! PROOF. The Aelyr link's protocol state: SCAN, SELECT, HALT, unknown codes, and frames that do not fit
(R145-R147, R150-R152). -/

namespace Sys2Proof.Machine

/-! ## The sibling's arming, and ACTIVE -/

section
variable (s : State)

/-- No sibling is armed. -/
def State.noSibling : State := { s with xpdr := { s.xpdr with sibarm := false } }

theorem tActive_iff : s.tActive = true ↔ s.xpdr.st = .active := beq_iff_eq

end

/-! ## What a frame finds -/

section
variable (s : State) (fits : Bool)

theorem heard_st : (s.heard .aelyr fits false).xpdr.st = s.xpdr.st := by
  rw [heard_eq]
  exact if_neg fun h => absurd h.2.1 (by decide)

theorem heard_tUid : (s.heard .aelyr fits false).tUid = s.tUid := by rw [heard_eq]; rfl

theorem heard_sibarm : (s.heard .aelyr fits false).xpdr.sibarm = s.xpdr.sibarm := by rw [heard_eq]

theorem heard_raised : (s.heard .aelyr fits false).raised = s.raised := by rw [heard_eq]

theorem heard_pending : (s.heard .aelyr fits false).pending = s.pending := by rw [heard_eq]

end

section
variable {s : State} {i : Instr} {body : List Byte} {ok : Bool} {g : State → State} (hr : s.raised = []) (h : Hears s .aelyr body)
include hr h

/-- A frame that moves the protocol state and nothing of the queue. -/
theorem exec_moved {f : State → State} {u : State} (e : exec i = run f) (hf : f s = s.tFrame .aelyr body ok false g)
    (hu : g (s.heard .aelyr ok false) = u) (hur : u.raised = (s.heard .aelyr ok false).raised)
    (hup : u.pending = (s.heard .aelyr ok false).pending) : exec i s = .next u :=
  exec_to e (hf.trans ((tFrame_heard h).trans hu)) ((hur.trans (heard_raised s ok)).trans hr) (hup.trans (heard_pending s ok))

/-- SCAN, SELECT or HALT of another length: PARAM in ACTIVE, silence elsewhere (R145). -/
theorem exec_malformed (e : exec i = run fun s => s.tFrame .aelyr body ok false fun s => if ok then g s else s.tMalformed)
    (hok : ok = false) :
    (s.xpdr.st = .active → exec i s = .next ((s.heard .aelyr false false).tReply [1])) ∧
    (s.xpdr.st ≠ .active → exec i s = .next (s.heard .aelyr false false)) := by
  subst hok
  have hst : (s.heard .aelyr false false).tActive = true ↔ s.xpdr.st = .active := by rw [tActive_iff, heard_st]
  exact ⟨fun ha => exec_moved hr h e rfl (if_pos (hst.2 ha)) rfl rfl, fun ha => exec_moved hr h e rfl (if_neg (mt hst.1 ha)) rfl rfl⟩

/-- SCAN, SELECT or HALT in a frame that fits. -/
theorem exec_fitting {u : State} (e : exec i = run fun s => s.tFrame .aelyr body ok false fun s => if ok then g s else s.tMalformed)
    (hok : ok = true) (hu : g (s.heard .aelyr true false) = u) (hur : u.raised = (s.heard .aelyr true false).raised)
    (hup : u.pending = (s.heard .aelyr true false).pending) : exec i s = .next u := by
  subst hok
  exact exec_moved hr h e rfl hu hur hup

end

/-! ## SCAN (R145, R150) -/

section
variable {v : State} {body : List Byte}

theorem tScan_ignored (hst : v.xpdr.st = .halted)
    (hn : (nbit (byteAt body 0) 0 && prefixFits v.tUid (body.drop 2) (byteAt body 1)) = false) : v.tScan body = v.noSibling :=
  if_pos ⟨hst, by rw [hn]; rfl⟩

/-- A SCAN that T heeds takes it out of ACTIVE and, but from IDLE without a match, to READY. -/
theorem tScan_heeded (h : v.xpdr.st ≠ .halted ∨
    (nbit (byteAt body 0) 0 && prefixFits v.tUid (body.drop 2) (byteAt body 1)) = true) :
    v.tScan body = let fits := prefixFits v.tUid (body.drop 2) (byteAt body 1)
      let u := (if v.tActive = true then v.noSibling.leaveActive else v.noSibling).tGo
        (if (!fits && v.xpdr.st == .idle) = true then .idle else .ready)
      if fits = true then u.tReply u.tUid else u := by
  refine (if_neg fun hx => ?_).trans rfl
  rcases h with h | h
  · exact h hx.1
  · exact absurd hx.2 (by rw [show (nbit (byteAt body 0) 0 && prefixFits v.tUid _ _) = true from h]; decide)

theorem tScan_match (h : v.xpdr.st ≠ .halted ∨ nbit (byteAt body 0) 0 = true) (ha : v.xpdr.st ≠ .active)
    (hm : prefixFits v.tUid (body.drop 2) (byteAt body 1) = true) : v.tScan body = (v.noSibling.tGo .ready).tReply v.tUid := by
  rw [tScan_heeded (h.imp_right fun hb => by rw [hb, hm]; rfl)]
  dsimp only
  rw [hm, if_pos rfl, if_neg (mt (tActive_iff v).1 ha)]
  rfl

theorem tScan_match_active (ha : v.xpdr.st = .active) (hm : prefixFits v.tUid (body.drop 2) (byteAt body 1) = true) :
    v.tScan body = (v.noSibling.leaveActive.tGo .ready).tReply v.tUid := by
  rw [tScan_heeded (.inl (by rw [ha]; decide))]
  dsimp only
  rw [hm, if_pos rfl, if_pos ((tActive_iff v).2 ha)]
  rfl

theorem tScan_other_active (ha : v.xpdr.st = .active) (hm : prefixFits v.tUid (body.drop 2) (byteAt body 1) = false) :
    v.tScan body = v.noSibling.leaveActive.tGo .ready := by
  rw [tScan_heeded (.inl (by rw [ha]; decide))]
  dsimp only
  rw [hm, ha, if_neg Bool.false_ne_true, if_pos ((tActive_iff v).2 ha)]
  rfl

theorem tScan_other (h : v.xpdr.st ≠ .halted) (ha : v.xpdr.st ≠ .active)
    (hm : prefixFits v.tUid (body.drop 2) (byteAt body 1) = false) :
    v.tScan body = v.noSibling.tGo (if v.xpdr.st = .idle then .idle else .ready) := by
  rw [tScan_heeded (.inl h)]
  dsimp only
  rw [hm, if_neg Bool.false_ne_true, if_neg (mt (tActive_iff v).1 ha)]
  simp only [Bool.not_false, Bool.true_and, beq_iff_eq]

/-! ## SELECT (R145, R148) -/

theorem tSelect_halted (hu : body.drop 1 = v.tUid) (hst : v.xpdr.st = .halted) (hb : nbit (byteAt body 0) 1 = false) :
    v.tSelect body = v.noSibling :=
  (if_pos hu).trans (if_pos ⟨hst, by rw [hb]; rfl⟩)

theorem tSelect_own (hu : body.drop 1 = v.tUid) (h : v.xpdr.st ≠ .halted ∨ nbit (byteAt body 0) 1 = true) :
    v.tSelect body = (v.noSibling.leaveActive.tGo .active).tReply v.noSibling.tInfo := by
  refine (if_pos hu).trans ((if_neg fun hx => ?_).trans rfl)
  rcases h with h | h
  · exact h hx.1
  · exact absurd hx.2 (by rw [h]; decide)

theorem tSelect_ready (hu : body.drop 1 ≠ v.tUid) (hst : v.xpdr.st = .ready) : v.tSelect body = { v with
    xpdr := { v.xpdr with sibarm := nbit (byteAt body 0) 0 && body.drop 1 == siblingUid v.tUid } } := by
  refine (if_neg hu).trans ?_
  dsimp only [State.modX]
  rw [hst]
  rfl

theorem tSelect_active (hu : body.drop 1 ≠ v.tUid) (hst : v.xpdr.st = .active) :
    v.tSelect body = v.noSibling.leaveActive.tGo .ready := by
  refine (if_neg hu).trans ?_
  dsimp only [State.modX]
  rw [hst]
  rfl

theorem tSelect_other (hu : body.drop 1 ≠ v.tUid) (hr : v.xpdr.st ≠ .ready) (ha : v.xpdr.st ≠ .active) :
    v.tSelect body = v.noSibling := by
  refine (if_neg hu).trans ?_
  dsimp only [State.modX]
  split
  · next hst => exact absurd hst hr
  · next hst => exact absurd hst ha
  · rfl

/-! ## HALT (R145, R152) -/

/-- A HALT with NEXT takes the sibling's arming. -/
def State.halting (v : State) (body : List Byte) : State := if nbit (byteAt body 0) 0 = true then v.noSibling else v

theorem halting_st : (v.halting body).xpdr.st = v.xpdr.st := by
  unfold State.halting; split <;> rfl

theorem tHalt_active (ha : v.xpdr.st = .active) : v.tHalt body = ((v.halting body).leaveActive.tGo .halted).tReply [0] :=
  if_pos ((tActive_iff (v.halting body)).2 (halting_st.trans ha))

theorem tHalt_next (hst : v.xpdr.st = .ready) (hb : nbit (byteAt body 0) 0 = true) (hs : v.xpdr.sibarm = true) :
    v.tHalt body = (v.noSibling.tGo .active).tReply v.noSibling.tInfo := by
  have hx : v.halting body = v.noSibling := if_pos hb
  refine (if_neg (c := (v.halting body).tActive = true) ?_).trans ((if_pos (c := (v.halting body).xpdr.st = .ready ∧ _)
    ⟨halting_st.trans hst, hb, hs⟩).trans ?_)
  · rw [tActive_iff, halting_st, hst]; decide
  · show ((v.halting body).tGo .active).tReply ((v.halting body).tGo .active).tInfo = _
    rw [hx]
    rfl

theorem tHalt_other (ha : v.xpdr.st ≠ .active) (hn : ¬(v.xpdr.st = .ready ∧ nbit (byteAt body 0) 0 = true ∧ v.xpdr.sibarm = true)) :
    v.tHalt body = v.halting body := by
  refine (if_neg (c := (v.halting body).tActive = true) ?_).trans (if_neg (c := (v.halting body).xpdr.st = .ready ∧ _) ?_)
  · rw [tActive_iff, halting_st]; exact ha
  · rw [halting_st]; exact hn

end

/-! ## None of the three touches the queue -/

section
variable (v : State) (body : List Byte)

/-- The queue of messages is as before. -/
def SameQueue (u v : State) : Prop := u.raised = v.raised ∧ u.pending = v.pending

variable {v} in
theorem SameQueue.ite {c : Prop} [Decidable c] {a b : State} (ha : SameQueue a v) (hb : SameQueue b v) :
    SameQueue (if c then a else b) v := by
  split
  · exact ha
  · exact hb

variable {v} in
theorem SameQueue.reply {u : State} (h : SameQueue u v) (r : List Byte) : SameQueue (u.tReply r) v := h

variable {v} in
theorem SameQueue.go {u : State} (h : SameQueue u v) (t : TState) : SameQueue (u.tGo t) v := h

variable {v} in
theorem SameQueue.leaveActive {u : State} (h : SameQueue u v) : SameQueue u.leaveActive v := h

theorem noSibling_queue : SameQueue v.noSibling v := ⟨rfl, rfl⟩

theorem tScan_queue : SameQueue (v.tScan body) v := by
  have h := noSibling_queue v
  have hgo (t : TState) := (SameQueue.ite (c := v.noSibling.tActive = true) h.leaveActive h).go t
  exact .ite h (.ite ((hgo _).reply _) (hgo _))

theorem tSelect_queue : SameQueue (v.tSelect body) v := by
  have h := noSibling_queue v
  refine .ite (.ite h ((h.leaveActive.go _).reply _)) ?_
  dsimp only [State.modX]
  split
  · exact ⟨rfl, rfl⟩
  · exact h.leaveActive.go _
  · exact h

theorem tHalt_queue : SameQueue (v.tHalt body) v := by
  have h : SameQueue (v.halting body) v := .ite (noSibling_queue v) ⟨rfl, rfl⟩
  exact .ite ((h.leaveActive.go _).reply _) (.ite ((h.go _).reply _) h)

end

/-! ## The rows -/

theorem scan_ignored {s : State} {body : List Byte} (hr : s.raised = []) (h : Hears s .aelyr body) (h2 : 2 ≤ body.length)
    (hl : 63 < byteAt body 1) : exec (.scan body) s = .next (s.heard .aelyr false false) :=
  exec_moved hr h (ok := false) (g := id) rfl (if_pos ⟨h2, hl⟩) rfl rfl rfl

theorem scan_row {body : List Byte} (hl : ¬(2 ≤ body.length ∧ 63 < byteAt body 1)) : exec (.scan body) = run fun s =>
    s.tFrame .aelyr body (2 ≤ body.length && body.length == 2 + (byteAt body 1 + 7) / 8) false fun s =>
      if (2 ≤ body.length && body.length == 2 + (byteAt body 1 + 7) / 8) = true then s.tScan body else s.tMalformed :=
  congrArg run (funext fun _ => if_neg hl)

/-- A command of ACTIVE in another state, or of another length (R147). -/
theorem activeCmd_judged {i : Instr} {body : List Byte} {len : Nat} (e : activeCmd i = some (body, len)) :
    ∃ f, exec i = run fun s => s.tCmd body len f := by
  cases i
  case read | write | lockBlock | areaInfo | authPwd | setPwd | getNonce | unlock | readCnt | incCnt =>
    cases e
    exact ⟨_, rfl⟩
  all_goals exact absurd e nofun

end Sys2Proof.Machine

open Sys2Proof Sys2Proof.Machine

/-- Settles O55, by what SCAN, SELECT and HALT do in each state of the link. -/
theorem aelyrFramesMoveTheProtocolState : Obligations.AelyrFramesMoveTheProtocolState := by
  unfold Obligations.AelyrFramesMoveTheProtocolState
  refine ⟨fun s body hr h => ?_, fun s i body len e h => ?elsewhere, fun s => rfl⟩
  case elsewhere =>
    obtain ⟨f, e⟩ := activeCmd_judged e
    exact ⟨fun ha => leaves_of e (tCmd_silent h ha), fun ha hl => leaves_of e (tCmd_param h ha hl)⟩
  intro v w st x bit0 malformed
  have hx : x = v.noSibling := rfl
  have hst : st = v.xpdr.st := (heard_st s true).symm
  have hu : v.tUid = s.tUid := heard_tUid s true
  have hsib : v.xpdr.sibarm = s.xpdr.sibarm := heard_sibarm s true
  have hbad {i : Instr} {ok : Bool} {g : State → State}
      (e : exec i = run fun s => s.tFrame .aelyr body ok false fun s => if ok then g s else s.tMalformed)
      (hok : ok = false) : malformed i := exec_malformed hr h e hok
  have hfit {i : Instr} {ok : Bool} {g : State → State} {u : State}
      (e : exec i = run fun s => s.tFrame .aelyr body ok false fun s => if ok then g s else s.tMalformed)
      (hok : ok = true) (hq : SameQueue (g v) v) (hg : g v = u) : exec i s = .next u :=
    exec_fitting hr h e hok hg (hg ▸ hq.1) (hg ▸ hq.2)
  have hunknown (code : Byte) (u : State) (hg : (if w.tActive = true then w.tReply [7] else w) = u) (hur : u.raised = w.raised)
      (hup : u.pending = w.pending) : exec (.unknownCode .aelyr code body) s = .next u :=
    exec_moved hr h (g := fun s => if s.tActive = true then s.tReply [7] else s) rfl rfl hg hur hup
  have hwst : w.xpdr.st = st := heard_st s false
  clear_value malformed x st v
  subst hx hst
  rw [← hu, ← hsib]
  refine ⟨?scan, ?select, ?halt, fun code => ⟨fun ha => ?known, fun ha => ?silent⟩⟩
  case scan =>
    refine ⟨fun h2 hl => scan_ignored hr h h2 hl, fun hb => ?_, fun hl hlen => ?_⟩
    · rcases hb with hb | ⟨hl, hb⟩
      · exact hbad (scan_row fun hx => by omega) (by simp; omega)
      · exact hbad (scan_row fun hx => by omega) (by simp; omega)
    · have hgo {u : State} := hfit (u := u) (scan_row (body := body) fun hx => by omega) (by simp; omega) (tScan_queue v body)
      refine ⟨fun hs hn => hgo (tScan_ignored hs ?_), fun hs hb hm => hgo (tScan_match (.inr hb) (hs ▸ nofun) hm),
        fun hs ha hm => hgo (tScan_match (.inl hs) ha hm), fun ha hm => hgo (tScan_match_active ha hm),
        fun ha hm => hgo (tScan_other_active ha (Bool.eq_false_of_not_eq_true hm)),
        fun hs ha hm => hgo (tScan_other hs ha (Bool.eq_false_of_not_eq_true hm))⟩
      exact Bool.eq_false_of_not_eq_true fun hx => hn (Bool.and_eq_true_iff.1 hx)
  case select =>
    have hgo {u : State} (hl : body.length = 9) := hfit (i := .select body) (u := u) rfl (beq_iff_eq.2 hl) (tSelect_queue v body)
    exact ⟨fun hl => hbad (i := .select body) rfl (beq_eq_false_iff_ne.2 hl),
      fun hl hm => ⟨fun hs hb => hgo hl (tSelect_halted hm hs hb), fun hs => hgo hl (tSelect_own hm hs)⟩,
      fun hl hm => ⟨fun hs => hgo hl (tSelect_ready hm hs), fun ha => hgo hl (tSelect_active hm ha),
        fun hr ha => hgo hl (tSelect_other hm hr ha)⟩⟩
  case halt =>
    have hgo {u : State} (hl : body.length = 1) := hfit (i := .aelyrHalt body) (u := u) rfl (beq_iff_eq.2 hl) (tHalt_queue v body)
    exact ⟨fun hl => hbad (i := .aelyrHalt body) rfl (beq_eq_false_iff_ne.2 hl),
      fun hl => ⟨fun ha => hgo hl (tHalt_active ha), fun hs hb ha => hgo hl (tHalt_next hs hb ha),
        fun ha hn => hgo hl (tHalt_other ha hn)⟩⟩
  case known => exact hunknown code _ (if_pos ((tActive_iff w).2 (hwst.trans ha))) rfl rfl
  case silent => exact hunknown code _ (if_neg fun hx => ha (hwst.symm.trans ((tActive_iff w).1 hx))) rfl rfl
end

section
/-! PROOF. The commands of ACTIVE: what each answers, a repeat of a kept exchange, Kiln's random bytes, and a password
attempt (R147, R155-R161, R517). -/

namespace Sys2Proof.Machine

/-! ## A command of ACTIVE in a frame that fits -/

section
variable {s u : State} {i : Instr} {body req : List Byte} {len : Nat} {f : State → State} (h : Hears s .aelyr body)
  (ha : (s.heard .aelyr true true).xpdr.st = .active) (hl : body.length = len)
include h ha hl

theorem leaves_fits (e : exec i = run fun s => s.tCmd body len f) (hu : f (s.heard .aelyr true true) = u) : Leaves i s u :=
  leaves_of e ((tCmd_fits h ha hl).trans hu)

/-- An identical frame gets the kept reply (R159). -/
theorem leaves_repeat (e : exec i = run fun s => s.tCmd body len fun s => s.tSafe req f)
    (hk : (s.heard .aelyr true true).xpdr.keptReq = req) :
    Leaves i s ((s.heard .aelyr true true).tReply (s.heard .aelyr true true).xpdr.keptRsp) :=
  leaves_fits h ha hl e (if_pos hk)

/-- A fresh one is acted on, and its exchange kept. -/
theorem leaves_fresh (e : exec i = run fun s => s.tCmd body len fun s => s.tSafe req f)
    (hk : (s.heard .aelyr true true).xpdr.keptReq ≠ req) (hu : f (s.heard .aelyr true true) = u) : Leaves i s (u.keeping req) :=
  leaves_fits h ha hl e (hu ▸ if_neg hk)

end

/-! ## Records that cannot be read -/

section
variable {s : State}

theorem any_upTo {n b : Nat} {q : Nat → Bool} : ((List.range n).map (b + ·)).any q = true ↔ ∃ j, j < n ∧ q (b + j) = true := by
  simp only [List.any_map, List.any_eq_true, List.mem_range, Function.comp]

theorem isNone_iff {α : Type} {o : Option α} : o.isNone = true ↔ o = none := Option.isNone_iff_eq_none

/-! ## What stops a WRITE or LOCK_BLOCK (R156) -/

theorem writeStop_beyond {b : Nat} (h : 1024 ≤ b) : s.writeStop b = some 1 := if_pos h

section
variable {b : Nat} (hb : b < 1024)
include hb

theorem writeStop_area (h : s.nvRead (areaKey (s.areaOf b)) = none) : s.writeStop b = some 6 :=
  (if_neg (Nat.not_le.2 hb)).trans (if_pos (isNone_iff.2 h))

variable (h : s.nvRead (areaKey (s.areaOf b)) ≠ none)
include h

theorem writeStop_shut (hs : s.areaShut b 1 = true) : s.writeStop b = some 2 :=
  (if_neg (Nat.not_le.2 hb)).trans ((if_neg (mt isNone_iff.1 h)).trans (if_pos hs))

theorem writeStop_open (hs : s.areaShut b 1 = false) : s.writeStop b = match s.nvRead (blockKey b) with
    | none => some 6
    | some c => if c.locked then some 2 else none :=
  (if_neg (Nat.not_le.2 hb)).trans ((if_neg (mt isNone_iff.1 h)).trans (if_neg (Bool.eq_false_iff.1 hs)))

end

/-! ## A password attempt (R157, R158) -/

section
variable {i proto : Nat} {pwd : List Byte}

theorem password_faulted (h : s.nvRead (areaKey i) = none) : s.password i proto pwd = (.memfail, s) := if_pos (isNone_iff.2 h)

variable (h : s.nvRead (areaKey i) ≠ none)
include h

theorem password_locked (hl : areaLocked (s.area i) = true) : s.password i proto pwd = (.locked, s) :=
  (if_neg (mt isNone_iff.1 h)).trans (if_pos hl)

theorem password_attempt (hl : areaLocked (s.area i) = false) : s.password i proto pwd =
    let fails := min 255 (areaFails (s.area i) + 1)
    let x := s.commitFails i fails false
    if !x.1 then (.memfail, x.2)
    else if pwd = areaPwd (s.area i) then
      let y := x.2.commitFails i 0 false
      if y.1 then (.ok, { y.2 with xpdr := { y.2.xpdr with opens := i :: y.2.xpdr.opens.filter (· ≠ i) } }) else (.memfail, y.2)
    else if areaLimit (s.area i) ≤ fails then
      let y := x.2.commitFails i fails true
      if y.1 then (.locked, y.2.enterLockout i proto) else (.memfail, y.2)
    else (.wrong, x.2) :=
  (if_neg (mt isNone_iff.1 h)).trans (if_neg (Bool.eq_false_iff.1 hl))

end

/-! ## The remaining attempts -/

theorem attempts_faulted {i : Nat} (h : s.nvRead (areaKey i) = none) : ∃ n k, n < 256 ∧ s.attempts i = (n, { s with free := k }) :=
  ⟨_, _, freeNat_lt s.free 256 (by decide), if_pos (isNone_iff.2 h)⟩

theorem attempts_read {i : Nat} (h : s.nvRead (areaKey i) ≠ none) :
    s.attempts i = (if areaLocked (s.area i) then 0 else areaLimit (s.area i) - areaFails (s.area i), s) := by
  refine (if_neg (mt isNone_iff.1 h)).trans ?_
  cases areaLocked (s.area i) <;> rfl

/-! ## Kiln's random bytes (R517) -/

section
variable {f : State → State}

theorem tRandom_failed (h : s.kilnGet KWSTAT.TRNG = 3 ∨ s.kilnGet KWSTAT.STATE = 2) : s.tRandom f = s.tReply [6] := if_pos h

/-- T has its bytes at once, or after one to eight extension frames while the TRNG's test runs. -/
theorem tRandom_given (hs : s.kilnGet KWSTAT.STATE ≠ 2) (ht : s.kilnGet KWSTAT.TRNG ≠ 3) : ∃ k e,
    (s.kilnGet KWSTAT.TRNG = 1 → e = s.xpdr.replyExt) ∧ (s.kilnGet KWSTAT.TRNG ≠ 1 → 1 ≤ e ∧ e ≤ 8) ∧
    s.tRandom f = f { s with free := k, xpdr := { s.xpdr with replyExt := e } } := by
  have hx : s.tRandom f = if s.trngReady then f s else f ((s.drawNat 8).2.modX fun x => { x with replyExt := (s.drawNat 8).1 + 1 }) :=
    if_neg fun h => h.elim ht hs
  have hr : s.trngReady = true ↔ s.kilnGet KWSTAT.TRNG = 1 := beq_iff_eq
  by_cases h : s.kilnGet KWSTAT.TRNG = 1
  · exact ⟨s.free, s.xpdr.replyExt, fun _ => rfl, fun hn => absurd h hn, hx.trans (if_pos (hr.2 h))⟩
  · exact ⟨s.free + 1, Config.freeNat s.free % 8 + 1, fun hy => absurd hy h,
      fun _ => ⟨by omega, Nat.mod_lt _ (by decide)⟩, hx.trans (if_neg (mt hr.1 h))⟩

end

end

end Sys2Proof.Machine

open Sys2Proof Sys2Proof.Machine

/-- Settles O56, command by command in the order of its checks. -/
theorem commandsInActiveAnswerTheirStatus : Obligations.CommandsInActiveAnswerTheirStatus := by
  unfold Obligations.CommandsInActiveAnswerTheirStatus
  refine ⟨fun s body h => ?commands, fun s b => ⟨writeStop_beyond, writeStop_area, fun hb hn => ⟨writeStop_shut hb hn, fun hs => ?stop⟩⟩,
    fun s i proto pwd => ⟨password_faulted, password_locked, fun hn hl => ?attempt⟩, fun s i => ⟨attempts_faulted, attempts_read⟩⟩
  case stop =>
    rw [writeStop_open hb hn hs]
    exact ⟨fun hc => by rw [hc], fun c hc => by rw [hc]⟩
  case attempt =>
    rw [password_attempt hn hl]
    refine ⟨fun hx => if_pos ?_, fun hx hp => ?_, fun hx hp hf => ?_, fun hx hp hf => ?_⟩
    · exact congrArg not hx
    · exact (if_neg (by rw [show (s.commitFails i _ false).1 = true from hx]; decide)).trans (if_pos hp)
    · exact (if_neg (by rw [show (s.commitFails i _ false).1 = true from hx]; decide)).trans ((if_neg hp).trans (if_pos hf))
    · exact (if_neg (by rw [show (s.commitFails i _ false).1 = true from hx]; decide)).trans ((if_neg hp).trans (if_neg (Nat.not_le.2 hf)))
  case commands =>
    intro v ha b a tells bad
    have fits {i : Instr} {len : Nat} {f : State → State} {u : State} (hl : body.length = len)
        (e : exec i = run fun s => s.tCmd body len f) (hu : f v = u) : Leaves i s u := leaves_fits h ha hl e hu
    have again {i : Instr} {len : Nat} {f : State → State} {req : List Byte} (hl : body.length = len)
        (e : exec i = run fun s => s.tCmd body len fun s => s.tSafe req f) (hk : v.xpdr.keptReq = req) :
        tells i v.xpdr.keptRsp := leaves_repeat h ha hl e hk
    have fresh {i : Instr} {len : Nat} {f : State → State} {req : List Byte} {u : State} (hl : body.length = len)
        (e : exec i = run fun s => s.tCmd body len fun s => s.tSafe req f) (hk : v.xpdr.keptReq ≠ req) (hu : f v = u) :
        Leaves i s (u.keeping req) := leaves_fresh h ha hl e hk hu
    have hbad {k : Nat} : (v.nvRead k).isNone = true ↔ bad k := isNone_iff
    clear_value v
    refine ⟨fun hl => ?read, fun hl => ?write, fun hl => ?lock, fun hl => ?info, fun hl => ?inc, fun hl => ?pwd, fun hl => ?nonce⟩
    case read =>
      intro n i
      have hno {q : Nat → Bool} (hq : ∀ j, j < n → q (b + j) ≠ true) : ¬((List.range n).map (b + ·)).any q = true :=
        fun hx => (any_upTo.1 hx).elim fun j hj => hq j hj.1 hj.2
      refine ⟨fun hb => fits hl rfl (if_pos hb), fun h1 h4 hb => ?_⟩
      have hn : ¬(n = 0 ∨ 4 < n ∨ 1024 < b + n) := by omega
      refine ⟨fun ⟨j, hj, hf⟩ => fits hl rfl ((if_neg hn).trans (if_pos (any_upTo.2 ⟨j, hj, hbad.2 hf⟩))), fun harea => ?_⟩
      have hrec := hno (q := fun i => (v.nvRead (areaKey (v.areaOf i))).isNone) fun j hj hx => harea j hj (hbad.1 hx)
      refine ⟨fun ⟨j, hj, hs⟩ => fits hl rfl ((if_neg hn).trans ((if_neg hrec).trans (if_pos (any_upTo.2 ⟨j, hj, hs⟩)))),
        fun hopen => ?_⟩
      have hshut := hno (q := fun i => v.areaShut i 0) fun j hj => Bool.eq_false_iff.1 (hopen j hj)
      refine ⟨fun ⟨j, hj, hf⟩ => fits hl rfl ((if_neg hn).trans ((if_neg hrec).trans ((if_neg hshut).trans
        (if_pos (any_upTo.2 ⟨j, hj, Bool.or_eq_true_iff.2 (.inr (hbad.2 hf))⟩))))), fun hblock => ?_⟩
      have hread := hno (q := v.blockFault) fun j hj hx =>
        (Bool.or_eq_true_iff.1 hx).elim (fun hx => harea j hj (hbad.1 hx)) fun hx => hblock j hj (hbad.1 hx)
      refine fits hl rfl ((if_neg hn).trans ((if_neg hrec).trans ((if_neg hshut).trans ((if_neg hread).trans ?_))))
      rw [List.flatMap_map]
    case write =>
      refine ⟨fun st hs => fits hl rfl ?_, fun hs => fits hl rfl ?_⟩
      · dsimp only
        rw [show v.writeStop (leAt body 0 2) = some st from hs]
      · dsimp only
        rw [show v.writeStop (leAt body 0 2) = none from hs]
        rfl
    case lock =>
      refine ⟨fun st hs => fits hl rfl ?_, fun hs => fits hl rfl ?_⟩
      · dsimp only
        rw [show v.writeStop (leAt body 0 2) = some st from hs]
      · dsimp only
        rw [show v.writeStop (leAt body 0 2) = none from hs]
        rfl
    case info =>
      refine ⟨fun ha => fits hl rfl (if_pos ha), fun ha hf => fits hl rfl ((if_neg (Nat.not_le.2 ha)).trans (if_pos (hbad.2 hf))),
        fun ha hf => fits hl rfl ((if_neg (Nat.not_le.2 ha)).trans (if_neg (mt hbad.1 hf))), fun ha => fits hl rfl (if_pos ha),
        fun ha hf => fits hl rfl ((if_neg (Nat.not_le.2 ha)).trans ?_), fun ha r hf => fits hl rfl ((if_neg (Nat.not_le.2 ha)).trans ?_)⟩
      · rw [show v.nvRead (counterKey (byteAt body 0)) = none from hf]
      · rw [show v.nvRead (counterKey (byteAt body 0)) = some r from hf]
    case inc =>
      intro n i req
      refine ⟨fun hk => again hl rfl hk, fun hk => ?_⟩
      have ends {u : State} := fresh (i := i) (u := u) hl rfl hk
      refine ⟨fun hp => ends (if_pos hp), fun ha hn => ?_⟩
      have hp : ¬(16 ≤ a ∨ n = 0) := by omega
      refine ⟨fun hg hs => ends ((if_neg hp).trans (if_pos ⟨hg, by rw [hs]; rfl⟩)), fun hg => ?_⟩
      have hopen : ¬(v.tGuard a ≠ 0xFF ∧ (!v.areaOpen (v.tGuard a)) = true) := fun ⟨h1, h2⟩ =>
        hg.elim h1 fun hx => by rw [hx] at h2; exact absurd h2 (by decide)
      refine ⟨fun hf => ends ((if_neg hp).trans ((if_neg hopen).trans ?_)), fun r hf => ⟨fun hv => ends ((if_neg hp).trans ((if_neg hopen).trans ?_)), fun hv => ends ((if_neg hp).trans ((if_neg hopen).trans ?_))⟩⟩
      · rw [show v.nvRead (counterKey (byteAt body 0)) = none from hf]
      · rw [show v.nvRead (counterKey (byteAt body 0)) = some r from hf]
        exact if_pos hv
      · rw [show v.nvRead (counterKey (byteAt body 0)) = some r from hf]
        exact (if_neg (Nat.not_le.2 hv)).trans (apply_ite (State.tReply _) _ _ _).symm
    case pwd =>
      refine ⟨⟨fun hk => again hl rfl hk, fun hk => ?_⟩, fun hk => again hl rfl hk, fun hk => ?_⟩
      · have ends {u : State} := fresh (i := .authPwd body) (u := u) hl rfl hk
        refine ⟨fun ha => ends (if_pos ha), fun ha => ends ((if_neg (Nat.not_le.2 ha)).trans ?_)⟩
        dsimp only
        cases (v.password a 1 (body.drop 2)).1 <;> rfl
      · have ends {u : State} := fresh (i := .setPwd body) (u := u) hl rfl hk
        refine ⟨fun ha => ends (if_pos ha), fun ha hf => ends ((if_neg (Nat.not_le.2 ha)).trans (if_pos (hbad.2 hf))), fun ha hf hs =>
          ends ((if_neg (Nat.not_le.2 ha)).trans ((if_neg (mt hbad.1 hf)).trans (if_pos ?_))), fun ha hf hs =>
          ends ((if_neg (Nat.not_le.2 ha)).trans ((if_neg (mt hbad.1 hf)).trans (if_neg ?_)))⟩
        · exact congrArg not hs
        · exact (congrArg not hs).trans_ne Bool.false_ne_true
    case nonce =>
      refine ⟨fun ht => fits hl rfl (tRandom_failed ht), fun hs ht => ?_⟩
      obtain ⟨k, e, h1, h2, hf⟩ := tRandom_given (f := fun s =>
        ((s.drawBytes 8).2.modX fun x => { x with nonce := some (s.drawBytes 8).1 }).tReply ([0] ++ (s.drawBytes 8).1)) hs ht
      exact ⟨randomFrom k 8, k + 8, e, randomFrom_length k 8, h1, h2, fits hl rfl hf⟩
end

section
/-! PROOF. UNLOCK, the arming of the emergency latch, its opening with counter and record, and its ends (R160, R263,
R274-R277). -/

namespace Sys2Proof.Machine

/-! ## Whether a record can be committed now -/

section
variable {s : State}

theorem not_mayCommit_iff : ¬MayCommit s ↔ s.kilnGet KWSTAT.STATE = 2 ∨ (!s.ashMay) = true := by
  unfold MayCommit
  rw [not_and_or, not_not, Bool.not_eq_true, Bool.not_eq_true']

theorem mayCommit_not (h : MayCommit s) : ¬(s.kilnGet KWSTAT.STATE = 2 ∨ (!s.ashMay) = true) :=
  fun hx => not_mayCommit_iff.2 hx h

end

/-! ## A correct UNLOCK -/

section
variable {s : State} {a : Nat}

theorem unlockKey_service (he : s.eoEn = true) (ha : a = s.cfgByte 15) :
    s.unlockKey a = (s.keyFor (s.cfgByte 3) [1] 2).map (·.key) :=
  if_pos (Bool.and_eq_true_iff.2 ⟨he, beq_iff_eq.2 ha⟩)

theorem unlockKey_admin (h : s.eoEn = false ∨ a ≠ s.cfgByte 15) :
    s.unlockKey a = (s.keyFor (s.cfgByte 2) [1] 1).map (·.key) := by
  refine if_neg fun hx => ?_
  obtain ⟨he, ha⟩ := Bool.and_eq_true_iff.1 hx
  exact h.elim (fun h => absurd (h.symm.trans he) Bool.false_ne_true) fun h => h (beq_iff_eq.1 ha)

theorem applyUnlock_fst (s : State) (a : Nat) : (s.applyUnlock a).1 =
    (s.fieldCommit (areaKey a) ((s.area a).take 6 ++ [0, 0] ++ (s.area a).drop 8) false).1 := rfl

theorem applyUnlock_snd (s : State) (a : Nat) : (s.applyUnlock a).2 =
    let x := s.fieldCommit (areaKey a) ((s.area a).take 6 ++ [0, 0] ++ (s.area a).drop 8) false
    if x.1 = true ∧ areaLocked (s.area a) = true then x.2.lockoutRecord a (some 1) (some 1) (some 1) (some 0xFF) else x.2 := by
  unfold State.applyUnlock
  simp only [Bool.and_eq_true]

theorem armRecord_none (h : ¬MayCommit s) : s.armRecord a = none := if_pos (not_mayCommit_iff.1 h)

theorem armRecord_some (h : MayCommit s) : s.armRecord a = some (s.ashCommit
    { type := 0x0051, source := 8, flags := s.ashFlags, time := s.ashTime, data := s.tUid ++ leBytes 1 a ++ leBytes 1 (s.xget XSTAT.SUPPLY) }) :=
  if_neg (mayCommit_not h)

/-- The opening's area while EMOPEN is idle: an UNLOCK there arms T (R274, R277). -/
theorem arms_iff : (s.eoEn && a == s.cfgByte 15 && s.xget XEOSTAT.FIRING == 0) = true ↔
    s.eoEn = true ∧ a = s.cfgByte 15 ∧ s.xget XEOSTAT.FIRING = 0 := by
  simp only [Bool.and_eq_true, beq_iff_eq, and_assoc]

theorem unlockOk_plain (h : ¬(s.eoEn = true ∧ a = s.cfgByte 15 ∧ s.xget XEOSTAT.FIRING = 0)) :
    s.unlockOk a = (s.applyUnlock a).2.tReply [if (s.applyUnlock a).1 then 0 else 6] := if_neg (mt arms_iff.1 h)

section
variable (h : s.eoEn = true ∧ a = s.cfgByte 15 ∧ s.xget XEOSTAT.FIRING = 0)
include h

theorem unlockOk_unrecorded (hm : ¬MayCommit s) : s.unlockOk a = s.tReply [6] := by
  refine (if_pos (arms_iff.2 h)).trans ?_
  rw [armRecord_none hm]

theorem unlockOk_arms {r : State} (hr : s.armRecord a = some r) :
    s.unlockOk a = if (r.applyUnlock a).1 then (r.applyUnlock a).2.eoArm.tReply [0] else (r.applyUnlock a).2.tReply [6] := by
  refine (if_pos (arms_iff.2 h)).trans ?_
  rw [hr]

end

end

/-! ## The opening (R275) -/

/-- The opening once its counter has counted: its record, then EMOPEN and its event, or the end of the arming. -/
def State.opening (u : State) (value cnt : Nat) : State :=
  if u.kilnGet KWSTAT.STATE = 2 ∨ !u.ashMay then u.eoDisarm
  else
    let vs := u.xget XEOSTAT.VSTORE
    let data := leBytes 2 vs ++ leBytes 4 value ++ leBytes 1 cnt ++ leBytes 1 (u.xget XSTAT.SUPPLY)
    let t := u.ashCommit { type := 0x0052, source := 8, flags := u.ashFlags, time := u.ashTime, data := data }
    let w := (t.eoDisarm.xset XEOSTAT.FIRING 1).xset XEOSTAT.FIRED 1
    if u.xget XSTAT.SUPPLY = 1 ∧ w.hostOn then w.raiseOwner 8 0x0682 (leBytes 2 vs ++ leBytes 4 value) else w

section
variable (u : State) (a value cnt : Nat)

theorem eoDisarm_dev : u.eoDisarm.dev = u.dev := by
  unfold State.eoDisarm
  rw [State.xset_dev, State.xset_dev]

theorem hostOn_of_dev {u w : State} (h : w.dev = u.dev) : w.hostOn = u.hostOn := by
  unfold State.hostOn
  rw [h]

theorem openedWith_opening : u.openedWith value cnt (u.opening value cnt) := by
  unfold State.openedWith State.opening
  intro vs w
  have hon : w.hostOn = u.hostOn := hostOn_of_dev (by rw [State.xset_dev, State.xset_dev, eoDisarm_dev]; rfl)
  refine ⟨fun hm => if_pos (not_mayCommit_iff.1 hm), fun hm hs ho => ?_, fun hm hx => ?_⟩
  · exact (if_neg (mayCommit_not hm)).trans (if_pos ⟨hs, hon.trans ho⟩)
  · refine (if_neg (mayCommit_not hm)).trans (if_neg fun hy => ?_)
    exact hx.elim (fun hx => hx hy.1) fun hx => Bool.eq_false_iff.1 hx (hon.symm.trans hy.2)

variable {u a}

/-! ### A commit leaves the latched counter -/

theorem nvFault_eoCnt (k : Nat) : (u.nvFault k).xpdr.eoCnt = u.xpdr.eoCnt := by
  unfold State.nvFault
  rw [ash_frame]
  rfl

theorem repair_eoCnt : u.repair.xpdr.eoCnt = u.xpdr.eoCnt := by
  unfold State.repair
  split
  · rfl
  · split
    · rfl
    · dsimp only
      split
      · rfl
      · exact nvFault_eoCnt _

theorem commit_eoCnt (k : Nat) (data : List Byte) (locked : Bool) : (u.commit k data locked).2.xpdr.eoCnt = u.xpdr.eoCnt := by
  unfold State.commit
  split
  · rfl
  · dsimp only
    split
    · exact (nvFault_eoCnt _).trans repair_eoCnt
    · split
      · exact (nvFault_eoCnt _).trans repair_eoCnt
      · exact repair_eoCnt

theorem fieldCommit_eoCnt (k : Nat) (data : List Byte) (locked : Bool) :
    (u.fieldCommit k data locked).2.xpdr.eoCnt = u.xpdr.eoCnt := by
  unfold State.fieldCommit
  dsimp only
  split
  · exact commit_eoCnt k data locked
  · exact commit_eoCnt k data locked

theorem eoCount_eoCnt : (u.eoCount a).2.xpdr.eoCnt = u.xpdr.eoCnt := by
  unfold State.eoCount
  split
  · rfl
  · split
    · rfl
    · exact fieldCommit_eoCnt _ _ _

/-- Without a counter VALUE and CNT are free. -/
theorem eoOpen_uncounted (h : u.xpdr.eoCnt = none) :
    u.eoOpen = ({ u with free := u.free + 2 } : State).opening (Config.freeNat u.free % 2 ^ 32) (Config.freeNat (u.free + 1) % 256) := by
  unfold State.eoOpen
  rw [h]
  dsimp only [State.drawNat]
  rw [h]
  rfl

theorem eoOpen_counted (h : u.xpdr.eoCnt = some a) :
    u.eoOpen = match (u.eoCount a).1 with
      | none => (u.eoCount a).2.eoDisarm
      | some v => (u.eoCount a).2.opening v a := by
  unfold State.eoOpen
  dsimp only
  rw [h]
  dsimp only
  rw [eoCount_eoCnt, h]
  rfl

theorem eoCount_faulted (h : u.nvRead (counterKey a) = none) : u.eoCount a = (none, u) := by
  unfold State.eoCount
  rw [h]

section
variable {r : NvCopy} (h : u.nvRead (counterKey a) = some r)
include h

theorem eoCount_full (hv : 2 ^ 32 ≤ r.value + 1) : u.eoCount a = (none, u) := by
  unfold State.eoCount
  rw [h]
  exact if_pos hv

theorem eoCount_counts (hv : r.value + 1 < 2 ^ 32) : u.eoCount a =
    let x := u.fieldCommit (counterKey a) (leBytes 4 (r.value + 1) ++ r.data.drop 4) false
    (if x.1 then some (r.value + 1) else none, x.2) := by
  unfold State.eoCount
  rw [h]
  exact if_neg (Nat.not_le.2 hv)

end

/-! ## The arming (R274, R277) -/

/-- VTH, PULSE and the counter latched. -/
def State.latched (u : State) : State := { u with xpdr := { u.xpdr with
  eoVth := 200 + 5 * min 50 (u.cfgByte 17), eoPulse := max 1 (min 100 (u.cfgByte 18))
  eoCnt := if u.eoCntEn then some (u.cfgByte 16) else none } }

theorem eoArm_eq : u.eoArm = if u.latched.xpdr.eoVth ≤ u.xget XEOSTAT.VSTORE then (u.latched.xset XEOSTAT.ARMED 1).eoOpen
    else (u.latched.xset XEOSTAT.ARMED 1).xset XEOSTAT.CHARGING 1 := by
  have hv : (u.latched.xset XEOSTAT.ARMED 1).xget XEOSTAT.VSTORE = u.xget XEOSTAT.VSTORE :=
    (xget_xset_ne _ _ _ _ (by decide) (by decide)).trans rfl
  have ht : (u.latched.xset XEOSTAT.ARMED 1).xpdr.eoVth = u.latched.xpdr.eoVth := by rw [xset_xpdr]
  rw [← hv, ← ht]
  rfl

/-! ## The end of the arming leaves the charge and the queue -/

theorem eoDisarm_vstore : u.eoDisarm.xget XEOSTAT.VSTORE = u.xget XEOSTAT.VSTORE := by
  unfold State.eoDisarm
  rw [xget_xset_ne _ _ _ _ (by decide) (by decide), xget_xset_ne _ _ _ _ (by decide) (by decide)]

theorem eoDisarm_ashMay : u.eoDisarm.ashMay = u.ashMay := by
  unfold State.eoDisarm State.ashMay State.kilnGet
  rw [State.xset_kiln, State.xset_kiln, xset_xpdr, xset_xpdr]

theorem eoDisarm_raised : u.eoDisarm.raised = u.raised := by
  unfold State.eoDisarm
  rw [State.xset_raised, State.xset_raised]

theorem eoDisarm_pending : u.eoDisarm.pending = u.pending := by
  unfold State.eoDisarm
  rw [State.xset_pending, State.xset_pending]

end

end Sys2Proof.Machine

open Sys2Proof Sys2Proof.Machine

/-- Settles O57, by the rules of UNLOCK, of the arming and of the opening. -/
theorem unlocksArmAndOpenTheLatch : Obligations.UnlocksArmAndOpenTheLatch := by
  unfold Obligations.UnlocksArmAndOpenTheLatch
  refine ⟨fun s body h hl => ?unlock, fun s a => ⟨unlockKey_service, unlockKey_admin, ?correct, ?arming,
    fun hc => ?uncounted, fun hc hf => ?faulted, fun hc r hf => ?counted, rfl⟩, fun s vs => ?ends⟩
  case unlock =>
    intro v ha a req ends
    have again : v.xpdr.keptReq = req → Leaves (.unlock body) s (v.tReply v.xpdr.keptRsp) := leaves_repeat h ha hl rfl
    have fresh {f : State → State} {u : State} (e : exec (.unlock body) = run fun s => s.tCmd body 10 fun s => s.tSafe req f)
        (hk : v.xpdr.keptReq ≠ req) (hu : f v = u) : ends u := leaves_fresh h ha hl e hk hu
    clear_value v
    refine ⟨again, fun hk => ⟨fun hkey => fresh rfl hk ?_, fun key hkey => ⟨fun hc => fresh rfl hk ?_, fun hc hf => fresh rfl hk ?_,
      fun hc hf => ⟨fun hn => fresh rfl hk ?_, fun n hn => ⟨fun hg => fresh rfl hk ?_, fun hg => fresh rfl hk ?_⟩⟩⟩⟩⟩
    all_goals dsimp only; rw [show v.unlockKey (byteAt body 0) = _ from hkey]
    · exact if_pos hc
    · exact (if_neg (Nat.not_le.2 hc)).trans (if_pos (isNone_iff.2 hf))
    all_goals refine (if_neg (Nat.not_le.2 hc)).trans ((if_neg (mt isNone_iff.1 hf)).trans ?_); rw [hn]
    · exact if_pos hg
    · exact if_neg hg
  case correct =>
    intro put clears arms r
    have hclears (u : State) : clears u (u.applyUnlock a) := ⟨applyUnlock_fst u a, applyUnlock_snd u a⟩
    exact ⟨fun ha => ⟨_, hclears s, unlockOk_plain ha⟩, unlockOk_unrecorded,
      fun ha hm => ⟨_, hclears r, unlockOk_arms ha (armRecord_some hm)⟩⟩
  case arming =>
    intro u w
    exact ⟨fun hv => eoArm_eq.trans (if_pos hv), fun hv => eoArm_eq.trans (if_neg (Nat.not_le.2 hv))⟩
  case uncounted =>
    rw [eoOpen_uncounted hc]
    exact ⟨_, _, s.free + 2, freeNat_lt _ _ (by decide), freeNat_lt _ _ (by decide), openedWith_opening _ _ _⟩
  case faulted =>
    rw [eoOpen_counted hc, eoCount_faulted hf]
  case counted =>
    rw [eoOpen_counted hc]
    intro x
    refine ⟨fun hv => ?_, fun hv hx => ?_, fun hv hx => ?_⟩
    · rw [eoCount_full hf hv]
    · rw [eoCount_counts hf hv]
      dsimp only
      rw [show (s.fieldCommit (counterKey a) (leBytes 4 (r.value + 1) ++ r.data.drop 4) false).1 = false from hx]
      rfl
    · rw [eoCount_counts hf hv]
      dsimp only
      rw [show (s.fieldCommit (counterKey a) (leBytes 4 (r.value + 1) ++ r.data.drop 4) false).1 = true from hx]
      exact openedWith_opening _ _ _
  case ends =>
    refine ⟨fun hg => leaves_of rfl (if_pos hg), fun hg hr => exec_to rfl (if_neg hg) hr rfl, fun hr ha => exec_to rfl (if_pos ha) hr rfl,
      fun hr ha hm => exec_to rfl ((if_neg ha).trans (if_neg ?_)) (eoDisarm_raised.trans hr) eoDisarm_pending,
      fun hr ha hm => exec_to rfl ((if_neg ha).trans ((if_pos ?_).trans ?_)) ((ash_parts _ _ _ _).1.trans (eoDisarm_raised.trans hr))
        ((ash_parts _ _ _ _).2.trans eoDisarm_pending),
      fun hr hf => exec_to rfl (if_pos hf) ?_ ?_, fun hr hf => exec_to rfl (if_neg hf) hr rfl⟩
    · rw [eoDisarm_ashMay, hm]; decide
    · rw [eoDisarm_ashMay, hm]
    · rw [eoDisarm_vstore]
    · rw [State.xset_raised, State.xset_raised, hr]
    · rw [State.xset_pending, State.xset_pending]
end

section
/-! PROOF. Distance bounding on the tag's side: DB_BEGIN, the sync, the challenges, DB_END and the end of DB_ARMED
(R162-R167). -/

namespace Sys2Proof.Machine

/-! ## DB_BEGIN and DB_END with distance bounding off and on (R147, R162) -/

section
variable {s : State} {body : List Byte} {len : Nat} {f : State → State}

theorem tDbCmd_offered (h : s.tDb = true) : s.tDbCmd body len f = s.tCmd body len f := if_pos h

theorem tDbCmd_unsupported (hd : s.tDb = false) (h : Hears s .aelyr body) (ha : (s.heard .aelyr true true).xpdr.st = .active) :
    s.tDbCmd body len f = (s.heard .aelyr true true).tReply [7] :=
  (if_neg (Bool.eq_false_iff.1 hd)).trans ((tFrame_heard h).trans (if_pos ((tActive_iff _).2 ha)))

theorem tDbCmd_unsupported_silent (hd : s.tDb = false) (h : Hears s .aelyr body)
    (ha : (s.heard .aelyr true true).xpdr.st ≠ .active) : s.tDbCmd body len f = (s.heard .aelyr true true).tQuiet :=
  (if_neg (Bool.eq_false_iff.1 hd)).trans ((tFrame_heard h).trans (if_neg (mt (tActive_iff _).1 ha)))

/-- A command of distance bounding, with the length of its body. -/
def dbCommand (body : List Byte) (i : Instr) (len : Nat) : Prop := i = .dbBegin body ∧ len = 9 ∨ i = .dbEnd body ∧ len = 0

theorem exec_dbCommand {i : Instr} (h : dbCommand body i len) : ∃ f, exec i = run fun s => s.tDbCmd body len f := by
  rcases h with ⟨rfl, rfl⟩ | ⟨rfl, rfl⟩
  · exact ⟨_, rfl⟩
  · exact ⟨_, rfl⟩

end

end Sys2Proof.Machine

open Sys2Proof Sys2Proof.Machine

/-- Settles O58, by the rules of the two commands and the rows of the rapid phase. -/
theorem theTagAnswersTheRapidPhase : Obligations.TheTagAnswersTheRapidPhase := by
  unfold Obligations.TheTagAnswersTheRapidPhase
  refine ⟨fun s body h => ?commands, fun s hr => ?phase⟩
  case commands =>
    intro v
    refine ⟨fun hd i hi => ?off, fun hd => ⟨fun i n hi => ?judged, fun ha hl => ?begin, fun ha hl => ?ends⟩⟩
    case off =>
      obtain ⟨n, hi⟩ : ∃ n, dbCommand body i n := hi.elim (fun hi => ⟨9, .inl ⟨hi, rfl⟩⟩) fun hi => ⟨0, .inr ⟨hi, rfl⟩⟩
      obtain ⟨f, e⟩ := exec_dbCommand hi
      exact ⟨fun ha => leaves_of e (tDbCmd_unsupported hd h ha), fun ha => leaves_of e (tDbCmd_unsupported_silent hd h ha)⟩
    case judged =>
      obtain ⟨f, e⟩ := exec_dbCommand hi
      exact ⟨fun ha => leaves_of e ((tDbCmd_offered hd).trans (tCmd_silent h ha)),
        fun ha hl => leaves_of e ((tDbCmd_offered hd).trans (tCmd_param h ha hl))⟩
    case begin =>
      have fits {f : State → State} {u : State} (e : exec (.dbBegin body) = run fun s => s.tDbCmd body 9 f) (hu : f v = u) :
          Leaves (.dbBegin body) s u := leaves_of e ((tDbCmd_offered hd).trans ((tCmd_fits h ha hl).trans hu))
      clear_value v
      intro n i nr
      refine ⟨fun hn => fits rfl (if_pos hn), fun h1 h2 => ?_⟩
      have hn : ¬(n < 16 ∨ 64 < n) := by omega
      refine ⟨fun ht => fits rfl ((if_neg hn).trans (tRandom_failed ht)), fun hs ht => ?_⟩
      obtain ⟨k, e, h1, h2, hf⟩ := tRandom_given (f := fun s =>
        ((s.drawBytes 8).2.modX fun x => { x with
          dbArmed := true, dbSync := false, dbN := n, nr, nt := (s.drawBytes 8).1
          a := Config.aes128 ((s.drawBytes 8).2.tDbKey.getD []) (nr ++ (s.drawBytes 8).1), crx := [] }).tReply ([0] ++ (s.drawBytes 8).1)) hs ht
      exact ⟨randomFrom k 8, k + 8, e, randomFrom_length k 8, h1, h2, fits rfl ((if_neg hn).trans hf)⟩
    case ends =>
      have fits {f : State → State} {u : State} (e : exec (.dbEnd body) = run fun s => s.tDbCmd body 0 f) (hu : f v = u) :
          Leaves (.dbEnd body) s u := leaves_of e ((tDbCmd_offered hd).trans ((tCmd_fits h ha hl).trans hu))
      clear_value v
      exact ⟨fun hx => fits rfl (if_pos (congrArg not hx)),
        fun hx => fits rfl (if_neg ((congrArg not hx).trans_ne Bool.false_ne_true))⟩
  case phase =>
    intro x q
    have on {b : Bool} (h : b = true) : ¬(!b) = true := (congrArg not h).trans_ne Bool.false_ne_true
    refine ⟨fun pilot ha => exec_to rfl (if_pos (congrArg not ha)) hr rfl, fun pilot ha hs => ?second, fun ha hs => ?sync, fun ha hs => ?noPilot,
      fun c ha hs hn => ?answer, fun c hx => ?silent, fun ha hs => ?timeout, fun hx => ?stays⟩
    case second =>
      refine exec_to rfl ((if_neg (on ha)).trans ((if_pos hs).trans ?_)) hr rfl
      by_cases hx : x.crx.length = x.dbN
      · rw [decide_eq_true hx, ← show s.xpdr.dbArmed = true from ha]
        exact if_pos hx
      · rw [decide_eq_false hx]
        exact if_neg hx
    case sync => exact exec_to rfl ((if_neg (on ha)).trans ((if_neg (Bool.eq_false_iff.1 hs)).trans (if_pos rfl))) hr rfl
    case noPilot => exact ⟨_, _, exec_to rfl ((if_neg (on ha)).trans ((if_neg (Bool.eq_false_iff.1 hs)).trans (if_neg Bool.false_ne_true))) hr rfl⟩
    case answer =>
      refine exec_to rfl (if_pos ?_) hr rfl
      rw [show s.xpdr.dbArmed = true from ha, show s.xpdr.dbSync = true from hs]
      exact decide_eq_true hn
    case silent =>
      refine exec_to rfl (if_neg ?_) hr rfl
      rw [Bool.and_eq_true, Bool.and_eq_true, decide_eq_true_eq]
      rintro ⟨⟨ha, hs⟩, hn⟩
      rcases hx with hx | hx | hx
      · exact Bool.eq_false_iff.1 hx ha
      · exact Bool.eq_false_iff.1 hx hs
      · exact Nat.not_le.2 hn hx
    case timeout =>
      refine exec_to rfl (if_pos ?_) hr rfl
      rw [show s.xpdr.dbArmed = true from ha, show s.xpdr.dbSync = false from hs]
      rfl
    case stays =>
      refine exec_to rfl (if_neg ?_) hr rfl
      rw [Bool.and_eq_true, Bool.not_eq_true']
      rintro ⟨ha, hs⟩
      exact hx.elim (fun hx => Bool.eq_false_iff.1 hx ha) fun hx => Bool.eq_false_iff.1 hs hx
end

section
/-! PROOF. The commands of Osgil: frames without a rule, pages, and the password of area 1 (R168-R170, R172). -/

namespace Sys2Proof.Machine

/-! ## Frames that no rule answers: no answer, or a free status byte -/

/-- No answer, or one status byte. -/
def State.freeReply (s : State) : State :=
  if Config.freeBool s.free then ({ s with free := s.free + 2 } : State).tReply (leBytes 1 (Config.freeNat (s.free + 1) % 256))
  else { s with free := s.free + 2 }

theorem freeReply_eq (s : State) : ∃ (yes : Bool) (st f : Nat), st < 256 ∧
    s.freeReply = { s with free := f, xpdr := { s.xpdr with reply := if yes then leBytes 1 st else s.xpdr.reply } } := by
  refine ⟨Config.freeBool s.free, _, s.free + 2, freeNat_lt (s.free + 1) 256 (by decide), ?_⟩
  unfold State.freeReply
  cases Config.freeBool s.free <;> rfl

section
variable {s u : State} {i : Instr} {body : List Byte} {len : Nat} {f : State → State} (h : Hears s .osgil body)
include h

theorem leaves_osgil (e : exec i = run fun s => s.oCmd body len f) (hl : body.length = len)
    (hu : f (s.heard .osgil true true) = u) : Leaves i s u :=
  leaves_of e ((oCmd_fits h hl).trans hu)

theorem oCmd_unfit (hl : body.length ≠ len) : s.oCmd body len f = (s.heard .osgil false true).freeReply := by
  have hb : (body.length == len) = false := beq_eq_false_iff_ne.2 hl
  unfold State.oCmd
  dsimp only
  rw [tFrame_heard h, hb]
  rfl

theorem unknown_osgil (code : Byte) : Leaves (.unknownCode .osgil code body) s (s.heard .osgil false false).freeReply :=
  leaves_of rfl (tFrame_heard h)

end

/-- The commands of Osgil, with the length of each body. -/
def osgilCommand (body : List Byte) (i : Instr) (n : Nat) : Prop :=
  (i = .getId body ∨ i = .logout body) ∧ n = 0 ∨ (i = .readPage body ∨ i = .lockPage body) ∧ n = 1 ∨
    (i = .login body ∨ i = .setPassword body) ∧ n = 4 ∨ i = .writePage body ∧ n = 5

theorem exec_osgilCommand {i : Instr} {body : List Byte} {n : Nat} (h : osgilCommand body i n) :
    ∃ f, exec i = run fun s => s.oCmd body n f := by
  rcases h with ⟨rfl | rfl, rfl⟩ | ⟨rfl | rfl, rfl⟩ | ⟨rfl | rfl, rfl⟩ | ⟨rfl, rfl⟩ <;> exact ⟨_, rfl⟩

/-! ## What stops a page command (R172) -/

section
variable {s : State} {p : Nat}

theorem tSecured_iff : s.tSecured = true ↔ s.xpdr.st = .secured := beq_iff_eq

theorem not_tSecured_iff : (!s.tSecured) = true ↔ s.xpdr.st ≠ .secured := by
  rw [Bool.not_eq_true', ← Bool.not_eq_true, tSecured_iff]

theorem pageStop_beyond (h : 63 < p) : s.pageStop p = some 0x0B := if_pos h

theorem pageStop_denied (h : p ≤ 63) (hd : p < 2 ∨ s.xpdr.st ≠ .secured) : s.pageStop p = some 0x0A :=
  (if_neg (Nat.not_lt.2 h)).trans (if_pos (hd.imp_right not_tSecured_iff.2))

theorem pageStop_secured (h2 : 2 ≤ p) (h : p ≤ 63) (hs : s.xpdr.st = .secured) : s.pageStop p = match s.nvRead (blockKey (p / 4)) with
    | none => some 0x0A
    | some c => if c.locked then some 0x0A else none :=
  (if_neg (Nat.not_lt.2 h)).trans (if_neg fun hd => hd.elim (Nat.not_lt.2 h2) fun hx => not_tSecured_iff.1 hx hs)

theorem pageStop_refused (h : p ≤ 63) (hd : p < 2 ∨ s.xpdr.st ≠ .secured ∨ s.nvRead (blockKey (p / 4)) = none) :
    s.pageStop p = some 0x0A := by
  by_cases hp : p < 2 ∨ s.xpdr.st ≠ .secured
  · exact pageStop_denied h hp
  · rw [not_or, not_not] at hp
    obtain ⟨h2, hs⟩ := hp
    have hn : s.nvRead (blockKey (p / 4)) = none := hd.resolve_left h2 |>.resolve_left (not_not.2 hs)
    rw [pageStop_secured (Nat.not_lt.1 h2) h hs, hn]

end

end Sys2Proof.Machine

open Sys2Proof Sys2Proof.Machine

/-- Settles O59, command by command. -/
theorem osgilFramesReachBlocksAndAreaOne : Obligations.OsgilFramesReachBlocksAndAreaOne := by
  unfold Obligations.OsgilFramesReachBlocksAndAreaOne
  refine ⟨fun s body h => ?commands, fun s p => ⟨pageStop_beyond, pageStop_refused, fun h2 h hs c hc => ?stop⟩⟩
  case stop => rw [pageStop_secured h2 h hs, hc]
  case commands =>
    intro v p k bad d answers ends
    have fits {i : Instr} {n : Nat} {f : State → State} {u : State} (hl : body.length = n)
        (e : exec i = run fun s => s.oCmd body n f) (hu : f v = u) : Leaves i s u := leaves_osgil h e hl hu
    clear_value v
    refine ⟨fun i n hi hl => ?unfit, fun code => ?unknown, fun hl => ⟨fits hl rfl rfl,
      fun hs => fits hl rfl (if_pos (tSecured_iff.2 hs)), fun hs => fits hl rfl (if_neg (mt tSecured_iff.1 hs))⟩, fun hl => ?page,
      fun hl => ?write, fun hl => ?password⟩
    case unfit =>
      obtain ⟨f, e⟩ := exec_osgilCommand hi
      obtain ⟨yes, st, k, hst, hk⟩ := freeReply_eq (s.heard .osgil false true)
      exact ⟨yes, st, k, hst, leaves_of e ((oCmd_unfit h hl).trans hk)⟩
    case unknown =>
      obtain ⟨yes, st, k, hst, hk⟩ := freeReply_eq (s.heard .osgil false false)
      exact ⟨yes, st, k, hst, hk ▸ unknown_osgil h code⟩
    case page =>
      have hread {u : State} (hp : p ≤ 63) (hu : (if (16 ≤ p ∧ (!v.tSecured) = true) ∨ v.blockFault (p / 4) = true then v.tReply [0x0A]
          else v.tReply ([0] ++ (d.drop k).take 4)) = u) : Leaves (.readPage body) s u :=
        fits hl rfl ((if_neg (Nat.not_lt.2 hp)).trans hu)
      refine ⟨fun hp => fits hl rfl (if_pos hp), fun h16 hp hs => hread hp (if_pos (.inl ⟨h16, not_tSecured_iff.2 hs⟩)),
        fun hp hf => hread hp (if_pos (.inr hf)), fun hp hf => hread (by omega) (if_neg ?_), fun st hs => fits hl rfl ?_, fun hs => fits hl rfl ?_⟩
      · rintro (⟨h16, hs⟩ | hx)
        · exact hp.elim (fun hp => Nat.not_lt.2 h16 hp) fun hp => not_tSecured_iff.1 hs hp.2
        · exact Bool.eq_false_iff.1 hf hx
      · dsimp only
        rw [show v.pageStop (byteAt body 0) = some st from hs]
      · dsimp only
        rw [show v.pageStop (byteAt body 0) = none from hs]
        rfl
    case write =>
      refine ⟨fun st hs => fits hl rfl ?_, fun hs => fits hl rfl ?_⟩
      · dsimp only
        rw [show v.pageStop (byteAt body 0) = some st from hs]
      · dsimp only
        rw [show v.pageStop (byteAt body 0) = none from hs]
        rfl
    case password =>
      refine ⟨⟨fun hx => fits hl rfl ?_, fun hx => fits hl rfl ?_, fun hx => fits hl rfl ?_, fun hx => fits hl rfl ?_⟩,
        fun hx => fits hl rfl (if_pos (hx.imp not_tSecured_iff.2 isNone_iff.2)), fun hs hn => fits hl rfl (if_neg fun hx => ?_)⟩
      case refine_5 => exact hx.elim (fun hx => not_tSecured_iff.1 hx hs) fun hx => hn (isNone_iff.1 hx)
      all_goals dsimp only; rw [show (v.password 1 2 body).1 = _ from hx]
end

section
/-! PROOF. The XPDR commands as Hearth judges them: what fits, what waits behind a session, and what is read (R172,
R259, R266, R267, R379-R381). -/

namespace Sys2Proof.Machine

/-! ## Commands that change T's records -/

section
variable {s : State} {c : Cmd}

theorem hostChange_session (h : s.tSession = true) : s.hostChange c =
    ({ s with xpdr := { s.xpdr with deferred := s.xpdr.deferred ++ [⟨c, false⟩] } } : State).respond c St.PENDING := if_pos h

theorem hostChange_commits (h : s.tSession = false) : s.hostChange c = (iter State.commitDeferred 8 s).begin c .kiln :=
  if_neg (Bool.eq_false_iff.1 h)

theorem commitDeferred_none (h : s.xpdr.deferred = []) (n : Nat) : iter State.commitDeferred n s = s := by
  induction n with
  | zero => rfl
  | succ n ih =>
    have hs : s.commitDeferred = s := by
      unfold State.commitDeferred
      rw [h]
    show iter State.commitDeferred n s.commitDeferred = s
    rw [hs, ih]

/-- A command whose row makes a change does as R267 says. -/
theorem changes_of {i : Instr} {o : Op} {h : HostCmd} (e : hostOp i = some (o, h))
    (hb : o.body (o.cmd h) (s.opened (o.cmd h)) = (s.opened (o.cmd h)).hostChange (o.cmd h))
    (hg : o.gate (o.cmd h) (s.opened (o.cmd h)) = o.gate (o.cmd h) s)
    (hs : ∀ c s, o.onSegment c 0 s = s) : Changes i s o h := by
  have hnone (hd : s.xpdr.deferred = []) : iter State.commitDeferred 8 (s.opened (o.cmd h)) = s.opened (o.cmd h) :=
    commitDeferred_none (s := s.opened (o.cmd h)) hd 8
  exact ⟨fun ht => answered_of e (fun _ => hb.trans (hostChange_session ht)) rfl rfl rfl hg hs,
    fun ht hd => waiting_of e (hb.trans ((hostChange_commits (s := s.opened (o.cmd h)) ht).trans (by rw [hnone hd]))) rfl rfl hg hs,
    fun ht => runs_of e (hb.trans (hostChange_commits ht)) hg hs⟩

/-! ## What fits -/

theorem osgilFits_iff (a b : Nat) : osgilFits a b = true ↔ a = 4 ∧ b = 12 := by
  unfold osgilFits
  rw [Bool.and_eq_true, beq_iff_eq, beq_iff_eq]

theorem bodyXpdrConfig_cases (c : Cmd) (s : State) :
    (XpdrConfigFits s c.payload ∧ bodyXpdrConfig c s = s.hostChange c) ∨
    (¬XpdrConfigFits s c.payload ∧ bodyXpdrConfig c s = s.respond c St.BAD_PARAM) := by
  unfold bodyXpdrConfig XpdrConfigFits
  dsimp only
  simp only [List.all_eq_true, Bool.not_eq_true', ← Bool.not_eq_true, List.mem_range, Bool.or_eq_true, decide_eq_true_eq, beq_iff_eq,
    ← osgilFits_iff]
  split
  next h =>
    refine .inr ⟨fun ⟨h1, h2, h3, h4, h5, h6, h7, h8⟩ => ?_, rfl⟩
    rcases h with h | h | h | h | h | h | h | h
    · omega
    · exact h h2
    · omega
    · omega
    · omega
    · omega
    · exact h h7
    · exact h.2 (h8 h.1)
  next h =>
    simp only [not_or, not_and, not_not, Nat.not_le] at h
    exact .inl ⟨h, rfl⟩

theorem bodyXpdrAreaSet_short (h : c.payload.length ≠ 4 + 8 * byteAt c.payload 0) : bodyXpdrAreaSet c s = s.respond c St.BAD_LENGTH :=
  if_pos h

theorem bodyXpdrAreaSet_cases (hl : c.payload.length = 4 + 8 * byteAt c.payload 0) :
    (AreaSetFits s c.payload ∧ bodyXpdrAreaSet c s = s.hostChange c) ∨
    (¬AreaSetFits s c.payload ∧ bodyXpdrAreaSet c s = s.respond c St.BAD_PARAM) := by
  unfold bodyXpdrAreaSet AreaSetFits
  dsimp only
  rw [if_neg (not_not.2 hl)]
  simp only [List.all_eq_true, Bool.not_eq_true', ← Bool.not_eq_true, List.mem_range, Bool.and_eq_true, decide_eq_true_eq,
    ← osgilFits_iff, and_assoc]
  split
  next h =>
    refine .inr ⟨fun ⟨h1, h2, h3⟩ => ?_, rfl⟩
    rcases h with h | h | h
    · exact h h1
    · exact h h2
    · exact h.2 (h3 h.1)
  next h =>
    simp only [not_or, not_and, not_not] at h
    obtain ⟨h1, h2, h3⟩ := h
    exact .inl ⟨h1, h2, h3, rfl⟩

end

/-! ## XPDR_READ (R266, R273) -/

section
variable {s : State} {c : Cmd}

theorem nvData_of_read {k : Nat} {r : NvCopy} (h : s.nvRead k = some r) : s.nvData k = r.data := by
  unfold State.nvData
  rw [h]

/-- Every block of a range can be read, or one cannot. -/
theorem any_faulted (b n : Nat) : ((List.range n).map fun i => s.nvRead (blockKey (b + i))).any (·.isNone) = true ↔
    ∃ i, i < n ∧ s.nvRead (blockKey (b + i)) = none := by
  simp only [List.any_map, List.any_eq_true, List.mem_range, Function.comp, isNone_iff]

theorem blocks_read {b n : Nat} (h : ∀ i, i < n → s.nvRead (blockKey (b + i)) ≠ none) :
    (((List.range n).map fun i => s.nvRead (blockKey (b + i))).flatMap fun r => padTo 16 ((r.map (·.data)).getD [])) =
      (List.range n).flatMap fun i => padTo 16 (s.nvData (blockKey (b + i))) := by
  rw [List.flatMap_map]
  refine List.flatMap_congr fun i hi => ?_
  obtain ⟨r, hr⟩ := Option.ne_none_iff_exists'.1 (h i (List.mem_range.1 hi))
  rw [nvData_of_read hr, hr]
  rfl

theorem blocks_length (b n : Nat) : ((List.range n).flatMap fun i => padTo 16 (s.nvData (blockKey (b + i)))).length = 16 * n := by
  simp only [List.length_flatMap, padTo_length, List.map_const', List.sum_replicate, List.length_range, smul_eq_mul]
  omega

theorem readPackets_one {b n f : Nat} {l : List Byte} (h : n ≤ 255) (hl : l.length = 16 * n) :
    readPackets b l (f + 1) n = [leBytes 2 b ++ leBytes 1 n ++ [0] ++ l] := by
  unfold readPackets
  dsimp only
  rw [if_pos h, Nat.min_eq_right h, ← hl, List.take_length]

theorem bodyXpdrRead_reads (hn : ¬(leAt c.payload 2 2 < 1 ∨ 1024 < leAt c.payload 2 2 ∨ 1024 < leAt c.payload 0 2 + leAt c.payload 2 2))
    (h : ∀ i, i < leAt c.payload 2 2 → s.nvRead (blockKey (leAt c.payload 0 2 + i)) ≠ none) :
    bodyXpdrRead c s = s.respondPkts c St.OK (readPackets (leAt c.payload 0 2)
      ((List.range (leAt c.payload 2 2)).flatMap fun i => padTo 16 (s.nvData (blockKey (leAt c.payload 0 2 + i)))) 5 (leAt c.payload 2 2)) := by
  refine (if_neg hn).trans ((if_neg fun hy => ?_).trans ?_)
  · obtain ⟨i, hi, hf⟩ := (any_faulted _ _).1 hy
    exact h i hi hf
  · rw [blocks_read h]

end

/-! ## XPDR_AREA_INFO (R379) -/

theorem areas_faulted {s : State} : ((List.range s.areaCount).any fun i => (s.nvRead (areaKey i)).isNone) = true ↔
    ∃ i, i < s.areaCount ∧ s.nvRead (areaKey i) = none := by
  simp only [List.any_eq_true, List.mem_range, isNone_iff]

/-! ## A lockout's record without its PROTO -/

theorem lockoutRecord_denied (s : State) (a h : Nat) : s.lockoutRecord a none (some 2) (some 2) (some h) =
    ({ s with free := s.free + 1 } : State).ash 0x0050 8 (leBytes 1 a ++ leBytes 1 (areaLimit (s.area a))
      ++ leBytes 1 (Config.freeNat s.free % 256) ++ [2, 2] ++ leBytes 1 h) :=
  congrArg (fun d => ({ s with free := s.free + 1 } : State).ash 0x0050 8 (d ++ leBytes 1 h))
    (List.append_assoc (leBytes 1 a ++ leBytes 1 (areaLimit (s.area a)) ++ leBytes 1 (Config.freeNat s.free % 256)) (leBytes 1 2) (leBytes 1 2))

/-! ## The records that a command commits (R381) -/

section
variable {s : State} {c : Cmd}

theorem blockPlan_eq (b : Nat) (l : List Byte) (n : Nat) :
    blockPlan b l n = (List.range n).map fun i => (blockKey (b + i), (l.drop (16 * i)).take 16) := by
  induction n generalizing b l with
  | zero => rfl
  | succ n ih =>
    rw [List.range_succ_eq_map, List.map_cons, List.map_map]
    refine congrArg₂ List.cons rfl ((ih (b + 1) (l.drop 16)).trans (List.map_congr_left fun i _ => ?_))
    simp only [Function.comp, List.drop_drop, Nat.succ_eq_add_one, Nat.mul_succ, Nat.add_assoc, Nat.add_comm 1]
    rw [Nat.add_comm 16]

theorem hostPlan_write (h : c.opcode = 0x0603) : s.hostPlan c = .ok ((List.range (byteAt c.payload 2)).map fun i =>
    (blockKey (leAt c.payload 0 2 + i), (c.payload.drop (4 + 16 * i)).take 16)) := by
  unfold State.hostPlan
  rw [h]
  refine congrArg Except.ok ((blockPlan_eq _ _ _).trans ?_)
  simp only [List.drop_drop]

theorem hostPlan_count (h : c.opcode = 0x0605) : s.hostPlan c = match s.nvRead (counterKey (byteAt c.payload 0)) with
    | none => .error 3
    | some r => if 2 ^ 32 ≤ r.value + leAt c.payload 4 4 then .error 4
      else .ok [(counterKey (byteAt c.payload 0), leBytes 4 (r.value + leAt c.payload 4 4) ++ r.data.drop 4)] := by
  unfold State.hostPlan
  rw [h]
  rfl

theorem hostPlan_error {e : Nat} (h : s.hostPlan c = .error e) : e = 3 ∨ e = 4 := by
  unfold State.hostPlan at h
  dsimp only at h
  split at h
  · cases h
  · cases h
  · cases h
  · split at h
    · exact .inl (Except.error.inj h).symm
    · split at h
      · exact .inr (Except.error.inj h).symm
      · cases h

end

end Sys2Proof.Machine
end

section
/-! PROOF. Kiln's end of a command on port T, and XPDR_UNLOCK (R268, R381, R382, R514, R527). -/

namespace Sys2Proof.Machine

section
variable {s : State} {c : Cmd}

/-! ## What the answer of a commit says -/

theorem hostCommitDone_error {e : Nat} (h : s.hostPlan c = .error e) : s.hostCommitDone c = s.respond c (hostStatus e) := by
  have he : e ≠ 0 := by
    rcases hostPlan_error h with rfl | rfl <;> decide
  unfold State.hostCommitDone State.hostCommit
  rw [h]
  dsimp only
  rw [if_neg he]

section
variable {plan : List (Nat × List Byte)} (h : s.hostPlan c = .ok plan)
include h

theorem hostCommitDone_failed (hx : (s.commitAll plan 0).1 ≠ 0) :
    s.hostCommitDone c = (s.commitAll plan 0).2.2.respond c (hostStatus (s.commitAll plan 0).1) := by
  unfold State.hostCommitDone State.hostCommit
  rw [h]
  dsimp only
  rw [if_neg hx, if_pos (.inr hx)]

/-- A command other than XPDR_CONFIG, all of whose records are committed. -/
theorem hostCommitDone_other (hx : (s.commitAll plan 0).1 = 0) (ho : c.opcode ≠ 0x0600) :
    s.hostCommitDone c = (s.commitAll plan 0).2.2.respond c St.OK (match c.opcode.toNat with
      | 0x0603 => leBytes 1 (s.commitAll plan 0).2.1
      | 0x0605 => ((s.commitAll plan 0).2.2.nvData (counterKey (byteAt c.payload 0))).take 4
      | _ => []) := by
  unfold State.hostCommitDone State.hostCommit
  rw [h]
  dsimp only
  rw [hx, if_pos rfl, if_pos (.inl ho)]
  rfl

/-- XPDR_CONFIG committed: in force at once, or at the end of the session (R256). -/
theorem hostCommitDone_config (hx : (s.commitAll plan 0).1 = 0) (ho : c.opcode = 0x0600) :
    s.hostCommitDone c = (if (s.commitAll plan 0).2.2.tSession then
        { (s.commitAll plan 0).2.2 with xpdr := { (s.commitAll plan 0).2.2.xpdr with cfgNext := true } }
      else (s.commitAll plan 0).2.2.loadCfg).respond c St.OK := by
  unfold State.hostCommitDone State.hostCommit
  rw [h]
  dsimp only
  rw [hx, if_pos rfl, if_neg (fun hy => hy.elim (fun hy => hy ho) fun hy => hy rfl), ho]
  rfl

end

theorem hostTDone_commit (h : c.opcode ≠ 0x0607) : s.hostTDone c = s.hostCommitDone c := if_neg h

/-! ## Kiln ends a command on T -/

theorem hostPlan_running (l : List Running) : ({ s with running := l } : State).hostPlan c = s.hostPlan c := rfl

theorem kilnDone_onT (hc : c.target = 8) (hk : s.kilnGet KWSTAT.STATE = 1) (hn : needsRandom c.opcode.toNat = false) :
    s.kilnDone c = s.hostTDone c := by
  refine (if_neg fun hx => ?_).trans (if_pos hc)
  rcases hx with hx | ⟨hx, -⟩
  · rw [hk] at hx
    exact absurd hx (by decide)
  · exact Bool.eq_false_iff.1 hn hx

theorem kilnEnds_onT {r : Running} {u : State} (h : KilnEndsT s r)
    (hu : ({ s with running := dropFirst s.kilnEnds s.running } : State).hostTDone r.cmd = u) : Leaves .kilnOperationDone s u := by
  obtain ⟨hf, ht, hk, hv, hn⟩ := h
  refine leaves_of rfl ((if_neg fun hx => ?_).trans ?_)
  · rcases hx with hx | hx
    · exact absurd (hk.symm.trans hx) (by decide)
    · exact absurd (hv.symm.trans hx) (by decide)
  · rw [hf]
    exact (kilnDone_onT (s := { s with running := dropFirst s.kilnEnds s.running }) ht hk hn).trans hu

end

/-! ## XPDR_UNLOCK verified (R382, R527) -/

section
variable {s : State} {c : Cmd}

/-- Past its checks the command spends the nonce: AUTH_FAIL without one that lives, else Kiln verifies. -/
theorem bodyXpdrUnlock_judged (ha : byteAt c.payload 0 < s.areaCount) (hr : s.nvRead (areaKey (byteAt c.payload 0)) ≠ none)
    (hl : areaLocked (s.area (byteAt c.payload 0)) = true) (hk : s.unlockKeys ≠ []) : bodyXpdrUnlock c s =
    let t : State := { s with kiln := { s.kiln with nonceX := none } }
    match s.liveNonce s.kiln.nonceX with
    | none => (t.lockoutRecord (byteAt c.payload 0) none (some 2) (some 2) (some c.hp.val)).respond c St.AUTH_FAIL
    | some n => t.begin { c with payload := c.payload ++ n } .kiln := by
  refine (if_neg (Nat.not_le.2 ha)).trans ((if_neg (mt isNone_iff.1 hr)).trans ((if_neg fun hx => ?_).trans rfl))
  rw [hl] at hx
  exact hx.elim (fun hx => absurd hx (by decide)) hk

/-- One of the keys that may clear a lockout verifies AUTH. -/
def State.authVerifies (s : State) (c : Cmd) : Prop := ∃ k ∈ s.unlockKeys, Config.ecdsaVerify k
  (Config.sha256 ([0x55, BitVec.ofNat 8 (byteAt c.payload 0)] ++ c.payload.drop 68 ++ s.tUid)) ((c.payload.drop 4).take 64) = true

theorem hostTDone_unlock (ho : c.opcode = 0x0607) (h : s.authVerifies c) : s.hostTDone c =
    let x := s.clearArea (byteAt c.payload 0)
    if x.1 then (x.2.lockoutRecord (byteAt c.payload 0) none (some 1) (some 2) (some c.hp.val)).respond c St.OK
    else x.2.respond c St.INTERNAL_ERROR :=
  (if_pos ho).trans (if_pos (List.any_eq_true.2 h))

theorem hostTDone_denied (ho : c.opcode = 0x0607) (h : ¬s.authVerifies c) : s.hostTDone c =
    (s.lockoutRecord (byteAt c.payload 0) none (some 2) (some 2) (some c.hp.val)).respond c St.AUTH_FAIL :=
  (if_pos ho).trans (if_neg (mt List.any_eq_true.1 h))

end

end Sys2Proof.Machine
end

section
/-! PROOF. The XPDR commands: judged, deferred, committed and answered (R172, R259, R264, R266-R268, R273, R379-R382). -/

open Sys2Proof Sys2Proof.Machine

/-- Settles O52, by the judgement of each command and by what Kiln's end of it answers. -/
theorem hostCommandsOnPortTAreJudgedDeferredOrCommitted : Obligations.HostCommandsOnPortTAreJudgedDeferredOrCommitted := by
  unfold Obligations.HostCommandsOnPortTAreJudgedDeferredOrCommitted
  refine ⟨fun s h => ?commands, fun s r hk => ?ends, fun s c => ⟨hostPlan_write, fun ho => ?counted⟩⟩
  case counted =>
    refine ⟨fun hr => ?_, fun r hr hv => ?_, fun r hr hv => ?_⟩
    · rw [hostPlan_count ho, hr]
    · rw [hostPlan_count ho, hr]
      exact if_pos hv
    · rw [hostPlan_count ho, hr]
      exact if_neg (Nat.not_le.2 hv)
  case ends =>
    intro c t ends
    have hend {u : State} (hu : t.hostTDone c = u) : ends u := kilnEnds_onT hk hu
    have hplan : t.hostPlan c = s.hostPlan c := hostPlan_running _
    have hkeys : t.unlockKeys = s.unlockKeys := rfl
    have huid : t.tUid = s.tUid := rfl
    clear_value t
    refine ⟨fun ho => ?commit, fun ho => ?unlock⟩
    case commit =>
      have hend {u : State} (hu : t.hostCommitDone c = u) : ends u := hend ((hostTDone_commit ho).trans hu)
      refine ⟨fun e he => hend (hostCommitDone_error (hplan.trans he)), fun plan hp => ?_⟩
      have hp := hplan.trans hp
      refine ⟨fun hx => hend (hostCommitDone_failed hp hx), fun hx ho => hend ?_, fun hx ho => hend ?_, fun hx ho => hend ?_,
        fun hx ho hs => hend ?_, fun hx ho hs => hend ?_⟩
      · rw [hostCommitDone_other hp hx (by rw [ho]; decide), ho]
        rfl
      · rw [hostCommitDone_other hp hx (by rw [ho]; decide), ho]
        rfl
      · rw [hostCommitDone_other hp hx (by rw [ho]; decide), ho]
        rfl
      · rw [hostCommitDone_config hp hx ho, if_pos hs]
      · rw [hostCommitDone_config hp hx ho, if_neg (Bool.eq_false_iff.1 hs)]
        rfl
    case unlock =>
      intro area good x
      have hgood : t.authVerifies c ↔ good := by
        unfold State.authVerifies
        rw [hkeys, huid]
      refine ⟨fun hg hx => hend ((hostTDone_unlock ho (hgood.2 hg)).trans (if_pos hx)),
        fun hg hx => hend ((hostTDone_unlock ho (hgood.2 hg)).trans (if_neg (Bool.eq_false_iff.1 hx))),
        fun hg => hend (hostTDone_denied ho (mt hgood.1 hg))⟩
  case commands =>
    intro l b n
    refine ⟨fun hf => ?_, fun hf => ?_, fun hl => ?_, fun hl hf => ?_, fun hl hf => ?_, fun hl => ?_, fun hl hf => ?_, fun hl h1 h2 h3 => ?_,
      fun hf => ?_, fun h1 h2 => ?_, fun hf => ?_, fun h1 h2 h3 => ?read, fun hb => ?_, fun hb hr => ?_, fun hb r hr => ?_, fun hx => ?_,
      fun hx => ?_, ?_, fun ha => ?_, fun ha => ?unlock⟩
    · exact answered_of rfl (fun _ => ((bodyXpdrConfig_cases _ _).resolve_left fun x => hf x.1).2) rfl rfl rfl
    · exact changes_of rfl ((bodyXpdrConfig_cases _ _).resolve_right fun x => x.1 hf).2 rfl fun _ _ => rfl
    · exact answered_of rfl (fun _ => bodyXpdrAreaSet_short hl) rfl rfl rfl
    · exact answered_of rfl (fun _ => ((bodyXpdrAreaSet_cases hl).resolve_left fun x => hf x.1).2) rfl rfl rfl
    · exact changes_of rfl ((bodyXpdrAreaSet_cases hl).resolve_right fun x => x.1 hf).2 rfl fun _ _ => rfl
    · exact answered_of rfl (fun _ => if_pos hl) rfl rfl rfl
    · exact answered_of rfl (fun _ => (if_neg (not_not.2 hl)).trans (if_pos hf)) rfl rfl rfl
    · have hf : ¬(b 2 < 1 ∨ 16 < b 2 ∨ 1024 < n 0 2 + b 2) := by omega
      exact changes_of rfl ((if_neg (not_not.2 hl)).trans (if_neg hf)) rfl fun _ _ => rfl
    · exact answered_of rfl (fun _ => if_pos hf) rfl rfl rfl
    · have hf : ¬(15 < b 0 ∨ n 4 4 = 0) := by omega
      exact changes_of rfl (if_neg hf) rfl fun _ _ => rfl
    · exact answered_of rfl (fun _ => if_pos hf) rfl rfl rfl
    case read =>
      have hn : ¬(n 2 2 < 1 ∨ 1024 < n 2 2 ∨ 1024 < n 0 2 + n 2 2) := by omega
      refine ⟨fun hx => answered_of rfl (fun _ => (if_neg hn).trans (if_pos ((any_faulted _ _).2 hx))) rfl rfl rfl, fun hx => ?_⟩
      have hread := bodyXpdrRead_reads (s := s.opened (opXpdrRead.cmd h)) (c := opXpdrRead.cmd h) hn hx
      refine ⟨fun h255 => answered_of rfl (fun _ => hread.trans ?_) rfl rfl rfl, runs_of rfl hread⟩
      rw [readPackets_one (n := leAt (opXpdrRead.cmd h).payload 2 2) h255 (blocks_length _ _)]
      rfl
    · exact answered_of rfl (fun _ => if_pos hb) rfl rfl rfl
    · refine answered_of rfl (fun _ => (if_neg (Nat.not_lt.2 hb)).trans ?_) rfl rfl rfl
      rw [show (s.opened _).nvRead (counterKey (byteAt (opXpdrCntRead.cmd h).payload 0)) = none from hr]
    · refine answered_of rfl (fun _ => (if_neg (Nat.not_lt.2 hb)).trans ?_) rfl rfl rfl
      rw [show (s.opened _).nvRead (counterKey (byteAt (opXpdrCntRead.cmd h).payload 0)) = some r from hr]
    · exact answered_of rfl (fun _ => if_pos (areas_faulted.2 hx)) rfl rfl rfl
    · refine answered_of rfl (fun _ => if_neg fun hy => ?_) rfl rfl rfl
      obtain ⟨i, hi, hf⟩ := areas_faulted.1 hy
      exact hx i hi hf
    · exact answered_of rfl (fun _ => rfl) rfl rfl rfl
    · exact answered_of rfl (fun _ => if_pos ha) rfl rfl rfl
    case unlock =>
      have hc := Nat.not_le.2 ha
      refine ⟨fun hr => ?_, fun hr => ?_⟩
      · exact answered_of rfl (fun _ => (if_neg hc).trans (if_pos (isNone_iff.2 hr))) rfl rfl rfl
      refine ⟨fun hx => ?_, fun hl hk => ?_⟩
      · refine answered_of rfl (fun _ => (if_neg hc).trans ((if_neg (mt isNone_iff.1 hr)).trans (if_pos ?_))) rfl rfl rfl
        exact hx.imp_left fun hx => congrArg not hx
      have hjudged := bodyXpdrUnlock_judged (s := s.opened (opXpdrUnlock.cmd h)) (c := opXpdrUnlock.cmd h) ha hr hl hk
      refine ⟨fun hn hacc => ?_, fun m hn => ?_⟩
      · refine ⟨_, s.free + 1, freeNat_lt s.free 256 (by decide), answered_of rfl (fun _ => hjudged.trans ?_) ?_ ?_ ?_ rfl (fun _ _ => rfl) hacc⟩
        · rw [show (s.opened (opXpdrUnlock.cmd h)).liveNonce (s.opened (opXpdrUnlock.cmd h)).kiln.nonceX = none from hn]
          refine congrArg (fun t : State => t.respond (opXpdrUnlock.cmd h) St.AUTH_FAIL []) ((lockoutRecord_denied _ _ _).trans ?_)
          exact respond_opened_ash { s with kiln := { s.kiln with nonceX := none }, free := s.free + 1 } (opXpdrUnlock.cmd h) 0x0050 8 _
        · rw [ash_frame]
        · exact (ash_parts _ _ _ _).1
        · exact (ash_parts _ _ _ _).2
      · refine runs_of rfl (hjudged.trans ?_)
        rw [show (s.opened (opXpdrUnlock.cmd h)).liveNonce (s.opened (opXpdrUnlock.cmd h)).kiln.nonceX = some m from hn]
        rfl
end

section
/-! PROOF. What reset leaves at every port, host port and owner (R173, R313, R533, R537). -/

namespace Sys2Proof.Machine

@[simp] theorem State.reset_port (p : PortNum) : State.reset.port p = .reset := Vector.get_replicate _ _ p

@[simp] theorem State.reset_host (h : HostNum) : State.reset.host h = .reset := Vector.get_replicate _ _ h

/-- Every field of a port's registers reads its reset value. -/
theorem State.reset_pget (p : PortNum) (f : Fld) : State.reset.pget p f = wget (resetWord .port f.off) f.lo f.len :=
  congrArg (fun q : Port => q.get f) (reset_port p)

theorem ashSound_reset : AshSound State.reset := ⟨rfl, trivial, trivial⟩

end Sys2Proof.Machine

open Sys2Proof Sys2Proof.Machine

/-- Settles O5, by reading what each port, host port and owner holds at reset. -/
theorem resetLeavesTheOwnershipTheDefaultsAndTheLog : Obligations.ResetLeavesTheOwnershipTheDefaultsAndTheLog := by
  unfold Obligations.ResetLeavesTheOwnershipTheDefaultsAndTheLog
  refine ⟨fun k => Vector.getElem_replicate k.isLt, fun h => ?_, fun p => ?_, fun h _ => ?_, fun p => ⟨?_, ?_⟩, ashSound_reset, rfl⟩
  · revert h
    decide
  · rw [State.reset_port]
    decide
  · rw [State.reset_host]
    rfl
  · rw [State.reset_port]
    rfl
  · rw [State.reset_pget]
    decide
end

section
/-! PROOF. Inventory passes: their start, their slots and their ends (R173-R177, R190-R192, R205). -/

namespace Sys2Proof.Machine

/-! ## The antennas of a pass (R173) -/

theorem invAnts_ascending (inv : List Byte) : (invAnts inv).Pairwise (· < ·) := List.pairwise_lt_range.filter _

theorem mem_invAnts {inv : List Byte} {a : Nat} : a ∈ invAnts inv ↔ a < 64 ∧ nbit (leAt inv 0 8) a = true := by
  rw [invAnts, List.mem_filter, List.mem_range]

section
variable {s : State} {p : PortNum} {x : Pass}

/-! ## The next pass of a series (R175) -/

/-- A series whose next pass may start: no pass is in progress, the port is open and serves no command. -/
theorem nextPass_due_iff :
    ((s.port p).svc.series && (s.port p).svc.pass.isNone && (s.port p).svc.svc == .opened && !s.portBusy p) = true ↔
      (s.port p).svc.series = true ∧ (s.port p).svc.pass = none ∧ (s.port p).svc.svc = .opened ∧ s.portBusy p = false := by
  simp only [Bool.and_eq_true, Option.isNone_iff_eq_none, beq_iff_eq, Bool.not_eq_true', and_assoc]

/-! ## The next slot (R176) -/

theorem slotStart_next {ant : Nat} {rest : List Nat} (h : (s.port p).svc.pass = some x) (hs : x.slot = none) (hl : x.left = ant :: rest)
    (hst : x.stop = false) (hf : x.fault = none) (ho : (s.port p).svc.svc = .opened) : s.slotStart p =
    ((s.modSvc p fun v => { v with pass := some { x with slot := some ant, left := rest, halted := [] } }).putMbox p
      (s.port p).svc.inv).ringEngine p [BitVec.ofNat 32 (ant + 64 * invUser (s.port p).svc.inv), 3, BitVec.ofNat 32 x.num] := by
  have hn : ¬(x.stop = true ∨ x.fault.isSome = true ∨ (s.port p).svc.svc ≠ .opened) := by simp [hst, hf, ho]
  unfold State.slotStart
  rw [h]
  dsimp only
  rw [hs, hl]
  exact if_neg hn

theorem slotStart_idle (h : (s.port p).svc.pass = some x) (hx : x.slot ≠ none ∨ x.left = [] ∨ x.stop = true) : s.slotStart p = s := by
  unfold State.slotStart
  rw [h]
  dsimp only
  split
  next hs hl =>
    rcases hx with hx | hx | hx
    · exact absurd hs hx
    · exact absurd (hx.symm.trans hl) (List.cons_ne_nil _ _).symm
    · exact if_pos (.inl hx)
  next => rfl

/-! ## The end of a pass (R177, R190-R192) -/

theorem passEnd_none (h : (s.port p).svc.pass = none) : s.passEnd p = s := by
  unfold State.passEnd
  rw [h]

section
variable (h : (s.port p).svc.pass = some x) (hs : x.slot = none)
include h hs

theorem passEnd_faulted {st : Nat} (hf : x.fault = some st) : s.passEnd p = s.passDone p x 2 st false := by
  unfold State.passEnd
  rw [h]
  dsimp only
  rw [hf, hs]
  dsimp only [Option.isSome_none]
  rw [if_neg Bool.false_ne_true, h]

/-- Between two slots a pass without a fault goes by what is left of it and by INV_STOP. -/
theorem passEnd_between (hf : x.fault = none) : s.passEnd p =
    if x.left.isEmpty then s.passDone p x 0 0 (!x.stop) else if x.stop then s.passDone p x 1 0 false else s := by
  unfold State.passEnd
  rw [h]
  dsimp only
  rw [hf, hs]
  rfl

theorem passEnd_complete (hf : x.fault = none) (hl : x.left = []) : s.passEnd p = s.passDone p x 0 0 (!x.stop) :=
  (passEnd_between h hs hf).trans (if_pos (List.isEmpty_iff.2 hl))

theorem passEnd_stopped (hf : x.fault = none) (hl : x.left ≠ []) (ht : x.stop = true) : s.passEnd p = s.passDone p x 1 0 false :=
  (passEnd_between h hs hf).trans ((if_neg (mt List.isEmpty_iff.1 hl)).trans (if_pos ht))

theorem passEnd_goes_on (hf : x.fault = none) (hl : x.left ≠ []) (ht : x.stop = false) : s.passEnd p = s :=
  (passEnd_between h hs hf).trans ((if_neg (mt List.isEmpty_iff.1 hl)).trans (if_neg (Bool.eq_false_iff.1 ht)))

end

end

end Sys2Proof.Machine

open Sys2Proof Sys2Proof.Machine

/-- Settles O28, by what starts a pass or a slot and by the three ways in which a pass ends. -/
theorem passesVisitTheirAntennasAndReport : Obligations.PassesVisitTheirAntennasAndReport := by
  unfold Obligations.PassesVisitTheirAntennasAndReport
  intro s p hr v
  have same {i : Instr} {f : State → State} (e : exec i = run f) (h : f s = s) : exec i s = .next s := exec_to e h hr rfl
  refine ⟨fun h1 h2 h3 h4 => ?_, fun h => ?_, ⟨invAnts_ascending _, fun a => mem_invAnts⟩, fun x ant rest hx hs hl ht hf ho => ?_,
    fun x hx h => same rfl (slotStart_idle hx h), fun x hx hs => ?ends, fun h => same rfl (passEnd_none h)⟩
  · exact exec_to rfl (if_pos (nextPass_due_iff.2 ⟨h1, h2, h3, h4⟩)) hr rfl
  · refine same rfl (if_neg fun hd => ?_)
    obtain ⟨h1, h2, h3, h4⟩ := nextPass_due_iff.1 hd
    rcases h with h | h | h | h
    · exact Bool.eq_false_iff.1 h h1
    · exact h h2
    · exact h h3
    · exact Bool.eq_false_iff.1 h4 h
  · exact exec_to rfl (slotStart_next hx hs hl ht hf ho) hr rfl
  case ends =>
    intro ends
    have done {reason status : Nat} {goOn : Bool} (h : s.passEnd p = s.passDone p x reason status goOn) : ends reason status goOn :=
      ⟨fun hc => exec_toldOwner rfl (h.trans (passDone_plain s p x reason status goOn hc)) hr rfl,
        fun hc => leaves_of rfl (h.trans (passDone_census s p x reason status goOn hc))⟩
    exact ⟨fun hf hl => done (passEnd_complete hx hs hf hl), fun hf hl ht => done (passEnd_stopped hx hs hf hl ht),
      fun st hf => done (passEnd_faulted hx hs hf), fun hf hl ht => same rfl (passEnd_goes_on hx hs hf hl ht)⟩
end

section
/-! PROOF. The commands of the inventory and of the tag table, by what each answers (R175, R199-R202, R366-R370). -/

namespace Sys2Proof.Machine

section
variable {s : State} {c : Cmd}

/-! ## INV_START (R175) -/

theorem passStart_passNum (s : State) (p : PortNum) :
    ((s.passStart p).port p).svc.passNum = ((s.port p).svc.passNum + 1) % 2 ^ 32 := by
  rw [State.passStart, State.modSvc_port]

theorem endSession_passNum (s : State) (p : PortNum) : ((s.endSession p).port p).svc.passNum = (s.port p).svc.passNum := by
  rw [State.endSession, State.modSvc_port]

theorem bodyInvStart_starts (h : (s.port (toPort c.target.toNat)).svc.series = false) : bodyInvStart c s =
    ((s.endSession (toPort c.target.toNat)).passStart (toPort c.target.toNat)).respond c St.OK
      (leBytes 4 (((s.port (toPort c.target.toNat)).svc.passNum + 1) % 2 ^ 32)) := by
  refine (if_neg (Bool.eq_false_iff.1 h)).trans ?_
  rw [passStart_passNum, endSession_passNum]

/-! ## TT_READ (R369) -/

theorem bodyTtRead_lists {l : List (Nat × List Byte)} {next : Nat} {t : State}
    (hp : ¬(byteAt c.payload 2 < 1 ∨ 120 < byteAt c.payload 2 ∨ 3 < byteAt c.payload 3 ∨ 8191 < leAt c.payload 0 2))
    (h : State.ttScan c (byteAt c.payload 3) 16385 (leAt c.payload 0 2) (byteAt c.payload 2) [] s = (l, next, t)) :
    bodyTtRead c s = t.respond c St.OK (leBytes 2 next ++ leBytes 2 t.ttGen ++ leBytes 1 l.length ++ [0]
      ++ l.flatMap fun x => leBytes 2 x.1 ++ x.2) := by
  unfold bodyTtRead
  dsimp only
  rw [if_neg hp, h]

/-! ## The commands that name a tag by its key (R197, R202, R370) -/

theorem ttScope_iff {b : List Byte} : ttScope c b = true ↔ c.target.toNat = 15 ∨ byteAt b 11 % 8 = c.target.toNat := by
  rw [ttScope, Bool.or_eq_true, decide_eq_true_iff, beq_iff_eq]

/-- What TT_SET_FLAGS asks of its key and masks: a key, SUSPECT and RELAY_SUSPECT alone, none both set and cleared. -/
def setFlagsFits (l : List Byte) : Prop :=
  keyOk (l.take 12) = true ∧ byteAt l 12 &&& 0xF9 = 0 ∧ byteAt l 13 &&& 0xF9 = 0 ∧ byteAt l 12 &&& byteAt l 13 = 0

theorem setFlagsFits_iff {l : List Byte} : setFlagsFits l ↔
    ¬((!keyOk (l.take 12)) = true ∨ byteAt l 12 &&& 0xF9 ≠ 0 ∨ byteAt l 13 &&& 0xF9 ≠ 0 ∨ byteAt l 12 &&& byteAt l 13 ≠ 0) := by
  simp only [setFlagsFits, not_or, not_not, Bool.not_eq_true', Bool.not_eq_false]

theorem bodyTtSetFlags_refused (h : ¬setFlagsFits c.payload) : bodyTtSetFlags c s = s.respond c St.BAD_PARAM :=
  if_pos (not_not.1 (mt setFlagsFits_iff.2 h))

/-! A key without an entry is answered with NO_TAG. -/

theorem keyOk_passes {k : Key} (h : keyOk k = true) : ¬(!keyOk k) = true := by
  rw [h]
  decide

/-- A lookup that finds no entry ends at a free index or with the whole table probed (R196). -/
theorem Probe.free_or_full {q : Probe} (h : ∀ i, q ≠ .found i) : (∃ i, q = .free i) ∨ q = .full := by
  cases q with
  | found i => exact absurd rfl (h i)
  | free i => exact .inl ⟨i, rfl⟩
  | full => exact .inr rfl

section
variable {q : Probe} {t : State} (hq : ∀ i, q ≠ .found i)
include hq

theorem bodyTtFind_missed (hk : keyOk c.payload = true) (h : s.ttLookup c.payload = (q, t)) :
    bodyTtFind c s = t.respond c St.NO_TAG := by
  refine (if_neg (keyOk_passes hk)).trans ?_
  rw [h]
  obtain ⟨i, rfl⟩ | rfl := Probe.free_or_full hq <;> rfl

theorem bodyTtDelete_missed (hk : keyOk c.payload = true) (h : s.ttLookup c.payload = (q, t)) :
    bodyTtDelete c s = t.respond c St.NO_TAG := by
  refine (if_neg (keyOk_passes hk)).trans ?_
  rw [h]
  obtain ⟨i, rfl⟩ | rfl := Probe.free_or_full hq <;> rfl

theorem bodyTtSetFlags_missed (hf : setFlagsFits c.payload) (h : s.ttLookup (c.payload.take 12) = (q, t)) :
    bodyTtSetFlags c s = t.respond c St.NO_TAG := by
  refine (if_neg (setFlagsFits_iff.1 hf)).trans ?_
  rw [h]
  obtain ⟨i, rfl⟩ | rfl := Probe.free_or_full hq <;> rfl

end

/-! A key with an entry is answered from it. -/

section
variable {i : Nat} {t : State}

theorem bodyTtFind_found (hk : keyOk c.payload = true) (h : s.ttLookup c.payload = (.found i, t)) : bodyTtFind c s =
    if ttScope c ((Sparse.find t.table i).getD []) then t.respond c St.OK (leBytes 2 i ++ (Sparse.find t.table i).getD [])
    else t.respond c St.NO_TAG := by
  refine (if_neg (keyOk_passes hk)).trans ?_
  rw [h]

theorem bodyTtDelete_found (hk : keyOk c.payload = true) (h : s.ttLookup c.payload = (.found i, t)) :
    bodyTtDelete c s = (t.ttRemove i).respond c St.OK := by
  refine (if_neg (keyOk_passes hk)).trans ?_
  rw [h]

theorem bodyTtSetFlags_found (hf : setFlagsFits c.payload) (h : s.ttLookup (c.payload.take 12) = (.found i, t)) :
    bodyTtSetFlags c s =
      let e := { t.ttEntry i with flags := bitsOn (bitsOff (t.ttEntry i).flags (byteAt c.payload 13)) (byteAt c.payload 12) }
      (t.ttStore i e).respond c St.OK (leBytes 1 e.flags) := by
  refine (if_neg (setFlagsFits_iff.1 hf)).trans ?_
  rw [h]

end

/-! ## TT_CLEAR (R370) -/

/-- A change of several ports' service records meets no command outstanding. -/
theorem foldl_modSvc_opened (f : PortSvc → PortSvc) (l : List PortNum) (s : State) (c : Cmd) :
    l.foldl (fun t p => t.modSvc p f) (s.opened c) = (l.foldl (fun t p => t.modSvc p f) s).opened c := by
  induction l generalizing s with
  | nil => rfl
  | cons p l ih => exact ih (s.modSvc p f)

theorem foldl_modSvc_eq (f : PortSvc → PortSvc) (l : List PortNum) (s : State) :
    l.foldl (fun t p => t.modSvc p f) s = { s with ports := (l.foldl (fun t p => t.modSvc p f) s).ports } :=
  foldl_modPort_eq (fun q => { q with svc := f q.svc }) l s

/-- The table emptied, its generation counted and a census due at every port (R370). -/
def State.ttCleared (s : State) : State :=
  allPorts.foldl (fun t p => t.modSvc p fun v => { v with censusDue := true }) { s with table := [], ttGen := (s.ttGen + 1) % 65536 }

theorem ttCleared_parts (s : State) :
    s.ttCleared.hosts = s.hosts ∧ s.ttCleared.raised = s.raised ∧ s.ttCleared.pending = s.pending := by
  rw [State.ttCleared, foldl_modSvc_eq]
  exact ⟨rfl, rfl, rfl⟩

theorem bodyTtClear_opened (s : State) (c : Cmd) : bodyTtClear c (s.opened c) = (s.ttCleared.opened c).respond c St.OK :=
  congrArg (fun u : State => u.respond c St.OK) (foldl_modSvc_opened _ allPorts { s with table := [], ttGen := (s.ttGen + 1) % 65536 } c)

end

end Sys2Proof.Machine

open Sys2Proof Sys2Proof.Machine

/-- Settles O39, by what each command answers once it is accepted. -/
theorem inventoryAndTableCommandsDoTheirWork : Obligations.InventoryAndTableCommandsDoTheirWork := by
  unfold Obligations.InventoryAndTableCommandsDoTheirWork
  intro s h b p v ended
  refine ⟨fun hs => ?_, fun hs => ?_, ?_, fun hb => ?_, fun h1 h2 h3 h4 l next t hl => ?_, fun hk => ⟨?_, ?_⟩,
    fun hk q t hq => ⟨fun hl => ?_, fun hl => ?_⟩, fun hk i t => ⟨fun hl => ?find, fun hl => ?_⟩, ?clear, ?flags⟩
  · exact answered_of rfl (fun _ => if_pos hs) rfl rfl rfl
  · exact answered_of rfl (fun _ => bodyInvStart_starts hs) rfl rfl rfl
  · exact answered_of rfl (fun _ => rfl) rfl rfl rfl
  · exact answered_of rfl (fun _ => if_pos hb) rfl rfl rfl
  · have hb : ¬(b 2 < 1 ∨ 120 < b 2 ∨ 3 < b 3 ∨ 8191 < leAt h.payload 0 2) := by omega
    exact runs_of rfl (bodyTtRead_lists hb hl)
  · exact answered_of rfl (fun _ => if_pos (congrArg not hk)) rfl rfl rfl
  · exact answered_of rfl (fun _ => if_pos (congrArg not hk)) rfl rfl rfl
  · exact runs_of rfl (bodyTtFind_missed hq hk hl)
  · exact runs_of rfl (bodyTtDelete_missed hq hk hl)
  case find =>
    have found := bodyTtFind_found (c := opTtFind.cmd h) hk hl
    exact ⟨fun hx => runs_of rfl (found.trans (if_pos (ttScope_iff.2 hx))),
      fun hx => runs_of rfl (found.trans (if_neg (mt ttScope_iff.1 hx)))⟩
  · exact runs_of rfl (bodyTtDelete_found hk hl)
  case clear =>
    obtain ⟨hhosts, hraised, hpending⟩ := ttCleared_parts s
    exact answered_of rfl (fun _ => bodyTtClear_opened s _) hhosts hraised hpending
  case flags =>
    intro k ok
    refine ⟨fun hf => ?_, fun hf q t hq hl => ?_, fun hf i t hl => ?_⟩
    · exact answered_of rfl (fun _ => bodyTtSetFlags_refused hf) rfl rfl rfl
    · exact runs_of rfl (bodyTtSetFlags_missed hq hf hl)
    · exact runs_of rfl (bodyTtSetFlags_found hf hl)
end

section
/-! PROOF. The commands that set and read a port, its field, its Grate and its group, by what each answers (R41-R43, R59,
R60, R220, R357-R361, R372). -/

namespace Sys2Proof.Machine

section
variable {s : State} {c : Cmd}

/-! ## PORT_SET and PORT_GET (R357, R361, log entry 63) -/

/-- An entry of PORT_SET may be written: its offset is listed, and its mask reaches writable bits alone (R357). -/
def setEntryFits (e : Nat × Word × Word) : Prop := portSetOk e.1 = true ∧ e.2.1 &&& ~~~(writableBits e.1) = 0

theorem setEntryOk_iff {e : Nat × Word × Word} : setEntryOk e = true ↔ setEntryFits e := by
  rw [setEntryOk, Bool.and_eq_true, beq_iff_eq, setEntryFits]

theorem setEntryOk_all_iff {l : List (Nat × Word × Word)} : l.all setEntryOk = true ↔ ∀ e ∈ l, setEntryFits e := by
  simp only [List.all_eq_true, setEntryOk_iff]

theorem setEntryFits_not_iff {e : Nat × Word × Word} :
    ¬setEntryFits e ↔ portSetOk e.1 = false ∨ e.2.1 &&& ~~~(writableBits e.1) ≠ 0 := by
  rw [setEntryFits, not_and_or, Bool.not_eq_true]

/-- The entries that a PORT_SET lists. -/
def setEntries (c : Cmd) : List (Nat × Word × Word) := (List.range (byteAt c.payload 0)).map (setEntry c.payload)

theorem bodyPortSet_whole (hn : c.payload.length = 2 + 10 * byteAt c.payload 0) : bodyPortSet c s =
    if (setEntries c).all setEntryOk then ((setEntries c).foldl (fun t e => t.setApply c.port e) s).respond c St.OK
    else s.respond c St.BAD_PARAM :=
  if_neg (not_not.2 hn)

/-- One entry that may not be written refuses them all. -/
theorem bodyPortSet_refused (hn : c.payload.length = 2 + 10 * byteAt c.payload 0) {e : Nat × Word × Word}
    (he : e ∈ setEntries c) (hx : ¬setEntryFits e) : bodyPortSet c s = s.respond c St.BAD_PARAM :=
  (bodyPortSet_whole hn).trans (if_neg fun ha => hx (setEntryOk_all_iff.1 ha e he))

theorem bodyPortSet_applies (hn : c.payload.length = 2 + 10 * byteAt c.payload 0) (he : ∀ e ∈ setEntries c, setEntryFits e) :
    bodyPortSet c s = ((setEntries c).foldl (fun t e => t.setApply c.port e) s).respond c St.OK :=
  (bodyPortSet_whole hn).trans (if_pos (setEntryOk_all_iff.2 he))

/-- The offsets that PORT_GET reads: those of the port's block but the violation counters (R361). -/
def getFits (o : Nat) : Prop := o ≤ 0x9FF ∧ o ≠ VIOLCNT.reg ∧ o ≠ VIOLCNT1.reg

theorem getFits_not_iff {o : Nat} : ¬getFits o ↔ 0x9FF < o ∨ o = VIOLCNT.reg ∨ o = VIOLCNT1.reg := by
  simp only [getFits, not_and_or, not_le, not_not]

theorem getFits_all_iff {l : List Nat} :
    (l.all fun o => o ≤ 0x9FF && o != VIOLCNT.reg && o != VIOLCNT1.reg) = true ↔ ∀ o ∈ l, getFits o := by
  simp only [List.all_eq_true, Bool.and_eq_true, decide_eq_true_iff, bne_iff_ne, getFits, and_assoc]

/-- The offsets that a PORT_GET lists. -/
def getOffsets (c : Cmd) : List Nat := (List.range (byteAt c.payload 0)).map fun i => leAt c.payload (2 + 2 * i) 2

theorem bodyPortGet_refused (hn : c.payload.length = 2 + 2 * byteAt c.payload 0) {o : Nat} (ho : o ∈ getOffsets c)
    (hx : ¬getFits o) : bodyPortGet c s = s.respond c St.BAD_PARAM :=
  (if_neg (not_not.2 hn)).trans (if_neg fun ha => hx (getFits_all_iff.1 ha o ho))

theorem bodyPortGet_reads (hn : c.payload.length = 2 + 2 * byteAt c.payload 0) (ho : ∀ o ∈ getOffsets c, getFits o)
    {r : List Byte} {t : State} (h : getWords c.port (getOffsets c) s = (r, t)) : bodyPortGet c s = t.respond c St.OK r := by
  refine (if_neg (not_not.2 hn)).trans ((if_pos (getFits_all_iff.2 ho)).trans ?_)
  exact congrArg (fun x : List Byte × State => x.2.respond c St.OK x.1) h

/-! ## FIELD_ON (R41, R42, R358) -/

/-- A command that has just begun is the one that ends, where no other one meets the test. -/
theorem endJob_begin {sel : Running → Bool} {j : Job} {st : Nat} {pl : List Byte} (hj : sel ⟨c, j⟩ = true)
    (hs : ∀ r ∈ s.running, sel r = false) : (s.begin c j).endJob sel st pl = s.respond c st pl := by
  have hnone : s.running.find? sel = none := List.find?_eq_none.2 fun r hr => Bool.eq_false_iff.1 (hs r hr)
  have hfound : (s.begin c j).findJob sel = some ⟨c, j⟩ := by
    unfold State.findJob State.begin
    rw [List.find?_append, hnone, Option.none_or, List.find?_singleton, if_pos hj]
  have hrest : dropFirst sel (s.begin c j).running = s.running :=
    (dropFirst_append [] hj hs).trans (List.append_nil _)
  rw [endJob_of _ _ _ _ _ hfound, hrest]
  rfl

/-- The amplitude put in force leaves the field's state. -/
theorem takeLeff_fieldState (s : State) (p : PortNum) : (s.takeLeff p).fieldState p = s.fieldState p := by
  have hregs : (s.takeLeff p).fieldState p = (s.pset p TXSTAT.HEADROOM (bit (s.headroom p < s.leffRaw p))).fieldState p := by
    simp [State.takeLeff, State.fieldState, State.pget, Port.get]
  exact hregs.trans (State.pget_pset_ne _ _ _ _ _ (by decide) (by decide))

/-- What a FIELD_ON that waits waits for: the field at its amplitude, until WAIT is over in slow-clock periods (log entry
50). -/
def fieldOnJob (s : State) (c : Cmd) : Job := .fieldOn c.port (s.dev.timebase + msPeriods (leAt c.payload 0 2))

theorem bodyFieldOn_lockedOut (hw : leAt c.payload 0 2 ≤ 1000) (hl : (s.port c.port).field.lockout = true) :
    bodyFieldOn c s = (s.writeFieldEn c.port true).respond c St.THERMAL_LIMIT :=
  (if_neg (Nat.not_lt.2 hw)).trans (if_pos hl)

section
variable (hw : leAt c.payload 0 2 ≤ 1000) (hl : (s.port c.port).field.lockout = false)
include hw hl

/-- Outside thermal lockout FIELD_ON asks for the field, and answers at once without WAIT or with the field on. -/
theorem bodyFieldOn_asks {t : State} (ht : (s.begin c (fieldOnJob s c)).writeFieldEn c.port true = t) : bodyFieldOn c s =
    if leAt c.payload 0 2 = 0 ∨ t.fieldState c.port = 2 then
      t.endJob (fun r => r.job == fieldOnJob s c) St.OK
        [BitVec.ofNat 8 (t.fieldState c.port), BitVec.ofNat 8 (t.pget c.port TXSTAT.HELD)]
    else t := by
  subst ht
  exact (if_neg (Nat.not_lt.2 hw)).trans (if_neg (Bool.eq_false_iff.1 hl))

theorem bodyFieldOn_on (hen : s.pget c.port TXCTL.FIELD_EN = 1) (h2 : s.fieldState c.port = 2)
    (hj : ∀ r ∈ s.running, r.job ≠ fieldOnJob s c) :
    bodyFieldOn c s = s.respond c St.OK [2, BitVec.ofNat 8 (s.pget c.port TXSTAT.HELD)] := by
  have hon : (s.begin c (fieldOnJob s c)).fieldState c.port = 2 := h2
  rw [bodyFieldOn_asks hw hl (writeFieldEn_set hen), if_pos (.inr hon), hon]
  exact endJob_begin (beq_self_eq_true (fieldOnJob s c)) fun r hr => beq_eq_false_iff_ne.2 (hj r hr)

/-- With a WAIT, FIELD_ON goes on where its request leaves the field short of its amplitude. -/
theorem bodyFieldOn_waits (h0 : 0 < leAt c.payload 0 2) {t : State}
    (ht : (s.begin c (fieldOnJob s c)).writeFieldEn c.port true = t) (h2 : t.fieldState c.port ≠ 2) : bodyFieldOn c s = t :=
  (bodyFieldOn_asks hw hl ht).trans (if_neg (not_or.2 ⟨Nat.pos_iff_ne_zero.1 h0, h2⟩))

end

section
variable (h0 : 0 < leAt c.payload 0 2) (hw : leAt c.payload 0 2 ≤ 1000) (hen : s.pget c.port TXCTL.FIELD_EN = 0)
  (hoff : s.fieldState c.port = 0)
include h0 hw hen hoff

theorem bodyFieldOn_held (hl : (s.port c.port).field.lockout = false) (hb : s.fieldBlocked c.port = true) :
    bodyFieldOn c (s.opened c) =
      (((s.pset c.port TXCTL.FIELD_EN 1).pset c.port TXSTAT.HELD 1).opened c).begin c (fieldOnJob s c) := by
  have hm : ¬MayRamp s c.port := fun hm => Bool.eq_false_iff.1 ((blocked_iff _ _).2 hm) hb
  have hm' : ¬MayRamp ((s.opened c).begin c (fieldOnJob s c)) c.port :=
    fun h => hm ⟨h.carrier, h.grate, h.cool, h.duty⟩
  have hstate : ((s.pset c.port TXCTL.FIELD_EN 1).pset c.port TXSTAT.HELD 1).fieldState c.port = s.fieldState c.port :=
    (State.pget_pset_ne _ _ _ _ _ (by decide) (by decide)).trans (fieldState_requested s c.port)
  refine bodyFieldOn_waits (s := s.opened c) hw hl h0 (writeFieldEn_held hen hl hm') ?_
  exact ne_of_eq_of_ne (hstate.trans hoff) (by decide)

theorem bodyFieldOn_ramps (hm : MayRamp s c.port) (hv : (s.port c.port).field.vtxUv = false) :
    bodyFieldOn c (s.opened c) =
      (((((s.pset c.port TXCTL.FIELD_EN 1).pset c.port TXSTAT.STATE 1).pset c.port TXSTAT.HELD 0).takeLeff c.port).opened
        c).begin c (fieldOnJob s c) := by
  have hm' : MayRamp ((s.opened c).begin c (fieldOnJob s c)) c.port := ⟨hm.carrier, hm.grate, hm.cool, hm.duty⟩
  have hstate : ((((s.pset c.port TXCTL.FIELD_EN 1).pset c.port TXSTAT.STATE 1).pset c.port TXSTAT.HELD 0).takeLeff
      c.port).fieldState c.port = 1 := by
    rw [takeLeff_fieldState, State.fieldState, State.pget_pset_ne _ _ _ _ _ (by decide) (by decide),
      State.pget_pset _ _ _ _ (by decide)]
    rfl
  refine bodyFieldOn_waits (s := s.opened c) hw hm.cool h0 (writeFieldEn_ramps hen hm' hoff hv) ?_
  exact ne_of_eq_of_ne hstate (by decide)

end

/-! ## FIELD_OFF (R43, R358, R372) -/

theorem endSession_fieldState (s : State) (p : PortNum) : (s.endSession p).fieldState p = s.fieldState p := by
  simp [State.endSession, State.fieldState, State.pget, Port.get]

theorem bodyFieldOff_idle (h : FieldIdle s c.port) : bodyFieldOff c s = (s.endSession c.port).respond c St.OK := by
  obtain ⟨hoff, hen⟩ := h
  have hdown : s.fieldDown c.port = s := writeFieldEn_unset hen
  unfold bodyFieldOff
  dsimp only
  rw [hdown, if_pos ((endSession_fieldState s c.port).trans hoff)]

/-- A field that is up, with nothing on the air, ramps down while the command waits. -/
theorem bodyFieldOff_ramps (ha : AirIdle s c.port) (hen : s.pget c.port TXCTL.FIELD_EN = 1) (h2 : s.fieldState c.port = 2) :
    bodyFieldOff c s =
      ((((s.pset c.port TXCTL.FIELD_EN 0).pset c.port TXSTAT.HELD 0).pset c.port TXSTAT.STATE 3).endSession c.port).begin c
        (.fieldOff c.port) := by
  have hdown : s.fieldDown c.port =
      ((s.pset c.port TXCTL.FIELD_EN 0).pset c.port TXSTAT.HELD 0).pset c.port TXSTAT.STATE 3 :=
    (writeFieldEn_down hen ha).trans (if_pos (.inr h2))
  have hstate : ((((s.pset c.port TXCTL.FIELD_EN 0).pset c.port TXSTAT.HELD 0).pset c.port TXSTAT.STATE 3).endSession
      c.port).fieldState c.port = 3 :=
    (endSession_fieldState _ _).trans (State.pget_pset _ _ _ _ (by decide))
  unfold bodyFieldOff
  dsimp only
  rw [hdown, if_neg (by rw [hstate]; decide)]

/-! ## GRATE_SELECT (R59, R60, R359, R372) -/

theorem grateWrite_opened (s : State) (c : Cmd) (p : PortNum) (w : Word) :
    (s.opened c).grateWrite p w = (s.grateWrite p w).opened c := by
  unfold State.grateWrite
  dsimp only
  by_cases h : wget w 0 6 = s.antenna p
  · rw [if_pos h]
    exact congrArg (fun t : State => t.modPort p _) (if_pos h)
  · rw [if_neg h]
    exact congrArg (fun t : State => t.modPort p _) (if_neg h)

/-- The port with its active tag ended where the antenna changes (R372). -/
def State.antennaChosen (s : State) (p : PortNum) (ant : Nat) : State := if ant = s.antenna p then s else s.endSession p

/-- The port with the antenna and the user bits of a GRATE_SELECT written. -/
def State.grateSelected (s : State) (c : Cmd) : State :=
  (s.antennaChosen c.port (byteAt c.payload 0)).grateWrite c.port
    (BitVec.ofNat 32 (byteAt c.payload 0 + 64 * leAt c.payload 2 2))

theorem antennaChosen_fieldState (s : State) (p : PortNum) (ant : Nat) : (s.antennaChosen p ant).fieldState p = s.fieldState p := by
  unfold State.antennaChosen
  split
  · rfl
  · exact endSession_fieldState s p

theorem antennaChosen_opened (s : State) (c : Cmd) (p : PortNum) (ant : Nat) :
    (s.opened c).antennaChosen p ant = (s.antennaChosen p ant).opened c := by
  unfold State.antennaChosen
  by_cases h : ant = s.antenna p
  · rw [if_pos h]
    exact if_pos h
  · rw [if_neg h]
    exact if_neg h

theorem grateSelected_opened (s : State) (c : Cmd) : (s.opened c).grateSelected c = (s.grateSelected c).opened c := by
  unfold State.grateSelected
  rw [antennaChosen_opened, grateWrite_opened]

theorem grateSelected_parts (s : State) (c : Cmd) : (s.grateSelected c).raised = s.raised ∧
    (s.grateSelected c).pending = s.pending ∧ (s.grateSelected c).hosts = s.hosts := by
  unfold State.grateSelected State.grateWrite State.antennaChosen
  dsimp only
  split <;> split <;> exact ⟨rfl, rfl, rfl⟩

/-- The word is written, and the command waits for its shift while the field is off. -/
theorem bodyGrateSelect_writes (ha : byteAt c.payload 0 ≤ 63) (hu : leAt c.payload 2 2 ≤ 1023) : bodyGrateSelect c s =
    if s.fieldState c.port = 0 then (s.grateSelected c).begin c (.grate c.port) else (s.grateSelected c).respond c St.OK [1] := by
  have hp : ¬(63 < byteAt c.payload 0 ∨ 1023 < leAt c.payload 2 2) := by omega
  rw [← antennaChosen_fieldState s c.port (byteAt c.payload 0)]
  refine (if_neg hp).trans ?_
  exact if_congr beq_iff_eq rfl rfl

/-! ## GROUP_SET (R220, R361) -/

/-- A port that a configuration word lists belongs to another group than `g`. -/
def State.takenByOther (s : State) (g : Nat) (cfg : Word) : Prop :=
  ∃ k ∈ [0, 1, 2, 3], k ≠ g ∧ s.coordGet (GRPCFG.MEMBERS.nth k 16) &&& wget cfg 0 8 ≠ 0

theorem takenByOther_iff {g : Nat} {cfg : Word} : s.takenByOther g cfg ↔ ([0, 1, 2, 3].any fun k =>
    k != g && s.coordGet (GRPCFG.MEMBERS.nth k 16) &&& wget cfg GRPCFG.MEMBERS.lo GRPCFG.MEMBERS.len != 0) = true := by
  simp only [State.takenByOther, List.any_eq_true, Bool.and_eq_true, bne_iff_ne]
  rfl

theorem groupReserved_iff {cfg : Word} : cfg &&& 0x0000FE00 ≠ 0 ↔ (cfg &&& ~~~0xFFFF01FF#32 != 0) = true := by
  rw [bne_iff_ne]
  rfl

theorem bodyGroupSet_refused (h : 3 < byteAt c.payload 0 ∨ wordAt c.payload 4 &&& 0x0000FE00 ≠ 0 ∨
    s.takenByOther (byteAt c.payload 0) (wordAt c.payload 4)) : bodyGroupSet c s = s.respond c St.BAD_PARAM :=
  if_pos (h.imp_right (Or.imp groupReserved_iff.1 takenByOther_iff.1))

/-- GRPTIME is written before GRPCFG, whose write takes the group's change (R220-R222). -/
theorem bodyGroupSet_writes (hg : byteAt c.payload 0 ≤ 3) (hr : wordAt c.payload 4 &&& 0x0000FE00 = 0)
    (ht : ¬s.takenByOther (byteAt c.payload 0) (wordAt c.payload 4)) : bodyGroupSet c s =
    ((s.coordWrite (GRPTIME.reg + 16 * byteAt c.payload 0) (wordAt c.payload 8)).coordWrite
      (GRPCFG.reg + 16 * byteAt c.payload 0) (wordAt c.payload 4)).respond c St.OK := by
  refine if_neg (not_or.2 ⟨Nat.not_lt.2 hg, not_or.2 ⟨?_, mt takenByOther_iff.2 ht⟩⟩)
  exact mt groupReserved_iff.2 (not_not.2 hr)

end

end Sys2Proof.Machine

open Sys2Proof Sys2Proof.Machine

/-- Settles O38, by what each command does to its port, or its group, once it is accepted. -/
theorem portSettingsAndFieldsFollowTheirCommands : Obligations.PortSettingsAndFieldsFollowTheirCommands := by
  unfold Obligations.PortSettingsAndFieldsFollowTheirCommands
  intro s h b n p
  refine ⟨fun hn => ?setShort, fun hn => ⟨?setRefused, fun he => ?setApplies⟩, fun hn => ?getShort,
    fun hn => ⟨?getRefused, fun ho r t hr => ?getReads⟩, fun hw => ?onRefused, fun hw hl => ?onLockedOut,
    fun hw hl hen h2 hj => ?onAnswers, fun h0 hw hen hoff hl hb => ?onHeld, fun h0 hw hen hoff hm hv => ?onRamps,
    ⟨fun hi => ?offIdle, fun ha hen h2 => ?offRamps, fun hx => ?grateRefused, fun ha hu => ?grateWrites⟩,
    fun hx => ?groupRefused, fun hg hr ht => ?groupWrites⟩
  case setShort => exact answered_of rfl (fun _ => if_pos hn) rfl rfl rfl
  case setRefused =>
    rintro ⟨e, he, hx⟩
    exact answered_of rfl (fun _ => bodyPortSet_refused hn he (setEntryFits_not_iff.2 hx)) rfl rfl rfl
  case setApplies => exact runs_of rfl (bodyPortSet_applies hn he)
  case getShort => exact answered_of rfl (fun _ => if_pos hn) rfl rfl rfl
  case getRefused =>
    rintro ⟨o, ho, hx⟩
    exact answered_of rfl (fun _ => bodyPortGet_refused hn ho (getFits_not_iff.2 hx)) rfl rfl rfl
  case getReads => exact runs_of rfl (bodyPortGet_reads (c := opPortGet.cmd h) hn ho hr)
  case onRefused => exact answered_of rfl (fun _ => if_pos hw) rfl rfl rfl
  case onLockedOut => exact runs_of rfl (bodyFieldOn_lockedOut hw hl)
  case onAnswers =>
    exact answered_of rfl (fun _ => bodyFieldOn_on (s := s.opened (opFieldOn.cmd h)) hw hl hen h2 hj) rfl rfl rfl
  case onHeld => exact waiting_of rfl (bodyFieldOn_held (c := opFieldOn.cmd h) h0 hw hen hoff hl hb) rfl rfl
  case onRamps => exact waiting_of rfl (bodyFieldOn_ramps (c := opFieldOn.cmd h) h0 hw hen hoff hm hv) rfl rfl
  case offIdle => exact answered_of rfl (fun _ => bodyFieldOff_idle hi) rfl rfl rfl
  case offRamps =>
    have air : AirIdle (s.opened (opFieldOff.cmd h)) p := ⟨ha.tx, ha.win, ha.reqs⟩
    exact waiting_of rfl (bodyFieldOff_ramps air hen h2) rfl rfl
  case grateRefused => exact answered_of rfl (fun _ => if_pos hx) rfl rfl rfl
  case grateWrites =>
    obtain ⟨hraised, hpending, hhosts⟩ := grateSelected_parts s (opGrateSelect.cmd h)
    have writes := bodyGrateSelect_writes (s := s.opened (opGrateSelect.cmd h)) (c := opGrateSelect.cmd h) ha hu
    rw [grateSelected_opened] at writes
    exact ⟨fun hf => waiting_of rfl (writes.trans (if_pos hf)) hraised hpending,
      fun hf => answered_of rfl (fun _ => writes.trans (if_neg hf)) hhosts hraised hpending⟩
  case groupRefused => exact answered_of rfl (fun _ => bodyGroupSet_refused hx) rfl rfl rfl
  case groupWrites => exact runs_of rfl (bodyGroupSet_writes hg hr ht)
end

section
/-! PROOF. Distance bounding at a reader port: the rapid phase and its slot records, the start of DB_RUN and DB_CAL, and
the verdict of a run (R163, R229-R234, R237, R240-R247, R517). -/

namespace Sys2Proof.Machine

/-! ## The start of a rapid phase (R163) -/

section
variable {s : State} {p : PortNum}

theorem pon_iff {f : Fld} : s.pon p f = true ↔ s.pget p f = 1 := beq_iff_eq

/-- A phase is asked for, granted and not running, its port enabled, the framer quiet and the field up. -/
theorem phaseStart_due_iff : (0 < (s.port p).framer.rapidN && (s.port p).framer.reserved && !(s.port p).framer.rapidOn &&
    s.pon p TXCTL.RAPID_EN && (s.port p).framer.tx.isNone && (s.port p).framer.win.isNone && s.fieldState p == 2) = true ↔
      0 < (s.port p).framer.rapidN ∧ (s.port p).framer.reserved = true ∧ (s.port p).framer.rapidOn = false ∧
        s.pget p TXCTL.RAPID_EN = 1 ∧ (s.port p).framer.tx = none ∧ (s.port p).framer.win = none ∧ s.fieldState p = 2 := by
  simp only [Bool.and_eq_true, decide_eq_true_eq, Bool.not_eq_true', pon_iff, Option.isNone_iff_eq_none, beq_iff_eq, and_assoc]

theorem phaseStart_idle (h : (s.port p).framer.rapidN = 0 ∨ (s.port p).framer.reserved = false ∨
    (s.port p).framer.rapidOn = true ∨ s.pget p TXCTL.RAPID_EN = 0 ∨ s.fieldState p ≠ 2) : s.phaseStart p = s := by
  refine if_neg fun hd => ?_
  obtain ⟨hn, hres, hon, hen, -, -, hfield⟩ := phaseStart_due_iff.1 hd
  rcases h with h | h | h | h | h
  · omega
  · exact Bool.false_ne_true (h.symm.trans hres)
  · exact Bool.false_ne_true (hon.symm.trans h)
  · omega
  · exact h hfield

end

/-! ## The record of a slot (R229-R231) -/

/-- The registers with the record of slot `i` written. -/
def slotRecorded (r : Cells) (i : Nat) (sent : Bool) (b : Option Burst) : Cells :=
  Cells.put .port r (recReg i) (wset (Cells.word .port r (recReg i)) (recLo i) 16 (recOf sent b))

theorem recReg_ge (i : Nat) : DBREC.reg ≤ recReg i := Nat.le_add_right _ _

theorem recLo_fits (i : Nat) : recLo i + 16 ≤ 32 := by
  unfold recLo
  omega

theorem bit_le_one (b : Bool) : bit b ≤ 1 := by cases b <;> decide

/-- A record keeps to the 14 bits of its half word. -/
theorem recOf_lt (sent : Bool) (b : Option Burst) : recOf sent b < 2 ^ 14 := by
  have hsent := bit_le_one sent
  cases b with
  | none =>
    show 8192 * bit sent + 0 < 2 ^ 14
    omega
  | some b =>
    have hphase := bit_le_one b.phase
    have honset := b.onset.isLt
    show 8192 * bit sent + (b.onset.toNat + 2048 + 4096 * bit b.phase) < 2 ^ 14
    omega

/-- The low bits of a field that was written. -/
theorem wget_wset_low (w : Word) (lo len len' v : Nat) (h : lo + len ≤ 32) (hl : len' ≤ len) :
    wget (wset w lo len v) lo len' = v % 2 ^ len' := by
  have hcut (u : Word) : wget u lo len' = wget u lo len % 2 ^ len' := (Nat.mod_mod_of_dvd _ (pow_dvd_pow 2 hl)).symm
  rw [hcut, wget_wset _ _ _ _ h, Nat.mod_mod_of_dvd _ (pow_dvd_pow 2 hl)]

section
variable (r : Cells) (i : Nat) (sent : Bool) (b : Option Burst)

theorem slotRecorded_word_ne {o : Nat} (h : o ≠ recReg i) : Cells.word .port (slotRecorded r i sent b) o = Cells.word .port r o :=
  Cells.word_put_ne _ _ _ _ _ h

theorem slotRecorded_rec : wget (Cells.word .port (slotRecorded r i sent b) (recReg i)) (recLo i) 14 = recOf sent b := by
  rw [slotRecorded, Cells.word_put, wget_wset_low _ _ _ _ _ (recLo_fits i) (by decide), Nat.mod_eq_of_lt (recOf_lt sent b)]

/-- The record of another slot stays, in the other half of the word or in another word. -/
theorem slotRecorded_rec_ne {j : Nat} (h : j ≠ i) : wget (Cells.word .port (slotRecorded r i sent b) (recReg j)) (recLo j) 14 =
    wget (Cells.word .port r (recReg j)) (recLo j) 14 := by
  by_cases hword : j / 2 = i / 2
  · have hreg : recReg j = recReg i := by rw [recReg, recReg, hword]
    have hhalf : recLo j + 14 ≤ recLo i ∨ recLo i + 16 ≤ recLo j := by
      unfold recLo
      omega
    rw [hreg, slotRecorded, Cells.word_put, wget_wset_ne _ _ _ _ _ _ (recLo_fits i) hhalf]
  · have hreg : recReg j ≠ recReg i := by
      unfold recReg
      omega
    rw [slotRecorded_word_ne _ _ _ _ hreg]

end

/-! ## The counters of a phase (R229, R234) -/

/-- The counter of DBRES that a slot raises: ABSENT without a burst, LATE with a late one. -/
def slotCounter (late : Bool) : Option Burst → Option Fld
  | none => some DBRES.ABSENT
  | some _ => if late then some DBRES.LATE else none

/-- The registers with a counter one higher. -/
def counted (r : Cells) : Option Fld → Cells
  | some f => Cells.set .port r f (Cells.get .port r f + 1)
  | none => r

theorem slotCounter_mem (late : Bool) (b : Option Burst) :
    slotCounter late b = none ∨ slotCounter late b = some DBRES.ABSENT ∨ slotCounter late b = some DBRES.LATE := by
  cases b with
  | none => exact .inr (.inl rfl)
  | some b =>
    cases late with
    | false => exact .inl rfl
    | true => exact .inr (.inr rfl)

section
variable (r : Cells) (late : Bool) (b : Option Burst)

theorem counted_word_ne {o : Nat} (h : o ≠ DBRES.reg) :
    Cells.word .port (counted r (slotCounter late b)) o = Cells.word .port r o := by
  rcases slotCounter_mem late b with hc | hc | hc <;> rw [hc]
  · rfl
  · exact Cells.word_set_ne _ _ _ _ _ h
  · exact Cells.word_set_ne _ _ _ _ _ h

theorem counted_up {f : Fld} (hf : f.fits) (h : Cells.get .port r f + 1 < 2 ^ f.len) :
    Cells.get .port (counted r (some f)) f = Cells.get .port r f + 1 :=
  (Cells.get_set _ _ _ _ hf).trans (Nat.mod_eq_of_lt h)

theorem counted_absent (h : Cells.get .port r DBRES.ABSENT < 127) :
    Cells.get .port (counted r (slotCounter late b)) DBRES.ABSENT = Cells.get .port r DBRES.ABSENT + bit b.isNone := by
  cases b with
  | none => exact counted_up r (by decide) (Nat.succ_lt_succ h)
  | some b =>
    cases late with
    | false => rfl
    | true => exact Cells.get_set_ne _ _ _ _ _ (by decide) (by decide)

theorem counted_late (h : Cells.get .port r DBRES.LATE < 127) :
    Cells.get .port (counted r (slotCounter late b)) DBRES.LATE = Cells.get .port r DBRES.LATE + bit (b.isSome && late) := by
  cases b with
  | none => exact Cells.get_set_ne _ _ _ _ _ (by decide) (by decide)
  | some b =>
    cases late with
    | false => rfl
    | true => exact counted_up r (by decide) (Nat.succ_lt_succ h)

end

/-! ## A challenge slot (R229-R234) -/

/-- The excess delay of an onset rests on DBCTL, DBDLY and DBINT alone (R234). -/
theorem excess_congr {s t : State} {p : PortNum}
    (h : ∀ o, o < DBREC.reg → o ≠ DBRES.reg → (t.port p).word o = (s.port p).word o) (n : Nat) :
    t.excess p n = s.excess p n ∧ t.isLate p n = s.isLate p n := by
  have field (f : Fld) (hlt : f.off < DBREC.reg) (hne : f.off ≠ DBRES.reg) : t.pget p f = s.pget p f :=
    congrArg (fun w => wget w f.lo f.len) (h f.off hlt hne)
  have hexc : t.excess p n = s.excess p n := by
    rw [State.excess, State.excess, State.dbOfs, State.dbOfs, field DBINT.DINT (by decide) (by decide),
      field DBDLY.OFS (by decide) (by decide), field DBDLY.TAGDLY (by decide) (by decide)]
  refine ⟨hexc, ?_⟩
  rw [State.isLate, State.isLate, State.dbThresh, State.dbThresh, field DBCTL.THRESH (by decide) (by decide), hexc]

/-- Whether the burst of a slot is late. -/
def State.burstLate (s : State) (p : PortNum) (b : Option Burst) : Bool := b.any fun b => s.isLate p b.onset.toNat

/-- The registers that a slot leaves. -/
def State.slotRegs (s : State) (p : PortNum) (sent : Bool) (b : Option Burst) : Cells :=
  counted (slotRecorded (s.port p).regs (s.port p).framer.rapidSlot sent b) (slotCounter (s.burstLate p b) b)

/-- The timing unit with the burst of a slot taken in. -/
def State.slotTiming (s : State) (p : PortNum) (b : Option Burst) : Timing :=
  match b with
  | none => (s.port p).tim
  | some b => { (s.port p).tim with
      snrSum := (s.port p).tim.snrSum + b.snr
      excess := (s.port p).tim.excess ++ [s.excess p b.onset.toNat]
      onsets := (s.port p).tim.onsets ++ [b.onset.toNat] }

/-- The state that a slot leaves. -/
def State.slotTaken (s : State) (p : PortNum) (sent : Bool) (b : Option Burst) : State :=
  s.setPort p { s.port p with
    regs := s.slotRegs p sent b
    framer := { (s.port p).framer with rapidSlot := (s.port p).framer.rapidSlot + 1 }
    tim := s.slotTiming p b }

section
variable {s : State} {p : PortNum} {sent : Bool} {b : Option Burst}

theorem lateOf_eq : lateOf s p b = bit (b.isSome && s.burstLate p b) := by
  cases b with
  | none => rfl
  | some b =>
    refine congrArg bit (decide_eq_decide.2 ?_)
    rw [State.excess, State.dbOfs, State.dbThresh]

theorem slotTiming_onsets : (s.slotTiming p b).onsets = (s.port p).tim.onsets ++ (b.map (·.onset.toNat)).toList := by
  cases b with
  | none => exact (List.append_nil _).symm
  | some b => rfl

theorem slotRegs_word {o : Nat} (hlt : o < DBREC.reg) (hne : o ≠ DBRES.reg) :
    Cells.word .port (s.slotRegs p sent b) o = (s.port p).word o :=
  (counted_word_ne _ _ _ hne).trans (slotRecorded_word_ne _ _ _ _ (hlt.trans_le (recReg_ge _)).ne)

/-- The counters leave the words of the records. -/
theorem slotRegs_recWord (j : Nat) : Cells.word .port (s.slotRegs p sent b) (recReg j) =
    Cells.word .port (slotRecorded (s.port p).regs (s.port p).framer.rapidSlot sent b) (recReg j) :=
  counted_word_ne _ _ _ (Nat.lt_of_lt_of_le (by decide) (recReg_ge j)).ne'

/-- The record of a slot leaves the counters. -/
theorem slotRegs_counter (f : Fld) (hf : f.off = DBRES.reg) :
    Cells.get .port (slotRecorded (s.port p).regs (s.port p).framer.rapidSlot sent b) f = s.pget p f := by
  refine congrArg (fun w => wget w f.lo f.len) (slotRecorded_word_ne _ _ _ _ ?_)
  rw [hf]
  exact (Nat.lt_of_lt_of_le (by decide) (recReg_ge _)).ne

theorem challenge_idle (h : (s.port p).framer.rapidOn = false ∨ (s.port p).framer.rapidN ≤ (s.port p).framer.rapidSlot) :
    s.challenge p sent b = s := by
  refine if_neg ?_
  rw [Bool.and_eq_true, decide_eq_true_eq]
  rintro ⟨hon, hlt⟩
  rcases h with h | h
  · exact Bool.false_ne_true (h.symm.trans hon)
  · omega

/-- The state with a slot's record written and the next slot due. -/
def State.slotWritten (s : State) (p : PortNum) (sent : Bool) (b : Option Burst) : State :=
  s.setPort p { s.port p with
    regs := slotRecorded (s.port p).regs (s.port p).framer.rapidSlot sent b
    framer := { (s.port p).framer with rapidSlot := (s.port p).framer.rapidSlot + 1 } }

theorem slotWritten_eq : (s.modPort p fun q => q.putWord (recReg (s.port p).framer.rapidSlot) (wset
    (q.word (recReg (s.port p).framer.rapidSlot)) (recLo (s.port p).framer.rapidSlot) 16 (recOf sent b))).modFramer p
      (fun f => { f with rapidSlot := (s.port p).framer.rapidSlot + 1 }) = s.slotWritten p sent b :=
  State.modPort_modPort s p _ _

/-- A counter raised by a write of its field. -/
theorem setPort_counted (q : Port) (f : Fld) : (s.setPort p q).pset p f ((s.setPort p q).pget p f + 1) =
    s.setPort p { q with regs := counted q.regs (some f) } := by
  rw [State.pset, State.modPort, State.pget, State.setPort_port, State.setPort_setPort]
  rfl

theorem setPort_modPort (q : Port) (f : Port → Port) : (s.setPort p q).modPort p f = s.setPort p (f q) := by
  rw [State.modPort, State.setPort_port, State.setPort_setPort]

/-- The state with a slot's record written and its counter raised. -/
def State.slotCounted (s : State) (p : PortNum) (sent : Bool) (b : Option Burst) : State :=
  s.setPort p { s.port p with
    regs := s.slotRegs p sent b
    framer := { (s.port p).framer with rapidSlot := (s.port p).framer.rapidSlot + 1 } }

/-- A late burst raises LATE, and another one no counter. -/
theorem slotCounted_late {b : Burst} : (if s.isLate p b.onset.toNat then (s.slotWritten p sent (some b)).pset p DBRES.LATE
    ((s.slotWritten p sent (some b)).pget p DBRES.LATE + 1) else s.slotWritten p sent (some b)) =
      s.slotCounted p sent (some b) := by
  have hlate : s.burstLate p (some b) = s.isLate p b.onset.toNat := rfl
  rw [State.slotCounted, State.slotRegs, hlate]
  cases s.isLate p b.onset.toNat with
  | false => rfl
  | true => exact setPort_counted _ _

theorem slotWritten_isLate (n : Nat) : (s.slotWritten p sent b).isLate p n = s.isLate p n := by
  refine (excess_congr (fun o hlt _ => ?_) n).2
  rw [State.slotWritten, State.setPort_port]
  exact slotRecorded_word_ne _ _ _ _ (hlt.trans_le (recReg_ge _)).ne

theorem slotCounted_excess (n : Nat) : (s.slotCounted p sent b).excess p n = s.excess p n := by
  refine (excess_congr (fun o hlt hne => ?_) n).1
  rw [State.slotCounted, State.setPort_port]
  exact slotRegs_word hlt hne

theorem challenge_slot (hon : (s.port p).framer.rapidOn = true) (hlt : (s.port p).framer.rapidSlot < (s.port p).framer.rapidN) :
    s.challenge p sent b = s.slotTaken p sent b := by
  have hrun : ((s.port p).framer.rapidOn && decide ((s.port p).framer.rapidSlot < (s.port p).framer.rapidN)) = true := by
    rw [hon, decide_eq_true hlt, Bool.and_self]
  refine (if_pos hrun).trans ?_
  dsimp only
  rw [slotWritten_eq]
  cases b with
  | none => exact setPort_counted _ _
  | some b =>
    dsimp only
    rw [slotWritten_isLate, slotCounted_late, slotCounted_excess]
    exact setPort_modPort _ _

@[simp] theorem slotTaken_port : (s.slotTaken p sent b).port p = { s.port p with
    regs := s.slotRegs p sent b
    framer := { (s.port p).framer with rapidSlot := (s.port p).framer.rapidSlot + 1 }
    tim := s.slotTiming p b } := State.setPort_port _ _ _

theorem slotTaken_word {o : Nat} (hlt : o < DBREC.reg) (hne : o ≠ DBRES.reg) :
    ((s.slotTaken p sent b).port p).word o = (s.port p).word o := by
  rw [slotTaken_port]
  exact slotRegs_word hlt hne

theorem slotTaken_rec : (s.slotTaken p sent b).dbRec p (s.port p).framer.rapidSlot = recOf sent b := by
  rw [State.dbRec, slotTaken_port]
  exact (congrArg (fun w => wget w _ 14) (slotRegs_recWord _)).trans (slotRecorded_rec _ _ _ _)

theorem slotTaken_rec_ne {j : Nat} (h : j ≠ (s.port p).framer.rapidSlot) : (s.slotTaken p sent b).dbRec p j = s.dbRec p j := by
  rw [State.dbRec, slotTaken_port]
  exact (congrArg (fun w => wget w _ 14) (slotRegs_recWord _)).trans (slotRecorded_rec_ne _ _ _ _ h)

theorem slotTaken_pget (f : Fld) : (s.slotTaken p sent b).pget p f = Cells.get .port (s.slotRegs p sent b) f :=
  congrArg (fun q : Port => q.get f) slotTaken_port

theorem slotTaken_absent (h : s.pget p DBRES.ABSENT < 127) :
    (s.slotTaken p sent b).pget p DBRES.ABSENT = s.pget p DBRES.ABSENT + bit b.isNone := by
  have hr := slotRegs_counter (s := s) (p := p) (sent := sent) (b := b) DBRES.ABSENT rfl
  rw [slotTaken_pget, State.slotRegs, counted_absent _ _ _ (hr.trans_lt h), hr]

theorem slotTaken_late (h : s.pget p DBRES.LATE < 127) :
    (s.slotTaken p sent b).pget p DBRES.LATE = s.pget p DBRES.LATE + lateOf s p b := by
  have hr := slotRegs_counter (s := s) (p := p) (sent := sent) (b := b) DBRES.LATE rfl
  rw [slotTaken_pget, State.slotRegs, counted_late _ _ _ (hr.trans_lt h), hr, lateOf_eq]

theorem recOf_eq : recOf sent b = match b with
    | some b => b.onset.toNat + 2048 + 4096 * bit b.phase + 8192 * bit sent
    | none => 8192 * bit sent := by
  cases b with
  | none => rfl
  | some b => exact Nat.add_comm _ _

end

/-! ## The end of a rapid phase (R229, R444) -/

section
variable {s : State} {p : PortNum}

theorem phaseEnd_idle (h : (s.port p).framer.rapidOn = false ∨ (s.port p).framer.rapidSlot ≠ (s.port p).framer.rapidN) :
    s.phaseEnd p = s := by
  refine if_neg ?_
  rw [Bool.and_eq_true, beq_iff_eq]
  rintro ⟨hon, hend⟩
  rcases h with h | h
  · exact Bool.false_ne_true (h.symm.trans hon)
  · exact h hend

/-- The state with a phase over: DONE, and the reservation released. -/
def State.phaseOver (s : State) (p : PortNum) : State :=
  (s.pset p DBRES.DONE 1).modFramer p fun f => { f with rapidOn := false, rapidN := 0, rapidSlot := 0, reserved := false }

/-- A phase without a burst and without a run has nothing to sum up. -/
theorem phaseEnd_plain (hon : (s.port p).framer.rapidOn = true) (hend : (s.port p).framer.rapidSlot = (s.port p).framer.rapidN)
    (hreqs : (s.port p).framer.reqs = 0) (hdb : (s.port p).svc.db = none) (hexc : (s.port p).tim.excess = []) :
    s.phaseEnd p = ((s.phaseOver p).putResult p 1).idleWork p := by
  have hover : ((s.port p).framer.rapidOn && (s.port p).framer.rapidSlot == (s.port p).framer.rapidN) = true := by
    rw [hon, beq_iff_eq.2 hend, Bool.and_self]
  have hsum : s.dbSummary p = s.pset p DBRES.DONE 1 := by
    unfold State.dbSummary
    dsimp only
    rw [hexc]
    rfl
  have hrun : (s.pset p DBRES.DONE 1).runPhase p = s.pset p DBRES.DONE 1 := by
    have hnone : ((s.pset p DBRES.DONE 1).port p).svc.db = none := by
      rw [State.pset_port]
      exact hdb
    unfold State.runPhase
    rw [hnone]
  have hwaits : ((s.phaseOver p).port p).framer.Waits := by
    rw [State.phaseOver, State.modFramer_port, State.pset_framer]
    exact .inl hreqs
  refine (if_pos hover).trans ?_
  rw [hsum, hrun]
  exact congrArg (fun t : State => t.idleWork p) (framerAdvance_waits hwaits.putResult)

end

/-! ## The start of DB_RUN and DB_CAL (R237, R245, R246, R517) -/

section
variable {s : State} {c : Cmd} {d : DbRun}

theorem withRandom_delivers (f : State → State) (h : s.kilnGet KWSTAT.TRNG = 1) : s.withRandom c f = f s :=
  if_pos (beq_iff_eq.2 h)

theorem withRandom_failed (f : State → State) (h : s.kilnGet KWSTAT.TRNG = 3) :
    s.withRandom c f = s.respond c St.INTERNAL_ERROR :=
  (if_neg (mt beq_iff_eq.1 (by rw [h]; decide))).trans (if_pos h)

theorem withRandom_waits (f : State → State) (h1 : s.kilnGet KWSTAT.TRNG ≠ 1) (h3 : s.kilnGet KWSTAT.TRNG ≠ 3) :
    s.withRandom c f = s.begin c .kiln := (if_neg (mt beq_iff_eq.1 h1)).trans (if_neg h3)

theorem dbStart_tooLong (h : s.mboxLen (toPort c.target.toNat) < c.payload.length + 8) :
    s.dbStart c d = s.respond c St.BAD_LENGTH := if_pos h

/-- A run whose request fits the mailbox takes 16 random bytes and is shipped. -/
theorem dbStart_ships (h : c.payload.length + 8 ≤ s.mboxLen (toPort c.target.toNat)) : s.dbStart c d =
    (s.dbAsked (toPort c.target.toNat) c d (randomFrom s.free 8) (randomFrom (s.free + 8) 8) (s.free + 8 + 8)).begin c
      (.db (toPort c.target.toNat)) := by
  have hfits : ¬s.mboxLen (toPort c.target.toNat) < (c.payload ++ randomFrom s.free 8).length := by
    rw [List.length_append, randomFrom_length]
    exact Nat.not_lt.2 h
  exact (if_neg (Nat.not_lt.2 h)).trans (if_neg hfits)

end

/-- The request of a run changes its port and the count of free values, and no host port. -/
theorem dbAsked_opened (s : State) (c c' : Cmd) (p : PortNum) (d : DbRun) (nr chal : List Byte) (k : Nat) :
    (s.opened c).dbAsked p c' d nr chal k = (s.dbAsked p c' d nr chal k).opened c := by
  have hfree : ({ s.opened c with free := k } : State) = ({ s with free := k } : State).opened c := rfl
  unfold State.dbAsked State.asked State.putChal State.putMbox State.ringEngine
  rw [hfree, State.opened_modPort, State.opened_pset, State.opened_modSvc]
  dsimp only
  rw [State.opened_modEng, State.opened_modPort, State.opened_pset]
  rfl

/-- A command whose meaning ends in the start of a run starts it. -/
theorem startsRun_of {i : Instr} {s : State} {o : Op} {h : HostCmd} {d : DbRun} (e : hostOp i = some (o, h))
    (hb : o.body (o.cmd h) (s.opened (o.cmd h)) =
      (s.opened (o.cmd h)).withRandom (o.cmd h) fun t => t.dbStart (o.cmd h) d)
    (hg : o.gate (o.cmd h) (s.opened (o.cmd h)) = o.gate (o.cmd h) s := by rfl)
    (hs : ∀ c s, o.onSegment c 0 s = s := by intros; rfl) : StartsRun i s o h d := by
  refine ⟨fun ht hfits hacc => ⟨randomFrom s.free 8, randomFrom (s.free + 8) 8, s.free + 8 + 8, randomFrom_length _ _,
    randomFrom_length _ _, ?ships⟩, fun ht hlong => ?tooLong, fun ht => ?failed, fun h1 h3 => ?waits⟩
  case ships =>
    have body := (hb.trans (withRandom_delivers (s := s.opened (o.cmd h)) _ ht)).trans
      (dbStart_ships (s := s.opened (o.cmd h)) hfits)
    rw [dbAsked_opened] at body
    exact waiting_of e body rfl rfl hg hs hacc
  case tooLong =>
    exact answered_of e (fun _ => (hb.trans (withRandom_delivers (s := s.opened (o.cmd h)) _ ht)).trans
      (dbStart_tooLong (s := s.opened (o.cmd h)) hlong)) rfl rfl rfl hg hs
  case failed => exact answered_of e (fun _ => hb.trans (withRandom_failed (s := s.opened (o.cmd h)) _ ht)) rfl rfl rfl hg hs
  case waits => exact waiting_of e (hb.trans (withRandom_waits (s := s.opened (o.cmd h)) _ h1 h3)) rfl rfl hg hs

section
variable {s : State} {c : Cmd} {x : Session}

/-- DB_RUN names a key slot and asks for the record or not. -/
theorem bodyDbRun_refused (h : 63 < byteAt c.payload 1 ∨ 1 < byteAt c.payload 2) : bodyDbRun c s = s.respond c St.BAD_PARAM :=
  if_pos h

section
variable (hslot : byteAt c.payload 1 ≤ 63) (hrcd : byteAt c.payload 2 ≤ 1)
include hslot hrcd

theorem bodyDbRun_untagged (hx : (s.port (toPort c.target.toNat)).svc.session = none) : bodyDbRun c s = s.respond c St.NO_TAG := by
  refine (if_neg (by omega)).trans ?_
  rw [hx]

theorem bodyDbRun_session (hx : (s.port (toPort c.target.toNat)).svc.session = some x) : bodyDbRun c s =
    if x.bounds = false ∨ byteAt c.payload 0 < 16 ∨ byteAt x.info 5 < byteAt c.payload 0 then s.respond c St.BAD_PARAM
    else if s.keyFor (byteAt c.payload 1) [1] 0 = none then s.respond c St.SECURITY_DENIED
    else if s.calGet CALSTAT.NOSET = 1 then s.respond c St.INTERNAL_ERROR
    else s.withRandom c fun s => s.dbStart c
      (DbRun.fresh false (byteAt c.payload 0) (byteAt c.payload 1) (byteAt c.payload 2 == 1) 0) := by
  refine (if_neg (by omega)).trans ?_
  rw [hx]
  refine if_congr ?_ rfl (if_congr Option.isNone_iff_eq_none rfl rfl)
  rw [Bool.or_eq_true, Bool.or_eq_true, Bool.not_eq_true', decide_eq_true_eq, decide_eq_true_eq, or_assoc]

theorem bodyDbRun_outOfBounds (hx : (s.port (toPort c.target.toNat)).svc.session = some x)
    (h : x.bounds = false ∨ byteAt c.payload 0 < 16 ∨ byteAt x.info 5 < byteAt c.payload 0) :
    bodyDbRun c s = s.respond c St.BAD_PARAM := (bodyDbRun_session hslot hrcd hx).trans (if_pos h)

theorem bodyDbRun_bounded (hx : (s.port (toPort c.target.toNat)).svc.session = some x) (hb : x.bounds = true)
    (hmin : 16 ≤ byteAt c.payload 0) (hmax : byteAt c.payload 0 ≤ byteAt x.info 5) : bodyDbRun c s =
    if s.keyFor (byteAt c.payload 1) [1] 0 = none then s.respond c St.SECURITY_DENIED
    else if s.calGet CALSTAT.NOSET = 1 then s.respond c St.INTERNAL_ERROR
    else s.withRandom c fun s => s.dbStart c
      (DbRun.fresh false (byteAt c.payload 0) (byteAt c.payload 1) (byteAt c.payload 2 == 1) 0) :=
  (bodyDbRun_session hslot hrcd hx).trans (if_neg fun h => h.elim (ne_false_of_eq_true hb) (by omega))

end

theorem bodyDbCal_untagged (hx : (s.port (toPort c.target.toNat)).svc.session = none) : bodyDbCal c s = s.respond c St.NO_TAG := by
  unfold bodyDbCal
  dsimp only
  rw [hx]

theorem bodyDbCal_session (hx : (s.port (toPort c.target.toNat)).svc.session = some x) : bodyDbCal c s =
    if x.bounds = false then s.respond c St.BAD_PARAM
    else if byteAt x.info 5 < 16 ∨ 64 < byteAt x.info 5 then s.respond c St.PROTOCOL_ERROR
    else if s.pget (toPort c.target.toNat) DBCTL.LOCK = 1 then s.respond c St.SECURITY_DENIED
    else s.withRandom c fun s => s.dbStart c
      (DbRun.fresh true (calChallenges (byteAt x.info 5)) 0 false (leAt c.payload 0 2)) := by
  unfold bodyDbCal
  dsimp only
  rw [hx]
  exact if_congr (Bool.not_eq_true' _).to_iff rfl rfl

theorem bodyDbCal_bounded (hx : (s.port (toPort c.target.toNat)).svc.session = some x) (hb : x.bounds = true) : bodyDbCal c s =
    if byteAt x.info 5 < 16 ∨ 64 < byteAt x.info 5 then s.respond c St.PROTOCOL_ERROR
    else if s.pget (toPort c.target.toNat) DBCTL.LOCK = 1 then s.respond c St.SECURITY_DENIED
    else s.withRandom c fun s => s.dbStart c
      (DbRun.fresh true (calChallenges (byteAt x.info 5)) 0 false (leAt c.payload 0 2)) :=
  (bodyDbCal_session hx).trans (if_neg (ne_false_of_eq_true hb))

end

/-! ## The class of a slot, and the outcome of a run (R242, R244) -/

section
variable {r : Nat} {chal a late : Bool} {crx : Option Bool}

theorem slotClass_absent (h : recPres r = false) : slotClass r chal a crx late = .absent := if_pos (by rw [h]; decide)

/-- A slot with a burst is wrong by its phase, or by its bit of CRX. -/
theorem slotClass_present (h : recPres r = true) : slotClass r chal a crx late =
    if recPhase r ≠ (chal != a) ∨ ∃ x, crx = some x ∧ x ≠ chal then .wrong else if late then .late else .good := by
  refine (if_neg (by rw [h]; decide)).trans (if_congr ?_ rfl rfl)
  rw [Bool.or_eq_true, bne_iff_ne, Option.any_eq_true]
  simp only [bne_iff_ne]

end

section
variable {sent answered absent mac : Bool} {failed k : Nat}

theorem decideRun_aborted (h : sent = false) : decideRun sent answered absent mac failed k = .aborted := if_pos (by rw [h]; decide)

theorem decideRun_sent (h : sent = true) : decideRun sent answered absent mac failed k =
    if answered = false ∨ absent = true then .silent else if mac = false then .macfail
    else if failed ≤ k then .pass else .relay := by
  refine (if_neg (by rw [h]; decide)).trans (if_congr ?_ rfl (if_congr (Bool.not_eq_true' _).to_iff rfl rfl))
  rw [Bool.or_eq_true, Bool.not_eq_true']

end

/-! ## The verdict (R241-R247) -/

section
variable {s : State} {p : PortNum} {reply : DbReply}

/-- CRX exists where the reply's status is OK. -/
theorem crxOf_isSome (st : Byte) (crx mac : List Byte) : (crxOf (.answered st crx mac)).isSome = (st == 0) := by
  by_cases h : st = 0
  · exact (congrArg Option.isSome (if_pos h)).trans (beq_iff_eq.2 h).symm
  · exact (congrArg Option.isSome (if_neg h)).trans (beq_eq_false_iff_ne.2 h).symm

theorem dbVerdict_idle (h : s.findJob (dbOf p) = none) : s.dbVerdict p reply = s := by
  unfold State.dbVerdict
  rw [show s.findJob (fun r => r.job == .db p) = none from h]

section
variable {r : Running} {d : DbRun} (hr : s.findJob (dbOf p) = some r) (hd : (s.port p).svc.db = some d)
include hr

/-- A run in progress ends with a status and no payload. -/
theorem dbEnd_running (st : Nat) : s.dbEnd p st =
    (({ s with running := dropFirst (dbOf p) s.running } : State).respond r.cmd st).dropDb p :=
  congrArg (fun t : State => t.dropDb p) (endJob_of s (dbOf p) st [] r hr)

include hd

theorem dbVerdict_early (h : d.cal = true ∨ d.answered = false ∨ d.phaseDone = false) : s.dbVerdict p reply = s := by
  unfold State.dbVerdict
  rw [show s.findJob (fun r => r.job == .db p) = some r from hr, hd]
  refine if_pos ?_
  rw [Bool.or_eq_true, Bool.or_eq_true, Bool.not_eq_true', Bool.not_eq_true', or_assoc]
  exact h

section
variable (hcal : d.cal = false) (hans : d.answered = true) (hdone : d.phaseDone = true)
include hcal hans hdone

theorem dbVerdict_due : s.dbVerdict p reply = match reply with
    | .silent => s.dbEnd p St.TIMEOUT
    | .answered _ _ _ => match s.keyFor d.slot [1] 0 with
      | none => s.dbEnd p St.SECURITY_DENIED
      | some k => s.dbJudge p r.cmd d k.key reply := by
  unfold State.dbVerdict
  rw [show s.findJob (fun r => r.job == .db p) = some r from hr, hd]
  exact (if_neg (by rw [hcal, hans, hdone]; decide)).trans rfl

theorem dbVerdict_silent : s.dbVerdict p .silent = s.dbEnd p St.TIMEOUT := dbVerdict_due hr hd hcal hans hdone

theorem dbVerdict_keyless (hreply : reply ≠ .silent) (hk : s.keyFor d.slot [1] 0 = none) :
    s.dbVerdict p reply = s.dbEnd p St.SECURITY_DENIED := by
  rw [dbVerdict_due hr hd hcal hans hdone, hk]
  cases reply with
  | silent => exact absurd rfl hreply
  | answered => rfl

theorem dbVerdict_judged {st : Byte} {crx mac : List Byte} {k : KeySlot} (hk : s.keyFor d.slot [1] 0 = some k) :
    s.dbVerdict p (.answered st crx mac) = s.dbJudge p r.cmd d k.key (.answered st crx mac) := by
  rw [dbVerdict_due hr hd hcal hans hdone, hk]

end

end

end

end Sys2Proof.Machine

open Sys2Proof Sys2Proof.Machine

/-- Settles O26, by what a phase and its slots leave, the judgement of the two commands, and the verdict of a run. -/
theorem distanceRunsRecordTheirSlotsAndAreJudged : Obligations.DistanceRunsRecordTheirSlotsAndAreJudged := by
  unfold Obligations.DistanceRunsRecordTheirSlotsAndAreJudged
  refine ⟨fun s p hraised => ?phase, fun s h => ?commands, fun s p reply => ?verdict,
    fun r chal a crx late => ⟨slotClass_absent, fun hp hw => (slotClass_present hp).trans (if_pos hw),
      fun hp hphase hcrx => ?right⟩,
    fun sent answered absent mac failed k => ⟨decideRun_aborted, fun hs h => (decideRun_sent hs).trans (if_pos h),
      fun hs ha hb hm => ?macfail, fun hs ha hb hm => ?judged⟩⟩
  case phase =>
    have same {i : Instr} {f : State → State} (e : exec i = run f) (h : f s = s) : exec i s = .next s := exec_to e h hraised rfl
    intro f
    refine ⟨fun hn hres hon hen htx hwin hup => ?starts, fun h => same rfl (phaseStart_idle h),
      fun sent b hon hlt hmax => ?slot, fun sent b h => same rfl (challenge_idle h),
      fun hon hend hreqs hdb hexc => ?ends, fun h => same rfl (phaseEnd_idle h), fun hon => exec_to rfl (if_pos hon) hraised rfl⟩
    case starts => exact exec_to rfl (if_pos (phaseStart_due_iff.2 ⟨hn, hres, hon, hen, htx, hwin, hup⟩)) hraised rfl
    case slot =>
      exact ⟨s.slotTaken p sent b, exec_to rfl (challenge_slot hon hlt) hraised rfl, rfl,
        fun q hq => State.setPort_port_ne _ _ _ _ hq, congrArg Port.framer slotTaken_port, slotTaken_rec.trans recOf_eq,
        fun j _ hj => slotTaken_rec_ne hj, slotTaken_absent, slotTaken_late,
        (congrArg (fun q : Port => q.tim.onsets) slotTaken_port).trans slotTiming_onsets, fun o => slotTaken_word⟩
    case ends =>
      obtain ⟨hir, hip, -⟩ := idleWork_parts ((s.phaseOver p).putResult p 1) p
      obtain ⟨hpr, hpp⟩ := putResult_parts (s.phaseOver p) p 1
      exact exec_to rfl (phaseEnd_plain hon hend hreqs hdb hexc) (hir.trans (hpr.trans hraised)) (hip.trans hpp)
  case commands =>
    intro b p v
    refine ⟨fun hx => answered_of rfl (fun _ => bodyDbRun_refused hx) rfl rfl rfl,
      fun hslot hrcd hx => answered_of rfl (fun _ => bodyDbRun_untagged hslot hrcd hx) rfl rfl rfl,
      fun hslot hrcd x hx => ?dbRun, fun hx => answered_of rfl (fun _ => bodyDbCal_untagged hx) rfl rfl rfl, fun x hx => ?dbCal⟩
    case dbRun =>
      refine ⟨fun hbad => answered_of rfl (fun _ => bodyDbRun_outOfBounds hslot hrcd hx hbad) rfl rfl rfl,
        fun hb hmin hmax => ?_⟩
      have body := bodyDbRun_bounded (s := s.opened (opDbRun.cmd h)) (c := opDbRun.cmd h) hslot hrcd hx hb hmin hmax
      have keyed (hk : (s.keyFor (b 1) [1] 0).isSome = true) := body.trans (if_neg (Option.isSome_iff_ne_none.1 hk))
      exact ⟨fun hk => answered_of rfl (fun _ => body.trans (if_pos hk)) rfl rfl rfl,
        fun hk hn => answered_of rfl (fun _ => (keyed hk).trans (if_pos hn)) rfl rfl rfl,
        fun hk hn => startsRun_of rfl ((keyed hk).trans (if_neg hn))⟩
    case dbCal =>
      have bounded (hb : x.bounds = true) := bodyDbCal_bounded (s := s.opened (opDbCal.cmd h)) (c := opDbCal.cmd h) hx hb
      refine ⟨fun hb => answered_of rfl (fun _ => (bodyDbCal_session hx).trans (if_pos hb)) rfl rfl rfl,
        fun hb hbad => answered_of rfl (fun _ => (bounded hb).trans (if_pos hbad)) rfl rfl rfl, fun hb hmin hmax => ?_⟩
      have body := (bounded hb).trans (if_neg (not_or.2 ⟨Nat.not_lt.2 hmin, Nat.not_lt.2 hmax⟩))
      exact ⟨fun hl => answered_of rfl (fun _ => body.trans (if_pos hl)) rfl rfl rfl,
        fun hl => startsRun_of rfl (body.trans (if_neg hl))⟩
  case verdict =>
    have same (hr : s.raised = []) (h : s.dbVerdict p reply = s) : exec (.dbVerdict p reply) s = .next s := exec_to rfl h hr rfl
    refine ⟨fun hr hn => same hr (dbVerdict_idle hn), fun r d hf hd => ⟨fun hr h => same hr (dbVerdict_early hf hd h),
      fun hcal hans hdone => ⟨fun hrep => ?silent, fun hrep hk => ?keyless, fun st crx mac k hrep hk => ?judge⟩⟩⟩
    case silent =>
      subst hrep
      exact leaves_of rfl ((dbVerdict_silent hf hd hcal hans hdone).trans (dbEnd_running hf _))
    case keyless => exact leaves_of rfl ((dbVerdict_keyless hf hd hcal hans hdone hrep hk).trans (dbEnd_running hf _))
    case judge =>
      subst hrep
      intro cls cnt allowed macOk out sums lims dint uid u t
      refine leaves_of rfl ((dbVerdict_judged hf hd hcal hans hdone hk).trans ?_)
      unfold State.dbJudge
      rw [crxOf_isSome]
      rfl
  case right =>
    refine (slotClass_present hp).trans (if_neg ?_)
    rintro (hne | ⟨x, hx, hne⟩)
    · exact hne hphase
    · rcases hcrx with hc | hc
      · exact Option.some_ne_none x (hx.symm.trans hc)
      · exact hne (Option.some.inj (hx.symm.trans hc))
  case macfail => exact ((decideRun_sent hs).trans (if_neg (by simp [ha, hb]))).trans (if_pos hm)
  case judged => exact ((decideRun_sent hs).trans (if_neg (by simp [ha, hb]))).trans (if_neg (by simp [hm]))
end

section
/-! PROOF. The NVM records of port T: a commit and how it ends, the copy in force, the commits of a command in turn, and
the repair of a cut (R264, R267-R273). -/

namespace Sys2Proof.Machine

/-! ## A record written, and a record fault (R271, R273) -/

section
variable (s : State) (k : Nat)

theorem nvRec_recordIs (r : NvRec) : (s.recordIs k r).nvRec k = r := by
  simp [State.recordIs, State.nvRec, Sparse.get, Sparse.find_put]

theorem nvRec_recordIs_ne (r : NvRec) {j : Nat} (h : j ≠ k) : (s.recordIs k r).nvRec j = s.nvRec j := by
  simp [State.recordIs, State.nvRec, Sparse.get, Sparse.find_put, h]

/-- A record fault sets RECFAULT and queues a record for the log, and leaves the rest. -/
theorem nvFault_frame : s.nvFault k = { s with
    xpdr := { s.xpdr with regs := (s.xset XSTAT.RECFAULT 1).xpdr.regs }, kiln := (s.nvFault k).kiln } :=
  ash_frame (s.xset XSTAT.RECFAULT 1) _ _ _

theorem nvFault_recfault : (s.nvFault k).xget XSTAT.RECFAULT = 1 := by
  rw [nvFault_frame]
  exact xget_xset s XSTAT.RECFAULT 1 (by decide)

theorem nvFault_parts : (s.nvFault k).raised = s.raised ∧ (s.nvFault k).pending = s.pending :=
  ash_parts (s.xset XSTAT.RECFAULT 1) _ _ _

end

/-! ## The copy in force (R270, R271) -/

section
variable {counter : Bool} {p b : NvCopy}

theorem selectCopy_fault (hp : p.ok = false) (hb : b.ok = false) : selectCopy counter ⟨p, b⟩ = none := by
  simp [selectCopy, hp, hb]

theorem selectCopy_primary (hp : p.ok = true) (hb : b.ok = false) : selectCopy counter ⟨p, b⟩ = some p := by
  simp [selectCopy, hp, hb]

theorem selectCopy_backup (hp : p.ok = false) (hb : b.ok = true) : selectCopy counter ⟨p, b⟩ = some b := by
  simp [selectCopy, hp, hb]

section
variable (hp : p.ok = true) (hb : b.ok = true)
include hp hb

/-- A counter whose copies differ reads the higher value. -/
theorem selectCopy_higher (hc : counter = true) (hne : p.value ≠ b.value) :
    selectCopy counter ⟨p, b⟩ = some (if b.value < p.value then p else b) := by
  simp [selectCopy, hp, hb, hc, hne]

theorem selectCopy_newer (h : counter = false ∨ p.value = b.value) :
    selectCopy counter ⟨p, b⟩ = some (if b.seq ≤ p.seq then p else b) := by
  have hsame : ¬(counter && p.value != b.value) = true := by
    rcases h with h | h <;> simp [h]
  simp only [selectCopy, hp, hb, Bool.and_self, if_true, if_neg hsame]

end

end

/-! ## The repair of a cut (R272) -/

section
variable {s : State}

theorem repair_no_journal (h : s.xpdr.journal = none) : s.repair = { s with xpdr := { s.xpdr with repairDue := false } } := by
  unfold State.repair
  rw [h]
  rfl

section
variable {k q : Nat} (h : s.xpdr.journal = some (k, q))
include h

theorem repair_waits (hm : s.ashMay = false) : s.repair = { s with xpdr := { s.xpdr with repairDue := true } } := by
  unfold State.repair
  rw [h]
  exact if_pos (by rw [hm]; rfl)

/-- With the reserve the copy in force is written over both, or the record is marked as faulted; the journal is cleared. -/
theorem repair_with_reserve (hm : s.ashMay = true) : s.repair =
    let u := (s.nvRead k).elim (s.nvFault k) fun c => s.recordIs k ⟨c, c⟩
    { u with xpdr := { u.xpdr with journal := none, repairDue := false } } := by
  unfold State.repair
  rw [h]
  refine (if_neg (by rw [hm]; decide)).trans ?_
  cases s.nvRead k <;> rfl

theorem repair_copies (hm : s.ashMay = true) {c : NvCopy} (hc : s.nvRead k = some c) : s.repair =
    { s.recordIs k ⟨c, c⟩ with xpdr := { (s.recordIs k ⟨c, c⟩).xpdr with journal := none, repairDue := false } } := by
  rw [repair_with_reserve h hm, hc]
  rfl

theorem repair_faulted (hm : s.ashMay = true) (hn : s.nvRead k = none) : s.repair =
    { s.nvFault k with xpdr := { (s.nvFault k).xpdr with journal := none, repairDue := false } } := by
  rw [repair_with_reserve h hm, hn]
  rfl

end

/-- A repair makes nothing ready for the hosts and leaves the queue. -/
theorem repair_parts : s.repair.raised = s.raised ∧ s.repair.pending = s.pending := by
  rcases hj : s.xpdr.journal with _ | ⟨k, q⟩
  · rw [repair_no_journal hj]
    exact ⟨rfl, rfl⟩
  · rcases hm : s.ashMay with _ | _
    · rw [repair_waits hj hm]
      exact ⟨rfl, rfl⟩
    · rcases hc : s.nvRead k with _ | c
      · rw [repair_faulted hj hm hc]
        exact nvFault_parts s k
      · rw [repair_copies hj hm hc]
        exact ⟨rfl, rfl⟩

/-! ## A commit (R269, R270) -/

section
variable {k : Nat} {data : List Byte} {locked : Bool}

theorem commit_refused (h : ¬MayCommit s) : s.commit k data locked = (false, s) := if_pos (not_mayCommit_iff.1 h)

/-- A commit writes the primary, then the backup; each write verifies or ends the commit with a record fault. -/
theorem commit_writes (h : MayCommit s) : s.commit k data locked =
    let u := s.repair
    let new := u.newCopy k data locked
    let torn : NvCopy := { new with ok := false }
    let written (n : Nat) (r : NvRec) : State := ({ u with free := u.free + n } : State).recordIs k r
    if !Config.freeBool u.free then (false, (written 1 ⟨torn, (u.nvRec k).backup⟩).nvFault k)
    else if !Config.freeBool (u.free + 1) then (false, (written 2 ⟨new, torn⟩).nvFault k)
    else (true, written 2 ⟨new, new⟩) := if_neg (mayCommit_not h)

/-! ## A commit for the field, and the commits of one command (R268, R381) -/

theorem fieldCommit_failed (h : (s.commit k data locked).1 = false) :
    s.fieldCommit k data locked = (false, (s.commit k data locked).2) := by
  unfold State.fieldCommit
  dsimp only
  rw [h]
  rfl

theorem fieldCommit_overtakes (h : (s.commit k data locked).1 = true) :
    s.fieldCommit k data locked = (true, { (s.commit k data locked).2 with xpdr := { (s.commit k data locked).2.xpdr with
      deferred := (s.commit k data locked).2.xpdr.deferred.map fun d => if d.touches k then { d with overtaken := true } else d } }) := by
  unfold State.fieldCommit
  dsimp only
  rw [h]
  rfl

theorem lockedBlock_iff : (decide (k < 1024) && ((s.nvRead k).map (·.locked)).getD false) = true ↔
    k < 1024 ∧ ∃ c, s.nvRead k = some c ∧ c.locked = true := by
  rw [Bool.and_eq_true, decide_eq_true_iff]
  cases s.nvRead k <;> simp

variable {l : List (Nat × List Byte)} {n : Nat}

theorem commitAll_locked (h : k < 1024 ∧ ∃ c, s.nvRead k = some c ∧ c.locked = true) :
    s.commitAll ((k, data) :: l) n = (2, n, s) := if_pos (lockedBlock_iff.2 h)

theorem commitAll_open (h : ¬(k < 1024 ∧ ∃ c, s.nvRead k = some c ∧ c.locked = true)) :
    s.commitAll ((k, data) :: l) n =
      if (s.commit k data false).1 = true then (s.commit k data false).2.commitAll l (n + 1)
      else (3, n, (s.commit k data false).2) := if_neg (mt lockedBlock_iff.1 h)

end

/-- The first deferred command committed, and its XPDR_WRITE_DONE. -/
theorem commitDeferred_first {d : Deferred} {r : List Deferred} (h : s.xpdr.deferred = d :: r) : s.commitDeferred =
    let x := ({ s with xpdr := { s.xpdr with deferred := r } } : State).hostCommit d.cmd
    x.2.2.raiseTo d.cmd.hp 8 0x0680 ([d.cmd.seq] ++ leBytes 1 (deferredOutcome d.overtaken x.1)
      ++ leBytes 2 d.cmd.opcode.toNat ++ leBytes 1 (if d.cmd.opcode = 0x0603 then x.2.1 else 0)) := by
  unfold State.commitDeferred
  rw [h]
  dsimp only [State.modX]
  generalize ({ s with xpdr := { s.xpdr with deferred := r } } : State).hostCommit d.cmd = x
  obtain ⟨res, done, u⟩ := x
  rcases res with _ | _ | _ | _ | n <;> rfl

end

end Sys2Proof.Machine

open Sys2Proof Sys2Proof.Machine

/-- Settles O54, by the cases of a commit, of the selection, of the commits in turn and of the repair. -/
theorem commitsWriteARecordsTwoCopiesInTurn : Obligations.CommitsWriteARecordsTwoCopiesInTurn := by
  unfold Obligations.CommitsWriteARecordsTwoCopiesInTurn
  refine ⟨fun s k data locked => ⟨commit_refused, fun hm => ?commit⟩,
    fun s k r => ⟨nvRec_recordIs s k r, fun j hj => nvRec_recordIs_ne s k r hj⟩,
    fun s k => ⟨nvFault_frame s k, nvFault_recfault s k⟩,
    fun counter p b => ⟨selectCopy_fault, selectCopy_primary, selectCopy_backup, fun hp hb =>
      ⟨fun hc hv => ?backup, fun hc hv => ?primary, selectCopy_newer hp hb⟩⟩,
    fun s k data locked => ⟨fieldCommit_failed, fieldCommit_overtakes⟩,
    fun s n k data l => ⟨rfl, commitAll_locked, fun ho hx => (commitAll_open ho).trans (if_pos hx),
      fun ho hx => (commitAll_open ho).trans (if_neg (Bool.eq_false_iff.1 hx))⟩,
    fun s => ⟨fun hr hd => exec_to rfl (commitDeferred_none hd 1) hr rfl, fun d r hd => leaves_of rfl (commitDeferred_first hd),
      fun hr => exec_to rfl rfl (repair_parts.1.trans hr) repair_parts.2, repair_no_journal,
      fun k q hj => ⟨repair_waits hj, fun hm => ⟨fun c => repair_copies hj hm, repair_faulted hj hm⟩⟩,
      fun hr hx => exec_to rfl (if_pos hx) hr rfl, fun hr hh hf => ?reserve⟩⟩
  case commit =>
    intro u new torn
    rw [commit_writes hm]
    dsimp only
    split
    · exact ⟨u.free + 1, .inr (.inl rfl)⟩
    · split
      · exact ⟨u.free + 2, .inr (.inr rfl)⟩
      · exact ⟨u.free + 2, .inl rfl⟩
  case backup => rw [selectCopy_higher hp hb hc (Nat.ne_of_lt hv), if_neg (Nat.lt_asymm hv)]
  case primary => rw [selectCopy_higher hp hb hc (Nat.ne_of_gt hv), if_pos hv]
  case reserve =>
    intro u
    refine exec_to rfl (if_neg (not_or.2 ⟨hh, hf⟩)) ?_ ?_
    · split
      · exact repair_parts.1.trans hr
      · exact hr
    · split
      · exact repair_parts.2
      · rfl
end

section
/-! PROOF. Calibration: the four commands as they are judged, the cross-check, the staged values of recalibration, and
the measurements of CAL_RUN and CAL_COUPLING (R213-R216, R284, R287, R292-R301). -/

namespace Sys2Proof.Machine

section
variable {s : State} {c : Cmd}

/-! ## CAL_RUN (R292, R293) -/

/-- The parameters come from the payload, and an empty one stands for the defaults of the inventory list. -/
theorem calParams_of {steps ref level ants : Nat}
    (hgiven : c.payload ≠ [] → steps = byteAt c.payload 0 ∧ ref = byteAt c.payload 1 ∧ level = leAt c.payload 2 2 ∧
      ants = leAt c.payload 4 8)
    (hdefault : c.payload = [] → steps = 15 ∧ ants = leAt (s.port c.port).svc.invSet 0 8 ∧
      ref = (maskAnts ants).headD 0 ∧ level = s.pget c.port TXAMP.LEVEL) :
    s.calParams c = (steps, ref, level, ants) := by
  unfold State.calParams
  dsimp only
  by_cases hl : c.payload = []
  · obtain ⟨rfl, rfl, rfl, rfl⟩ := hdefault hl
    exact if_pos (List.isEmpty_iff.2 hl)
  · obtain ⟨rfl, rfl, rfl, rfl⟩ := hgiven hl
    exact if_neg (mt List.isEmpty_iff.1 hl)

/-- A CAL_RUN at its beginning: nothing measured, every antenna to map. -/
def CalRun.fresh (steps ref level ants : Nat) : CalRun :=
  { steps := steps, refAnt := ref, level := level, ants := maskAnts ants, todo := maskAnts ants, capNow := 0, bestCap := 0,
    bestPhase := 0, levels := [] }

theorem bodyCalRun_params {steps ref level ants : Nat} (h : s.calParams c = (steps, ref, level, ants)) : bodyCalRun c s =
    if ants = 0 ∨ steps = 0 ∨ 15 < steps ∨ 63 < ref ∨ (c.payload ≠ [] ∧ (level < 1 ∨ 1023 < level)) then
      s.respond c St.BAD_PARAM
    else if (s.port c.port).field.lockout then s.respond c St.THERMAL_LIMIT
    else s.calBegin c.port c (CalRun.fresh steps ref level ants) := by
  unfold bodyCalRun
  dsimp only
  rw [h]
  rfl

/-! ## CAL_IMPORT (R300, R301, R384) -/

/-- A blob cannot be imported now: a CAL_RUN is in progress on a port that it holds, or CAL_COUPLING is. -/
def State.importBusy (s : State) (b : List Byte) : Prop :=
  (∃ q ∈ s.calPorts, nbit (byteAt b 7) q.val = true) ∨ s.couplingSet ≠ []

theorem importBusy_iff {b : List Byte} : s.importBusy b ↔
    (s.calPorts.any (fun q => nbit (byteAt b 7) q.val) || !s.couplingSet.isEmpty) = true := by
  rw [State.importBusy, Bool.or_eq_true, List.any_eq_true, Bool.not_eq_true', List.isEmpty_eq_false_iff]

/-- The checks of CAL_IMPORT in their order. -/
theorem bodyCalImport_checks : bodyCalImport c s =
    let b := c.payload.drop 4
    if leAt b 4 2 ≠ b.length ∨ b.length ≠ 290 + 176 * blobCount b then s.respond c St.BAD_LENGTH
    else if 31 < byteAt c.payload 0 ∨ 1 < byteAt c.payload 1 ∨ blobBad b (byteAt c.payload 0) = true then
      s.respond c St.BAD_PARAM
    else if 0xC1 < byteAt b 6 then s.respond c St.IMAGE_INVALID
    else if byteAt c.payload 1 = 0 ∧ (b.drop 8).take 11 ≠ dieBytes then s.respond c St.BAD_PARAM
    else if (s.calPorts.any (fun q => nbit (byteAt b 7) q.val) || !s.couplingSet.isEmpty) = true then s.respond c St.BUSY
    else s.calApply c (byteAt c.payload 0) b := rfl

/-! ## CAL_COUPLING (R213, R214) -/

/-- The ports that a CAL_COUPLING measures. -/
def couplingPorts (c : Cmd) : List Nat := (List.range 8).filter fun i => nbit (byteAt c.payload 0) i

/-- The reference antenna of each port. -/
def couplingAnts (c : Cmd) : List Nat := (List.range 8).map fun i => byteAt c.payload (4 + i)

/-- A port is open and nothing runs on it. -/
def State.portFree (s : State) (p : PortNum) : Bool :=
  (s.port p).svc.svc == .opened && !s.portBusy p && (s.port p).svc.pass.isNone && !(s.port p).svc.series

theorem portFree_iff {p : PortNum} : s.portFree p = true ↔ (s.port p).svc.svc = .opened ∧ s.portBusy p = false ∧
    (s.port p).svc.pass = none ∧ (s.port p).svc.series = false := by
  simp only [State.portFree, Bool.and_eq_true, beq_iff_eq, Bool.not_eq_true', Option.isNone_iff_eq_none, and_assoc]

theorem bodyCalCoupling_eq : bodyCalCoupling c s =
    if (couplingPorts c).length < 2 ∨ ∃ n ∈ couplingPorts c, 63 < (couplingAnts c).getD n 0 then s.respond c St.BAD_PARAM
    else if (couplingPorts c).all fun n => s.portFree (toPort n) then s.cplBegin c (couplingPorts c) (couplingAnts c)
    else s.respond c St.BUSY := by
  refine if_congr (or_congr_right ?_) rfl rfl
  simp only [List.any_eq_true, decide_eq_true_eq]
  rfl

end

/-! ## The cross-check (R287) -/

section
variable {s : State} {p : PortNum} {dev : Int}

/-- A cross-check's result stored: the deviation clamped to 16 bits, valid, and counted. -/
def State.crossChecked (s : State) (p : PortNum) (dev : Int) : State :=
  let t := (s.calSet (ADCX.DEV.nth p.val) (unsigned 16 (clampInt (-32768) 32767 dev))).calSet (ADCX.VALID.nth p.val) 1
  t.calSet (ADCX.CHECKS.nth p.val) (min 255 (t.calGet (ADCX.CHECKS.nth p.val) + 1))

theorem crossCheck_passes (hlo : -50 ≤ dev) (hhi : dev ≤ 50) : s.crossCheck p dev = s.crossChecked p dev :=
  if_neg (by omega)

/-- A cross-check that fails is marked and logged. -/
def State.crossFailed (s : State) (p : PortNum) (dev : Int) : State :=
  ((s.crossChecked p dev).calSet (ADCX.FAIL.nth p.val) 1).ash 0x0071 p.val
    (leBytes 2 (unsigned 16 (clampInt (-32768) 32767 dev)))

theorem crossFailed_parts (s : State) (p : PortNum) (dev : Int) :
    (s.crossFailed p dev).raised = s.raised ∧ (s.crossFailed p dev).pending = s.pending := by
  simp [State.crossFailed, State.crossChecked, ash_parts]

/-- The port's owner is told of a cross-check that fails. -/
theorem crossCheck_fails (h : dev < -50 ∨ 50 < dev) : s.crossCheck p dev =
    (s.crossFailed p dev).raiseOwner p.val 0x0782
      ([BitVec.ofNat 8 p.val, 0] ++ leBytes 2 (unsigned 16 (clampInt (-32768) 32767 dev))) :=
  if_pos h

/-- A cross-check is due on a port whose field is off and whose domain is powered. -/
theorem xchkDue_iff : (s.xchkPend.contains p.val && s.fieldState p == 0 && s.portOn p) = true ↔
    s.xchkPend.contains p.val = true ∧ s.fieldState p = 0 ∧ s.portOn p = true := by
  rw [Bool.and_eq_true, Bool.and_eq_true, beq_iff_eq, and_assoc]

end

/-! ## Staged values (R284) -/

section
variable {s : State} {n : Nat}

theorem pendUpdate_eq (s : State) (d : Nat) : s.pendUpdate d = { s with cal := (s.pendUpdate d).cal } := rfl

theorem takeTrims_none (h : s.staged.find? (·.1 == n) = none) : s.takeTrims n = s := by
  unfold State.takeTrims
  rw [h]

/-- Staged values taken: the port's trims replaced, and nothing made ready. -/
theorem takeTrims_some {v : Nat × List Int} (h : s.staged.find? (·.1 == n) = some v) :
    (s.takeTrims n).trims = assocPut n v.2 s.trims ∧ (s.takeTrims n).staged = s.staged.filter (·.1 ≠ n) ∧
      (s.takeTrims n).raised = s.raised ∧ (s.takeTrims n).pending = s.pending := by
  unfold State.takeTrims
  rw [h]
  dsimp only
  rw [pendUpdate_eq]
  split
  · exact ⟨rfl, rfl, rfl, rfl⟩
  · split <;> exact ⟨rfl, rfl, rfl, rfl⟩

theorem takeTrims_parts (s : State) (n : Nat) : (s.takeTrims n).raised = s.raised ∧ (s.takeTrims n).pending = s.pending := by
  cases h : s.staged.find? (·.1 == n) with
  | none => rw [takeTrims_none h]; exact ⟨rfl, rfl⟩
  | some v =>
    obtain ⟨-, -, hr, hp⟩ := takeTrims_some h
    exact ⟨hr, hp⟩

end

/-! ## The measurements of CAL_RUN (R293-R295) -/

section
variable {s : State} {p : PortNum} {c : CalRun} {m : CalMeasure}

/-- What the end of a measurement leaves: the CAL_RUN on the port, if any, takes it. -/
def State.calMeasureEnds (s : State) (p : PortNum) (m : CalMeasure) : State :=
  match s.findJob (calRunOf p) with
  | some r => match r.job with
    | .calRun _ c => s.calMeasured p c m
    | _ => s
  | none => s

theorem exec_calMeasurementEnd (p : PortNum) (m : CalMeasure) :
    exec (.calMeasurementEnd p m) = run fun s => s.calMeasureEnds p m := rfl

theorem calMeasureEnds_idle (h : s.findJob (calRunOf p) = none) : s.calMeasureEnds p m = s := by
  unfold State.calMeasureEnds
  rw [h]

theorem calMeasureEnds_running {r : Running} {q : PortNum} (hf : s.findJob (calRunOf p) = some r) (hj : r.job = .calRun q c) :
    s.calMeasureEnds p m = s.calMeasured p c m := by
  unfold State.calMeasureEnds
  rw [hf]
  dsimp only
  rw [hj]

theorem calMeasured_crossCheck {dev : Int} (h2 : nbit c.steps 2 = true) (hoff : s.fieldState p = 0) :
    s.calMeasured p c (.crossCheck dev) = (s.crossCheck p dev).calNext p { c with steps := c.steps &&& 0xB } :=
  if_pos ⟨h2, hoff⟩

theorem calMeasured_tuneStep {phase : Int} (h2 : nbit c.steps 2 = false) (h0 : nbit c.steps 0 = true)
    (hi : s.idlePoint p = true) : s.calMeasured p c (.tuneStep phase) =
      if (c.tuned phase).capNow = 64 then
        (((s.calSet (TUNE.CAP.nth p.val) (c.tuned phase).bestCap).calSet (TUNE.APPLIED.nth p.val)
          (c.tuned phase).bestCap).fieldDown p).calNext p { c.tuned phase with steps := c.steps &&& 0xA }
      else s.calGoOn p (c.tuned phase) :=
  if_pos ⟨h2, h0, hi⟩

theorem calMeasured_antenna {mag a : Nat} {l : List Nat} (h2 : nbit c.steps 2 = false) (h0 : nbit c.steps 0 = false)
    (h1 : nbit c.steps 1 = true) (hi : s.idlePoint p = true) (htodo : c.todo = a :: l) :
    s.calMeasured p c (.antenna mag) =
      let c1 := { c with todo := l, levels := c.levels ++ [(a, levelKey mag (s.pget p DAMPER.ATTEN))] }
      (s.fieldDown p).calNext p (if l.isEmpty then { c1 with steps := c.steps &&& 0x8 } else c1) := by
  refine (if_pos ⟨h2, h0, h1, hi⟩).trans ?_
  rw [htodo]
  exact (apply_ite ((s.fieldDown p).calNext p) _ _ _).symm

theorem tuned_better {phase : Int} (h : c.capNow = 0 ∨ phase.natAbs < c.bestPhase.natAbs) :
    (c.tuned phase).bestCap = c.capNow ∧ (c.tuned phase).bestPhase = phase := by
  have better : (decide (c.capNow = 0) || decide (phase.natAbs < c.bestPhase.natAbs)) = true := by
    rw [Bool.or_eq_true, decide_eq_true_eq, decide_eq_true_eq]
    exact h
  exact ⟨if_pos better, if_pos better⟩

theorem tuned_worse {phase : Int} (h0 : c.capNow ≠ 0) (h : c.bestPhase.natAbs ≤ phase.natAbs) :
    (c.tuned phase).bestCap = c.bestCap ∧ (c.tuned phase).bestPhase = c.bestPhase := by
  have worse : ¬(decide (c.capNow = 0) || decide (phase.natAbs < c.bestPhase.natAbs)) = true := by
    rw [Bool.or_eq_true, decide_eq_true_eq, decide_eq_true_eq]
    exact not_or.2 ⟨h0, Nat.not_lt.2 h⟩
  exact ⟨if_neg worse, if_neg worse⟩

end

/-! ## The intervals of CAL_COUPLING (R214, R216) -/

section
variable {s : State} {c : CalCpl} {m : CouplingMeasure}

/-- What the end of an interval leaves: the CAL_COUPLING in progress, if any, takes it. -/
def State.cplIntervalEnds (s : State) (m : CouplingMeasure) : State :=
  match s.cplRun with
  | some c => s.cplInterval c m
  | none => s

theorem exec_couplingSourceEnd (m : CouplingMeasure) : exec (.couplingSourceEnd m) = run fun s => s.cplIntervalEnds m := rfl

theorem cplRun_eq (s : State) : s.cplRun = match s.findJob couples with
    | some r => match r.job with
      | .coupling c => some c
      | _ => none
    | none => none := rfl

theorem cplIntervalEnds_idle (h : s.findJob couples = none) : s.cplIntervalEnds m = s := by
  unfold State.cplIntervalEnds
  rw [cplRun_eq, h]

theorem cplIntervalEnds_running {r : Running} (hf : s.findJob couples = some r) (hj : r.job = .coupling c) :
    s.cplIntervalEnds m = s.cplInterval c m := by
  have hrun : s.cplRun = some c := by
    rw [cplRun_eq, hf]
    dsimp only
    rw [hj]
  unfold State.cplIntervalEnds
  rw [hrun]

theorem fieldsUp_iff : (c.set.all fun n => s.fieldState (toPort n) == 2) = true ↔ ∀ n ∈ c.set, s.fieldState (toPort n) = 2 := by
  simp only [List.all_eq_true, beq_iff_eq]

section
variable (hup : ∀ n ∈ c.set, s.fieldState (toPort n) = 2)
include hup

theorem cplInterval_freezes (hz : c.frozen = false) : s.cplInterval c .freeze = s.cplGoOn { c with frozen := true } := by
  refine if_pos ?_
  rw [fieldsUp_iff.2 hup, hz]
  rfl

variable (hz : c.frozen = true)
include hz

/-- A source's interval, or a disturbed one, counts once the receivers are frozen with all fields up. -/
theorem fieldsUp_frozen : ((c.set.all fun n => s.fieldState (toPort n) == 2) && c.frozen) = true := by
  rw [fieldsUp_iff.2 hup, hz]
  rfl

theorem cplInterval_source {v : List (Int × Int)} {e : List Nat} : s.cplInterval c (.source v e) = s.cplSource c v e :=
  if_pos (fieldsUp_frozen hup hz)

theorem cplInterval_disturbed : s.cplInterval c .disturbed =
    if c.repeats < 8 then s.cplGoOn { c with repeats := c.repeats + 1 } else s.stopCoupling St.TIMEOUT :=
  if_pos (fieldsUp_frozen hup hz)

end

/-- With a field of the set not up no interval counts. -/
theorem cplInterval_down (h : ¬∀ n ∈ c.set, s.fieldState (toPort n) = 2) : s.cplInterval c m = s := by
  have hdown : (c.set.all fun n => s.fieldState (toPort n) == 2) = false := Bool.eq_false_iff.2 (mt fieldsUp_iff.1 h)
  unfold State.cplInterval
  dsimp only
  rw [hdown]
  cases m <;> rfl

end

end Sys2Proof.Machine

open Sys2Proof Sys2Proof.Machine

/-- Settles O27, by the judgement of the four commands, the cross-check, the staged values and the measurements. -/
theorem calibrationCommandsMeasureStoreAndCheck : Obligations.CalibrationCommandsMeasureStoreAndCheck := by
  unfold Obligations.CalibrationCommandsMeasureStoreAndCheck
  refine ⟨fun s h => ?commands, fun s p hr => ?rows⟩
  case commands =>
    intro b p
    refine ⟨fun steps ref level ants hgiven hdefault => ?run, answered_of rfl (fun _ => rfl) rfl rfl rfl, ?importing, ?coupling⟩
    case run =>
      have body := bodyCalRun_params
        (calParams_of (s := s.opened (opCalRun.cmd h)) (c := opCalRun.cmd h) hgiven hdefault)
      intro bad
      exact ⟨fun hb => answered_of rfl (fun _ => body.trans (if_pos hb)) rfl rfl rfl,
        fun hb hl => answered_of rfl (fun _ => (body.trans (if_neg hb)).trans (if_pos hl)) rfl rfl rfl,
        fun hb hl => runs_of rfl ((body.trans (if_neg hb)).trans (if_neg (Bool.eq_false_iff.1 hl)))⟩
    case importing =>
      intro l short bad foreign busy
      have body := bodyCalImport_checks (s := s.opened (opCalImport.cmd h)) (c := opCalImport.cmd h)
      have fits (hs : ¬short) := body.trans (if_neg hs)
      have formed (hs : ¬short) (hb : ¬bad) := (fits hs).trans (if_neg hb)
      have known (hs : ¬short) (hb : ¬bad) (hv : byteAt l 6 ≤ 0xC1) := (formed hs hb).trans (if_neg (Nat.not_lt.2 hv))
      have own (hs : ¬short) (hb : ¬bad) (hv : byteAt l 6 ≤ 0xC1) (hf : ¬foreign) := (known hs hb hv).trans (if_neg hf)
      exact ⟨fun hs => answered_of rfl (fun _ => body.trans (if_pos hs)) rfl rfl rfl,
        fun hs hb => answered_of rfl (fun _ => (fits hs).trans (if_pos hb)) rfl rfl rfl,
        fun hs hb hv => answered_of rfl (fun _ => (formed hs hb).trans (if_pos hv)) rfl rfl rfl,
        fun hs hb hv hf => answered_of rfl (fun _ => (known hs hb hv).trans (if_pos hf)) rfl rfl rfl,
        fun hs hb hv hf hx => answered_of rfl (fun _ => (own hs hb hv hf).trans (if_pos (importBusy_iff.1 hx))) rfl rfl rfl,
        fun hs hb hv hf hx => runs_of rfl ((own hs hb hv hf).trans (if_neg (mt importBusy_iff.2 hx)))⟩
    case coupling =>
      intro set ants idle bad
      have rests : idle ↔ (set.all fun n => s.portFree (toPort n)) = true := by
        rw [List.all_eq_true]
        exact forall₂_congr fun n _ => portFree_iff.symm
      have body := bodyCalCoupling_eq (s := s.opened (opCalCoupling.cmd h)) (c := opCalCoupling.cmd h)
      exact ⟨fun hb => answered_of rfl (fun _ => body.trans (if_pos hb)) rfl rfl rfl,
        fun hb hi => answered_of rfl (fun _ => (body.trans (if_neg hb)).trans (if_neg (mt rests.2 hi))) rfl rfl rfl,
        fun hb hi => runs_of rfl ((body.trans (if_neg hb)).trans (if_pos (rests.1 hi)))⟩
  case rows =>
    have measured {m : CalMeasure} {v : State} (h : s.calMeasureEnds p m = v) (hv : v.raised = s.raised)
        (hq : v.pending = s.pending) : exec (.calMeasurementEnd p m) s = .next v :=
      exec_to (exec_calMeasurementEnd p m) h (hv.trans hr) hq
    have interval {m : CouplingMeasure} {v : State} (h : s.cplIntervalEnds m = v) (hv : v.raised = s.raised)
        (hq : v.pending = s.pending) : exec (.couplingSourceEnd m) s = .next v :=
      exec_to (exec_couplingSourceEnd m) h (hv.trans hr) hq
    refine ⟨fun dev hpend hoff hon => ?check, fun dev h => ?notDue, fun hi => ?takes, fun hi => ?waits, fun hx => ?takesT,
      fun hx => ?waitsT, fun n hn => takeTrims_none hn, fun n v hn => ?taken, fun hf m => ?noRun, fun r q c hf hj => ?run,
      fun c phase => ⟨rfl, tuned_better, tuned_worse⟩, fun hf m => ?noCoupling, fun r c hf hj => ?coupling⟩
    case check =>
      intro d u v
      have due := xchkDue_iff.2 ⟨hpend, hoff, hon⟩
      refine ⟨fun hlo hhi => exec_to rfl ((if_pos due).trans (crossCheck_passes hlo hhi)) hr rfl, fun hdev => ?_⟩
      obtain ⟨har, hap⟩ := crossFailed_parts { s with xchkPend := s.xchkPend.filter (· ≠ p.val) } p dev
      exact exec_toldOwner rfl ((if_pos due).trans (crossCheck_fails hdev)) (har.trans hr) hap
    case notDue =>
      refine exec_to rfl (if_neg (mt xchkDue_iff.1 ?_)) hr rfl
      rintro ⟨hpend, hoff, -⟩
      rcases h with h | h
      · exact Bool.false_ne_true (h.symm.trans hpend)
      · exact h hoff
    case takes => exact exec_to rfl (if_pos hi) ((takeTrims_parts s p.val).1.trans hr) (takeTrims_parts s p.val).2
    case waits => exact exec_to rfl (if_neg (Bool.eq_false_iff.1 hi)) hr rfl
    case takesT => exact exec_to rfl (if_pos (beq_iff_eq.2 hx)) ((takeTrims_parts s 8).1.trans hr) (takeTrims_parts s 8).2
    case waitsT => exact exec_to rfl (if_neg (mt beq_iff_eq.1 hx)) hr rfl
    case taken =>
      obtain ⟨htrims, hstaged, -, -⟩ := takeTrims_some hn
      exact ⟨htrims, hstaged⟩
    case noRun => exact measured (calMeasureEnds_idle hf) rfl rfl
    case run =>
      have takes {m : CalMeasure} := calMeasureEnds_running (m := m) hf hj
      refine ⟨fun dev h2 hoff => leaves_of (exec_calMeasurementEnd p _) (takes.trans (calMeasured_crossCheck h2 hoff)),
        fun phase h2 h0 hi => ?tune, fun mag a l h2 h0 h1 hi htodo =>
          leaves_of (exec_calMeasurementEnd p _) (takes.trans (calMeasured_antenna h2 h0 h1 hi htodo))⟩
      have step := takes.trans (calMeasured_tuneStep (phase := phase) h2 h0 hi)
      exact ⟨fun hn => measured (step.trans (if_neg hn)) rfl rfl,
        fun hn => leaves_of (exec_calMeasurementEnd p _) (step.trans (if_pos hn))⟩
    case noCoupling => exact interval (cplIntervalEnds_idle hf) rfl rfl
    case coupling =>
      intro up
      have takes {m : CouplingMeasure} := cplIntervalEnds_running (m := m) hf hj
      have disturbed (hu : up) (hz : c.frozen = true) := takes.trans (cplInterval_disturbed hu hz)
      exact ⟨fun hu hz => interval (takes.trans (cplInterval_freezes hu hz)) rfl rfl,
        fun hu hz v e => leaves_of (exec_couplingSourceEnd _) (takes.trans (cplInterval_source hu hz)),
        fun hu hz hn => interval ((disturbed hu hz).trans (if_pos hn)) rfl rfl,
        fun hu hz hn => leaves_of (exec_couplingSourceEnd _) ((disturbed hu hz).trans (if_neg (Nat.not_lt.2 hn))),
        fun hd m => interval (takes.trans (cplInterval_down hd)) rfl rfl⟩
end

section
/-! PROOF. A step is the command in front or a tick, and the log that every step keeps (R332, R522, R533, R537). -/

namespace Sys2Proof.Machine

/-! ## Every row answers -/

/-- Every row of the table is a meaning that is run: what it made ready goes to the host ports at its end. -/
theorem exec_isRun (i : Instr) : ∃ f, exec i = run f := by
  cases i <;> exact ⟨_, rfl⟩

/-! ## Records committed to a sound log (R533, R537) -/

/-- The chain value before record 0 (R537). -/
def chainRoot : List Byte := Config.sha256 (Config.p256Public Config.deviceKey)

/-- The chain value that a record behind a log builds on, the log itself building on `before`. -/
def chainEnd (before : List Byte) (l : List AshRec) : List Byte := (l.getLast?.map (·.chain)).getD before

/-- A log, its anchor and its next SEQ as AshSound has them. -/
def LogSound (d : List AshRec × List Byte × Nat × Nat) : Prop :=
  d.1.length = min 4096 d.2.2.1 ∧ Numbered (d.2.2.1 - d.1.length) d.1 ∧
    Chained (if d.2.2.1 = d.1.length then chainRoot else d.2.1) d.1

theorem ashSound_iff (s : State) : AshSound s ↔ LogSound s.durable := Iff.rfl

theorem chainEnd_cons (before : List Byte) (r : AshRec) (l : List AshRec) : chainEnd before (r :: l) = chainEnd r.chain l := by
  unfold chainEnd
  rw [List.getLast?_cons]
  cases l.getLast? <;> rfl

theorem Chained_append (before : List Byte) (l : List AshRec) (r : AshRec) :
    Chained before (l ++ [r]) ↔ Chained before l ∧ r.chain = Config.sha256 (chainEnd before l ++ r.body) := by
  induction l generalizing before with
  | nil => simp [Chained, chainEnd]
  | cons a l ih => simp [Chained, ih, chainEnd_cons, and_assoc]

/-- The record that a commit appends. -/
def recordOf (d : List AshRec × List Byte × Nat × Nat) (i : AshItem) : AshRec :=
  ⟨ashBody d.2.2.1 i, Config.sha256 (chainEnd chainRoot d.1 ++ ashBody d.2.2.1 i)⟩

theorem commitTo_eq (log : List AshRec) (anchor : List Byte) (seq sec : Nat) (i : AshItem) :
    commitTo (log, anchor, seq, sec) i = ((if 4096 ≤ log.length then log.drop 1 else log) ++ [recordOf (log, anchor, seq, sec) i],
      if 4096 ≤ log.length then (log.head?.map (·.chain)).getD [] else anchor, seq + 1, sec) := by
  unfold commitTo recordOf chainEnd chainRoot
  dsimp only
  cases log.getLast? <;> rfl

/-- A commit keeps a log sound, whether it has room or loses its oldest record to the anchor. -/
theorem commitTo_sound (d : List AshRec × List Byte × Nat × Nat) (i : AshItem) (h : LogSound d) : LogSound (commitTo d i) := by
  obtain ⟨log, anchor, seq, sec⟩ := d
  obtain ⟨hlen, hnum, hchain⟩ := h
  rw [commitTo_eq]
  unfold LogSound
  dsimp only at *
  by_cases hfull : 4096 ≤ log.length
  · obtain ⟨r, l, rfl⟩ : ∃ r l, log = r :: l := List.exists_cons_of_length_pos (by omega)
    obtain ⟨-, -, hnum⟩ := hnum
    rw [List.length_cons] at *
    have hseq : seq - (l.length + 1) + 1 = seq + 1 - (l.length + 1) := by omega
    rw [if_pos hfull, if_pos hfull, List.drop_one, List.tail_cons, List.length_append, List.length_singleton,
      if_neg (by omega), Numbered_append, Chained_append]
    refine ⟨by omega, ⟨hseq ▸ hnum, ashBody_len _ _, ?_⟩, hchain.2, ?_⟩
    · rw [show seq + 1 - (l.length + 1) + l.length = seq by omega]
      exact ashBody_seq _ _
    · unfold recordOf
      rw [chainEnd_cons]
      rfl
  · obtain rfl : seq = log.length := by omega
    rw [if_pos rfl] at hchain
    rw [Nat.sub_self] at hnum
    rw [if_neg hfull, if_neg hfull, List.length_append, List.length_singleton, if_pos rfl, Nat.sub_self, Numbered_append,
      Chained_append]
    refine ⟨by omega, ⟨hnum, ashBody_len _ _, ?_⟩, hchain, rfl⟩
    rw [Nat.zero_add]
    exact ashBody_seq _ _

theorem commits_sound (l : List AshItem) (d : List AshRec × List Byte × Nat × Nat) (h : LogSound d) :
    LogSound (l.foldl commitTo d) := by
  induction l generalizing d with
  | nil => exact h
  | cons i l ih => exact ih _ (commitTo_sound d i h)

/-- Commits and raises of SECVER keep the log sound. -/
theorem Grows.ashSound {s t : State} (g : Grows s t) (h : AshSound s) : AshSound t := by
  obtain ⟨l, v, -, hl⟩ := g
  rw [ashSound_iff, hl]
  exact commits_sound l s.durable h

/-! ## Records added at the end of the log (R533) -/

/-- The last 4,096 records of a log. -/
def lastRecords (l : List AshRec) : List AshRec := l.drop (l.length - 4096)

theorem lastRecords_append (a b : List AshRec) : lastRecords (lastRecords a ++ b) = lastRecords (a ++ b) := by
  unfold lastRecords
  rw [← List.drop_append_of_le_length (by omega), List.drop_drop]
  refine congrArg (List.drop · (a ++ b)) ?_
  simp only [List.length_drop, List.length_append]
  omega

theorem lastRecords_of_le {l : List AshRec} (h : l.length ≤ 4096) : lastRecords l = l := by
  unfold lastRecords
  rw [Nat.sub_eq_zero_of_le h, List.drop_zero]

theorem commitTo_appends (d : List AshRec × List Byte × Nat × Nat) (i : AshItem) (h : d.1.length ≤ 4096) :
    (commitTo d i).1 = lastRecords (d.1 ++ [recordOf d i]) ∧ (commitTo d i).2.2.1 = d.2.2.1 + 1 := by
  obtain ⟨log, anchor, seq, sec⟩ := d
  rw [commitTo_eq]
  refine ⟨?_, rfl⟩
  dsimp only at *
  unfold lastRecords
  rw [List.length_append, List.length_singleton]
  by_cases hfull : 4096 ≤ log.length
  · rw [if_pos hfull, show log.length + 1 - 4096 = 1 by omega, List.drop_append_of_le_length (by omega)]
  · rw [if_neg hfull, Nat.sub_eq_zero_of_le (by omega), List.drop_zero]

theorem lastRecords_length (l : List AshRec) : (lastRecords l).length ≤ 4096 := by
  unfold lastRecords
  rw [List.length_drop]
  omega

theorem commits_append (l : List AshItem) (d : List AshRec × List Byte × Nat × Nat) (h : d.1.length ≤ 4096) :
    ∃ new : List AshRec, (l.foldl commitTo d).2.2.1 = d.2.2.1 + new.length ∧ (l.foldl commitTo d).1 = lastRecords (d.1 ++ new) := by
  induction l generalizing d with
  | nil => exact ⟨[], rfl, by rw [List.append_nil, lastRecords_of_le h]; rfl⟩
  | cons i l ih =>
    obtain ⟨hlog, hseq⟩ := commitTo_appends d i h
    obtain ⟨new, hs, hl⟩ := ih (commitTo d i) (hlog ▸ lastRecords_length _)
    refine ⟨recordOf d i :: new, ?_, ?_⟩
    · rw [List.foldl_cons, hs, hseq, List.length_cons]
      omega
    · rw [List.foldl_cons, hl, hlog, lastRecords_append, List.append_assoc, List.singleton_append]

/-- A step is a row or a tick, and neither does more to the log than commit records. -/
theorem step_grows {s t : State} (h : step s = .next t) : Grows s t := by
  unfold step at h
  split at h
  · injection h with h
    exact Grows.of_keep (h ▸ State.tick_durable s)
  · exact Grows.after (durable_pending s _) (exec_grows _ _ _ h)

end Sys2Proof.Machine

open Sys2Proof Sys2Proof.Machine

/-- Settles O1. -/
theorem aStepIsTheCommandInFront : Obligations.AStepIsTheCommandInFront := by
  unfold Obligations.AStepIsTheCommandInFront
  intro s c r h
  unfold step
  rw [h]

/-- Settles O2: every row is a meaning that is run, and a tick keeps what is durable. -/
theorem everyCommandAnswersAndAnEmptyQueueTicks : Obligations.EveryCommandAnswersAndAnEmptyQueueTicks := by
  unfold Obligations.EveryCommandAnswersAndAnEmptyQueueTicks
  refine ⟨fun i s => ?rows, fun s h => ⟨?tick, ?log, ?secver⟩⟩
  case rows =>
    obtain ⟨f, hf⟩ := exec_isRun i
    rw [hf]
    obtain ⟨t, ht⟩ := run_next f s
    exact ⟨t, ht, run_frame ht⟩
  case tick =>
    unfold step
    rw [h]
  case log => exact congrArg (·.1) (State.tick_durable s)
  case secver => exact congrArg (·.2.2.2) (State.tick_durable s)

/-- Settles O3: a step only commits records, and a commit keeps a log sound. -/
theorem everyStepKeepsTheAshLogSound : Obligations.EveryStepKeepsTheAshLogSound := by
  unfold Obligations.EveryStepKeepsTheAshLogSound
  exact fun s t hs hstep => (step_grows hstep).ashSound hs

/-- Settles O4, by the records that the commits of a step add. -/
theorem theLogOnlyGrowsAndSecverNeverFalls : Obligations.TheLogOnlyGrowsAndSecverNeverFalls := by
  unfold Obligations.TheLogOnlyGrowsAndSecverNeverFalls
  intro s t hlen hstep
  obtain ⟨l, v, hv, ht⟩ := step_grows hstep
  obtain ⟨new, hseq, hlog⟩ := commits_append l s.durable hlen
  have hsec : t.kiln.secver = v := congrArg (·.2.2.2) ht
  exact ⟨hsec ▸ hv, new, (congrArg (·.2.2.1) ht).trans hseq, (congrArg (·.1) ht).trans hlog⟩
end

section
/-! PROOF. The engine's arithmetic, logic and shifts: the value and the flags of each row (R429, R433, R435). -/

namespace Sys2Proof.Machine

section
variable {s : State} {e : PortNum} {i : Instr} {ei : EngInstr} {rd : RegNum} {w : Word}
variable (hr : EngReady s e) (hrow : engRow i = some (e, ei))
include hr hrow

/-- A row that writes `w` sets Z and N from it, C and V as its result says. -/
theorem computes_result {o : AluOut} {cyc : Nat} {c v : Option Bool} (hd : s.engDo e ei = (.next, cyc, s.aluTo e rd o))
    (hc : cyc ≠ 0) (ho : o = .of w c v) : Computes i s e rd w (fun t => FlagsOf s t e w c v) := by
  subst ho
  exact computes_alu hr (congrFun (engRow_exec hrow) s) hd hc

/-- A row that sets flags from `w` and writes no register. -/
theorem answers_result {o : AluOut} {c v : Option Bool} (hd : s.engDo e ei = (.next, 1, s.setFlags e o)) (ho : o = .of w c v) :
    Answers i s fun t => RegsSame s t e ∧ FlagsOf s t e w c v ∧ t.pc e = s.pc e + 4 ∧ RegInstrFrame s t e := by
  subst ho
  exact answers_flags hr (congrFun (engRow_exec hrow) s) hd one_ne_zero

/-- A row that moves a value. -/
theorem computes_moved (hd : s.engDo e ei = (.next, 1, s.setReg e rd w)) :
    Computes i s e rd w (fun t => FlagsKept s t e) :=
  computes_move hr (congrFun (engRow_exec hrow) s) hd one_ne_zero

end

/-! ## Sums and differences (R433) -/

theorem addOut_of {x y w : Word} {k : Nat} (hw : x + y + BitVec.ofNat 32 k = w) :
    addOut x y k = .of w (some (decide (2 ^ 32 ≤ x.toNat + y.toNat + k))) (some (decide (w.toInt ≠ x.toInt + y.toInt + k))) := by
  rw [← hw, ← addOut_value]
  rfl

theorem subOut_of {x y w : Word} {k : Nat} (hk : k ≤ 1) (hw : x - y - BitVec.ofNat 32 k = w) :
    subOut x y k = .of w (some (decide (y.toNat + k ≤ x.toNat))) (some (decide (w.toInt ≠ x.toInt - y.toInt - k))) := by
  rw [← hw, ← subOut_value x y k hk]
  rfl

/-- 0 - a borrows unless a is 0, and overflows for the most negative number alone. -/
theorem subOut_zero (a : Word) : subOut 0 a 0 = .of (0 - a) (some (a == 0)) (some (a == 0x80000000)) := by
  rw [subOut_of (Nat.zero_le 1) (BitVec.sub_zero (0 - a))]
  have hC : decide (a.toNat + 0 ≤ (0 : Word).toNat) = (a == 0) := by
    rw [Bool.eq_iff_iff]
    simp [BitVec.toNat_eq]
  have hV : decide ((0 - a).toInt ≠ (0 : Word).toInt - a.toInt - (0 : Nat)) = (a == 0x80000000) := by
    rw [Bool.eq_iff_iff]
    simp only [decide_eq_true_eq, beq_iff_eq, BitVec.toNat_eq, BitVec.toInt_eq_toNat_cond, BitVec.toNat_sub]
    have := a.isLt
    simp
    omega
  rw [hC, hV]

/-! ## Shifts (R435) -/

section
variable (a : Word) (k : Nat)

theorem shiftOut_lsl : shiftOut .lsl a k = .of (if k < 32 then a <<< k else 0)
    (if k = 0 then none else some (decide (k ≤ 32) && a.getLsbD (32 - k))) none := by
  rw [ite_and_flag]; rfl

theorem shiftOut_lsr : shiftOut .lsr a k = .of (if k < 32 then a >>> k else 0)
    (if k = 0 then none else some (decide (k ≤ 32) && a.getLsbD (k - 1))) none := by
  rw [ite_and_flag]; rfl

theorem shiftOut_asr : shiftOut .asr a k =
    .of (if k < 32 then a.sshiftRight k else if a.getLsbD 31 then BitVec.allOnes 32 else 0)
      (if k = 0 then none else some (decide (k ≤ 32) && a.getLsbD (k - 1))) none := by
  rw [ite_and_flag]; rfl

end

end Sys2Proof.Machine

open Sys2Proof Sys2Proof.Machine

/-- Settles O6, by the sums and differences that the rows write. -/
theorem engineArithmeticAndComparesSetExactFlags : Obligations.EngineArithmeticAndComparesSetExactFlags := by
  unfold Obligations.EngineArithmeticAndComparesSetExactFlags
  refine ⟨fun s e rd ra rb imm hr => ?_, fun s e rd ra hr => ?_⟩
  · intro a b i c sum diff compares
    have borrow : 1 - c ≤ 1 := Nat.sub_le 1 c
    exact ⟨computes_result hr rfl rfl one_ne_zero (addOut_of (BitVec.add_zero _)),
      computes_result hr rfl rfl one_ne_zero (addOut_of rfl),
      computes_result hr rfl rfl one_ne_zero (subOut_of zero_le_one (BitVec.sub_zero _)),
      computes_result hr rfl rfl one_ne_zero (subOut_of borrow rfl),
      computes_result hr rfl rfl one_ne_zero (addOut_of (BitVec.add_zero _)),
      computes_result hr rfl rfl one_ne_zero (subOut_of zero_le_one (BitVec.sub_zero _)),
      answers_result hr rfl rfl (subOut_of zero_le_one (BitVec.sub_zero _)),
      answers_result hr rfl rfl (subOut_of zero_le_one (BitVec.sub_zero _))⟩
  · intro a
    exact ⟨computes_result hr rfl rfl one_ne_zero (subOut_zero a), fun ha => by rw [ha]; rfl⟩

/-- Settles O7, by the result that each row writes. -/
theorem engineLogicMovesAndShiftsFollowTheirTables : Obligations.EngineLogicMovesAndShiftsFollowTheirTables := by
  unfold Obligations.EngineLogicMovesAndShiftsFollowTheirTables
  refine ⟨fun s e rd ra rb imm h hr => ?_, fun s e rd ra cnt hr => ?_⟩
  · intro a b z zn none_
    have logic {i : Instr} {ei : EngInstr} {w : Word} (hrow : engRow i = some (e, ei))
        (hd : s.engDo e ei = (.next, 1, s.aluTo e rd (logicOut w))) : Computes i s e rd w (zn w) :=
      computes_result hr hrow hd one_ne_zero rfl
    obtain ⟨t, ht, hpc, hregs, hflags, hframe⟩ := goesTo_next hr (congrFun (engRow_exec (i := .nop e) rfl) s) rfl one_ne_zero
    exact ⟨logic rfl rfl, logic rfl rfl, logic rfl rfl, logic rfl rfl, logic rfl rfl, logic rfl rfl, logic rfl rfl,
      logic rfl rfl, computes_result hr rfl rfl two_ne_zero rfl, computes_result hr rfl rfl two_ne_zero rfl,
      computes_moved hr rfl rfl, computes_moved hr rfl rfl, computes_moved hr rfl rfl,
      ⟨t, ht, hregs, hflags, hpc, hframe⟩, answers_result hr rfl rfl rfl⟩
  · intro a k sign l r x o cl cr co
    have hk : s.shiftCount e cnt = k := by cases cnt <;> rfl
    exact ⟨computes_result hr rfl rfl one_ne_zero (hk ▸ shiftOut_lsl a _),
      computes_result hr rfl rfl one_ne_zero (hk ▸ shiftOut_lsr a _),
      computes_result hr rfl rfl one_ne_zero (hk ▸ shiftOut_asr a _),
      computes_result hr rfl rfl one_ne_zero (by rw [hk]; rfl)⟩
end

section
/-! PROOF. The engine's divisions, branches and traps (R428, R432, R434, R447). -/

namespace Sys2Proof.Machine

/-! ## Frames -/

theorem OnlyEngine.trans {s t u : State} {e : PortNum} (h : OnlyEngine s t e) (k : OnlyEngine t u e) : OnlyEngine s u e := by
  obtain ⟨h1, h2, h3⟩ := h
  obtain ⟨k1, k2, k3⟩ := k
  refine ⟨ports_trans k1 h1, fun q hq => (k2 q hq).trans (h2 q hq), ?_⟩
  rw [k3, h3]

theorem OnlyEngine.raised {s t : State} {e : PortNum} (h : OnlyEngine s t e) : t.raised = s.raised := by
  rw [h.1]

theorem OnlyEngine.pending {s t : State} {e : PortNum} (h : OnlyEngine s t e) : t.pending = s.pending := by
  rw [h.1]

theorem RegsKept.trans {s t u : State} {e : PortNum} {l : List Nat} (h : RegsKept s t e l) (k : RegsKept t u e l) :
    RegsKept s u e l := fun o ho => (k o ho).trans (h o ho)

theorem RegsKept.mono {s t : State} {e : PortNum} {l m : List Nat} (h : RegsKept s t e l) (hl : l ⊆ m) : RegsKept s t e m :=
  fun o ho => h o fun hx => ho (hl hx)

theorem RegSide.only {s u : State} {e : PortNum} (h : RegSide s u e) : OnlyEngine s u e := by
  obtain ⟨g, w, rfl⟩ := h
  exact ⟨rfl, fun q hq => by simp [hq], by simp⟩

theorem RegSide.kept {s u : State} {e : PortNum} (h : RegSide s u e) (l : List Nat) : RegsKept s u e l := fun o _ => h.word o

section
variable (u : State) (e : PortNum) (k : Nat) (l : Option RegNum)

/-- The cycles spent and the load noted are the engine's. -/
theorem spent_only : OnlyEngine u ((u.spend e k).setLoad e l) e :=
  ⟨rfl, fun q hq => by simp [State.spend, State.setLoad, hq], by simp [State.spend, State.setLoad, Port.putWord]⟩

theorem spent_kept : RegsKept u ((u.spend e k).setLoad e l) e [ENG_CYCLE.reg] := fun o ho => by
  simp only [State.setLoad, State.modEng_port, State.spend, State.modPort_port]
  exact Port.word_putWord_ne _ _ _ _ (ne_of_not_in ho _ (by decide))

end

/-! ## What a trap leaves (R447) -/

/-- `t` is `u` with a trap of cause `c` entered from outside a trap, `a` in TPC, cycles spent besides. -/
structure Trapped (u t : State) (e : PortNum) (c : Nat) (a : Word) : Prop where
  pc : t.pc e = 4
  tpc : (t.port e).word ENG_TPC.reg = a
  cause : t.pget e ENG_STAT.CAUSE = c
  code : t.pget e ENG_STAT.CODE = u.pget e ENG_STAT.CODE
  esw : ∀ j, t.eswBit e j = if j = 6 then true else u.eswBit e j
  regs : RegsSame u t e
  only : OnlyEngine u t e
  engine : t.eng e = { u.eng e with esw := (t.eng e).esw, repLeft := 0, lastLoad := (t.eng e).lastLoad }
  kept : RegsKept u t e (ENG_TPC.reg :: ENG_STAT.reg :: pcAndCycle)
  raised : t.raised = u.raised
  pending : t.pending = u.pending

theorem trapTo_trapped {u : State} {e : PortNum} {c : Nat} {a : Word} (hlt : c < 16) (h : u.eswBit e 6 = false) :
    Trapped u (u.trapTo e c a) e c a := by
  obtain ⟨hpc, htpc, hcause, hesw, hregs, hraised, hpending, honly, -, -, -, -, hkept⟩ := trap_facts u e c a h
  exact {
    pc := hpc
    tpc := htpc
    cause := hcause.trans (Nat.mod_eq_of_lt hlt)
    code := trapTo_pget u e c a h _ (by decide) (by decide) (by decide)
    esw := hesw
    regs := hregs
    only := honly
    engine := by rw [State.trapTo_single u e c a h]; simp [State.eng]
    kept := hkept.mono (by decide)
    raised := hraised
    pending := hpending }

/-- The cycles that an instruction spends before it traps. -/
theorem Trapped.spent {u t : State} {e : PortNum} {c k : Nat} {a : Word} {l : Option RegNum}
    (h : Trapped ((u.spend e k).setLoad e l) t e c a) : Trapped u t e c a :=
  { h with
    code := h.code.trans (by rw [State.pget, Port.get_word, spent_kept u e k l _ (by decide)]; rfl)
    esw := fun j => by rw [h.esw]; simp [State.spend, State.setLoad, State.eswBit, State.eng]
    regs := fun r => by rw [h.regs]; simp [State.spend, State.setLoad, State.reg, State.eng]
    only := (spent_only u e k l).trans h.only
    engine := by rw [h.engine]; simp [State.spend, State.setLoad, State.eng]
    kept := ((spent_kept u e k l).mono (by decide)).trans h.kept }

theorem Trapped.traps {s t : State} {e : PortNum} {c : Nat} {a : Word} {i : Instr} (h : Trapped s t e c a)
    (hx : exec i s = .next t) : Traps i s e c a := by
  refine ⟨t, hx, h.pc, h.tpc, h.cause, ?_, fun j hj => ?_, h.regs, h.only, ?_, ?_, ?_, h.kept⟩
  · rw [h.esw, if_pos rfl]
  · rw [h.esw, if_neg hj]
  · rw [h.engine]
  · rw [h.engine]
  · rw [h.engine]

section
variable {s u : State} {e : PortNum} {i : Instr} {ei : EngInstr} {cyc c : Nat} {done : Bool}

/-- An instruction that traps, performed or not. -/
theorem exec_trapped (hr : EngReady s e) (hrow : engRow i = some (e, ei)) (hd : s.engDo e ei = (.trap c done, cyc, u))
    (hc : cyc ≠ 0) (hlt : c < 16) (h6 : u.eswBit e 6 = false) (hh : u.pget e ENG_CTL.HALT = 0) (hraised : u.raised = [])
    (hpending : u.pending = s.pending) :
    ∃ t, exec i s = .next t ∧ Trapped u t e c (if done then s.pc e + 4 else s.pc e) := by
  have h6' : ((u.spend e (cyc + bit (s.loadStall e ei))).setLoad e ei.loads).eswBit e 6 = false := by
    rw [← h6]
    simp [State.spend, State.setLoad, State.eswBit, State.eng]
  have hT := (trapTo_trapped (a := if done then s.pc e + 4 else s.pc e) hlt h6').spent
  exact ⟨_, exec_to (engRow_exec hrow) (issue_trap hr hd hc h6 hh) (hT.raised.trans hraised) (hT.pending.trans hpending), hT⟩

/-- An engine whose PC has left its code raises FETCH (R428). -/
theorem traps_fetch (hrow : engRow i = some (e, ei)) (hraised : s.raised = []) (hruns : s.runs e = true)
    (hpc : (s.eng e).codeLen ≤ (s.pc e).toNat) (h6 : s.eswBit e 6 = false) : Traps i s e 6 (s.pc e) := by
  have hT := trapTo_trapped (c := 6) (a := s.pc e) (by decide) h6
  refine hT.traps (exec_to (engRow_exec hrow) ?_ (hT.raised.trans hraised) hT.pending)
  unfold State.issue
  rw [if_pos hruns, if_pos hpc]

/-- The row of an engine that does not run. -/
theorem exec_notRunning (hrow : engRow i = some (e, ei)) (hraised : s.raised = []) (hruns : s.runs e = false) :
    exec i s = .next s := by
  refine exec_to (engRow_exec hrow) ?_ hraised rfl
  unfold State.issue
  rw [hruns]
  rfl

end

/-! ## Divisions (R434) -/

/-- The results of a division written, with its flags. -/
def State.divided (s : State) (e : PortNum) (rq rr : RegNum) (q m : Word) (v dz : Bool) : State :=
  (((s.setReg e rr m).setReg e rq q).setFlags e (.of q (some false) (some v))).setEsw e 4 dz

section
variable (s : State) (e : PortNum) (rq rr : RegNum) (q m : Word) (v dz : Bool)

theorem State.divided_regSide : RegSide s (s.divided e rq rr q m v dz) e :=
  ((((RegSide.refl s e).setReg rr m).setReg rq q).setFlags _).setEsw 4 dz

theorem State.divided_quotient : (s.divided e rq rr q m v dz).reg e rq = q := by
  simp [State.divided]

theorem State.divided_remainder (h : rr ≠ rq) : (s.divided e rq rr q m v dz).reg e rr = m := by
  simp [State.divided, State.reg_setReg_ne _ _ _ _ _ h]

theorem State.divided_reg {r : RegNum} (hq : r ≠ rq) (hr : r ≠ rr) : (s.divided e rq rr q m v dz).reg e r = s.reg e r := by
  simp [State.divided, State.reg_setReg_ne _ _ _ _ _ hq, State.reg_setReg_ne _ _ _ _ _ hr]

theorem State.divided_flags : let t := s.divided e rq rr q m v dz
    t.eswBit e 0 = (q == 0) ∧ t.eswBit e 1 = q.getLsbD 31 ∧ t.eswBit e 2 = false ∧ t.eswBit e 3 = v ∧ t.eswBit e 4 = dz ∧
      ∀ j, 5 ≤ j → t.eswBit e j = s.eswBit e j := by
  obtain ⟨hz, hn, hc, hv, hrest⟩ := flagsTo_setFlags s ((s.setReg e rr m).setReg e rq q) e (.of q (some false) (some v)) (by simp)
  have h4 := fun j => State.eswBit_setEsw (((s.setReg e rr m).setReg e rq q).setFlags e (.of q (some false) (some v))) e 4 j dz (by decide)
  refine ⟨(h4 0).trans hz, (h4 1).trans hn, (h4 2).trans hc, (h4 3).trans hv, h4 4, fun j hj => ?_⟩
  exact (h4 j).trans ((if_neg (by omega)).trans (hrest j (by omega)))

end

/-- DIVU and DIVS write what the table gives, and trap where it says so. -/
theorem State.engDo_div (s : State) (e : PortNum) (sg : Bool) (rq rr ra rb : RegNum) {q m : Word} {v dz : Bool}
    (h : divOut sg (s.reg e ra) (s.reg e rb) = (q, m, v, dz)) :
    s.engDo e (.div sg rq rr ra rb) =
      if dz ∧ s.pget e ENG_CTL.DZTRAP = 1 then (.trap 4 true, 34, s.divided e rq rr q m v dz)
      else (.next, 34, s.divided e rq rr q m v dz) := by
  show s.doDiv e sg rq rr ra rb = _
  simp only [State.doDiv, h, State.pon, Port.on, beq_iff_eq]
  rfl

/-- The table of R434. -/
theorem divOut_table (sg : Bool) (a b : Word) :
    divOut sg a b =
      (if b == 0 then (if sg then (if a.getLsbD 31 then 0x80000000 else 0x7FFFFFFF) else 0xFFFFFFFF)
        else if sg && a == 0x80000000 && b == 0xFFFFFFFF then 0x80000000
        else if sg then BitVec.ofInt 32 (a.toInt.tdiv b.toInt) else BitVec.ofNat 32 (a.toNat / b.toNat),
       if b == 0 then a
        else if sg && a == 0x80000000 && b == 0xFFFFFFFF then 0
        else if sg then BitVec.ofInt 32 (a.toInt.tmod b.toInt) else BitVec.ofNat 32 (a.toNat % b.toNat),
       sg && a == 0x80000000 && b == 0xFFFFFFFF, b == 0) := by
  by_cases hb : b = 0
  · cases sg <;> simp [divOut, hb]
  · have hb' : (b == 0) = false := beq_eq_false_iff_ne.2 hb
    cases sg with
    | false => simp only [divOut, if_neg hb, hb', Bool.false_and, Bool.false_eq_true, if_false]
    | true =>
      by_cases ho : a = 0x80000000 ∧ b = 0xFFFFFFFF
      · simp [divOut, ho]
      · have ho' : (a == 0x80000000 && b == 0xFFFFFFFF) = false := by
          rw [Bool.eq_false_iff]
          simpa using ho
        simp only [divOut, if_neg hb, if_neg ho, hb', Bool.true_and, ho', Bool.false_eq_true, if_false, if_true]

/-- A row of a division writes its results and goes on, or enters the DZ trap. -/
theorem answers_div {s : State} {e : PortNum} {i : Instr} {sg : Bool} {rq rr ra rb : RegNum} {q m : Word} {v dz : Bool}
    (hr : EngReady s e) (hrow : engRow i = some (e, .div sg rq rr ra rb))
    (h : divOut sg (s.reg e ra) (s.reg e rb) = (q, m, v, dz)) :
    let u := s.divided e rq rr q m v dz
    (¬(dz = true ∧ s.pget e ENG_CTL.DZTRAP = 1) → ∃ k l, exec i s = .next (u.after e k l (s.pc e + 4)) ∧
      RegInstrFrame s (u.after e k l (s.pc e + 4)) e) ∧
    (dz = true → s.pget e ENG_CTL.DZTRAP = 1 → s.eswBit e 6 = false →
      ∃ t, exec i s = .next t ∧ Trapped u t e 4 (s.pc e + 4)) := by
  intro u
  have hu : RegSide s u e := State.divided_regSide ..
  have hd := s.engDo_div e sg rq rr ra rb h
  refine ⟨fun hz => ?_, fun hz htrap h6 => ?_⟩
  · rw [if_neg hz] at hd
    obtain ⟨k, l, hx, hframe⟩ := run_reg hr hd (by decide) hu
    exact ⟨k, l, (congrFun (engRow_exec hrow) s).trans hx, hframe⟩
  · rw [if_pos ⟨hz, htrap⟩] at hd
    obtain ⟨-, -, -, -, -, hrest⟩ := s.divided_flags e rq rr q m v dz
    exact exec_trapped hr hrow hd (by decide) (by decide) ((hrest 6 (by decide)).trans h6) (regSide_halt hr hu)
      (hu.only.raised.trans hr.1) hu.only.pending

/-- A trap keeps the engine's memories where no repetition is in force. -/
theorem Trapped.memKept {s u t : State} {e : PortNum} {c : Nat} {a : Word} (h : Trapped u t e c a) (hs : RegSide s u e)
    (hrep : (s.eng e).repLeft = 0) : EngMemKept s t e := by
  obtain ⟨g, w, rfl⟩ := hs
  unfold EngMemKept
  rw [h.engine, hrep]
  simp [State.eng]

/-! ## Branches and calls (R428, R432) -/

/-- The conditions of B, in the order of their codes. -/
theorem condHolds_table : ∀ (cond : Fin 16) (z n c v dz : Bool),
    [true, z, c, n, v, c && !z, n == v, !z && n == v, dz, !z, !c, !n, !v, !c || z, n != v, z || n != v].getD cond.val false =
      condHolds cond.val z n c v dz := by
  decide

section
variable {s : State} {e : PortNum} {i : Instr} {ei : EngInstr} {a : Word}

/-- A branch that is taken goes to its target, one that is not to the next address. -/
theorem goesTo_ite {c : Prop} [Decidable c] (hr : EngReady s e) (hrow : engRow i = some (e, ei))
    (hd : s.engDo e ei = if c then (.jump a, 2, s) else ok1 s) :
    GoesTo i s e (if c then a &&& ~~~3 else s.pc e + 4) := by
  by_cases h : c
  · rw [if_pos h] at hd ⊢
    exact goesTo_jump hr (congrFun (engRow_exec hrow) s) hd two_ne_zero
  · rw [if_neg h] at hd ⊢
    exact goesTo_next hr (congrFun (engRow_exec hrow) s) hd one_ne_zero

/-- A call goes to its target and leaves the return address in G15. -/
theorem answers_call (hr : EngReady s e) (hrow : engRow i = some (e, ei))
    (hd : s.engDo e ei = (.jump a, 2, s.setReg e 15 (s.pc e + 4))) :
    Answers i s fun t => RegTo s t e 15 (s.pc e + 4) ∧ t.pc e = a &&& ~~~3 ∧ FlagsKept s t e ∧ RegInstrFrame s t e := by
  obtain ⟨k, l, hx, hframe⟩ := answers_jump hr (congrFun (engRow_exec hrow) s) hd two_ne_zero ((RegSide.refl s e).setReg 15 _)
  refine ⟨_, hx, ⟨?_, fun r hne => ?_⟩, State.after_pc .., fun j => ?_, hframe⟩
  · simp
  · simp [State.reg_setReg_ne _ _ _ _ _ hne]
  · simp

end

end Sys2Proof.Machine

open Sys2Proof Sys2Proof.Machine

/-- Settles O8, by the table of R434 and the two ways a division leaves the engine. -/
theorem engineDivisionsWriteTheResultsOfEveryCase : Obligations.EngineDivisionsWriteTheResultsOfEveryCase := by
  unfold Obligations.EngineDivisionsWriteTheResultsOfEveryCase
  intro s e rq rr ra rb sg hr a b i dz ovf q m results
  have hrow : engRow i = some (e, .div sg rq rr ra rb) := by cases sg <;> rfl
  obtain ⟨hnext, htrap⟩ := answers_div hr hrow (divOut_table sg a b)
  obtain ⟨hz, hn, hc, hv, hdz, hrest⟩ := s.divided_flags e rq rr q m ovf dz
  refine ⟨fun h => ?_, fun hD hd h6 => ?_⟩
  · obtain ⟨k, l, hx, hframe⟩ := hnext fun hx => by
      rcases h with h | h
      · exact zero_ne_one (h.symm.trans hx.2)
      · exact Bool.false_ne_true (h.symm.trans hx.1)
    refine ⟨_, hx, ⟨?_, fun hne => ?_, fun r hq hr' => ?_, ?_⟩, State.after_pc .., fun j hj => ?_, hframe⟩
    · exact (State.after_reg ..).trans (State.divided_quotient ..)
    · exact (State.after_reg ..).trans (State.divided_remainder _ _ _ _ _ _ _ _ hne)
    · exact (State.after_reg ..).trans (State.divided_reg _ _ _ _ _ _ _ _ hq hr')
    · simp only [State.after_eswBit]
      exact ⟨hz, hn, hc, hv, hdz⟩
    · exact (State.after_eswBit ..).trans (hrest j hj)
  · obtain ⟨t, hx, hT⟩ := htrap hd hD h6
    have hflag : ∀ j, j ≠ 6 → t.eswBit e j = (s.divided e rq rr q m ovf dz).eswBit e j := fun j hj => by
      rw [hT.esw, if_neg hj]
    refine ⟨t, hx, ⟨?_, fun hne => ?_, fun r hq hr' => ?_, ?_⟩, hT.pc, by rw [hT.esw, if_pos rfl], hT.tpc, hT.cause,
      (State.divided_regSide ..).only.trans hT.only, hT.memKept (State.divided_regSide ..) hr.2.2.2.1⟩
    · exact (hT.regs _).trans (State.divided_quotient ..)
    · exact (hT.regs _).trans (State.divided_remainder _ _ _ _ _ _ _ _ hne)
    · exact (hT.regs _).trans (State.divided_reg _ _ _ _ _ _ _ _ hq hr')
    · rw [hflag 0 (by decide), hflag 1 (by decide), hflag 2 (by decide), hflag 3 (by decide), hflag 4 (by decide)]
      exact ⟨hz, hn, hc, hv, hdz⟩

/-- Settles O9, by the target of each row, and by how an engine takes a row at all. -/
theorem engineBranchesReachTheirTargetsOrFetchTraps : Obligations.EngineBranchesReachTheirTargetsOrFetchTraps := by
  unfold Obligations.EngineBranchesReachTheirTargetsOrFetchTraps
  refine ⟨?rows, fun s e i x hrow hraised hruns hpc h6 => traps_fetch hrow hraised hruns hpc h6,
    fun s e i x hrow hraised hruns => exec_notRunning hrow hraised hruns⟩
  case rows =>
    intro s e ra cond off b pol o hr z n c v dz taken target short calls
    refine ⟨?branch, goesTo_ite hr rfl rfl, goesTo_jump hr (congrFun (engRow_exec rfl) s) rfl two_ne_zero,
      answers_call hr rfl rfl, answers_call hr rfl rfl⟩
    have hcond : taken = condHolds cond.val z n c v dz := condHolds_table cond z n c v dz
    rw [hcond]
    exact goesTo_ite hr rfl rfl
end

section
/-! PROOF. The engine's bit instructions, repetitions, CRCs, waits, traps and framing assists (R425, R436-R447). -/

namespace Sys2Proof.Machine

/-! ## The state in which an instruction leaves the engine -/

section
variable (u : State) (e : PortNum) (k : Nat) (l : Option RegNum) (a : Word)

theorem State.after_eng : (u.after e k l a).eng e = { u.eng e with lastLoad := l } := by
  simp [State.after_eq, State.eng]

theorem State.after_framer : ((u.after e k l a).port e).framer = (u.port e).framer := by
  simp [State.after_eq, Port.putWord]

theorem State.setPc_only : OnlyEngine u (u.setPc e a) e :=
  ⟨rfl, fun q hq => by simp [State.setPc, hq], by simp [State.setPc, Port.putWord]⟩

theorem State.setPc_kept : RegsKept u (u.setPc e a) e [ENG_PC.reg] := fun o ho => by
  simp only [State.setPc, State.modPort_port]
  exact Port.word_putWord_ne _ _ _ _ (ne_of_not_in ho _ (by decide))

end

section
variable {s u : State} {e : PortNum} {i : Instr} {ei : EngInstr} {cyc : Nat}

/-- An instruction that goes on to the next address. -/
theorem answers_next {P : State → Prop} (hr : EngReady s e) (hrow : engRow i = some (e, ei))
    (hd : s.engDo e ei = (.next, cyc, u)) (hc : cyc ≠ 0) (hh : u.pget e ENG_CTL.HALT = 0) (hraised : u.raised = s.raised)
    (hpending : u.pending = s.pending) (hP : ∀ k l, P (u.after e k l (s.pc e + 4))) : Answers i s P :=
  ⟨_, exec_next hr (congrFun (engRow_exec hrow) s) hd hc hh (hraised.trans hr.1) hpending, hP _ _⟩

/-- An instruction that stands where it is. -/
theorem answers_stay {P : State → Prop} (hr : EngReady s e) (hrow : engRow i = some (e, ei))
    (hd : s.engDo e ei = (.stay, cyc, u)) (hc : cyc ≠ 0) (hh : u.pget e ENG_CTL.HALT = 0) (hraised : u.raised = s.raised)
    (hpending : u.pending = s.pending) (hP : ∀ k l, P ((u.spend e k).setLoad e l)) : Answers i s P := by
  obtain ⟨hraised', hruns, hpc, hrep, -⟩ := hr
  have hh' : ((u.spend e (cyc + bit (s.loadStall e ei))).setLoad e ei.loads).pget e ENG_CTL.HALT = 0 := by
    rw [← hh, State.pget, Port.get_word]
    simp only [State.setLoad, State.modEng_port, State.spend, State.modPort_port]
    exact congrArg (wget · _ _) (Port.word_putWord_ne _ _ _ _ (by decide))
  refine ⟨_, exec_to (engRow_exec hrow) (v := (u.spend e (cyc + bit (s.loadStall e ei))).setLoad e ei.loads) ?_
    (hraised.trans hraised') hpending, hP _ _⟩
  have hb : (cyc != 0) = true := by simpa using hc
  have hp : s.perform e ei = (u.spend e (cyc + bit (s.loadStall e ei))).setLoad e ei.loads := by
    simp only [State.perform, hd, hb, Bool.and_true, if_neg hc]
  simp only [State.issue, hruns, if_true, hrep, if_neg (Nat.not_le.2 hpc), ne_eq, not_true_eq_false, false_and, if_false]
  rw [hp, State.haltCheck_run _ _ hh']

end

/-! ## Bit variables (R424, R425) -/

section
variable {s : State} {e : PortNum} {d : Nat} {v : Bool}

/-- ESW reads its stored bit where nothing else shows in it. -/
theorem State.eswWord_bit (s : State) (e : PortNum) {j : Nat} (h : j ∉ [5, 8, 9, 11]) :
    (s.eswWord e).getLsbD j = s.eswBit e j := by
  simp only [List.mem_cons, List.not_mem_nil, or_false, not_or] at h
  unfold State.eswWord State.eswBit State.eng
  dsimp only
  rw [wset_bit _ _ _ _ _ (by decide), if_neg (by omega), wset_bit _ _ _ _ _ (by decide), if_neg (by omega),
    wset_bit _ _ _ _ _ (by decide), if_neg (by omega), wset_bit _ _ _ _ _ (by decide), if_neg (by omega)]

theorem State.bitRead_flag (s : State) (e : PortNum) (h : d < 5) : s.bitRead e d = s.eswBit e d := by
  unfold State.bitRead
  rw [if_pos (by omega)]
  exact State.eswWord_bit s e (by simp; omega)

theorem State.bitRead_general (s : State) (e : PortNum) (h : 0x200 ≤ d) :
    s.bitRead e d = (s.eng e).bits.getLsbD (d - 0x200) := by
  unfold State.bitRead
  rw [if_neg (by omega), if_pos h]

theorem State.bitWrite_flag (s : State) (e : PortNum) (v : Bool) (h : d < 5) : s.bitWrite e d v = s.setEsw e d v := by
  unfold State.bitWrite State.eswWrite
  rw [if_pos (by omega), if_pos h]

/-- A general bit variable written. -/
def State.setBit (s : State) (e : PortNum) (j : Nat) (v : Bool) : State :=
  s.modEng e fun x => { x with
    bits := (x.bits &&& ~~~(BitVec.ofNat 512 (2 ^ j))) ||| (if v then BitVec.ofNat 512 (2 ^ j) else 0) }

theorem State.bitWrite_general (s : State) (e : PortNum) (v : Bool) (h : 0x200 ≤ d) :
    s.bitWrite e d v = s.setBit e (d - 0x200) v := by
  unfold State.bitWrite
  rw [if_neg (by omega), if_pos h]
  rfl

theorem State.setBit_bits (s : State) (e : PortNum) {j : Nat} (v : Bool) (i : Nat) (h : j < 512) :
    ((s.setBit e j v).eng e).bits.getLsbD i = if i = j then v else (s.eng e).bits.getLsbD i := by
  have hbit := two_pow_bit 512 j i h
  simp only [State.setBit, State.eng, State.modEng_port, BitVec.getLsbD_or, BitVec.getLsbD_and, BitVec.getLsbD_not, hbit]
  have hset : (if v = true then BitVec.ofNat 512 (2 ^ j) else 0).getLsbD i = (v && decide (i = j)) := by
    cases v
    · simp
    · simpa using hbit
  rw [hset]
  by_cases hi : i = j
  · simp [hi]
  · by_cases hlt : i < 512
    · simp [hi, hlt]
    · simp [hi, hlt, BitVec.getLsbD_of_ge (s.port e).eng.bits i (by omega)]

theorem State.setBit_engSide (s : State) (e : PortNum) (j : Nat) (v : Bool) : EngSide s (s.setBit e j v) e :=
  (EngSide.refl s e).mod _ fun x => ⟨x.g, x.esw, x.data, _, rfl⟩

/-- A row that writes a general bit variable or a flag of ESW. -/
theorem answers_bit {i : Instr} {ei : EngInstr} (hr : EngReady s e) (hrow : engRow i = some (e, ei)) (hlt : d < 0x400)
    (hplace : d < 5 ∨ 0x200 ≤ d) (hd : s.engDo e ei = ok1 (s.bitWrite e d v)) :
    Answers i s fun t => t.bitRead e d = v ∧
      (0x200 ≤ d → FlagsKept s t e ∧ ∀ j, j ≠ d - 0x200 → (t.eng e).bits.getLsbD j = (s.eng e).bits.getLsbD j) ∧
      (d < 5 → (t.eng e).bits = (s.eng e).bits ∧ ∀ j, j ≠ d → t.eswBit e j = s.eswBit e j) ∧
      RegsSame s t e ∧ (t.eng e).data = (s.eng e).data ∧ t.pc e = s.pc e + 4 ∧ EngInstrFrame s t e := by
  rcases hplace with h | h
  · rw [s.bitWrite_flag e v h] at hd
    obtain ⟨k, l, hx, hframe⟩ := answers_eng hr (congrFun (engRow_exec hrow) s) hd one_ne_zero ((EngSide.refl s e).setEsw d v)
    refine ⟨_, hx, ?_, fun hg => absurd hg (by omega), fun _ => ⟨?_, fun j hj => ?_⟩, fun r => ?_, ?_, State.after_pc .., hframe⟩
    · rw [State.bitRead_flag _ _ h, State.after_eswBit, State.eswBit_setEsw _ _ _ _ _ (by omega), if_pos rfl]
    · rw [State.after_bits]
      simp [State.setEsw, State.eng]
    · rw [State.after_eswBit, State.eswBit_setEsw _ _ _ _ _ (by omega), if_neg hj]
    · simp
    · rw [State.after_data]
      simp [State.setEsw, State.eng]
  · rw [s.bitWrite_general e v h] at hd
    have hbits := fun j => s.setBit_bits e v j (show d - 0x200 < 512 by omega)
    obtain ⟨k, l, hx, hframe⟩ := answers_eng hr (congrFun (engRow_exec hrow) s) hd one_ne_zero (s.setBit_engSide e _ v)
    refine ⟨_, hx, ?_, fun _ => ⟨fun j => ?_, fun j hj => ?_⟩, fun hf => absurd hf (by omega), fun r => ?_, ?_, State.after_pc ..,
      hframe⟩
    · rw [State.bitRead_general _ _ h, State.after_bits, hbits, if_pos rfl]
    · rw [State.after_eswBit, State.eswBit, State.eng, State.setBit, State.modEng_port]
      rfl
    · rw [State.after_bits, hbits, if_neg hj]
    · rw [State.after_reg, State.reg, State.eng, State.setBit, State.modEng_port]
      rfl
    · rw [State.after_data, State.eng, State.setBit, State.modEng_port]
      rfl

/-- RPT, INTRAP and RES take no write. -/
theorem State.bitWrite_readOnly (s : State) (e : PortNum) (v : Bool) (h : d ∈ [5, 6, 11]) : s.bitWrite e d v = s := by
  simp only [List.mem_cons, List.not_mem_nil, or_false] at h
  rcases h with rfl | rfl | rfl <;> rfl

/-- RQOVF and DBERR are cleared by a 0 and not set by a 1. -/
theorem State.bitWrite_clearOnly (s : State) (e : PortNum) (v : Bool) (h : d ∈ [7, 10]) :
    s.bitWrite e d v = if v then s else s.setEsw e d false := by
  simp only [List.mem_cons, List.not_mem_nil, or_false] at h
  rcases h with rfl | rfl <;> rfl

end

/-! ## Repetitions (R436-R438) -/

section
variable {s : State} {e : PortNum}

@[simp] theorem State.setRep_reg (s : State) (e : PortNum) (n : Nat) (r : RegNum) : (s.setRep e n).reg e r = s.reg e r := by
  simp [State.setRep, State.reg, State.eng]

@[simp] theorem State.setRep_eswBit (s : State) (e : PortNum) (n j : Nat) : (s.setRep e n).eswBit e j = s.eswBit e j := by
  simp [State.setRep, State.eswBit, State.eng]

theorem State.setRep_eng (s : State) (e : PortNum) (n : Nat) : (s.setRep e n).eng e = { s.eng e with repLeft := n } := by
  simp [State.setRep, State.eng]

theorem State.setRep_only (s : State) (e : PortNum) (n : Nat) : OnlyEngine s (s.setRep e n) e :=
  ⟨rfl, fun q hq => by simp [State.setRep, hq], by simp [State.setRep, Port.putWord]⟩

theorem State.setRep_kept (s : State) (e : PortNum) (n : Nat) : RegsKept s (s.setRep e n) e [ENG_RCNT.reg] := fun o ho => by
  simp only [State.setRep, State.modEng_port, State.modPort_port]
  exact Port.word_putWord_ne _ _ _ _ (ne_of_not_in ho _ (by decide))

theorem State.setRep_rcnt (s : State) (e : PortNum) (n : Nat) : ((s.setRep e n).port e).word ENG_RCNT.reg = BitVec.ofNat 32 n := by
  rw [State.setRep, State.modEng_port, State.modPort_port]
  exact Port.word_putWord _ _ _

/-- REP before an instruction that may be repeated. -/
theorem State.doRep_ok {n : Nat}
    (h : (s.pc e).toNat + 4 < (s.eng e).codeLen → repeatable ((s.eng e).code.word ((s.pc e).toNat + 4)) = true) :
    s.doRep e n = if n = 0 then (.jump (s.pc e + 8), 1, s) else (.next, 1, s.setRep e n) := by
  unfold State.doRep
  exact if_neg fun hx => Bool.false_ne_true (hx.2.symm.trans (h hx.1))

/-- REP before one that may not. -/
theorem State.doRep_illegal {n : Nat}
    (h : ¬((s.pc e).toNat + 4 < (s.eng e).codeLen → repeatable ((s.eng e).code.word ((s.pc e).toNat + 4)) = true)) :
    s.doRep e n = (.trap 1 false, 1, s) := by
  rw [Classical.not_imp, Bool.not_eq_true] at h
  exact if_pos h

/-- The state after a repetition of which `k` are left: the last one goes on to the next address. -/
def State.repeated (u : State) (e : PortNum) (n : Nat) (l : Option RegNum) (k : Nat) (a : Word) : State :=
  let v := ((u.spend e n).setLoad e l).setRep e k
  if k = 0 then v.setPc e a else v

section
variable (u : State) (n : Nat) (l : Option RegNum) (k : Nat) (a : Word)

theorem State.repeated_only : OnlyEngine u (u.repeated e n l k a) e := by
  have hv := (spent_only u e n l).trans (State.setRep_only _ e k)
  unfold State.repeated
  dsimp only
  split
  · exact hv.trans (State.setPc_only ..)
  · exact hv

theorem State.repeated_kept : RegsKept u (u.repeated e n l k a) e (ENG_RCNT.reg :: pcAndCycle) := by
  have hv : RegsKept u (((u.spend e n).setLoad e l).setRep e k) e (ENG_RCNT.reg :: pcAndCycle) :=
    ((spent_kept u e n l).mono (by decide)).trans ((State.setRep_kept _ e k).mono (by decide))
  unfold State.repeated
  dsimp only
  split
  · exact hv.trans ((State.setPc_kept _ e a).mono (by decide))
  · exact hv

theorem State.repeated_eng : (u.repeated e n l k a).eng e = { u.eng e with lastLoad := l, repLeft := k } := by
  unfold State.repeated
  dsimp only
  split <;> simp [State.setPc, State.setRep, State.setLoad, State.spend, State.eng]

theorem State.repeated_reg (r : RegNum) : (u.repeated e n l k a).reg e r = u.reg e r := by
  unfold State.reg
  rw [State.repeated_eng]

theorem State.repeated_rcnt : ((u.repeated e n l k a).port e).word ENG_RCNT.reg = BitVec.ofNat 32 k := by
  unfold State.repeated
  dsimp only
  split
  · exact (State.setPc_kept _ e a _ (by decide)).trans (State.setRep_rcnt ..)
  · exact State.setRep_rcnt ..

theorem State.repeated_pc : (u.repeated e n l k a).pc e = if k = 0 then a else u.pc e := by
  unfold State.repeated
  dsimp only
  split
  · simp [State.setPc, State.pc]
  · exact (State.setRep_kept _ e k _ (by decide)).trans (spent_kept u e n l _ (by decide))

end

/-- A repeated instruction that goes on: the last repetition leaves for the next address, the others stay. -/
theorem issue_repeated {u : State} {ei : EngInstr} {k : Nat} (hruns : s.runs e = true) (hpc : (s.pc e).toNat < (s.eng e).codeLen)
    (hrep : ei.repeats = true) (hleft : (s.eng e).repLeft = k + 1) (hd : s.engDo e ei = (.next, 1, u))
    (hh : u.pget e ENG_CTL.HALT = 0) :
    s.issue e ei = u.repeated e (1 + bit (s.loadStall e ei)) ei.loads k (s.pc e + 4) := by
  have hp : s.perform e ei = u.repeated e (1 + bit (s.loadStall e ei)) ei.loads k (s.pc e + 4) := by
    unfold State.perform State.repeated
    cases k <;> simp [hd, hleft]
  have hh' : (u.repeated e (1 + bit (s.loadStall e ei)) ei.loads k (s.pc e + 4)).pget e ENG_CTL.HALT = 0 := by
    rw [← hh, State.pget, State.pget, Port.get_word, Port.get_word, u.repeated_kept _ _ k _ _ (by decide)]
  unfold State.issue
  rw [if_pos hruns, if_neg (Nat.not_le.2 hpc), if_neg (fun hx => Bool.false_ne_true (hx.2.symm.trans hrep)), hp,
    State.haltCheck_run _ _ hh']

end

end Sys2Proof.Machine

open Sys2Proof Sys2Proof.Machine

/-- Settles O11, by the place that the destination names. -/
theorem engineBitInstructionsFollowTheAccessCodes : Obligations.EngineBitInstructionsFollowTheAccessCodes := by
  unfold Obligations.EngineBitInstructionsFollowTheAccessCodes
  refine ⟨fun s e d src ns rd ra hr hplace => ?writes, fun s e hr => ⟨fun d hd => ?readOnly, fun d hd => ?clearOnly⟩⟩
  case writes =>
    intro old x sets
    have hlt : d.toNat < 0x400 := d.isLt
    have bget : BitVec.ofNat 32 (bit (s.bitRead e src.toNat)) = if s.bitRead e src.toNat then 1 else 0 := by
      cases s.bitRead e src.toNat <;> rfl
    exact ⟨answers_bit hr rfl hlt hplace rfl, answers_bit hr rfl hlt hplace rfl, answers_bit hr rfl hlt hplace rfl,
      answers_bit hr rfl hlt hplace rfl, answers_bit hr rfl hlt hplace rfl, answers_bit hr rfl hlt hplace rfl,
      answers_bit hr rfl hlt hplace rfl, answers_bit hr rfl hlt hplace rfl,
      bget ▸ computes_move hr (congrFun (engRow_exec rfl) s) rfl one_ne_zero⟩
  case readOnly =>
    have none_ {i : Instr} {ei : EngInstr} {v : Bool} (hrow : engRow i = some (e, ei))
        (hdo : s.engDo e ei = ok1 (s.bitWrite e d.toNat v)) : GoesTo i s e (s.pc e + 4) :=
      goesTo_next hr (congrFun (engRow_exec hrow) s) (hdo.trans (by rw [s.bitWrite_readOnly e v hd]; rfl)) one_ne_zero
    exact ⟨none_ rfl rfl, none_ rfl rfl⟩
  case clearOnly =>
    have hset : s.bitWrite e d.toNat true = s := s.bitWrite_clearOnly e true hd
    have hclear : s.bitWrite e d.toNat false = s.setEsw e d.toNat false := s.bitWrite_clearOnly e false hd
    have hlt : d.toNat < 32 := by
      simp only [List.mem_cons, List.not_mem_nil, or_false] at hd
      omega
    refine ⟨goesTo_next (ei := .bit1 .bset d) hr (congrFun (engRow_exec rfl) s) (congrArg ok1 hset) one_ne_zero, ?_⟩
    obtain ⟨k, l, hx, hframe⟩ := run_reg (i := .bit1 .bclr d) hr (congrArg ok1 hclear) one_ne_zero ((RegSide.refl s e).setEsw d.toNat false)
    refine ⟨_, (congrFun (engRow_exec rfl) s).trans hx, ?_, fun j hj => ?_, fun r => ?_, State.after_pc .., hframe⟩
    · rw [State.after_eswBit, State.eswBit_setEsw _ _ _ _ _ hlt, if_pos rfl]
    · rw [State.after_eswBit, State.eswBit_setEsw _ _ _ _ _ hlt, if_neg hj]
    · rw [State.after_reg, State.reg_setEsw]

/-- Settles O12, by what REP finds in front of it, and by how a repetition leaves the engine. -/
theorem engineRepetitionsRunAsOftenAsCounted : Obligations.EngineRepetitionsRunAsOftenAsCounted := by
  unfold Obligations.EngineRepetitionsRunAsOftenAsCounted
  refine ⟨fun s e cnt hr => ?rep, fun s e rd ra imm k hraised hruns hpc hhalt hleft => ?addi⟩
  case rep =>
    intro n a okNext
    have hn : s.repCount e cnt = n := by cases cnt <;> rfl
    have hdo : s.engDo e (.rep cnt) = s.doRep e n := engDo_rep.trans (by rw [hn])
    refine ⟨fun hok h0 => ?latch, fun hok h0 => ?skip, fun hno h6 => ?illegal⟩
    case latch =>
      rw [State.doRep_ok hok, if_neg h0] at hdo
      have hhalt : (s.setRep e n).pget e ENG_CTL.HALT = 0 := by
        rw [State.pget, Port.get_word, s.setRep_kept e n _ (by decide)]
        exact hr.2.2.2.2
      refine answers_next hr rfl hdo one_ne_zero hhalt rfl rfl fun k l => ⟨?_, ?_, State.after_pc .., fun r => ?_, fun j => ?_,
        (s.setRep_only e n).trans (State.after_only ..), ?_, ?_, ?_, ?_⟩
      · rw [State.after_eng, State.setRep_eng]
      · exact (State.after_word _ _ _ _ _ _ (by decide)).trans (s.setRep_rcnt e n)
      · simp
      · simp
      · exact ((s.setRep_kept e n).mono (by decide)).trans fun o ho =>
          State.after_word _ _ _ _ _ o (mt (List.mem_cons_of_mem _) ho)
      · rw [State.after_eng, State.setRep_eng]
      · rw [State.after_eng, State.setRep_eng]
      · rw [State.after_eng, State.setRep_eng]
    case skip =>
      rw [State.doRep_ok hok, if_pos h0] at hdo
      exact goesTo_jump hr (congrFun (engRow_exec rfl) s) hdo one_ne_zero
    case illegal =>
      rw [State.doRep_illegal hno] at hdo
      exact answers_trap hr (congrFun (engRow_exec rfl) s) hdo one_ne_zero (by decide) h6
  case addi =>
    have hu : RegSide s (s.aluTo e rd (immOut .addi (s.reg e ra) imm)) e := (RegSide.refl s e).aluTo rd _
    have hh : (s.aluTo e rd (immOut .addi (s.reg e ra) imm)).pget e ENG_CTL.HALT = 0 := by
      rw [State.pget, Port.get_word, hu.word]
      exact hhalt
    have hissue := issue_repeated (ei := .imm .addi rd ra imm) hruns hpc rfl hleft rfl hh
    have honly := hu.only.trans (State.repeated_only _ (1 + bit (s.loadStall e (.imm .addi rd ra imm))) none k (s.pc e + 4))
    have hvalue : (immOut .addi (s.reg e ra) imm).value = s.reg e ra + imm.signExtend 32 :=
      (addOut_value _ _ 0).trans (BitVec.add_zero _)
    refine ⟨_, exec_to (engRow_exec rfl) hissue (honly.raised.trans hraised) honly.pending, ⟨?_, fun r hne => ?_⟩, ?_,
      State.repeated_rcnt .., ?_, honly⟩
    · rw [State.repeated_reg, State.aluTo, State.reg_setFlags, State.reg_setReg, hvalue]
    · rw [State.repeated_reg, State.aluTo, State.reg_setFlags, State.reg_setReg_ne _ _ _ _ _ hne]
    · rw [State.repeated_eng]
    · rw [State.repeated_pc]
      exact congrArg (if k = 0 then s.pc e + 4 else ·) (hu.word _)
end

section
/-! PROOF. The engine's CRCs, traps, waits and status reads, and the assists that ask the framer (R440, R442-R447). -/

namespace Sys2Proof.Machine

/-! ## CRCs and status reads -/

/-- The parameter sets of the CRC group, 5 to 7 none. -/
theorem crcSel_table : ∀ sel : Fin 8,
    crcSel sel.val = [CrcKind.crcA, .crcB, .crc15693, .crcO, .crcAelyr][sel.val]? := by
  decide

theorem crcSel_none {n : Nat} (h : 5 ≤ n) : crcSel n = none := by
  match n, h with
  | n + 5, _ => rfl

section
variable (s : State) (e : PortNum) (rd ra : RegNum) (sel : Fin 8) (n : Fin 4)

theorem State.engDo_crc_some {k : CrcKind} (h : crcSel sel.val = some k) :
    s.engDo e (.crci rd sel) = ok1 (s.setReg e rd (k.init.setWidth 32)) ∧
    s.engDo e (.crc rd ra sel n) = ok1 (s.setReg e rd
      ((((wordBytes (s.reg e ra)).take (n.val + 1)).foldl k.feed ((s.reg e rd).setWidth 16)).setWidth 32)) ∧
    s.engDo e (.crcf rd sel) = ok1 (s.setReg e rd (((s.reg e rd).setWidth 16 ^^^ k.xorOut).setWidth 32)) := by
  refine ⟨?_, ?_, ?_⟩ <;> simp only [State.engDo, h]

theorem State.engDo_crc_none (h : crcSel sel.val = none) :
    s.engDo e (.crci rd sel) = (.trap 1 false, 1, s) ∧ s.engDo e (.crc rd ra sel n) = (.trap 1 false, 1, s) ∧
    s.engDo e (.crcf rd sel) = (.trap 1 false, 1, s) := by
  refine ⟨?_, ?_, ?_⟩ <;> simp only [State.engDo, h]

/-- What GETS reads. -/
theorem State.engDo_gets {k : Fin 8} (h : k.val < 4) :
    s.engDo e (.gets rd k) = ok1 (s.setReg e rd
      ([(s.port e).word ENG_CYCLE.reg, (s.port e).word ENG_TPC.reg, (s.port e).word ENG_RCNT.reg,
        BitVec.ofNat 32 e.val].getD k.val 0)) := by
  match k, h with
  | 0, _ => rfl
  | 1, _ => rfl
  | 2, _ => rfl
  | 3, _ => rfl

theorem State.engDo_gets_none {k : Fin 8} (h : 4 ≤ k.val) : s.engDo e (.gets rd k) = (.trap 1 false, 1, s) := by
  match k, h with
  | 4, _ => rfl
  | 5, _ => rfl
  | 6, _ => rfl
  | 7, _ => rfl

end

/-! ## Traps and waits (R445-R447) -/

section
variable {s u t : State} {e : PortNum} {i : Instr} {c : Nat} {a : Word}

/-- A trap of an instruction that wrote nothing but ENG_STAT. -/
theorem Trapped.of_stat (h : Trapped u t e c a) (honly : OnlyEngine s u e) (hkept : RegsKept s u e [ENG_STAT.reg])
    (heng : u.eng e = s.eng e) (hx : exec i s = .next t) : Traps i s e c a := by
  refine ⟨t, hx, h.pc, h.tpc, h.cause, ?_, fun j hj => ?_, fun r => (h.regs r).trans ?_, honly.trans h.only, ?_, ?_, ?_,
    (hkept.mono (by decide)).trans h.kept⟩
  · rw [h.esw, if_pos rfl]
  · rw [h.esw, if_neg hj, State.eswBit, heng]
    rfl
  · rw [State.reg, heng]
    rfl
  · rw [h.engine, heng]
  · rw [h.engine, heng]
  · rw [h.engine, heng]

theorem State.pset_only (s : State) (e : PortNum) (f : Fld) (v : Nat) : OnlyEngine s (s.pset e f v) e :=
  ⟨rfl, fun q hq => State.pset_other s e q f v hq, by simp [State.pset, Port.set]⟩

theorem State.pset_kept (s : State) (e : PortNum) (f : Fld) (v : Nat) : RegsKept s (s.pset e f v) e [f.off] := fun o ho =>
  State.word_pset_ne s e f v o (ne_of_not_in ho _ (List.mem_singleton.2 rfl))

/-- TRAP keeps its code and enters a trap behind itself. -/
theorem exec_trapRow {code : Byte} (hr : EngReady s e) (h6 : s.eswBit e 6 = false) :
    ∃ t, exec (.trap e code) s = .next t ∧ Trapped (s.pset e ENG_STAT.CODE code.toNat) t e 5 (s.pc e + 4) := by
  have heng := s.eng_pset e ENG_STAT.CODE code.toNat
  refine exec_trapped (ei := .trap code) (c := 5) (done := true) hr rfl rfl one_ne_zero (by decide) ?_ ?_ hr.1 rfl
  · rw [State.eswBit, heng]
    exact h6
  · rw [State.pget, Port.get_word, s.pset_kept e _ _ _ (by decide)]
    exact hr.2.2.2.2

/-- The engine stands in a WAIT for a bit. -/
def State.awaits (s : State) (e : PortNum) (b : BitVec 10) (pol : Bool) : State :=
  (s.setEngState e 2).modEng e fun x => { x with waitOn := some (b, pol) }

/-- The engine runs and awaits no bit. -/
def State.unwaits (s : State) (e : PortNum) : State := (s.setEngState e 1).modEng e fun x => { x with waitOn := none }

/-- The engine runs on behind its WAIT. -/
def State.awaited (s : State) (e : PortNum) : State :=
  ((s.unwaits e).spend e 1).setPc e ((s.unwaits e).pc e + 4)

theorem State.modEng_only (s : State) (e : PortNum) (f : Engine → Engine) : OnlyEngine s (s.modEng e f) e :=
  ⟨rfl, fun q hq => by simp [hq], by simp⟩

theorem State.modEng_kept (s : State) (e : PortNum) (f : Engine → Engine) (l : List Nat) : RegsKept s (s.modEng e f) e l :=
  fun o _ => by simp [Port.word]

theorem State.spend_only (s : State) (e : PortNum) (n : Nat) : OnlyEngine s (s.spend e n) e :=
  ⟨rfl, fun q hq => by simp [State.spend, hq], by simp [State.spend, Port.putWord]⟩

theorem State.spend_kept (s : State) (e : PortNum) (n : Nat) : RegsKept s (s.spend e n) e [ENG_CYCLE.reg] := fun o ho => by
  simp only [State.spend, State.modPort_port]
  exact Port.word_putWord_ne _ _ _ _ (ne_of_not_in ho _ (by decide))

theorem State.awaits_only (s : State) (e : PortNum) (b : BitVec 10) (pol : Bool) : OnlyEngine s (s.awaits e b pol) e :=
  (s.pset_only e _ _).trans (State.modEng_only ..)

theorem State.awaits_kept (s : State) (e : PortNum) (b : BitVec 10) (pol : Bool) :
    RegsKept s (s.awaits e b pol) e [ENG_STAT.reg] :=
  (s.pset_kept e ENG_STAT.STATE 2).trans (State.modEng_kept _ _ _ _)

theorem State.awaits_state (s : State) (e : PortNum) (b : BitVec 10) (pol : Bool) : (s.awaits e b pol).engState e = 2 := by
  have hword : ((s.awaits e b pol).port e).word ENG_STAT.reg = ((s.setEngState e 2).port e).word ENG_STAT.reg :=
    State.modEng_kept _ e _ [] _ List.not_mem_nil
  exact (congrArg (wget · _ _) hword).trans ((s.pget_pset e ENG_STAT.STATE 2 (by decide)).trans rfl)

theorem spent_eng (u : State) (e : PortNum) (k : Nat) (l : Option RegNum) :
    ((u.spend e k).setLoad e l).eng e = { u.eng e with lastLoad := l } := by
  simp [State.spend, State.setLoad, State.eng]

theorem State.awaits_eng (s : State) (e : PortNum) (b : BitVec 10) (pol : Bool) :
    (s.awaits e b pol).eng e = { s.eng e with waitOn := some (b, pol) } := by
  simp [State.awaits, State.setEngState, State.pset, State.eng]

theorem State.unwaits_only (s : State) (e : PortNum) : OnlyEngine s (s.unwaits e) e :=
  (s.pset_only e _ _).trans (State.modEng_only ..)

theorem State.unwaits_kept (s : State) (e : PortNum) : RegsKept s (s.unwaits e) e [ENG_STAT.reg] :=
  (s.pset_kept e ENG_STAT.STATE 1).trans (State.modEng_kept _ _ _ _)

theorem State.awaited_only (s : State) (e : PortNum) : OnlyEngine s (s.awaited e) e :=
  ((s.unwaits_only e).trans (State.spend_only ..)).trans (State.setPc_only ..)

theorem State.awaited_moves (s : State) (e : PortNum) : RegsKept (s.unwaits e) (s.awaited e) e pcAndCycle :=
  ((State.spend_kept _ _ _).mono (by decide)).trans ((State.setPc_kept _ _ _).mono (by decide))

theorem State.awaited_kept (s : State) (e : PortNum) : RegsKept s (s.awaited e) e (ENG_STAT.reg :: pcAndCycle) :=
  ((s.unwaits_kept e).mono (by decide)).trans ((s.awaited_moves e).mono (by decide))

theorem State.awaited_eng (s : State) (e : PortNum) : (s.awaited e).eng e = { s.eng e with waitOn := none } := by
  simp [State.awaited, State.unwaits, State.setEngState, State.pset, State.setPc, State.spend, State.eng]

theorem State.awaited_state (s : State) (e : PortNum) : (s.awaited e).engState e = 1 := by
  have hword : ((s.awaited e).port e).word ENG_STAT.reg = ((s.setEngState e 1).port e).word ENG_STAT.reg :=
    (s.awaited_moves e _ (by decide)).trans (State.modEng_kept _ e _ [] _ List.not_mem_nil)
  exact (congrArg (wget · _ _) hword).trans ((s.pget_pset e ENG_STAT.STATE 1 (by decide)).trans rfl)

theorem State.awaited_pc (s : State) (e : PortNum) : (s.awaited e).pc e = s.pc e + 4 := by
  have hpc : (s.unwaits e).pc e = s.pc e := s.unwaits_kept e _ (by decide)
  rw [← hpc]
  simp [State.awaited, State.setPc, State.pc]

end

end Sys2Proof.Machine

open Sys2Proof Sys2Proof.Machine

/-- Settles O13, by what each instruction does once on a ready engine. -/
theorem engineCrcTrapWaitAndStatusInstructions : Obligations.EngineCrcTrapWaitAndStatusInstructions := by
  unfold Obligations.EngineCrcTrapWaitAndStatusInstructions
  refine ⟨fun s e rd ra sel n hr => ?crc, fun s e code hr => ?traps, fun s e b pol rd k => ?waits⟩
  case crc =>
    refine ⟨fun k hk => ?_, fun h5 h6 => ?_⟩
    · obtain ⟨hinit, hfeed, hend⟩ := s.engDo_crc_some e rd ra sel n ((crcSel_table sel).trans hk)
      exact ⟨computes_move hr (congrFun (engRow_exec rfl) s) hinit one_ne_zero,
        computes_move hr (congrFun (engRow_exec rfl) s) hfeed one_ne_zero,
        computes_move hr (congrFun (engRow_exec rfl) s) hend one_ne_zero⟩
    · obtain ⟨hinit, hfeed, hend⟩ := s.engDo_crc_none e rd ra sel n (crcSel_none h5)
      exact ⟨answers_trap hr (congrFun (engRow_exec rfl) s) hinit one_ne_zero (by decide) h6,
        answers_trap hr (congrFun (engRow_exec rfl) s) hfeed one_ne_zero (by decide) h6,
        answers_trap hr (congrFun (engRow_exec rfl) s) hend one_ne_zero (by decide) h6⟩
  case traps =>
    refine ⟨fun h6 => ?_, fun h6 => ?_⟩
    · obtain ⟨t, hx, hT⟩ := exec_trapRow (code := code) hr h6
      have hrett : s.engDo e .rett = (.trap 1 false, 1, s) := if_neg (Bool.eq_false_iff.1 h6)
      exact ⟨hT.of_stat (s.pset_only e _ _) (s.pset_kept e _ _) (s.eng_pset e _ _) hx,
        ⟨t, hx, hT.code.trans ((s.pget_pset e _ _ (by decide)).trans (Nat.mod_eq_of_lt code.isLt))⟩,
        answers_trap hr (congrFun (engRow_exec rfl) s) hrett one_ne_zero (by decide) h6⟩
    · have hrett : s.engDo e .rett = (.jump ((s.port e).word ENG_TPC.reg), 1, s.setEsw e 6 false) := if_pos h6
      obtain ⟨k, l, hx, hframe⟩ := answers_jump hr (congrFun (engRow_exec (i := .rett e) rfl) s) hrett one_ne_zero
        ((RegSide.refl s e).setEsw 6 false)
      have hbit := s.eswBit_setEsw e 6 (b := false) (h := by decide)
      refine ⟨_, hx, State.after_pc .., ?_, fun j hj => ?_, fun r => ?_, hframe⟩
      · rw [State.after_eswBit, hbit, if_pos rfl]
      · rw [State.after_eswBit, hbit, if_neg hj]
      · rw [State.after_reg, State.reg_setEsw]
  case waits =>
    refine ⟨fun hr => ⟨fun hb => ?goesOn, fun hb => ?stands, fun hk => ?reads, fun hk h6 => ?none_⟩, fun hraised hw hst hb hh => ?ends⟩
    case goesOn =>
      exact goesTo_next hr (congrFun (engRow_exec rfl) s) (show s.engDo e (.wait b pol) = ok1 s from if_pos hb) one_ne_zero
    case stands =>
      have hd : s.engDo e (.wait b pol) = (.stay, 1, s.awaits e b pol) := if_neg hb
      have hhalt : (s.awaits e b pol).pget e ENG_CTL.HALT = 0 := by
        rw [State.pget, Port.get_word, s.awaits_kept e b pol _ (by decide)]
        exact hr.2.2.2.2
      refine answers_stay hr rfl hd one_ne_zero hhalt rfl rfl fun k l => ?_
      have hkept : RegsKept s (((s.awaits e b pol).spend e k).setLoad e l) e [ENG_STAT.reg, ENG_CYCLE.reg] :=
        ((s.awaits_kept e b pol).mono (by decide)).trans ((spent_kept _ e k l).mono (by decide))
      have hstate : (((s.awaits e b pol).spend e k).setLoad e l).engState e = 2 :=
        (congrArg (wget · _ _) (spent_kept _ e k l _ (by decide))).trans (s.awaits_state e b pol)
      have heng := (spent_eng (s.awaits e b pol) e k l).trans (by rw [s.awaits_eng e b pol])
      refine ⟨hstate, hkept _ (by decide), ?_, fun r => ?_, fun j => ?_, (s.awaits_only e b pol).trans (spent_only ..), hkept⟩
      · rw [heng]
      · rw [State.reg, heng]
        rfl
      · rw [State.eswBit, heng]
        rfl
    case reads => exact computes_move hr (congrFun (engRow_exec rfl) s) (s.engDo_gets e rd hk) one_ne_zero
    case none_ => exact answers_trap hr (congrFun (engRow_exec rfl) s) (s.engDo_gets_none e rd hk) one_ne_zero (by decide) h6
    case ends =>
      have hhalt : (s.awaited e).pget e ENG_CTL.HALT = 0 := by
        rw [State.pget, Port.get_word, s.awaited_kept e _ (by decide)]
        exact hh
      have hx : exec (.waitEnd e) s = .next (s.awaited e) := by
        refine exec_to rfl ?_ hraised rfl
        rw [hw]
        exact (if_pos ⟨hst, hb⟩).trans (State.haltCheck_run _ _ hhalt)
      refine ⟨_, hx, s.awaited_state e, s.awaited_pc e, ?_, fun r => ?_, fun j => ?_, s.awaited_only e, s.awaited_kept e⟩
      · rw [s.awaited_eng e]
      · rw [State.reg, s.awaited_eng e]
        rfl
      · rw [State.eswBit, s.awaited_eng e]
        rfl
end

section
/-! PROOF. The assists that ask the framer: FRES, FSEND and FRAPID (R442-R444). -/

namespace Sys2Proof.Machine

/-- `t` differs from `s` in the framer of port `e`, which is `f`, and in general registers and ESW of its engine. -/
def FramerSide (s t : State) (e : PortNum) (f : Framer) : Prop :=
  ∃ g w, t = s.modPort e fun q => { q with framer := f, eng := { q.eng with g, esw := w } }

section
variable {s u : State} {e : PortNum} {f : Framer}

theorem FramerSide.modFramer (s : State) (e : PortNum) (g : Framer → Framer) :
    FramerSide s (s.modFramer e g) e (g (s.port e).framer) := ⟨(s.eng e).g, (s.eng e).esw, rfl⟩

theorem FramerSide.refl (s : State) (e : PortNum) : FramerSide s s e (s.port e).framer :=
  ⟨(s.eng e).g, (s.eng e).esw, (State.setPort_self s e).symm⟩

theorem FramerSide.setReg (h : FramerSide s u e f) (r : RegNum) (w : Word) : FramerSide s (u.setReg e r w) e f := by
  obtain ⟨g, x, rfl⟩ := h
  exact ⟨g.set r w, x, by simp [State.setReg, State.modEng]⟩

theorem FramerSide.setEsw (h : FramerSide s u e f) (i : Nat) (b : Bool) : FramerSide s (u.setEsw e i b) e f := by
  obtain ⟨g, x, rfl⟩ := h
  exact ⟨g, wset x i 1 (bit b), by simp [State.setEsw, State.modEng]⟩

theorem FramerSide.modEsw (h : FramerSide s u e f) (w : Word) :
    FramerSide s (u.modEng e fun x => { x with esw := x.esw ||| w }) e f := by
  obtain ⟨g, x, rfl⟩ := h
  exact ⟨g, x ||| w, by simp [State.modEng]⟩

/-- What an instruction that asks the framer leaves as it was. -/
structure FramerFrame (s t : State) (e : PortNum) (f : Framer) : Prop where
  port : t.port e = { s.port e with framer := f, regs := (t.port e).regs, eng := t.eng e }
  only : OnlyPort s t e
  kept : RegsKept s t e pcAndCycle
  mem : EngMemKept s t e

theorem FramerSide.frame (h : FramerSide s u e f) (k : Nat) (l : Option RegNum) (a : Word) :
    FramerFrame s (u.after e k l a) e f := by
  obtain ⟨g, w, rfl⟩ := h
  refine ⟨?_, ⟨rfl, fun q hq => ?_⟩, fun o ho => ?_, ?_⟩
  · simp [State.after_eq, Port.putWord, State.eng]
  · simp [State.after_eq, hq]
  · rw [State.after_word _ _ _ _ _ _ ho]
    simp [Port.word]
  · simp [EngMemKept, State.after_eq, State.eng]

/-- An instruction that asks the framer and goes on. -/
theorem answers_framer {i : Instr} {ei : EngInstr} {P : State → Prop} (hr : EngReady s e) (hrow : engRow i = some (e, ei))
    (hd : s.engDo e ei = ok1 u) (h : FramerSide s u e f)
    (hP : ∀ t, FramerFrame s t e f → (∀ r, t.reg e r = u.reg e r) → (∀ j, t.eswBit e j = u.eswBit e j) →
      t.pc e = s.pc e + 4 → P t) : Answers i s P := by
  have hhalt : u.pget e ENG_CTL.HALT = 0 := by
    obtain ⟨g, w, rfl⟩ := h
    rw [← hr.2.2.2.2]
    simp [State.pget, Port.get]
  refine answers_next hr hrow hd one_ne_zero hhalt ?_ ?_ fun k l =>
    hP _ (h.frame k l _) (fun r => State.after_reg ..) (fun j => State.after_eswBit ..) (State.after_pc ..)
  · obtain ⟨g, w, rfl⟩ := h
    rfl
  · obtain ⟨g, w, rfl⟩ := h
    rfl

/-- FRES: the oldest result taken with Z = 0, or 0 with Z = 1. -/
theorem State.engDo_fres (s : State) (e : PortNum) (rd : RegNum) :
    let results := (s.port e).framer.results
    s.engDo e (.fres rd) = ok1 (((s.modFramer e fun f => { f with results := results.drop 1 }).setReg e rd
      (results.headD 0)).setEsw e 0 results.isEmpty) := by
  show s.doFres e rd = _
  unfold State.doFres
  cases h : (s.port e).framer.results with
  | cons w r => rfl
  | nil =>
    have hself : (s.modFramer e fun f => { f with results := [] }) = s := by
      rw [← h]
      exact State.setPort_self s e
    simp [hself]

/-- The framer takes no requested packet away: a frame or a window stands before it, or the first one may be sent. -/
theorem framerAdvance_kept (h : (s.port e).framer.tx.isSome = true ∨ (s.port e).framer.win.isSome = true ∨
    (s.pget e TXCTL.FIELD_EN = 1 ∧ cinderFirst (s.fifo e .tx).committed = false)) : s.framerAdvance e = s := by
  unfold State.framerAdvance
  cases hn : (s.port e).framer.reqs with
  | zero => rfl
  | succ n =>
    unfold State.framerAdvanceN
    rcases h with h | h | ⟨hen, hc⟩
    · simp [h]
    · simp [h]
    · simp [hen, hc]

theorem flagsTo_zero {t : State} {b : Bool} (h : ∀ j, t.eswBit e j = if j = 0 then b else s.eswBit e j) :
    FlagsTo s t e (some b) none none none :=
  ⟨h 0, h 1, h 2, h 3, fun j hj => (h j).trans (if_neg (by omega))⟩

theorem eswBit_modFramer (s : State) (e : PortNum) (g : Framer → Framer) (j : Nat) :
    (s.modFramer e g).eswBit e j = s.eswBit e j := by
  simp [State.eswBit, State.eng]

theorem reg_modFramer (s : State) (e : PortNum) (g : Framer → Framer) (r : RegNum) : (s.modFramer e g).reg e r = s.reg e r := by
  simp [State.reg, State.eng]

/-- The bare result of a packet or a phase that does not go. -/
theorem State.putBare_refused (s : State) (e : PortNum) : s.putBare e 4 = s.putResult e 4 := rfl

theorem eswBit_rqovf (s : State) (e : PortNum) (j : Nat) :
    (s.modEng e fun x => { x with esw := x.esw ||| 0x80 }).eswBit e j = if j = 7 then true else s.eswBit e j := by
  have h80 := two_pow_bit 32 7 j (by decide)
  simp only [State.eswBit, State.eng, State.modEng_port, BitVec.getLsbD_or]
  rw [show (0x80 : Word) = BitVec.ofNat 32 (2 ^ 7) from rfl, h80]
  by_cases hj : j = 7 <;> simp [hj]

end

end Sys2Proof.Machine

open Sys2Proof Sys2Proof.Machine

/-- Settles O18, by what each assist leaves in the framer. -/
theorem engineFramingAssistsAskTheFramer : Obligations.EngineFramingAssistsAskTheFramer := by
  unfold Obligations.EngineFramingAssistsAskTheFramer
  refine ⟨fun s e rd hr => ?fres, fun s e clear hr => ?fsend, fun s e ra hr => ?frapid⟩
  case fres =>
    refine answers_framer hr rfl (s.engDo_fres e rd) (((FramerSide.modFramer s e _).setReg rd _).setEsw 0 _)
      fun t hf hreg hbit hpc => ⟨⟨?_, fun r hne => ?_⟩, flagsTo_zero fun j => ?_, hf.port, hf.only, hpc, hf.kept, hf.mem⟩
    · rw [hreg, State.reg_setEsw, State.reg_setReg]
    · rw [hreg, State.reg_setEsw, State.reg_setReg_ne _ _ _ _ _ hne, reg_modFramer]
    · rw [hbit, State.eswBit_setEsw _ _ _ _ _ (by decide), State.eswBit_setReg, eswBit_modFramer]
  case fsend =>
    intro f
    refine ⟨fun hnone => ?_, fun hsome hair => ?_⟩
    · have hd : s.engDo e (.fsend clear) = ok1 (s.setEsw e 0 true) := if_pos hnone
      obtain ⟨k, l, hx, hframe⟩ := run_reg hr hd one_ne_zero ((RegSide.refl s e).setEsw 0 true)
      refine ⟨_, (congrFun (engRow_exec rfl) s).trans hx, flagsTo_zero fun j => ?_, fun r => ?_, State.after_pc .., hframe⟩
      · rw [State.after_eswBit, State.eswBit_setEsw _ _ _ _ _ (by decide)]
      · rw [State.after_reg, State.reg_setEsw]
    · have hkept : (s.modFramer e fun f => { f with reqs := f.reqs + 1, waitSum := if clear then 0 else f.waitSum }).framerAdvance e =
          s.modFramer e fun f => { f with reqs := f.reqs + 1, waitSum := if clear then 0 else f.waitSum } := by
        refine framerAdvance_kept ?_
        simpa [State.pget, Port.get, State.fifo, Port.fifo] using hair
      have hd : s.engDo e (.fsend clear) = ok1 ((s.modFramer e fun f =>
          { f with reqs := f.reqs + 1, waitSum := if clear then 0 else f.waitSum }).setEsw e 0 false) :=
        (if_neg (Nat.not_le.2 hsome)).trans (by rw [hkept])
      refine answers_framer hr rfl hd ((FramerSide.modFramer s e _).setEsw 0 false) fun t hf hreg hbit hpc =>
        ⟨flagsTo_zero fun j => ?_, fun r => ?_, hpc, hf.port, hf.only, hf.kept, hf.mem⟩
      · rw [hbit, State.eswBit_setEsw _ _ _ _ _ (by decide), eswBit_modFramer]
      · rw [hreg, State.reg_setEsw, reg_modFramer]
  case frapid =>
    intro n f kept
    refine ⟨fun h16 h64 hen => ?_, fun hno hroom => ?_, fun hno hfull => ?_⟩
    · have hd : s.engDo e (.frapid ra) = ok1 (s.modFramer e fun f => { f with rapidN := n, rapidSlot := 0 }) :=
        if_neg (by omega)
      refine answers_framer hr rfl hd (FramerSide.modFramer s e _) fun t hf hreg hbit hpc =>
        ⟨by rw [hf.port], fun j => ?_, ⟨fun r => ?_, hpc, hf.only, hf.kept⟩, hf.mem⟩
      · rw [hbit, eswBit_modFramer]
      · rw [hreg, reg_modFramer]
    · have hd : s.engDo e (.frapid ra) = ok1 (s.modFramer e fun f => { f with results := f.results ++ [4] }) :=
        (if_pos hno).trans (congrArg ok1 (putResult_room s e hroom))
      refine answers_framer hr rfl hd (FramerSide.modFramer s e _) fun t hf hreg hbit hpc =>
        ⟨by rw [hf.port], fun j => ?_, ⟨fun r => ?_, hpc, hf.only, hf.kept⟩, hf.mem⟩
      · rw [hbit, eswBit_modFramer]
      · rw [hreg, reg_modFramer]
    · have hd : s.engDo e (.frapid ra) = ok1 ((s.modFramer e fun f => { f with results := f.results.drop 1 ++ [4] }).modEng e
          fun x => { x with esw := x.esw ||| 0x80 }) :=
        (if_pos hno).trans (congrArg ok1 (if_neg (Nat.not_lt.2 hfull)))
      refine answers_framer hr rfl hd ((FramerSide.modFramer s e _).modEsw _) fun t hf hreg hbit hpc =>
        ⟨by rw [hf.port], ?_, fun j hj => ?_, fun r => ?_, hpc, hf.only, hf.kept⟩
      · rw [hbit, eswBit_rqovf, if_pos rfl]
      · rw [hbit, eswBit_rqovf, if_neg hj, eswBit_modFramer]
      · rw [hreg, State.reg, State.eng, State.modEng_port]
        exact reg_modFramer s e _ r
end

section
/-! PROOF. Pushes to and aborts of the TX FIFO, by a side and by the engine's assists (R400, R403, R409, R414, R416, R441). -/

namespace Sys2Proof.Machine

/-! ## The words written to TX_DATA (R409, R416) -/

theorem txData_byte : ∀ b : Byte, BitVec.ofNat 8 (wget (b.setWidth 32) 0 8) = b ∧ wget (b.setWidth 32) 8 1 = 0 ∧
    wget (b.setWidth 32) 9 1 = 0 := by
  decide

theorem txData_last : ∀ b : Byte, BitVec.ofNat 8 (wget (b.setWidth 32 ||| 0x100) 0 8) = b ∧
    wget (b.setWidth 32 ||| 0x100) 8 1 = 1 ∧ wget (b.setWidth 32 ||| 0x100) 9 1 = 0 := by
  decide

section
variable {s : State} {p : PortNum} {side : Side} {b : Byte} {w : Word} {last : Bool}

/-- A write of TX_DATA by the selected side pushes its byte. -/
theorem txDataWrite_byte (hside : s.sideOn p .tx side = true) (hb : BitVec.ofNat 8 (wget w 0 8) = b)
    (hlast : wget w 8 1 = bit last) (habort : wget w 9 1 = 0) : s.txDataWrite p side w = s.pushByte p .tx b last := by
  unfold State.txDataWrite
  rw [if_pos hside, if_neg (by omega), hb, hlast]
  cases last <;> rfl

theorem txDataWrite_abort (hside : s.sideOn p .tx side = true) : s.txDataWrite p side 0x200 = s.withdraw p .tx := by
  unfold State.txDataWrite
  rw [if_pos hside]
  rfl

theorem pushByte_now (h : CanPush s p .tx) : s.pushByte p .tx b last = s.pushNow p .tx b last := by
  unfold State.pushByte
  rw [pushStalls_false h]
  rfl

theorem State.setFifo_tx (s : State) (p : PortNum) (g : Fifo) :
    (s.setFifo p .tx g).port p = { s.port p with txf := (s.setFifo p .tx g).fifo p .tx } := by
  rw [State.fifo_setFifo, State.setFifo, State.modPort_port]
  rfl

/-- A row that pushes a byte for its side. -/
theorem answers_push {i : Instr} (h : CanPush s p .tx) (hraised : s.raised = []) (hon : s.portOn p = true)
    (hx : exec i = run fun s => if s.portOn p then s.txDataWrite p side w else s)
    (hd : s.txDataWrite p side w = s.pushByte p .tx b last) :
    Answers i s fun t => Pushed s t p .tx b last ∧ OnlyPort s t p ∧ t.port p = { s.port p with txf := t.fifo p .tx } := by
  obtain ⟨g, hg, hpushed⟩ := pushNow_pushed h b last
  refine ⟨_, exec_to hx ((if_pos hon).trans (hd.trans ((pushByte_now h).trans hg))) hraised rfl, hpushed, onlyPort_setFifo _ _ _ _,
    State.setFifo_tx s p g⟩

end

/-! ## Assists that change the TX FIFO (R441) -/

section
variable {s u : State} {p : PortNum} {g : Fifo}

/-- What an assist leaves as it was beside the TX FIFO. -/
structure TxFifoFrame (s t : State) (p : PortNum) : Prop where
  only : OnlyPort s t p
  port : t.port p = { s.port p with txf := t.fifo p .tx, regs := (t.port p).regs, eng := t.eng p }
  kept : RegsKept s t p pcAndCycle
  mem : EngMemKept s t p

theorem TxFifoFrame.of (h : RegSide (s.setFifo p .tx g) u p) (k : Nat) (l : Option RegNum) (a : Word) :
    TxFifoFrame s (u.after p k l a) p ∧ (u.after p k l a).fifo p .tx = g := by
  have hframe := h.frame k l a
  obtain ⟨⟨hstate, hothers, hport⟩, hkept, hmem⟩ := hframe
  have heng := s.eng_setFifo p .tx g
  have hfifo : (u.after p k l a).fifo p .tx = g := by
    rw [State.fifo, hport]
    exact State.fifo_setFifo s p .tx g
  refine ⟨⟨⟨hstate.trans rfl, fun q hq => (hothers q hq).trans (State.setFifo_port_ne _ _ _ _ _ hq)⟩, ?_, fun o ho => ?_, ?_⟩, hfifo⟩
  · rw [hfifo]
    exact hport.trans (by rw [State.setFifo_tx, State.fifo_setFifo]; rfl)
  · exact (hkept o ho).trans (s.word_setFifo p .tx g o)
  · unfold EngMemKept at hmem ⊢
    rwa [heng] at hmem

/-- An assist that changes the TX FIFO and goes on. -/
theorem answers_tx {i : Instr} {ei : EngInstr} {P : State → Prop} (hr : EngReady s p) (hrow : engRow i = some (p, ei))
    (hd : s.engDo p ei = ok1 u) (h : RegSide (s.setFifo p .tx g) u p)
    (hP : ∀ t, TxFifoFrame s t p → t.fifo p .tx = g → (∀ r, t.reg p r = u.reg p r) → (∀ j, t.eswBit p j = u.eswBit p j) →
      t.pc p = s.pc p + 4 → P t) : Answers i s P := by
  have hhalt : u.pget p ENG_CTL.HALT = 0 := by
    rw [State.pget, Port.get_word, h.word, State.word_setFifo]
    exact hr.2.2.2.2
  refine answers_next hr hrow hd one_ne_zero hhalt h.only.raised h.only.pending fun k l => ?_
  obtain ⟨hf, hg⟩ := TxFifoFrame.of h k l (s.pc p + 4)
  exact hP _ hf hg (fun r => State.after_reg ..) (fun j => State.after_eswBit ..) (State.after_pc ..)

theorem State.reg_setFifo (s : State) (p : PortNum) (d : Dir) (g : Fifo) (r : RegNum) : (s.setFifo p d g).reg p r = s.reg p r := by
  rw [State.reg, State.eng_setFifo]
  rfl

theorem State.eswBit_setFifo (s : State) (p : PortNum) (d : Dir) (g : Fifo) (j : Nat) :
    (s.setFifo p d g).eswBit p j = s.eswBit p j := by
  rw [State.eswBit, State.eng_setFifo]
  rfl

/-- A byte that the engine pushes at once. -/
theorem engPush_now {b : Byte} {eop : Bool} (hside : s.sideOn p .tx .engine = true) (h : CanPush s p .tx) :
    s.engPush p b eop = some (s.pushNow p .tx b eop) := by
  unfold State.engPush
  rw [if_pos hside, pushStalls_false h]
  rfl

theorem engDo_fpush {ra : RegNum} {eop : Bool} (hside : s.sideOn p .tx .engine = true) (h : CanPush s p .tx) :
    s.engDo p (.fpush ra eop) = ok1 (s.pushNow p .tx ((s.reg p ra).setWidth 8) eop) := by
  show s.doFpush p ra eop = _
  unfold State.doFpush
  rw [engPush_now hside h]

theorem Mem.setWidth_byte (m : Mem) (a : Nat) : (BitVec.ofNat 32 (fromLe (m.bytes a 1))).setWidth 8 = m.read a := by
  simp [Mem.bytes, fromLe]

theorem engDo_fpushm {ra : RegNum} {eop : Bool} (hside : s.sideOn p .tx .engine = true) (h : CanPush s p .tx)
    (ha : (s.reg p ra).toNat < 0x2000) (hrep : (s.eng p).repLeft = 0) :
    s.engDo p (.fpushm ra eop) =
      ok1 ((s.pushNow p .tx ((s.eng p).data.read (s.reg p ra).toNat) eop).bump p ra true 1) := by
  show s.doFpushm p ra eop = _
  unfold State.doFpushm
  have heop : (eop && decide ((s.eng p).repLeft ≤ 1)) = eop := by rw [hrep]; simp
  rw [dataPlace_data ha (Nat.mod_one _)]
  simp only [State.loadAt, heop, MemW.size, Mem.setWidth_byte, engPush_now hside h]

end

end Sys2Proof.Machine

open Sys2Proof Sys2Proof.Machine

/-- Settles O15, by what one push and one withdrawal leave in the FIFO. -/
theorem pushesJoinThePacketAndAbortsWithdrawIt : Obligations.PushesJoinThePacketAndAbortsWithdrawIt := by
  unfold Obligations.PushesJoinThePacketAndAbortsWithdrawIt
  refine ⟨fun s p side b ra eop hraised hcan => ⟨fun hon hside => ?sides, fun hr hside => ?assists⟩,
    fun s p side hraised hsound hopen => ?aborts⟩
  case sides =>
    obtain ⟨hb, h8, h9⟩ := txData_byte b
    obtain ⟨hb', h8', h9'⟩ := txData_last b
    exact ⟨answers_push hcan hraised hon rfl (txDataWrite_byte (last := false) hside hb h8 h9),
      answers_push hcan hraised hon rfl (txDataWrite_byte (last := true) hside hb' h8' h9')⟩
  case assists =>
    refine ⟨?_, fun ha => ?_⟩
    · obtain ⟨g, hg, hpushed⟩ := pushNow_pushed hcan ((s.reg p ra).setWidth 8) eop
      refine answers_tx hr rfl ((engDo_fpush hside hcan).trans (congrArg ok1 hg)) (RegSide.refl _ p) fun t hf hfifo hreg hbit hpc =>
        ⟨hpushed.congr (hfifo.trans (s.fifo_setFifo p .tx g).symm), hf.only, hf.port, fun r => ?_, fun j => ?_, hpc, hf.kept, hf.mem⟩
      · rw [hreg, State.reg_setFifo]
      · rw [hbit, State.eswBit_setFifo]
    · obtain ⟨g, hg, hpushed⟩ := pushNow_pushed hcan ((s.eng p).data.read (s.reg p ra).toNat) eop
      refine answers_tx hr rfl ((engDo_fpushm hside hcan ha hr.2.2.2.1).trans (by rw [hg])) ((RegSide.refl _ p).bump ra true 1)
        fun t hf hfifo hreg hbit hpc => ⟨hpushed.congr (hfifo.trans (s.fifo_setFifo p .tx g).symm), hf.only, hf.port,
          ⟨?_, fun r hne => ?_⟩, fun j => ?_, hpc, hf.kept, hf.mem⟩
      · rw [hreg, State.reg_bump, State.reg_setFifo]
        rfl
      · rw [hreg, State.reg_bump_ne _ _ _ _ _ _ hne, State.reg_setFifo]
      · rw [hbit, State.eswBit_bump, State.eswBit_setFifo]
  case aborts =>
    intro withdrawn
    obtain ⟨g, hg, hrow, hpart, hopen', hpkts⟩ := withdraw_row hsound hopen
    have left : ∀ t : State, t.fifo p .tx = g → OnlyPort s t p → withdrawn t := fun t ht ho =>
      ⟨ht ▸ hrow, ht ▸ hpart, ht ▸ hopen', ht ▸ hpkts, ho⟩
    refine ⟨fun hon hside => ?_, fun hr hside => ?_⟩
    · exact ⟨_, exec_to rfl ((if_pos hon).trans ((txDataWrite_abort hside).trans hg)) hraised rfl,
        left _ (s.fifo_setFifo p .tx g) (onlyPort_setFifo ..), State.setFifo_tx s p g⟩
    · refine answers_tx (ei := .fabort) hr rfl (congrArg ok1 ((txDataWrite_abort hside).trans hg)) (RegSide.refl _ p)
        fun t hf hfifo hreg hbit hpc => ⟨left t hfifo hf.only, hf.port, fun r => ?_, fun j => ?_, hpc, hf.kept, hf.mem⟩
      · rw [hreg, State.reg_setFifo]
      · rw [hbit, State.eswBit_setFifo]
end

section
/-! PROOF. Reads of the RX FIFO, by a side and by the engine's assists, and the pop that a stall held (R403, R410, R441). -/

namespace Sys2Proof.Machine

section
variable {s : State} {p : PortNum} {side : Side} {w : FWord} {r : List FWord}

/-! ## Reads by a side -/

theorem rxDataRead_word (hside : s.sideOn p .rx side = true) (hs : (s.fifo p .rx).sound) (hh : (s.fifo p .rx).head = w :: r)
    (hv : w.pkt ≠ (s.fifo p .rx).pktNo) : s.rxDataRead p side = (w.data, s.takeHead p .rx w) := by
  unfold State.rxDataRead State.takeWord
  rw [if_pos hside, takeNow_word hs hh hv]

theorem rxDataRead_nothing (hside : s.sideOn p .rx side = true) (hs : (s.fifo p .rx).sound) (hh : (s.fifo p .rx).head = [])
    (hw : (s.fifo p .rx).win = []) : s.rxDataRead p side = (0, s.fset p .rx RX_STAT.UNDER 1) := by
  unfold State.rxDataRead State.takeWord
  rw [if_pos hside, takeNow_nothing hs hh hw]

/-- What a word taken leaves beside the FIFO and its register. -/
theorem takeHead_kept (hh : (s.fifo p .rx).head = w :: r) :
    OnlyPort s (s.takeHead p .rx w) p ∧
      (s.takeHead p .rx w).port p = { s.port p with
        rxf := (s.takeHead p .rx w).fifo p .rx, regs := ((s.takeHead p .rx w).port p).regs, eng := (s.takeHead p .rx w).eng p } ∧
      (s.takeHead p .rx w).eng p = s.eng p := by
  obtain ⟨g, c, ht, -, -⟩ := takeHead_popped (d := .rx) hh
  rw [ht]
  exact ⟨⟨rfl, fun q hq => by simp [hq]⟩, by simp [State.fifo, State.eng, Port.setFifo, Port.fifo], by simp [State.eng, Port.setFifo]⟩

/-! ## Pops of the engine (R441) -/

theorem engPop_word (hside : s.sideOn p .rx .engine = true) (hs : (s.fifo p .rx).sound) (hh : (s.fifo p .rx).head = w :: r)
    (hv : w.pkt ≠ (s.fifo p .rx).pktNo) : s.engPop p = (.word w, s.takeHead p .rx w) := by
  unfold State.engPop
  rw [if_pos hside, takeNow_word hs hh hv]

theorem engPop_nothing (hside : s.sideOn p .rx .engine = true) (hs : (s.fifo p .rx).sound) (hh : (s.fifo p .rx).head = [])
    (hw : (s.fifo p .rx).win = []) : s.engPop p = (.nothing, s.fset p .rx RX_STAT.UNDER 1) := by
  unfold State.engPop
  rw [if_pos hside, takeNow_nothing hs hh hw]

/-- Where a pop leaves the engine: the last word of a packet ends a repetition. -/
def popEnd (w : FWord) : EngEnd := if w.eop then .endRep else .next

theorem popEnd_cases (w : FWord) : popEnd w = .next ∨ popEnd w = .endRep := by
  unfold popEnd
  cases w.eop
  · exact .inl rfl
  · exact .inr rfl

theorem engDo_fpop {rd : RegNum} {t : State} (h : s.engPop p = (.word w, t)) :
    s.engDo p (.fpop rd) = (popEnd w, 1, (t.setReg p rd w.data).popFlags p (some w)) := by
  show s.doFpop p rd = _
  unfold State.doFpop
  rw [h]
  rfl

theorem engDo_fpop_nothing {rd : RegNum} {t : State} (h : s.engPop p = (.nothing, t)) :
    s.engDo p (.fpop rd) = (.endRep, 1, (t.setReg p rd 0).popFlags p none) := by
  show s.doFpop p rd = _
  unfold State.doFpop
  rw [h]

theorem engDo_fpopm {ra : RegNum} {t : State} (ha : (s.reg p ra).toNat < 0x2000) (h4 : (s.reg p ra).toNat % 4 = 0)
    (h : s.engPop p = (.word w, t)) :
    s.engDo p (.fpopm ra) = (popEnd w, 1, ((t.storeAt p .word w.data (.data (s.reg p ra).toNat)).bump p ra true 4).popFlags p (some w)) := by
  show s.doFpopm p ra = _
  unfold State.doFpopm
  rw [dataPlace_data (w := .word) ha h4, h]
  rfl

theorem flagsTo_pop {u t : State} (h : ∀ j, t.eswBit p j = (u.popFlags p (some w)).eswBit p j)
    (hu : ∀ j, u.eswBit p j = s.eswBit p j) : FlagsTo s t p (some false) (some w.cin) (some w.eop) none := by
  have hbit : ∀ j, t.eswBit p j = if j = 1 then w.cin else if j = 2 then w.eop else if j = 0 then false else s.eswBit p j := by
    intro j
    rw [h, popFlags_eswBit, hu]
  refine ⟨hbit 0, hbit 1, hbit 2, hbit 3, fun j hj => ?_⟩
  rw [hbit, if_neg (by omega), if_neg (by omega), if_neg (by omega)]

theorem popFlags_reg (u : State) (e : PortNum) (w : FWord) (r : RegNum) : (u.popFlags e (some w)).reg e r = u.reg e r := by
  simp [State.popFlags]

theorem popFlags_mem (u : State) (e : PortNum) (w : FWord) :
    ((u.popFlags e (some w)).eng e).data = (u.eng e).data ∧ ((u.popFlags e (some w)).eng e).bits = (u.eng e).bits := by
  simp [State.popFlags, State.setEsw, State.eng]

/-- An instruction outside a repetition that goes on, or that would end its repetition. -/
theorem perform_end {u : State} {e : PortNum} {ei : EngInstr} {fin : EngEnd} (hrep : (s.eng e).repLeft = 0)
    (hd : s.engDo e ei = (fin, 1, u)) (hf : fin = .next ∨ fin = .endRep) :
    s.perform e ei = u.after e (1 + bit (s.loadStall e ei)) ei.loads (s.pc e + 4) := by
  rcases hf with rfl | rfl <;> simp [State.perform, hd, hrep, State.after]

theorem State.after_halt {u : State} {e : PortNum} {k : Nat} {l : Option RegNum} {a : Word} (h : u.pget e ENG_CTL.HALT = 0) :
    (u.after e k l a).haltCheck e = u.after e k l a := by
  refine State.haltCheck_run _ _ ?_
  rw [State.pget, Port.get_word, State.after_word _ _ _ _ _ _ (by decide)]
  exact h

/-- An instruction that ends its repetition goes on where none is in force. -/
theorem exec_endRep {u : State} {e : PortNum} {i : Instr} {ei : EngInstr} (hr : EngReady s e) (hrow : engRow i = some (e, ei))
    (hd : s.engDo e ei = (.endRep, 1, u)) (hh : u.pget e ENG_CTL.HALT = 0) (hraised : u.raised = s.raised)
    (hpending : u.pending = s.pending) : ∃ k l, exec i s = .next (u.after e k l (s.pc e + 4)) := by
  obtain ⟨hraised', hruns, hpc, hrep, -⟩ := hr
  refine ⟨1 + bit (s.loadStall e ei), ei.loads, exec_to (engRow_exec hrow) ?_ (hraised.trans hraised') hpending⟩
  simp only [State.issue, hruns, if_true, hrep, if_neg (Nat.not_le.2 hpc), ne_eq, not_true_eq_false, false_and, if_false]
  rw [perform_end hrep hd (.inr rfl), State.after_halt hh]

/-- What a pop with nothing to take leaves: Z is 1, C and N are free, and the engine alone changes. -/
structure FoundNothing (s t : State) (e : PortNum) : Prop where
  raised : t.raised = s.raised
  pending : t.pending = s.pending
  port : ∃ x, t.port e = { s.port e with eng := x }
  reg : ∀ r, t.reg e r = s.reg e r
  zero : t.eswBit e 0 = true

theorem FoundNothing.word {t : State} (h : FoundNothing s t p) (o : Nat) : (t.port p).word o = (s.port p).word o := by
  obtain ⟨x, hx⟩ := h.port
  rw [hx]
  rfl

theorem popFlags_nothing (t : State) (e : PortNum) : FoundNothing t (t.popFlags e none) e := by
  obtain ⟨c, n, h⟩ := popFlags_none t e
  have hside : EngSide t (((t.setEsw e 0 true).setEsw e 2 c).setEsw e 1 n) e := ((EngSide.refl t e).setEsw 0 true |>.setEsw 2 c).setEsw 1 n
  obtain ⟨-, -, x, hx, -⟩ := hside.port
  have hreg : ∀ r, (((t.setEsw e 0 true).setEsw e 2 c).setEsw e 1 n).reg e r = t.reg e r := fun r => by simp
  have hzero : (((t.setEsw e 0 true).setEsw e 2 c).setEsw e 1 n).eswBit e 0 = true := by
    rw [State.eswBit_setEsw _ _ _ _ _ (by decide), State.eswBit_setEsw _ _ _ _ _ (by decide), State.eswBit_setEsw _ _ _ _ _ (by decide)]
    rfl
  rw [h]
  exact ⟨rfl, rfl, ⟨x, hx⟩, hreg, hzero⟩

/-! ## The Flue's move behind a stall (R401, R403) -/

theorem Fifo.settleN_head (n : Nat) (f : Fifo) : ∃ l, (Fifo.settleN n f).head = f.head ++ l := by
  induction n generalizing f with
  | zero => exact ⟨[], (List.append_nil _).symm⟩
  | succ n ih =>
    unfold Fifo.settleN
    split
    · exact ⟨[], (List.append_nil _).symm⟩
    · rename_i w r _
      split
      · obtain ⟨l, hl⟩ := ih ((({ f with tail := r, head := f.head ++ [w] } : Fifo).adv 1 1).adv 5 1)
        exact ⟨w :: l, hl.trans (List.append_assoc ..)⟩
      · exact ⟨[], (List.append_nil _).symm⟩

theorem State.windowWord_tags (s : State) (p : PortNum) (d : Dir) (w : FWord) :
    (s.windowWord p d w).pkt = w.pkt ∧ (s.windowWord p d w).eop = w.eop ∧ (s.windowWord p d w).cin = w.cin := by
  unfold State.windowWord
  split <;> exact ⟨rfl, rfl, rfl⟩

/-- A move of the Flue brings the window's first word to an empty head. -/
theorem flueMove_head (hs : (s.fifo p .rx).sound) (hh : (s.fifo p .rx).head = []) (hw : (s.fifo p .rx).win = w :: r) :
    ∃ g l, s.flueMove p .rx = s.setFifo p .rx g ∧ g.sound ∧ g.head = s.windowWord p .rx w :: l ∧
      g.pktNo = (s.fifo p .rx).pktNo ∧ g.row = s.windowWord p .rx w :: (s.fifo p .rx).row.drop 1 := by
  let f := s.fifo p .rx
  let f1 : Fifo := { f with win := r, head := f.head ++ [s.windowWord p .rx w], desc := if r.isEmpty then none else f.desc }
  have hmove : s.flueMove p .rx = s.setFifo p .rx ((f1.adv 4 1).adv 5 1).settle := by
    unfold State.flueMove
    simp only [Fifo.sound_bad hs _ (show ∀ i ∈ [1, 3, 4, 5], i < 7 by decide), hh, hw, List.isEmpty_cons, List.isEmpty_nil,
      Bool.not_false, Bool.true_and, List.length_nil]
    unfold State.flueOut
    simp only [hw]
    rfl
  obtain ⟨hrow, -, -, hpkt, -⟩ := Fifo.settle_facts ((f1.adv 4 1).adv 5 1)
  obtain ⟨l, hl⟩ := Fifo.settleN_head 16 ((f1.adv 4 1).adv 5 1)
  refine ⟨_, l, hmove, Fifo.sound_settle (Fifo.sound_adv (Fifo.sound_adv (Fifo.sound_of hs rfl) _ _) _ _), ?_, hpkt, ?_⟩
  · refine hl.trans ?_
    simp [f1, f, Fifo.adv, hh]
  · rw [hrow]
    simp [Fifo.row, f1, f, Fifo.adv, hh, hw]

/-! ## A stalled pop that goes on -/

/-- The engine out of its stall, with the Flue's move done and `n` cycles spent. -/
def State.unstalled (s : State) (e : PortNum) (g : Fifo) (n : Nat) : State :=
  (((State.setFifo { s with free := s.free + 1 } e .rx g).modEng e fun x => { x with stall := none })).spend e n

theorem stallRelease_fpop {rd : RegNum} {g : Fifo} (hstall : (s.eng p).stall = some (.fpop rd))
    (hmove : s.flueMove p .rx = s.setFifo p .rx g) :
    ∃ n, s.stallRelease p = ((s.unstalled p g n).perform p (.fpop rd)).haltCheck p := by
  unfold State.stallRelease
  rw [hstall]
  simp only [hmove]
  exact ⟨_, rfl⟩

section
variable (s : State) (e : PortNum) (g : Fifo) (n : Nat)

theorem State.unstalled_only : OnlyEngine (State.setFifo { s with free := s.free + 1 } e .rx g) (s.unstalled e g n) e :=
  (State.modEng_only _ e _).trans (State.spend_only _ e n)

theorem State.unstalled_fifo : (s.unstalled e g n).fifo e .rx = g := by
  obtain ⟨-, -, hport⟩ := s.unstalled_only e g n
  rw [State.fifo, hport]
  exact State.fifo_setFifo { s with free := s.free + 1 } e .rx g

theorem State.unstalled_eng : (s.unstalled e g n).eng e = { s.eng e with stall := none } := by
  show ((State.modEng _ e _).spend e n).eng e = _
  rw [State.spend, State.eng, State.modPort_port]
  show ((State.modEng _ e _).port e).eng = _
  rw [State.modEng, State.modPort_port]
  show { (State.eng _ e) with stall := none } = _
  rw [State.eng_setFifo]
  rfl

theorem State.unstalled_kept : RegsKept s (s.unstalled e g n) e [ENG_CYCLE.reg] := fun o ho =>
  (State.spend_kept _ e n o ho).trans ((State.modEng_kept _ e _ [] o List.not_mem_nil).trans
    (State.word_setFifo { s with free := s.free + 1 } e .rx g o))

theorem State.unstalled_other {q : PortNum} (hq : q ≠ e) : (s.unstalled e g n).port q = s.port q :=
  ((s.unstalled_only e g n).2.1 q hq).trans (State.setFifo_port_ne { s with free := s.free + 1 } _ _ _ _ hq)

end

end

end Sys2Proof.Machine

open Sys2Proof Sys2Proof.Machine

/-- Settles O16, by what a read finds at the head of the FIFO. -/
theorem readsTakeTheHeadWordOrFindNothing : Obligations.ReadsTakeTheHeadWordOrFindNothing := by
  unfold Obligations.ReadsTakeTheHeadWordOrFindNothing
  refine ⟨fun s p side rd ra w r hraised hs hh hv => ?word, fun s p side rd hraised hs hh hw => ?nothing,
    fun s e rd w r hraised hstall hrep hhalt hside hs hh hw hv => ?stalled⟩
  case word =>
    intro flags kept
    obtain ⟨honly, hport, heng⟩ := takeHead_kept hh
    obtain ⟨g, c, ht, hpopped, hregs⟩ := takeHead_popped (d := .rx) hh
    have hbits : ∀ j, (s.takeHead p .rx w).eswBit p j = s.eswBit p j := fun j => by rw [State.eswBit, heng]; rfl
    refine ⟨fun hon hside => ?_, fun hr hside => ?_⟩
    · have hread := rxDataRead_word hside hs hh hv
      refine ⟨by rw [portRead_rxData, hread], s.takeHead p .rx w, exec_to rfl ((if_pos hon).trans (by rw [hread])) ?_ ?_, hpopped, ⟨honly, hport⟩, heng,
        fun o ho => hregs o (ne_of_not_in ho _ (List.mem_singleton.2 rfl))⟩
      · exact (congrArg State.raised ht).trans hraised
      · rw [ht]
        rfl
    · have hpop := engPop_word hside hs hh hv
      refine ⟨?_, fun ha h4 => ?_⟩
      · obtain ⟨k, l, hx, hp, ho, hport', hk, hctl⟩ := answers_pop hr hh (congrFun (engRow_exec (i := .fpop p rd) rfl) s)
          (engDo_fpop hpop) (popEnd_cases w) ((EngSide.refl _ p).setReg rd w.data |>.popFlags w)
        obtain ⟨hdata, hbits'⟩ := popFlags_mem ((s.takeHead p .rx w).setReg p rd w.data) p w
        refine ⟨_, hx, hp, ⟨?_, fun r hne => ?_⟩, flagsTo_pop (fun j => State.after_eswBit ..) (fun j => ?_), ⟨ho, hport'⟩,
          State.after_pc .., hk, ?_⟩
        · rw [State.after_reg, popFlags_reg, State.reg_setReg]
        · rw [State.after_reg, popFlags_reg, State.reg_setReg_ne _ _ _ _ _ hne, State.reg, heng]
          rfl
        · rw [State.eswBit_setReg, hbits]
        · obtain ⟨hcode, hlen, hrep, hwait, hstall⟩ := hctl
          refine ⟨hcode, ?_, ?_, hlen, hrep, hwait, hstall⟩
          · rw [State.after_data, hdata, ← heng]
            simp [State.setReg, State.eng]
          · rw [State.after_bits, hbits', ← heng]
            simp [State.setReg, State.eng]
      · obtain ⟨k, l, hx, hp, ho, hport', hk, hctl⟩ := answers_pop hr hh (congrFun (engRow_exec (i := .fpopm p ra) rfl) s)
          (engDo_fpopm ha h4 hpop) (popEnd_cases w) (((State.storeAt_data_engSide ..).bump ra true 4).popFlags w)
        have hreg : ∀ r, (s.takeHead p .rx w).reg p r = s.reg p r := fun r => by rw [State.reg, heng]; rfl
        refine ⟨_, hx, hp, ⟨?_, fun r hne => ?_⟩, dataTo_putBytes ?_, flagsTo_pop (fun j => State.after_eswBit ..) (fun j => ?_),
          ⟨ho, hport'⟩, State.after_pc .., hk, hctl⟩
        · rw [State.after_reg, popFlags_reg, State.reg_bump, State.reg_storeAt_data, hreg]
          rfl
        · rw [State.after_reg, popFlags_reg, State.reg_bump_ne _ _ _ _ _ _ hne, State.reg_storeAt_data, hreg]
        · rw [State.after_data, (popFlags_mem _ _ _).1, State.bump_data, State.storeAt_data_data, heng]
          rfl
        · rw [State.eswBit_bump, State.eswBit_storeAt_data, hbits]
  case nothing =>
    have hunder : (s.fset p .rx RX_STAT.UNDER 1).pget p RX_STAT.UNDER = 1 := s.pget_pset p RX_STAT.UNDER 1 (by decide)
    have hfset := s.pset_kept p RX_STAT.UNDER 1
    obtain ⟨hstate, hothers, hport⟩ := s.pset_only p RX_STAT.UNDER 1
    refine ⟨fun hon hside => ?_, fun hr hside => ?_⟩
    · have hread := rxDataRead_nothing hside hs hh hw
      refine ⟨by rw [portRead_rxData, hread], s.fset p .rx RX_STAT.UNDER 1, exec_to rfl ((if_pos hon).trans (by rw [hread])) hraised rfl,
        hunder, ⟨hstate, hothers⟩, ?_, hfset⟩
      exact hport.trans (congrArg (fun x => { s.port p with regs := ((s.pset p RX_STAT.UNDER 1).port p).regs, eng := x })
        (s.eng_pset p RX_STAT.UNDER 1))
    · have hd := engDo_fpop_nothing (rd := rd) (engPop_nothing hside hs hh hw)
      have hnone := popFlags_nothing ((s.fset p .rx RX_STAT.UNDER 1).setReg p rd 0) p
      set u := ((s.fset p .rx RX_STAT.UNDER 1).setReg p rd 0).popFlags p none
      have hword : ∀ o, (u.port p).word o = ((s.fset p .rx RX_STAT.UNDER 1).port p).word o := fun o =>
        (hnone.word o).trans (((EngSide.refl _ p).setReg rd 0).word o)
      have hhalt : u.pget p ENG_CTL.HALT = 0 := by
        rw [State.pget, Port.get_word, hword]
        exact (congrArg (wget · _ _) (hfset ENG_CTL.HALT.off (by decide))).trans hr.2.2.2.2
      obtain ⟨k, l, hx⟩ := exec_endRep (i := .fpop p rd) hr rfl hd hhalt hnone.raised hnone.pending
      refine ⟨_, hx, ⟨?_, fun r hne => ?_⟩, ?_, ?_, ?_, State.after_pc .., fun o ho => ?_⟩
      · rw [State.after_reg, hnone.reg, State.reg_setReg]
      · rw [State.after_reg, hnone.reg, State.reg_setReg_ne _ _ _ _ _ hne]
        exact congrArg (fun x : Engine => x.g[r]) (s.eng_pset p RX_STAT.UNDER 1)
      · rw [State.after_eswBit, hnone.zero]
      · rw [State.pget, Port.get_word, State.after_word _ _ _ _ _ _ (by decide), hword]
        exact hunder
      · rw [State.after_fifo]
        obtain ⟨x, hux⟩ := hnone.port
        rw [State.fifo, hux]
        show ((s.fset p .rx RX_STAT.UNDER 1).setReg p rd 0).fifo p .rx = _
        rw [State.setReg, State.fifo, State.modEng, State.modPort_port]
        exact State.fifo_pset s p .rx RX_STAT.UNDER 1
      · simp only [List.mem_cons, not_or] at ho
        rw [State.after_word _ _ _ _ _ _ (by simpa using ho.2), hword]
        exact hfset o (fun h => ho.1 (List.mem_singleton.1 h))
  case stalled =>
    obtain ⟨g, l, hmove, hsound, hhead, hpkt, hrow⟩ := flueMove_head hs hh hw
    obtain ⟨n, hrelease⟩ := stallRelease_fpop hstall hmove
    set u := s.unstalled e g n with hu
    have hfifo := s.unstalled_fifo e g n
    have heng := s.unstalled_eng e g n
    have hkept := s.unstalled_kept e g n
    have hside' : u.sideOn e .rx .engine = true := by
      rw [← hside, State.sideOn, State.sideOn, State.fget, State.fget, State.pget, State.pget, Port.get_word, Port.get_word,
        hkept _ (by decide)]
    have hhead' : (u.fifo e .rx).head = s.windowWord e .rx w :: l := (congrArg Fifo.head hfifo).trans hhead
    obtain ⟨hwpkt, heop, hcin⟩ := s.windowWord_tags e .rx w
    have hd := engDo_fpop (rd := rd) (engPop_word hside' (hfifo ▸ hsound) hhead' (by rw [hfifo, hpkt, hwpkt]; exact hv))
    have hu0 : u.raised = [] ∧ u.pending = s.pending := ⟨hraised, rfl⟩
    obtain ⟨g', c, htake, hpopped, hregs⟩ := takeHead_popped (d := .rx) hhead'
    obtain ⟨-, hport, htakeng⟩ := takeHead_kept hhead'
    set v := ((u.takeHead e .rx (s.windowWord e .rx w)).setReg e rd (s.windowWord e .rx w).data).popFlags e (some (s.windowWord e .rx w))
    have hv : EngSide (u.takeHead e .rx (s.windowWord e .rx w)) v e := ((EngSide.refl _ e).setReg rd _).popFlags _
    obtain ⟨hvstate, hvother, x, hvport, hvx, -, -, -, -, hvstall⟩ := hv.port
    have hreg : ∀ r, u.reg e r = s.reg e r := fun r => by rw [State.reg, heng]; rfl
    have hbit : ∀ j, u.eswBit e j = s.eswBit e j := fun j => by rw [State.eswBit, heng]; rfl
    have hhaltv : v.pget e ENG_CTL.HALT = 0 := by
      rw [State.pget, Port.get_word, hv.word, hregs _ (by decide), hkept _ (by decide)]
      exact hhalt
    obtain ⟨k, l, hrun⟩ : ∃ k l, s.stallRelease e = v.after e k l (u.pc e + 4) :=
      ⟨_, _, hrelease.trans ((congrArg (State.haltCheck · e) (perform_end (by rw [heng]; exact hrep) hd (popEnd_cases _))).trans
        (State.after_halt hhaltv))⟩
    refine ⟨_, exec_to rfl hrun ?_ ?_, ⟨?_, fun r hne => ?_⟩, ?_, ?_, ?_, ?_, fun q hq => ?_⟩
    · rw [State.after_raised, hvstate, htake]
      exact hraised
    · rw [State.after_pending, hvstate, htake]
      rfl
    · rw [State.after_reg, popFlags_reg, State.reg_setReg]
    · rw [State.after_reg, popFlags_reg, State.reg_setReg_ne _ _ _ _ _ hne, State.reg, htakeng]
      exact hreg r
    · rw [State.after_eng]
      refine (congrArg Engine.stall hvx.symm).trans (hvstall.trans ?_)
      rw [htakeng, heng]
    · rw [State.after_pc, State.pc, hkept _ (by decide)]
      rfl
    · rw [← hcin, ← heop]
      refine flagsTo_pop (fun j => State.after_eswBit ..) fun j => ?_
      rw [State.eswBit_setReg, State.eswBit, htakeng]
      exact hbit j
    · rw [State.after_fifo]
      have hvfifo : v.fifo e .rx = (u.takeHead e .rx (s.windowWord e .rx w)).fifo e .rx := by rw [State.fifo, hvport]; rfl
      rw [hvfifo, hpopped.1, hfifo, hrow]
      rfl
    · rw [State.after_port_ne _ _ _ _ _ _ hq, hvother q hq, htake, State.setPort_port_ne _ _ _ _ hq]
      exact s.unstalled_other e g n hq
end

section
/-! PROOF. The queries: what each reports, and that it changes nothing (R346, R349-R351, R355, R366, R383, R385, R387, R389,
R392). -/

namespace Sys2Proof.Machine

section
variable {s : State} {c : Cmd}

theorem bodyGroupQuery_reports (hg : byteAt c.payload 0 ≤ 3) : bodyGroupQuery c s =
    s.respond c St.OK (wordsBytes [Cells.word .coord s.coord.regs (GRPCFG.reg + 16 * byteAt c.payload 0),
      Cells.word .coord s.coord.regs (GRPTIME.reg + 16 * byteAt c.payload 0), s.grpStat (byteAt c.payload 0)]) :=
  if_neg (Nat.not_lt.2 hg)

/-- What KEY_INFO reports of a slot: its type, its usage and the ring it belongs to; zeros for an empty one (R387). -/
def keyReport (s : State) (n : Nat) : List Byte :=
  match s.keyAt n with
  | some k => leBytes 1 k.type ++ leBytes 2 k.usage ++ [if n ≤ 2 then 2 else 1]
  | none => [0, 0, 0, 0]

theorem bodyKeyInfo_reports (hn : byteAt c.payload 0 ≤ 63) :
    bodyKeyInfo c s = s.respond c St.OK (keyReport s (byteAt c.payload 0)) := by
  refine (if_neg (Nat.not_lt.2 hn)).trans ?_
  unfold keyReport
  cases s.keyAt (byteAt c.payload 0) <;> rfl

/-- The state with the counters of a port cleared where the command tells so (R392). -/
def State.countersCleared (s : State) (p : PortNum) (told : Nat) : State :=
  if told = 1 then
    s.modSvc p fun v => { v with viol := List.replicate 8 0, holds := 0, overrides := 0, faults := 0, untracked := 0 }
  else s

theorem opened_countersCleared (p : PortNum) (told : Nat) :
    (s.opened c).countersCleared p told = (s.countersCleared p told).opened c := by
  unfold State.countersCleared
  split <;> rfl

theorem countersCleared_rest (s : State) (p : PortNum) (told : Nat) :
    (s.countersCleared p told).hosts = s.hosts ∧ (s.countersCleared p told).raised = s.raised ∧
      (s.countersCleared p told).pending = s.pending := by
  unfold State.countersCleared
  split <;> exact ⟨rfl, rfl, rfl⟩

end

end Sys2Proof.Machine

open Sys2Proof Sys2Proof.Machine

/-- Settles O32, by the answer of each query's row. -/
theorem queriesReportAndChangeNothing : Obligations.QueriesReportAndChangeNothing := by
  unfold Obligations.QueriesReportAndChangeNothing
  refine ⟨fun s h => ?device, fun s h => ?port⟩
  case device =>
    refine ⟨?info, ?ident, ?own, ?time, ?gpio, ?power, ?image, ?cal, fun hg => ?group, fun hn => ?key, fun hn => ?noKey⟩
    case info => exact answered_of rfl (fun _ => rfl) rfl rfl rfl
    case ident => exact answered_of rfl (fun _ => rfl) rfl rfl rfl
    case own => exact answered_of rfl (fun _ => rfl) rfl rfl rfl
    case time => exact answered_of rfl (fun _ => rfl) rfl rfl rfl
    case gpio => exact answered_of rfl (fun _ => rfl) rfl rfl rfl
    case power => exact answered_of rfl (fun _ => rfl) rfl rfl rfl
    case image => exact answered_of rfl (fun _ => rfl) rfl rfl rfl
    case cal => exact answered_of rfl (fun _ => rfl) rfl rfl rfl
    case group => exact answered_of rfl (fun _ => bodyGroupQuery_reports hg) rfl rfl rfl
    case key => exact answered_of rfl (fun _ => bodyKeyInfo_reports hn) rfl rfl rfl
    case noKey => exact answered_of rfl (fun _ => if_pos hn) rfl rfl rfl
  case port =>
    refine ⟨?inventory, ?status, fun hn => ?counters, fun hn => ?noCounters⟩
    case inventory => exact answered_of rfl (fun _ => rfl) rfl rfl rfl
    case status => exact answered_of rfl (fun _ => rfl) rfl rfl rfl
    case counters =>
      obtain ⟨hhosts, hraised, hpending⟩ := countersCleared_rest s (toPort h.target.toNat) (byteAt h.payload 0)
      exact answered_of rfl (fun _ => (if_neg (Nat.not_lt.2 hn)).trans
        (congrArg (State.respond · _ _ _) (opened_countersCleared ..))) hhosts hraised hpending
    case noCounters => exact answered_of rfl (fun _ => if_pos hn) rfl rfl rfl
end

section
/-! PROOF. The tag commands: what each is judged by, and the request that reaches the engine's mailbox (R362-R365, R371,
R372, R375, R449, R451, R598). -/

namespace Sys2Proof.Machine

section
variable {s : State} {c : Cmd}

/-! ## The request (R449, R451) -/

theorem shipCmd_fits (h : c.payload.length ≤ s.mboxLen (toPort c.target.toNat)) :
    s.shipCmd c = (s.asked (toPort c.target.toNat) c c.payload).begin c (.shipped (toPort c.target.toNat)) :=
  if_neg (Nat.not_lt.2 h)

theorem shipCmd_tooLong (h : s.mboxLen (toPort c.target.toNat) < c.payload.length) : s.shipCmd c = s.respond c St.BAD_LENGTH :=
  if_pos h

theorem asked_opened (s : State) (d : Cmd) (p : PortNum) (pl : List Byte) : (s.opened d).asked p c pl = (s.asked p c pl).opened d := by
  unfold State.asked State.putMbox State.ringEngine
  dsimp only
  rw [State.opened_modEng, State.opened_modPort, State.opened_pset]
  rfl

section
variable (u : State) (p : PortNum) (l : List Word)

/-- The words of a port's registers after a ring: its four message words, and the others as they were (R449). -/
theorem ringEngine_word {o : Nat} (ho : o ≠ DBE_RING.reg) : ((u.ringEngine p l).port p).word o =
    if DBE_MSG.reg ≤ o ∧ (o - DBE_MSG.reg) % 4 = 0 ∧ (o - DBE_MSG.reg) / 4 < 4 then l.getD ((o - DBE_MSG.reg) / 4) 0
    else (u.port p).word o := by
  refine (State.word_pset_ne _ p DBE_RING.RING 1 o ho).trans ?_
  rw [State.modPort_port, Port.word_putWords]

theorem ringEngine_rings : (u.ringEngine p l).pget p DBE_RING.RING = 1 := State.pget_pset _ p DBE_RING.RING 1 (by decide)

theorem ringEngine_kept : RegsKept u (u.ringEngine p l) p
    [DBE_RING.reg, DBE_MSG.reg, DBE_MSG.reg + 4, DBE_MSG.reg + 8, DBE_MSG.reg + 12] := by
  intro o ho
  simp only [List.mem_cons, List.not_mem_nil, or_false, not_or] at ho
  obtain ⟨hring, h0, h1, h2, h3⟩ := ho
  rw [ringEngine_word u p l hring, if_neg (by omega)]

theorem ringEngine_only : OnlyPort u (u.ringEngine p l) p ∧
    (u.ringEngine p l).port p = { u.port p with regs := ((u.ringEngine p l).port p).regs } := by
  obtain ⟨r, hr⟩ := Port.putWords_regs l DBE_MSG.reg 4 (u.port p)
  refine ⟨⟨rfl, fun q hq => ?_⟩, ?_⟩
  · unfold State.ringEngine
    rw [State.pset_other _ _ _ _ _ hq, State.modPort_port_ne _ _ _ _ hq]
  · unfold State.ringEngine
    rw [State.pset, State.modPort_port, State.modPort_port, hr]
    rfl

end

theorem putMbox_fits {p : PortNum} {pl : List Byte} (h : pl.length ≤ s.mboxLen p) :
    s.putMbox p pl = s.modEng p fun e => { e with data := e.data.putBytes (s.mboxOfs p) pl } := by
  unfold State.putMbox
  rw [List.take_of_length_le h]

/-! ## The rows (R362-R365, R371, R372, R375) -/

/-- A row that any state judges alike and whose segments leave nothing. -/
structure PlainRow (o : Op) : Prop where
  gate : ∀ c t, o.gate c t = false
  segment : ∀ c n t, o.onSegment c n t = t

theorem plainRow_port {n b : Nat} {f : Nat → Nat → Bool} {body : Cmd → State → State} :
    PlainRow { opcode := n, targets := portTargets, served := true, bound := b, lens := f, body := body } :=
  ⟨fun _ _ => rfl, fun _ _ _ => rfl⟩

theorem bodyTransceive_ships (h0 : byteAt c.payload 0 ≤ 15) (h1 : byteAt c.payload 1 ≤ 7) (h2 : byteAt c.payload 2 ≤ 7)
    (h4 : leAt c.payload 4 4 < 2 ^ 28) (hf : s.fieldState c.port ≠ 0) : bodyTransceive c s = s.shipCmd c :=
  if_neg (by simp only [FWT.WAIT]; omega)

theorem bodyAActivate_ships (h0 : byteAt c.payload 0 ≤ 1) (h1 : byteAt c.payload 1 ≤ 1)
    (h2 : byteAt c.payload 2 ≤ 14 ∨ byteAt c.payload 2 = 0xFF) (h3 : byteAt c.payload 3 ≤ 3) (h4 : byteAt c.payload 4 ≤ 3) :
    bodyAActivate c s = s.shipCmd c :=
  if_neg (by simp only [cidOk, Bool.or_eq_true, decide_eq_true_iff, Bool.not_eq_true', Bool.or_eq_false_iff, decide_eq_false_iff_not, beq_eq_false_iff_ne]; omega)

theorem bodyBActivate_ships (h1 : byteAt c.payload 1 ∈ [1, 2, 4, 8, 16]) (h3 : byteAt c.payload 3 ≤ 3) (h4 : byteAt c.payload 4 ≤ 3) :
    bodyBActivate c s = s.shipCmd c := by
  have hmem : List.contains [1, 2, 4, 8, 16] (byteAt c.payload 1) = true := List.contains_iff_mem.2 h1
  refine if_neg ?_
  simp only [hmem, Bool.or_eq_true, decide_eq_true_iff, Bool.not_true, Bool.false_eq_true, false_or]
  omega

theorem not_isNone {α : Type} {x : Option α} (h : x.isSome = true) : ¬x.isNone = true := fun hn => by
  rw [Option.isNone_iff_eq_none.1 hn] at h
  exact Bool.noConfusion h

theorem shipPicc_ships (h : (s.port c.port).svc.picc.isSome = true) : s.shipPicc c = s.shipCmd c :=
  if_neg (not_isNone h)

theorem shipPicc_untagged (h : (s.port c.port).svc.picc = none) : s.shipPicc c = s.respond c St.NO_TAG :=
  if_pos (by rw [h]; rfl)

theorem shipSession_ships {ok : Bool} (hok : ok = true) (h : (s.port c.port).svc.session.isSome = true) :
    s.shipSession c ok = s.shipCmd c := by
  subst hok
  exact (if_neg Bool.false_ne_true).trans (if_neg (not_isNone h))

theorem shipSession_untagged {ok : Bool} (hok : ok = true) (h : (s.port c.port).svc.session = none) :
    s.shipSession c ok = s.respond c St.NO_TAG := by
  subst hok
  exact (if_neg Bool.false_ne_true).trans (if_pos (by rw [h]; rfl))

theorem bodyAlSelect_judged (h : byteAt c.payload 8 &&& 0xFD = 0) : bodyAlSelect c s =
    (if (s.port c.port).svc.session.any (fun x => x.uid != c.payload.take 8) then
      s.modSvc c.port fun v => { v with session := none } else s).shipCmd c :=
  if_neg (not_not.2 h)

theorem bodyAlSelect_same (h : byteAt c.payload 8 &&& 0xFD = 0)
    (hx : ∀ x ∈ (s.port c.port).svc.session, x.uid = c.payload.take 8) : bodyAlSelect c s = s.shipCmd c := by
  rw [bodyAlSelect_judged h, if_neg]
  rw [Bool.not_eq_true, Option.any_eq_false]
  exact fun x hm => by simp [hx x hm]

theorem bodyAlSelect_other {x : Session} (h : byteAt c.payload 8 &&& 0xFD = 0) (hx : (s.port c.port).svc.session = some x)
    (hne : x.uid ≠ c.payload.take 8) :
    bodyAlSelect c s = (s.modSvc c.port fun v => { v with session := none }).shipCmd c := by
  rw [bodyAlSelect_judged h, hx, if_pos]
  simpa using hne

theorem bodyAlUnlock_ships (h1 : byteAt c.payload 1 ≤ 63) (h : (s.port c.port).svc.session.isSome = true)
    (hk : (s.keyFor (byteAt c.payload 1) [1] 1).isSome = true) : bodyAlUnlock c s = s.shipCmd c :=
  (if_neg (Nat.not_lt.2 h1)).trans ((if_neg (not_isNone h)).trans (if_neg (not_isNone hk)))

theorem bodyAlUnlock_untagged (h1 : byteAt c.payload 1 ≤ 63) (h : (s.port c.port).svc.session = none) :
    bodyAlUnlock c s = s.respond c St.NO_TAG :=
  (if_neg (Nat.not_lt.2 h1)).trans (if_pos (by rw [h]; rfl))

/-- An APDU names CHAIN or not. -/
theorem bodyApdu_judged (h : byteAt c.payload 0 ≤ 1) : bodyApdu c s = s.shipPicc c := if_neg (Nat.not_lt.2 h)

section
variable {i : Instr} {o : Op} {h : HostCmd}

/-- A row whose fields and preconditions hold ships its request, and nothing else judges it. -/
theorem shipReady_row (e : hostOp i = some (o, h)) (hr : ShipReady s (toPort h.target.toNat) i) :
    PlainRow o ∧ o.body (o.cmd h) s = s.shipCmd (o.cmd h) := by
  cases i
  case transceive => cases e; obtain ⟨h0, h1, h2, h4, hf⟩ := hr; exact ⟨plainRow_port, bodyTransceive_ships h0 h1 h2 h4 hf⟩
  case aActivate => cases e; obtain ⟨h0, h1, h2, h3, h4⟩ := hr; exact ⟨plainRow_port, bodyAActivate_ships h0 h1 h2 h3 h4⟩
  case bActivate => cases e; obtain ⟨h1, h3, h4⟩ := hr; exact ⟨plainRow_port, bodyBActivate_ships h1 h3 h4⟩
  case apdu => cases e; obtain ⟨h0, hp⟩ := hr; exact ⟨plainRow_port, (bodyApdu_judged h0).trans (shipPicc_ships hp)⟩
  case deselect => cases e; exact ⟨plainRow_port, shipPicc_ships hr⟩
  case vhbrParams => cases e; exact ⟨plainRow_port, shipPicc_ships hr⟩
  case vCmd => cases e; exact ⟨plainRow_port, if_neg hr⟩
  case alScan => cases e; obtain ⟨h1, h32⟩ := hr; exact ⟨plainRow_port, if_neg (by show ¬(byteAt h.payload 0 < 1 ∨ 32 < byteAt h.payload 0); omega)⟩
  case alSelect => cases e; obtain ⟨h8, hx⟩ := hr; exact ⟨plainRow_port, bodyAlSelect_same h8 hx⟩
  case alHalt => cases e; obtain ⟨h0, hx⟩ := hr; exact ⟨plainRow_port, shipSession_ships (decide_eq_true h0) hx⟩
  case alRead =>
    cases e
    obtain ⟨h1, h4, hx⟩ := hr
    exact ⟨plainRow_port, shipSession_ships (Bool.and_eq_true_iff.2 ⟨decide_eq_true h1, decide_eq_true h4⟩) hx⟩
  case alWrite => cases e; exact ⟨plainRow_port, shipSession_ships rfl hr⟩
  case alLockBlock => cases e; exact ⟨plainRow_port, shipSession_ships rfl hr⟩
  case alAreaInfo => cases e; exact ⟨plainRow_port, shipSession_ships rfl hr⟩
  case alAuthPwd => cases e; exact ⟨plainRow_port, shipSession_ships rfl hr⟩
  case alSetPwd => cases e; exact ⟨plainRow_port, shipSession_ships rfl hr⟩
  case alReadCnt => cases e; exact ⟨plainRow_port, shipSession_ships rfl hr⟩
  case alIncCnt => cases e; exact ⟨plainRow_port, shipSession_ships rfl hr⟩
  case alUnlock => cases e; obtain ⟨h1, hx, hk⟩ := hr; exact ⟨plainRow_port, bodyAlUnlock_ships h1 hx hk⟩
  case osGetId => cases e; exact ⟨plainRow_port, rfl⟩
  case osReadPage => cases e; exact ⟨plainRow_port, rfl⟩
  case osWritePage => cases e; exact ⟨plainRow_port, rfl⟩
  case osLogin => cases e; exact ⟨plainRow_port, rfl⟩
  case osLogout => cases e; exact ⟨plainRow_port, rfl⟩
  case osSetPassword => cases e; exact ⟨plainRow_port, rfl⟩
  case osLockPage => cases e; exact ⟨plainRow_port, rfl⟩
  all_goals exact False.elim hr

/-- A row without its session or PICC ends with NO_TAG. -/
theorem needsTag_row (e : hostOp i = some (o, h)) (hr : NeedsTag s (toPort h.target.toNat) i) :
    PlainRow o ∧ o.body (o.cmd h) s = s.respond (o.cmd h) St.NO_TAG := by
  cases i
  case apdu => cases e; obtain ⟨h0, hp⟩ := hr; exact ⟨plainRow_port, (bodyApdu_judged h0).trans (shipPicc_untagged hp)⟩
  case deselect => cases e; exact ⟨plainRow_port, shipPicc_untagged hr⟩
  case vhbrParams => cases e; exact ⟨plainRow_port, shipPicc_untagged hr⟩
  case alHalt => cases e; obtain ⟨h0, hx⟩ := hr; exact ⟨plainRow_port, shipSession_untagged (decide_eq_true h0) hx⟩
  case alRead =>
    cases e
    obtain ⟨h1, h4, hx⟩ := hr
    exact ⟨plainRow_port, shipSession_untagged (Bool.and_eq_true_iff.2 ⟨decide_eq_true h1, decide_eq_true h4⟩) hx⟩
  case alWrite => cases e; exact ⟨plainRow_port, shipSession_untagged rfl hr⟩
  case alLockBlock => cases e; exact ⟨plainRow_port, shipSession_untagged rfl hr⟩
  case alAreaInfo => cases e; exact ⟨plainRow_port, shipSession_untagged rfl hr⟩
  case alAuthPwd => cases e; exact ⟨plainRow_port, shipSession_untagged rfl hr⟩
  case alSetPwd => cases e; exact ⟨plainRow_port, shipSession_untagged rfl hr⟩
  case alReadCnt => cases e; exact ⟨plainRow_port, shipSession_untagged rfl hr⟩
  case alIncCnt => cases e; exact ⟨plainRow_port, shipSession_untagged rfl hr⟩
  case alUnlock => cases e; obtain ⟨h1, hx⟩ := hr; exact ⟨plainRow_port, bodyAlUnlock_untagged h1 hx⟩
  all_goals exact False.elim hr

end

end

end Sys2Proof.Machine

open Sys2Proof Sys2Proof.Machine

/-- Settles O30, by the row that ships a request and the words of the request. -/
theorem requestsAreShippedToTheEngineOfTheirPort : Obligations.RequestsAreShippedToTheEngineOfTheirPort := by
  unfold Obligations.RequestsAreShippedToTheEngineOfTheirPort
  refine ⟨fun i s o h e => ⟨fun hr hn => ?ships, fun hr hn => ?tooLong, fun hr => ?untagged, fun hn => ?request⟩,
    fun s h x h8 hx hne hn => ?selects⟩
  case ships =>
    obtain ⟨plain, hbody⟩ := shipReady_row (s := s.opened (o.cmd h)) e hr
    refine waiting_of e (hbody.trans ((shipCmd_fits hn).trans ?_)) rfl rfl ((plain.gate _ _).trans (plain.gate _ _).symm)
      fun c t => plain.segment c 0 t
    rw [asked_opened]
    rfl
  case tooLong =>
    obtain ⟨plain, hbody⟩ := shipReady_row (s := s.opened (o.cmd h)) e hr
    exact answered_of e (fun _ => hbody.trans (shipCmd_tooLong hn)) rfl rfl rfl ((plain.gate _ _).trans (plain.gate _ _).symm)
      fun c t => plain.segment c 0 t
  case untagged =>
    obtain ⟨plain, hbody⟩ := needsTag_row (s := s.opened (o.cmd h)) e hr
    exact answered_of e (fun _ => hbody) rfl rfl rfl ((plain.gate _ _).trans (plain.gate _ _).symm) fun c t => plain.segment c 0 t
  case selects =>
    refine waiting_of rfl ((bodyAlSelect_other (s := s.opened (opAlSelect.cmd h)) (c := opAlSelect.cmd h) h8 hx hne).trans ?_) rfl rfl
    rw [State.opened_modSvc]
    refine (shipCmd_fits hn).trans ?_
    rw [asked_opened]
    rfl
  case request =>
    intro t
    let p := toPort h.target.toNat
    let l : List Word := [BitVec.ofNat 32 ((o.cmd h).opcode.toNat + h.payload.length * 65536),
      BitVec.ofNat 32 (1 + h.hp.val * 256 + h.seq.toNat * 65536)]
    let u := s.modEng p fun e => { e with data := e.data.putBytes (s.mboxOfs p) h.payload }
    have ht : t = u.ringEngine p l := congrArg (fun x : State => x.ringEngine p l) (putMbox_fits hn)
    obtain ⟨⟨hstate, hothers⟩, hport⟩ := ringEngine_only u p l
    have heng : t.eng p = { s.eng p with data := (s.eng p).data.putBytes (s.mboxOfs p) h.payload } := by
      rw [ht, State.eng, hport]
      exact congrArg Port.eng (State.modPort_port s p _)
    refine ⟨by rw [ht]; exact ringEngine_rings u p l, ?_, ?_, ?_, ?_, ?_, ?_, fun q hq => ?_, ?_, fun o ho => ?_⟩
    · rw [ht, ringEngine_word u p l (by decide)]
      rfl
    · rw [ht, ringEngine_word u p l (by decide)]
      rfl
    · rw [ht, ringEngine_word u p l (by decide)]
      rfl
    · rw [ht, ringEngine_word u p l (by decide)]
      rfl
    · rw [heng]
      exact Mem.bytes_putBytes ..
    · rw [ht, hstate]
      rfl
    · rw [ht, hothers q hq]
      exact State.modPort_port_ne _ _ _ _ hq
    · rw [ht]
      exact hport.trans (congrArg (fun x : Port => { x with regs := ((u.ringEngine p l).port p).regs }) (State.modPort_port s p _))
    · rw [ht, ringEngine_kept u p l o ho]
      exact State.modEng_kept s p _ [] o List.not_mem_nil
end

section
/-! PROOF. The messages of the engines and their timeouts, and Kiln's verdict on an engine image (R356, R391, R449, R451-R456). -/

namespace Sys2Proof.Machine

section
variable {s : State} {p : PortNum}

/-! ## Messages (R449, R451) -/

theorem rung_iff {k : Nat} : s.rung p k = true ↔ MessageWaits s p k := by
  rw [State.rung, MessageWaits, Bool.and_eq_true, beq_iff_eq, beq_iff_eq]

theorem rung_silent {k : Nat} (h : s.pget p DBH_RING.RING = 0) : s.rung p k = false := by
  rw [State.rung, h]
  rfl

theorem exec_rungSilent {i : Instr} {k : Nat} {f : State → State} (e : exec i = run fun s => if !s.rung p k then s else f s)
    (hraised : s.raised = []) (h : s.pget p DBH_RING.RING = 0) : exec i s = .next s :=
  exec_to e (if_pos (by rw [rung_silent h]; rfl)) hraised rfl

/-! ## The ready message and its timeout (R356, R456) -/

/-- A port that has opened, ungrouped, in a powered domain: neither the schedule nor the power of its domain moves. -/
structure Settled (s : State) (p : PortNum) : Prop where
  opened : (s.port p).svc.svc = .opened
  alone : Ungrouped s p
  on : DomainOn s p

theorem Settled.powerSync (h : Settled s p) : s.powerSync p = s := powerSync_held s p h.on (holds_opened s p h.opened)

theorem Settled.schedule (h : Settled s p) : (s.schedChange p).powerSync p = s := by
  rw [schedChange_none s p h.alone, h.powerSync]

theorem Settled.congr {t : State} (h : Settled s p) (hports : t.ports = s.ports) (hcoord : t.coord = s.coord) : Settled t p := by
  have hport : ∀ q, t.port q = s.port q := fun q => congrArg (fun v : Vector Port 8 => v.get q) hports
  refine ⟨by rw [hport]; exact h.opened, ?_, h.on.congr (by rw [hport]) (hport _)⟩
  have halone := h.alone
  unfold Ungrouped State.groupOf State.coordGet at halone ⊢
  rw [hcoord]
  exact halone

theorem ackMsg_svc (s : State) (p : PortNum) : ((s.ackMsg p).port p).svc = (s.port p).svc := by
  rw [State.ackMsg, State.pset, State.modPort_port]
  rfl

/-- The state with the engine's message taken and its engine ready, the port opened or its service as it was. -/
def State.reported (s : State) (p : PortNum) (opening : Bool) : State :=
  (s.ackMsg p).modSvc p fun v => { v with ready := true, svc := if opening then .opened else v.svc }

theorem reported_settled {b : Bool} (hg : Ungrouped s p) (hd : DomainOn s p) (hb : b = true ∨ (s.port p).svc.svc = .opened) :
    Settled (s.reported p b) p := by
  refine ⟨?_, hg, hd.congr ?_ ?_⟩
  · rw [State.reported, State.modSvc_port, ackMsg_svc]
    rcases hb with rfl | hb
    · rfl
    · show (if b = true then _ else _) = _
      rw [hb, ite_self]
  · rw [State.reported, State.modSvc_port, ackMsg_svc]
  · rw [State.reported, State.modSvc_port_ne _ _ _ _ (sibling_ne p)]
    exact State.pset_other _ _ _ _ _ (sibling_ne p)

/-- The commands whose end opens the port: PORT_OPEN and ENGINE_RELOAD (R356, R456). -/
def opens (r : Running) : Bool := r.cmd.opcode == 0x0100 || r.cmd.opcode == 0x0A03

/-- What the ready message of an engine that was not ready does. -/
theorem engineReady_effect (hm : MessageWaits s p 0) (h8 : wget ((s.port p).word DBH_MSG.reg) 8 1 = 0)
    (hv : (s.port p).svc.ready = false) {b : Bool} (hb : (s.findJob (engineStartOf p)).any opens = b) :
    ∃ f, exec (.engineReady p) = run f ∧
      f s = (((s.reported p b).endJob (engineStartOf p) St.OK
        (if b then (s.reported p b).imageIds p else [])).schedChange p).powerSync p := by
  have hrung : ¬(!s.rung p 0) = true := by rw [rung_iff.2 hm]; decide
  have hstarts : (wget ((s.port p).word DBH_MSG.reg) 8 1 == 0 && !(s.port p).svc.ready) = true := by rw [h8, hv]; rfl
  refine ⟨_, rfl, (if_neg hrung).trans ((if_pos hstarts).trans ?_)⟩
  subst hb
  rfl

/-- A command's end leaves a settled port settled. -/
theorem Settled.endJob (h : Settled s p) (sel : Running → Bool) (st : Nat) (pl : List Byte) : Settled (s.endJob sel st pl) p := by
  unfold State.endJob
  split
  · exact h.congr rfl rfl
  · exact h

/-- The ready message to a port that it opens, or that was open. -/
theorem exec_engineReady (hraised : s.raised = []) (hm : MessageWaits s p 0) (h8 : wget ((s.port p).word DBH_MSG.reg) 8 1 = 0)
    (hv : (s.port p).svc.ready = false) (hg : Ungrouped s p) (hd : DomainOn s p) {b : Bool}
    (hb : (s.findJob (engineStartOf p)).any opens = b) (ho : b = true ∨ (s.port p).svc.svc = .opened) :
    (s.findJob (engineStartOf p) = none → exec (.engineReady p) s = .next (s.reported p b)) ∧
      ∀ r, s.findJob (engineStartOf p) = some r → exec (.engineReady p) s = .next ((s.reported p b).ended (engineStartOf p) r St.OK
        (if b then (s.reported p b).imageIds p else [])) := by
  obtain ⟨f, hexec, hf⟩ := engineReady_effect hm h8 hv hb
  exact exec_endJob hexec (hf.trans ((reported_settled hg hd ho).endJob _ _ _).schedule) hraised rfl rfl

/-- A message that nothing waits for is acknowledged only. -/
theorem exec_engineReady_spare (hraised : s.raised = []) (hm : MessageWaits s p 0)
    (h : wget ((s.port p).word DBH_MSG.reg) 8 1 = 1 ∨ (s.port p).svc.ready = true) :
    exec (.engineReady p) s = .next (s.pset p DBH_RING.RING 0) := by
  have hrung : ¬(!s.rung p 0) = true := by rw [rung_iff.2 hm]; decide
  have hspare : ¬(wget ((s.port p).word DBH_MSG.reg) 8 1 == 0 && !(s.port p).svc.ready) = true := by
    rw [Bool.and_eq_true, not_and_or]
    rcases h with h | h
    · exact .inl (by rw [h]; decide)
    · exact .inr (by rw [h]; decide)
  exact exec_to rfl ((if_neg hrung).trans (if_neg hspare)) hraised rfl

theorem openKept {q : Port} (h : q.svc.svc = .opened) :
    { q with svc := { q.svc with svc := if q.svc.svc == .reloading then .opened else q.svc.svc } } = q := by
  have hsame : (if q.svc.svc == .reloading then .opened else q.svc.svc) = q.svc.svc := by rw [h]; rfl
  rw [hsame]

/-- An engine of an open port that does not report is halted. -/
theorem exec_engineStartTimeout (hraised : s.raised = []) (hv : (s.port p).svc.ready = false) (ho : (s.port p).svc.svc = .opened)
    (hd : DomainOn s p) :
    (s.findJob (engineStartOf p) = none → exec (.engineStartTimeout p) s = .next (s.engHalt p)) ∧
      ∀ r, s.findJob (engineStartOf p) = some r →
        exec (.engineStartTimeout p) s = .next ((s.engHalt p).ended (engineStartOf p) r St.INTERNAL_ERROR []) := by
  have hawaited : ¬((s.port p).svc.ready || !((s.port p).svc.svc == .opened || s.running.any fun r => r.job == .engineStart p)) = true := by
    rw [hv, ho]
    simp
  let u := (s.engHalt p).endJob (engineStartOf p) St.INTERNAL_ERROR
  have hport : u.port p = (s.engHalt p).port p := endJob_port ..
  have hsvc : ((s.engHalt p).port p).svc = (s.port p).svc := by
    simp only [State.engHalt, State.setEngState, State.modEng, State.pset, State.modPort_port]
    rfl
  have hopen : (u.port p).svc.svc = .opened := by rw [hport, hsvc, ho]
  have hkept : (u.modSvc p fun v => { v with svc := if v.svc == .reloading then .opened else v.svc }) = u := by
    exact State.modPort_self u p _ (openKept hopen)
  have hon : DomainOn u p := by
    refine hd.congr (by rw [hport, hsvc]) ((endJob_port ..).trans ?_)
    simp [State.engHalt, State.setEngState, State.modEng, State.pset, sibling_ne p]
  refine exec_endJob rfl ((if_neg hawaited).trans ?_) hraised rfl rfl
  show State.powerSync (u.modSvc p _) p = u
  rw [hkept]
  exact powerSync_held u p hon (holds_opened u p hopen)

/-! ## Responses (R372, R451-R453) -/

/-- What the response to a shipped command does. -/
theorem engineResponse_effect {r : Running} (hm : MessageWaits s p 1) (hr : s.findJob (engineServes p) = some r)
    (hj : r.job = .shipped p) :
    ∃ f, exec (.engineResponse p) = run f ∧
      f s = ({ s.ackMsg p with running := dropFirst (shippedTo p) s.running } : State).engineResponds p r.cmd (s.engReply p) := by
  have hrung : ¬(!s.rung p 1) = true := by rw [rung_iff.2 hm]; decide
  refine ⟨_, rfl, (if_neg hrung).trans ?_⟩
  have hr' : (s.ackMsg p).findJob (fun r => r.job == .db p || r.job == .shipped p) = some r := hr
  show (match (s.ackMsg p).findJob (fun r => r.job == .db p || r.job == .shipped p) with
    | some r => _
    | none => _) = _
  rw [hr']
  refine if_neg ?_
  rw [hj]
  exact fun h => Job.noConfusion (eq_of_beq h)

theorem chunks_short {n : Nat} {l : List Byte} (h : l.length ≤ 4092) : chunks (n + 1) l = [l] := if_pos h

/-- The response of an engine whose image counts nothing, and which raises no suspicion. -/
theorem engineResponds_plain {t : State} {c : Cmd} {m : EngReply} (hc : (t.port p).svc.customer = true)
    (hs : suspectDue c m = false) (hl : m.payload.length ≤ 4092) :
    t.engineResponds p c m = (t.afterResponse c p m.status m.payload).respond c m.status m.payload := by
  show State.respondPkts (State.afterResponse (if suspectDue c m then State.suspect (if (t.port p).svc.customer then t else t.addCounters p) p _ _
    else if (t.port p).svc.customer then t else t.addCounters p) c p m.status m.payload) c m.status (chunks 17 m.payload) = _
  rw [hs, if_neg Bool.false_ne_true, hc, if_pos rfl, chunks_short hl]
  rfl

theorem secBits_none (t : State) (set clr : Nat) : t.secBits none set clr = t := rfl

theorem secBits_zero (t : State) (k : Option Key) : t.secBits k 0 0 = t := by
  unfold State.secBits
  cases k with
  | none => rfl
  | some k => exact if_pos ⟨rfl, rfl⟩

/-- A lookup whose home index is free finds nothing. -/
theorem ttModify_absent {t : State} {k : Key} (h : t.slotAt (homeOf k) = none) (f : Entry → Entry) : t.ttModify k f = t := by
  have hlook : t.ttLookup k = (.free (homeOf k), t) := by
    unfold State.ttLookup State.probeN
    rw [h]
  unfold State.ttModify
  rw [hlook]

theorem afterResponse_transceive {t : State} {c : Cmd} (h : c.opcode = 0x0200) (st : Nat) (pl : List Byte) :
    t.afterResponse c p st pl = t := by
  have hop : c.opcode.toNat = 0x0200 := by rw [h]; rfl
  have htag : t.tagOf c p = none := by simp [State.tagOf, hop]
  simp [State.afterResponse, hop, htag, secBits_none]

section
variable {t : State} {c : Cmd} {st : Nat} {pl : List Byte} (h : c.opcode = 0x0401)
include h

/-- AL_SELECT with OK opens the session of its tag (R372). -/
theorem afterResponse_selects (hok : st = St.OK) (hl : byteAt pl 0 ≠ 4) (hn : t.slotAt (homeOf (keyOf 3 8 (c.payload.take 8))) = none) :
    t.afterResponse c p st pl =
      t.modSvc p fun v => { v with session := some { uid := c.payload.take 8, info := (pl.drop 1).take 7 } } := by
  have hop : c.opcode.toNat = 0x0401 := by rw [h]; rfl
  have htag : t.tagOf c p = some (keyOf 3 8 (c.payload.take 8)) := by simp [State.tagOf, hop]
  simp [State.afterResponse, hop, htag, hok, hl, State.secBits, ttModify_absent hn]

theorem afterResponse_notSelected (hok : st ≠ St.OK) (hl : byteAt pl 0 ≠ 4) : t.afterResponse c p st pl = t := by
  have hop : c.opcode.toNat = 0x0401 := by rw [h]; rfl
  simp [State.afterResponse, hop, hok, hl, secBits_zero]

end

/-- The response that ends a shipped command, by what Hearth keeps of it. -/
theorem exec_engineResponse {r : Running} {u : State} (hm : MessageWaits s p 1) (hr : s.findJob (engineServes p) = some r)
    (hj : r.job = .shipped p) (hc : (s.port p).svc.customer = true) (hs : suspectDue r.cmd (s.engReply p) = false)
    (hl : (s.engReply p).payload.length ≤ 4092)
    (hu : ({ s.ackMsg p with running := dropFirst (shippedTo p) s.running } : State).afterResponse r.cmd p (s.engReply p).status
      (s.engReply p).payload = { u with running := dropFirst (shippedTo p) u.running }) (hp : u.pending = s.pending) :
    exec (.engineResponse p) s = .next (u.ended (shippedTo p) r (s.engReply p).status (s.engReply p).payload) := by
  obtain ⟨f, hexec, hf⟩ := engineResponse_effect hm hr hj
  have hcust : (({ s.ackMsg p with running := dropFirst (shippedTo p) s.running } : State).port p).svc.customer = true :=
    (congrArg PortSvc.customer (ackMsg_svc s p)).trans hc
  exact exec_ended hexec (hf.trans ((engineResponds_plain hcust hs hl).trans (by rw [hu]))) hp

/-- Whether the engine of a port owes a response: to a shipped command or to a distance-bounding run. -/
def State.owes (s : State) (p : PortNum) : Bool :=
  s.running.any fun r => r.job == .shipped p || (r.job == .db p && (s.port p).svc.db.any fun d => !d.answered)

/-- Whether a slot of a pass is in progress on a port. -/
def State.inSlot (s : State) (p : PortNum) : Bool := (s.port p).svc.pass.any fun x => x.slot.isSome

theorem engineResponseTimeout_exec : exec (.engineResponseTimeout p) = run fun s =>
    if s.owes p || s.inSlot p then (s.portReset p).2 else s := rfl

theorem owes_shipped (h : ∃ r ∈ s.running, r.job = .shipped p) : s.owes p = true := by
  obtain ⟨r, hr, hj⟩ := h
  exact List.any_eq_true.2 ⟨r, hr, by rw [hj]; simp⟩

theorem owes_none (h : ∀ r ∈ s.running, r.job ≠ .shipped p ∧ r.job ≠ .db p) : s.owes p = false :=
  List.any_eq_false.2 fun r hr => by simp [h r hr]

theorem inSlot_on (h : ∃ x ant, SlotOn s p x ant) : s.inSlot p = true := by
  obtain ⟨x, ant, hx, ha⟩ := h
  rw [State.inSlot, hx, Option.any_some, ha]
  rfl

theorem inSlot_none (h : ∀ x, (s.port p).svc.pass = some x → x.slot = none) : s.inSlot p = false := by
  rw [State.inSlot, Option.any_eq_false]
  intro x hx
  rw [h x hx]
  rfl

theorem imgRejected_running (s : State) (p : PortNum) (k : Nat) (l : List Byte) : (s.imgRejected p k l).running = s.running := by
  unfold State.imgRejected
  rw [ash_frame]

/-! ## The verdict on an engine image (R391, R455, R543) -/

theorem imageVerdict_judges {r : Running} {l : List Byte} (hr : s.findJob reloads = some r) (hj : r.job = .reload p l) :
    s.imageVerdict = match ({ s with running := dropFirst reloads s.running } : State).imgCheck l with
      | some k => ((({ s with running := dropFirst reloads s.running } : State).imgRejected p k l).respond r.cmd St.IMAGE_INVALID)
      | none => ({ s with running := dropFirst reloads s.running } : State).reloadGo r p l := by
  show (match s.findJob reloads with
    | none => s
    | some r => _) = _
  rw [hr]
  show (match r.job with
    | .reload p l => _
    | _ => s) = _
  rw [hj]
  rfl

theorem exec_imageVerdict_rejected {r : Running} {l : List Byte} {k : Nat} (hr : s.findJob reloads = some r) (hj : r.job = .reload p l)
    (hk : s.imgCheck l = some k) : exec .engineImageVerdict s = .next ((s.imgRejected p k l).ended reloads r St.IMAGE_INVALID []) := by
  have hk' : ({ s with running := dropFirst reloads s.running } : State).imgCheck l = some k := hk
  refine exec_ended (sel := reloads) rfl ((imageVerdict_judges hr hj).trans ?_) (ash_parts ..).2
  have hash : ({ s with running := dropFirst reloads s.running } : State).imgRejected p k l =
      { s.imgRejected p k l with running := dropFirst reloads s.running } := ash_running ..
  rw [hk', imgRejected_running]
  exact congrArg (State.respond · r.cmd St.IMAGE_INVALID) hash

theorem exec_imageVerdict_kept {r : Running} {l : List Byte} (hr : s.findJob reloads = some r) (hj : r.job = .reload p l)
    (hk : s.imgCheck l = none) (hc : (s.port p).svc.svc = .closed) :
    exec .engineImageVerdict s = .next ((s.keepImage p l (imgNum l 6 1 = 1)).ended reloads r St.OK
      (wordsBytes [(s.keepImage p l (imgNum l 6 1 = 1)).imgWord p 8, (s.keepImage p l (imgNum l 6 1 = 1)).imgWord p 12])) := by
  have hk' : ({ s with running := dropFirst reloads s.running } : State).imgCheck l = none := hk
  refine exec_ended (sel := reloads) rfl ((imageVerdict_judges hr hj).trans ?_) rfl
  rw [hk']
  exact if_neg fun h : (s.port p).svc.svc = .opened => by rw [hc] at h; cases h

section
variable {l : List Byte} (hf : imgFieldsOk l = true) (hv : imgNum l 16 2 ≤ 0x00C1)

theorem imgCheck_fields (h : imgFieldsOk l = false) : s.imgCheck l = some 1 := if_pos (by rw [h]; rfl)

include hf

theorem imgCheck_version (h : 0x00C1 < imgNum l 16 2) : s.imgCheck l = some 2 :=
  (if_neg (by rw [hf]; decide)).trans (if_pos h)

include hv

theorem imgCheck_keyed : s.imgCheck l = match s.imgKey l with
    | none => some 3
    | some k =>
      if !Config.ecdsaVerify k (Config.sha256 (l.take 196)) ((l.drop 196).take 64) then some 3
      else if !imgHashesOk l then some 4
      else none :=
  (if_neg (by rw [hf]; decide)).trans (if_neg (Nat.not_lt.2 hv))

theorem imgCheck_unknown (h : s.imgKey l = none) : s.imgCheck l = some 3 := by
  rw [imgCheck_keyed hf hv, h]

theorem imgCheck_known {k : List Byte} (h : s.imgKey l = some k) : s.imgCheck l =
    if !Config.ecdsaVerify k (Config.sha256 (l.take 196)) ((l.drop 196).take 64) then some 3
    else if !imgHashesOk l then some 4
    else none := by
  rw [imgCheck_keyed hf hv, h]

end

end

end Sys2Proof.Machine

open Sys2Proof Sys2Proof.Machine

/-- Settles O31, by what each message, timeout and verdict does. -/
theorem enginesReportReadyAndAnswerOrAreReplaced : Obligations.EnginesReportReadyAndAnswerOrAreReplaced := by
  unfold Obligations.EnginesReportReadyAndAnswerOrAreReplaced
  refine ⟨fun s p hraised => ⟨fun hm h8 hv hg hd => ?ready, fun hm h => exec_engineReady_spare hraised hm h, fun h => ?silent,
    fun hv ho hd => exec_engineStartTimeout hraised hv ho hd, fun hv => ?inTime, fun r hm hr hj hc hs => ?response, fun h => ?late, fun h hx => ?idle⟩,
    fun s hraised => ⟨fun hn => ?noImage, fun r p l hr hj => ?verdict, ?fields, ?version, ?unknown, ?known⟩⟩
  case ready =>
    refine ⟨fun r hr ho => ?_, fun hn ho => (exec_engineReady (b := false) hraised hm h8 hv hg hd (by rw [hn]; rfl) (.inr ho)).1 hn⟩
    have hb : (s.findJob (engineStartOf p)).any opens = true := by
      rw [hr]
      rcases ho with ho | ho <;> simp [opens, ho]
    exact (exec_engineReady hraised hm h8 hv hg hd hb (.inl rfl)).2 r hr
  case silent => exact ⟨exec_rungSilent (k := 0) rfl hraised h, exec_rungSilent (k := 1) rfl hraised h⟩
  case inTime => exact exec_to rfl (if_pos (by rw [hv]; rfl)) hraised rfl
  case response =>
    intro m hl
    refine ⟨fun ho => ?_, fun ho hok h4 hn => ?_, fun ho hok h4 => ?_⟩
    · exact exec_engineResponse hm hr hj hc hs hl (afterResponse_transceive ho _ _) rfl
    · exact exec_engineResponse hm hr hj hc hs hl (afterResponse_selects ho hok h4 hn) rfl
    · exact exec_engineResponse hm hr hj hc hs hl (afterResponse_notSelected ho hok h4) rfl
  case late =>
    refine leaves_of engineResponseTimeout_exec (if_pos ?_)
    rcases h with h | h
    · rw [owes_shipped h]
      rfl
    · rw [inSlot_on h, Bool.or_true]
  case idle => exact exec_to engineResponseTimeout_exec (if_neg (by rw [owes_none h, inSlot_none hx]; decide)) hraised rfl
  case noImage =>
    refine exec_to rfl ?_ hraised rfl
    show (match s.findJob reloads with
      | none => s
      | some r => _) = s
    rw [hn]
  case verdict => exact ⟨fun k hk => exec_imageVerdict_rejected hr hj hk, fun hk hc => exec_imageVerdict_kept hr hj hk hc⟩
  case fields => exact fun l h => imgCheck_fields h
  case version => exact fun l hf hv => imgCheck_version hf hv
  case unknown => exact fun l hf hv h => imgCheck_unknown hf hv h
  case known =>
    refine fun l k hf hv h => ⟨fun hs => ?_, fun hs hx => ?_, fun hs hx => ?_⟩
    · rw [imgCheck_known hf hv h, hs]
      rfl
    · rw [imgCheck_known hf hv h, hs, hx]
      rfl
    · rw [imgCheck_known hf hv h, hs, hx]
      rfl
end

section
/-! PROOF. Ownership, DEV_RESET and KINDLING_SCAN: what each claim, release and scan leaves and answers (R209, R335, R336,
R348, R352, R354). -/

namespace Sys2Proof.Machine

section
variable {s : State} {c : Cmd}

/-! ## A response and the events of one kind beside it (R332) -/

/-- A row whose meaning answers and tells other host ports of one event. -/
theorem answeredTold_of {i : Instr} {s u v : State} {o : Op} {h : HostCmd} {st : Nat} {pl : List Byte} (sel : HostNum → Bool)
    (t code : Nat) (ev : List Byte) (e : hostOp i = some (o, h)) (hb : o.body (o.cmd h) (s.opened (o.cmd h)) = v)
    (hv : v = ((u.opened (o.cmd h)).respond (o.cmd h) st pl).raiseAll sel t code ev) (hsel : sel h.hp = false)
    (hu : u.hosts = s.hosts) (hr : u.raised = s.raised) (hq : u.pending = s.pending)
    (hg : o.gate (o.cmd h) (s.opened (o.cmd h)) = o.gate (o.cmd h) s := by rfl)
    (hs : ∀ c s, o.onSegment c 0 s = s := by intros; rfl) (a : Accepted s o h) :
    exec i s = .next ((u.answered (o.cmd h) st pl).told (allHosts.filter sel) (BitVec.ofNat 8 t) (BitVec.ofNat 16 code) ev) := by
  have hhost : u.host h.hp = s.host h.hp := by unfold State.host; rw [hu]
  have hout : h.hp ∉ allHosts.filter sel := fun hm => by
    rw [List.mem_filter, hsel] at hm
    exact Bool.false_ne_true hm.2
  have hflush : v.flush = (u.answeredPkts (o.cmd h) st [pl] none).told (allHosts.filter sel) (BitVec.ofNat 8 t) (BitVec.ofNat 16 code) ev :=
    respond_events_flush _ _ _ _ (hr.trans a.1.quiet) (by rw [Op.cmd_hp, hhost, a.1.stream])
      (fun x hx => (a.1.first x (by rw [Op.cmd_hp, hhost] at hx; exact hx)).1) (by simp) hout (allHosts_filter_nodup sel)
      (by rw [hv, raiseAll_raised]; rfl)
  have hleaves := runs_of e hb hg hs a
  rw [Leaves, hflush] at hleaves
  rw [hleaves]
  refine congrArg _ ?_
  have hpending := told_pending (u.answeredPkts (o.cmd h) st [pl] none) (allHosts.filter sel) (BitVec.ofNat 8 t) (BitVec.ofNat 16 code) ev
  have hp : s.pending = (u.answeredPkts (o.cmd h) st [pl] none).pending := hq.symm
  rw [hp, ← hpending]
  rfl

/-- An accepted row whose meaning answers at once. -/
theorem exec_answered {i : Instr} {s u : State} {o : Op} {h : HostCmd} {st : Nat} {pl : List Byte} (a : Accepted s o h)
    (e : hostOp i = some (o, h)) (hb : o.body (o.cmd h) (s.opened (o.cmd h)) = (u.opened (o.cmd h)).respond (o.cmd h) st pl)
    (hu : u.hosts = s.hosts) (hr : u.raised = s.raised) (hq : u.pending = s.pending)
    (hg : o.gate (o.cmd h) (s.opened (o.cmd h)) = o.gate (o.cmd h) s := by rfl)
    (hs : ∀ c s, o.onSegment c 0 s = s := by intros; rfl) : exec i s = .next (u.answered (o.cmd h) st pl) :=
  answered_of e (fun _ => hb) hu hr hq hg hs a

/-! ## Ownership (R335, R336) -/

theorem dropChain_none {q : HostNum} {t : Byte} (h : ∀ x ∈ (s.host q).chains, x.target ≠ t) : s.dropChain q t = s := by
  have hnone : (s.host q).chainOf t = none := by
    unfold HostPort.chainOf
    exact List.find?_eq_none.2 fun x hx => by simpa using h x hx
  unfold State.dropChain
  rw [hnone]

theorem dropChains_none {t : Nat} (h : ∀ q, ∀ x ∈ (s.host q).chains, x.target ≠ BitVec.ofNat 8 t) : s.dropChains t = s := by
  exact List.foldl_fixed' (fun q => dropChain_none (h q)) allHosts

/-- No chain is open on the command's target. -/
def NoChains (s : State) (c : Cmd) : Prop := ∀ q, ∀ x ∈ (s.host q).chains, x.target ≠ c.target

/-- Whom a move of ownership is told: the old and the new owner, but for the sender. -/
def movedTo (old new : Option HostNum) (c : Cmd) (q : HostNum) : Bool := q ≠ c.hp && (old == some q || new == some q)

theorem setOwner_same {new : Option HostNum} (h : s.ownerOf c.target.toNat = new) : s.setOwner c new = s.respond c St.OK :=
  if_pos h

theorem setOwner_moves {new : Option HostNum} (hc : NoChains s c) (h : s.ownerOf c.target.toNat ≠ new) : s.setOwner c new =
    (({ s with owner := s.owner.set (Fin.ofNat 9 c.target.toNat) new } : State).respond c St.OK).raiseAll
      (movedTo (s.ownerOf c.target.toNat) new c) c.target.toNat 0x0003
      [ownCode (s.ownerOf c.target.toNat), ownCode new, BitVec.ofNat 8 c.hp.val] := by
  refine (if_neg h).trans ?_
  rw [dropChains_none]
  · rfl
  · intro q x hx
    rw [BitVec.ofNat_toNat, BitVec.setWidth_eq]
    exact hc q x hx

theorem setDevOwn_gains {new : BitVec 4} (h : s.devOwn ≠ new) (hkeeps : ∀ q : HostNum, s.devOwn.getLsbD q.val = true → new.getLsbD q.val = true) :
    s.setDevOwn c new = (({ s with devOwn := new } : State).respond c St.OK).raiseAll
      (fun q => q ≠ c.hp && (s.devOwn.getLsbD q.val || new.getLsbD q.val)) 15 0x0003
      [s.devOwn.setWidth 8, new.setWidth 8, BitVec.ofNat 8 c.hp.val] := by
  have hleft : ∀ q : HostNum, (s.devOwn.getLsbD q.val && !new.getLsbD q.val) = false := fun q => by
    cases hq : s.devOwn.getLsbD q.val with
    | false => rfl
    | true => rw [hkeeps q hq]; rfl
  have hchains : allHosts.foldl (fun (u : State) q => if s.devOwn.getLsbD q.val && !new.getLsbD q.val then u.dropChain q 15 else u)
      { s with devOwn := new } = { s with devOwn := new } :=
    List.foldl_fixed' (fun q => if_neg (by rw [hleft q]; exact Bool.false_ne_true)) allHosts
  refine (if_neg h).trans ?_
  exact congrArg (fun x : State => (x.respond c St.OK).raiseAll (fun q => q ≠ c.hp && (s.devOwn.getLsbD q.val || new.getLsbD q.val)) 15 0x0003
    [s.devOwn.setWidth 8, new.setWidth 8, BitVec.ofNat 8 c.hp.val]) hchains

section
variable {q : HostNum} (hq : claimHost c = some q)
include hq

theorem bodyOwnRelease_port (ht : c.target.toNat ≠ 15) : bodyOwnRelease c s =
    if s.ownerOf c.target.toNat = some c.hp ∨ s.devOwn.getLsbD c.hp.val then s.setOwner c none else s.respond c St.NOT_OWNER := by
  unfold bodyOwnRelease
  rw [hq]
  exact if_neg ht

variable (hf : byteAt c.payload 1 ≤ 1)
include hf

theorem bodyOwnClaim_port (ht : c.target.toNat ≠ 15) : bodyOwnClaim c s =
    if (s.ownerOf c.target.toNat = none ∧ q = c.hp) ∨ s.ownerOf c.target.toNat = some c.hp ∨
        (s.devOwn.getLsbD c.hp.val ∧ (s.ownerOf c.target.toNat = none ∨ byteAt c.payload 1 = 1)) then
      s.setOwner c (some q) else s.respond c St.NOT_OWNER := by
  unfold bodyOwnClaim
  rw [hq]
  exact (if_neg (Nat.not_lt.2 hf)).trans (if_neg ht)

theorem bodyOwnClaim_device (ht : c.target.toNat = 15) : bodyOwnClaim c s =
    if (s.devOwn = 0 ∧ q = c.hp) ∨ s.devOwn.getLsbD c.hp.val then s.setDevOwn c (s.devOwn ||| BitVec.ofNat 4 (2 ^ q.val))
    else s.respond c St.NOT_OWNER := by
  unfold bodyOwnClaim
  rw [hq]
  exact (if_neg (Nat.not_lt.2 hf)).trans (if_pos ht)

end

theorem bodyOwnClaim_unnamed (h : claimHost c = none) : bodyOwnClaim c s = s.respond c St.BAD_PARAM := by
  unfold bodyOwnClaim
  rw [h]

theorem bodyOwnRelease_unnamed (h : claimHost c = none) : bodyOwnRelease c s = s.respond c St.BAD_PARAM := by
  unfold bodyOwnRelease
  rw [h]

theorem bodyOwnClaim_forced (h : 1 < byteAt c.payload 1) : bodyOwnClaim c s = s.respond c St.BAD_PARAM := by
  unfold bodyOwnClaim
  split
  · rfl
  · exact if_pos h

/-! ## KINDLING_SCAN (R209, R354) -/

theorem scanTags_found (n : Nat) (s : State) : ∃ l k, scanTags n s = (l, { s with free := k }) ∧ l.length = 12 * n := by
  induction n generalizing s with
  | zero => exact ⟨[], s.free, rfl, rfl⟩
  | succ n ih =>
    obtain ⟨l, k, htags, hlen⟩ := ih s.scanTag.2
    refine ⟨s.scanTag.1 ++ l, k, ?_, ?_⟩
    · show (s.scanTag.1 ++ (scanTags n s.scanTag.2).1, (scanTags n s.scanTag.2).2) = _
      rw [htags]
      rfl
    · rw [List.length_append, hlen]
      have : s.scanTag.1.length = 12 := by simp [State.scanTag, padTo_length, leBytes_length']
      omega

end

end Sys2Proof.Machine

open Sys2Proof Sys2Proof.Machine

/-- Settles O34, by the rows of ownership and by what they tell. -/
theorem claimsAndReleasesMoveOwnershipAndTellTheOwners : Obligations.ClaimsAndReleasesMoveOwnershipAndTellTheOwners := by
  unfold Obligations.ClaimsAndReleasesMoveOwnershipAndTellTheOwners
  intro s h hchains old told moved
  have htarget : BitVec.ofNat 8 h.target.toNat = h.target := by rw [BitVec.ofNat_toNat, BitVec.setWidth_eq]
  have hself : ∀ (o new : Option HostNum) (d : Cmd), d.hp = h.hp → movedTo o new d h.hp = false := fun o new d hd => by
    simp [movedTo, hd]
  refine ⟨fun q hq hf ht a => ?claim, fun q hq ht a => ?release, fun q hq hf ht a => ?device, fun hq => ?badHost, fun hf => ?badForce,
    fun hk a => ?reset, fun hk => answered_of rfl (fun _ => if_pos hk) rfl rfl rfl, fun hx a => ?scan,
    fun hx => answered_of rfl (fun _ => if_pos hx) rfl rfl rfl⟩
  case claim =>
    let c := opOwnClaim.cmd h
    have hnone : NoChains (s.opened c) c := fun d x hx => hchains d x (by rwa [State.opened_host_chains] at hx)
    have hbody := bodyOwnClaim_port (s := s.opened c) (c := c) hq hf (show h.target.toNat ≠ 15 by omega)
    refine ⟨fun hm hne => ?_, fun hm heq => ?_, fun hm => exec_answered a rfl (hbody.trans (if_neg hm)) rfl rfl rfl⟩
    · have := answeredTold_of (u := { s with owner := s.owner.set (Fin.ofNat 9 h.target.toNat) (some q) }) (i := .ownClaim h)
        (movedTo old (some q) c) h.target.toNat 0x0003 [ownCode old, ownCode (some q), BitVec.ofNat 8 h.hp.val] rfl
        (hbody.trans (if_pos hm)) (setOwner_moves hnone hne) (hself _ _ _ rfl) rfl rfl rfl rfl (fun _ _ => rfl) a
      rw [htarget] at this
      exact this
    · exact exec_answered a rfl (hbody.trans ((if_pos hm).trans (setOwner_same heq))) rfl rfl rfl
  case release =>
    let c := opOwnRelease.cmd h
    have hnone : NoChains (s.opened c) c := fun d x hx => hchains d x (by rwa [State.opened_host_chains] at hx)
    have hbody := bodyOwnRelease_port (s := s.opened c) (c := c) hq (show h.target.toNat ≠ 15 by omega)
    refine ⟨fun hm hne => ?_, fun hm => exec_answered a rfl (hbody.trans (if_neg hm)) rfl rfl rfl⟩
    have := answeredTold_of (u := { s with owner := s.owner.set (Fin.ofNat 9 h.target.toNat) none }) (i := .ownRelease h)
      (movedTo old none c) h.target.toNat 0x0003 [ownCode old, ownCode none, BitVec.ofNat 8 h.hp.val] rfl
      (hbody.trans (if_pos hm)) (setOwner_moves hnone hne) (hself _ _ _ rfl) rfl rfl rfl rfl (fun _ _ => rfl) a
    rw [htarget] at this
    exact this
  case device =>
    let c := opOwnClaim.cmd h
    intro new
    have hbody := bodyOwnClaim_device (s := s.opened c) (c := c) hq hf ht
    have hgains : ∀ d : HostNum, s.devOwn.getLsbD d.val = true → new.getLsbD d.val = true := fun d hd => by
      rw [BitVec.getLsbD_or, hd, Bool.true_or]
    refine ⟨fun hm hne => ?_, fun hm => exec_answered a rfl (hbody.trans (if_neg hm)) rfl rfl rfl⟩
    have := answeredTold_of (u := { s with devOwn := new }) (i := .ownClaim h)
      (fun d => d ≠ h.hp && (s.devOwn.getLsbD d.val || new.getLsbD d.val)) 15 0x0003
      [s.devOwn.setWidth 8, new.setWidth 8, BitVec.ofNat 8 h.hp.val] rfl
      (hbody.trans (if_pos hm)) (setDevOwn_gains (s := s.opened c) hne.symm hgains) (by simp) rfl rfl rfl rfl (fun _ _ => rfl) a
    rw [← ht, htarget] at this
    exact this
  case badHost =>
    exact ⟨answered_of rfl (fun _ => bodyOwnClaim_unnamed hq) rfl rfl rfl, answered_of rfl (fun _ => bodyOwnRelease_unnamed hq) rfl rfl rfl⟩
  case badForce => exact answered_of rfl (fun _ => bodyOwnClaim_forced hf) rfl rfl rfl
  case reset =>
    let c := opDevReset.cmd h
    exact exec_answered (u := { s with running := s.running ++ [⟨c, .devReset⟩] }) a rfl (if_neg (not_not.2 hk)) rfl rfl rfl
  case scan =>
    let c := opKindlingScan.cmd h
    obtain ⟨l, k, htags, hlen⟩ := scanTags_found (Config.freeNat s.free % 5) { s.opened c with free := s.free + 1 }
    refine ⟨Config.freeNat s.free % 5, l, k, Nat.le_of_lt_succ (freeNat_lt _ _ (by decide)), hlen, ?_⟩
    refine exec_answered (u := { s with free := k }) a rfl ((if_neg ?_).trans ?_) rfl rfl rfl
    · exact fun h0 : s.pcrGet CLKCTL.XTAL_OK = 0 => by rw [h0] at hx; cases hx
    · exact congrArg (fun x : List Byte × State => x.2.respond c St.OK (leBytes 1 (Config.freeNat s.free % 5) ++ x.1)) htags
end

section
/-! PROOF. The transports: the receiver's bytes, the bytes taken from the stream, and what each transfer of SPI, UART and I2C
leaves (R309-R319, R323, R326, R329, R331). -/

namespace Sys2Proof.Machine

/-! ## Packets as bytes (R303, R319) -/

/-- The bytes of one whole packet of a host: SYNC first, a LEN in range that fits, and a CRC that holds. -/
structure Framed (l : List Byte) : Prop where
  sync : ∃ r, l = 0x5C :: r
  len : l.length = 10 + leAt l 2 2
  short : leAt l 2 2 ≤ 4092
  crc : CrcKind.crcO.ok l = true

theorem crcO_ok_bytes (l : List Byte) : CrcKind.crcO.ok (l ++ CrcKind.crcO.bytes l) = true := by
  have hlen : (CrcKind.crcO.bytes l).length = 2 := leBytes_length' ..
  have hall : (l ++ CrcKind.crcO.bytes l).length - 2 = l.length := by rw [List.length_append, hlen]; omega
  rw [CrcKind.ok, hall, List.drop_left, List.take_left, List.length_append, hlen]
  simp

theorem cmdBytes_framed (flags seq target : Byte) (opcode : Half) {payload : List Byte} (h : payload.length ≤ 4092) :
    Framed (cmdBytes flags seq target opcode payload) := by
  have hlen : leAt (cmdBytes flags seq target opcode payload) 2 2 = payload.length := by
    simp [cmdBytes, packetBytes, leBytes, leAt, fromLe]
    omega
  refine ⟨⟨_, rfl⟩, ?_, hlen ▸ h, crcO_ok_bytes _⟩
  rw [hlen]
  simp [cmdBytes, packetBytes, CrcKind.bytes, leBytes_length']
  omega

theorem leAt_append {p r : List Byte} {i k : Nat} (h : i + k ≤ p.length) : leAt (p ++ r) i k = leAt p i k := by
  unfold leAt
  rw [List.drop_append_of_le_length (by omega), List.take_append_of_le_length (by rw [List.length_drop]; omega)]

/-! ## The receiver (R319, R601) -/

section
variable {h : HostPort} {uart : Bool} {b : Byte}

theorem hunting_iff : h.hunting = true ↔ h.part = [] ∧ h.refused = false := by
  rw [HostPort.hunting, Bool.and_eq_true, List.isEmpty_iff, Bool.not_eq_true']

theorem boundary_hunting (hp : h.part = []) (hr : h.refused = false) : h.boundary = h := if_pos (hunting_iff.2 ⟨hp, hr⟩)

/-- A packet cut short at a boundary is discarded and counted in TRUNC (R312, R315, R316). -/
theorem boundary_cut (hx : h.part ≠ [] ∨ h.refused = true) :
    h.boundary = { h.counted HPERR.TRUNC 1 with part := [], refused := false, count := 0 } := by
  refine (if_neg fun hh => ?_).trans rfl
  obtain ⟨hp, hr⟩ := hunting_iff.1 hh
  rcases hx with hx | hx
  · exact hx hp
  · rw [hr] at hx
    cases hx

theorem feed_nil (n : Nat) (h : HostPort) : HostPort.feed uart n [] h = h := by
  cases n <;> rfl

theorem feed_cons (n : Nat) (r : List Byte) {g : HostPort} (hf : h.feed1 uart b = (g, [])) :
    HostPort.feed uart (n + 1) (b :: r) h = HostPort.feed uart n r g := by
  show (fun x : HostPort × List Byte => HostPort.feed uart n (x.2 ++ r) x.1) (h.feed1 uart b) = _
  rw [hf]
  rfl

theorem receive_one {g : HostPort} (hf : h.feed1 uart b = (g, [])) : h.receive uart [b] = g := by
  unfold HostPort.receive
  obtain ⟨m, hm⟩ : ∃ m, (h.part.length + [b].length + 1) * (h.part.length + [b].length + 1) = m + 1 :=
    ⟨_, (Nat.succ_pred_eq_of_pos (by positivity)).symm⟩
  show HostPort.feed uart _ [b] h = g
  rw [hm, feed_cons m [] hf, feed_nil]

/-- A byte outside a packet that is no SYNC is junk. -/
theorem feed1_junk (hp : h.part = []) (hr : h.refused = false) (hb : b ≠ 0x5C) : h.feed1 uart b = (h.counted HPERR.JUNK 1, []) := by
  refine if_pos ?_
  rw [hunting_iff.2 ⟨hp, hr⟩]
  simpa using hb

section
variable (hr : h.refused = false) (hroom : h.inUse < 8192) (hb : h.part ≠ [] ∨ b = 0x5C)
include hr hroom hb

theorem feed1_packet : h.feed1 uart b =
    if (h.part ++ [b]).length = 8 ∧ 4092 < leAt (h.part ++ [b]) 2 2 then
      (({ h with part := h.part ++ [b], count := h.count + 1 } : HostPort).hunt.count1 HPERR.TRUNC, (h.part ++ [b]).drop 1)
    else if 8 ≤ (h.part ++ [b]).length ∧ (h.part ++ [b]).length = 10 + leAt (h.part ++ [b]) 2 2 then
      ({ h with part := [], refused := false, count := 0, landed := h.landed ++ [h.part ++ [b]] },
        if uart && !CrcKind.crcO.ok (h.part ++ [b]) then (h.part ++ [b]).drop 1 else [])
    else ({ h with part := h.part ++ [b], count := h.count + 1 }, []) := by
  have hin : ¬(h.hunting && b != 0x5C) = true := by
    rw [Bool.and_eq_true, hunting_iff, bne_iff_ne]
    rintro ⟨⟨hp, -⟩, hne⟩
    exact hb.elim (fun h => h hp) fun h => hne h
  have htakes : ¬(h.refused || h.inFull) = true := by
    rw [Bool.or_eq_true, hr, HostPort.inFull, decide_eq_true_iff, mailboxSize]
    simp only [Bool.false_eq_true, false_or]
    omega
  exact (if_neg hin).trans (if_neg htakes)

/-- A byte inside a packet is stored. -/
theorem feed1_inside (h8 : (h.part ++ [b]).length = 8 → leAt (h.part ++ [b]) 2 2 ≤ 4092)
    (hend : 8 ≤ (h.part ++ [b]).length → (h.part ++ [b]).length ≠ 10 + leAt (h.part ++ [b]) 2 2) :
    h.feed1 uart b = ({ h with part := h.part ++ [b], count := h.count + 1 }, []) := by
  rw [feed1_packet hr hroom hb, if_neg fun hx => Nat.not_lt.2 (h8 hx.1) hx.2, if_neg fun hx => hend hx.1 hx.2]

theorem feed1_stored (hp : h.part.length < 7 ∨ 8 ≤ h.part.length ∧ h.part.length + 1 < 10 + leAt (h.part ++ [b]) 2 2) :
    h.feed1 uart b = ({ h with part := h.part ++ [b], count := h.count + 1 }, []) := by
  have hlen : (h.part ++ [b]).length = h.part.length + 1 := by rw [List.length_append, List.length_singleton]
  exact feed1_inside hr hroom hb (fun h8 => absurd h8 (by omega)) fun h8 => by omega

/-- The last byte lands the packet. -/
theorem feed1_last (hl : Framed (h.part ++ [b])) :
    h.feed1 uart b = ({ h with part := [], refused := false, count := 0, landed := h.landed ++ [h.part ++ [b]] }, []) := by
  have hlen := hl.len
  rw [feed1_packet hr hroom hb, if_neg (by omega), if_pos ⟨by omega, hlen⟩, hl.crc, Bool.not_true, Bool.and_false,
    if_neg Bool.false_ne_true]

theorem feed1_lands (hl : Framed (h.part ++ [b])) :
    h.feed1 uart b = ({ h with part := [], count := 0, landed := h.landed ++ [h.part ++ [b]] }, []) :=
  (feed1_last hr hroom hb hl).trans (congrArg (fun x =>
    ({ h with part := [], refused := x, count := 0, landed := h.landed ++ [h.part ++ [b]] }, [])) hr.symm)

end

/-- The byte that ends a packet is not its first. -/
theorem framed_last (hl : Framed (h.part ++ [b])) : (h.part ≠ [] ∨ b = 0x5C) ∧ Framed (h.part ++ [b]) := by
  refine ⟨.inl fun hp => ?_, hl⟩
  have hlen := hl.len
  rw [hp, List.nil_append, List.length_singleton] at hlen
  omega

/-- A SYNC written while the port wakes is lost, and its packet with it (R312, R340). -/
theorem lose_sync (hp : h.part = []) :
    h.lose [0x5C] = { h.counted HPERR.OVERRUN 1 with refused := true, count := h.count + 1 } := by
  have hsync : ¬(h.hunting && (0x5C : Byte) != 0x5C) = true := by simp
  have hwants : ({ h.count1 HPERR.OVERRUN with refused := true, count := h.count + 1 } : HostPort).wants = none := by
    show (if 4 ≤ h.part.length then _ else none) = _
    rw [hp]
    rfl
  rw [HostPort.lose, HostPort.lose, if_neg hsync]
  exact if_neg (by rw [hwants]; exact nofun)

/-- The rest of a packet's bytes lands it. -/
theorem feed_framed {l : List Byte} (hl : Framed l) (rest : List Byte) : ∀ (n : Nat) (h : HostPort), h.part ++ rest = l → rest ≠ [] →
    h.refused = false → h.inUse + rest.length ≤ 8192 → rest.length ≤ n →
    HostPort.feed uart n rest h = { h with part := [], refused := false, count := 0, landed := h.landed ++ [l] } := by
  induction rest with
  | nil => exact fun _ _ _ hne => absurd rfl hne
  | cons b r ih =>
    intro n h hpart _ hr hroom hn
    obtain ⟨n, rfl⟩ : ∃ m, n = m + 1 := ⟨n - 1, by rw [List.length_cons] at hn; omega⟩
    have hsplit : (h.part ++ [b]) ++ r = l := by rw [← hpart, List.append_assoc]; rfl
    have hb : h.part ≠ [] ∨ b = 0x5C := by
      by_cases hp : h.part = []
      · obtain ⟨t, ht⟩ := hl.sync
        rw [← hpart, hp] at ht
        exact .inr (List.cons.inj ht).1
      · exact .inl hp
    have hfree : h.inUse < 8192 := by rw [List.length_cons] at hroom; omega
    cases r with
    | nil =>
      rw [List.append_nil] at hsplit
      rw [feed_cons n [] (feed1_last hr hfree hb (hsplit ▸ hl)), feed_nil, hsplit]
    | cons a r =>
      have hlen : (h.part ++ [b]).length < 10 + leAt l 2 2 := by
        rw [← hl.len, ← hsplit, List.length_append (as := h.part ++ [b]), List.length_cons]
        omega
      have hle : 8 ≤ (h.part ++ [b]).length → leAt (h.part ++ [b]) 2 2 = leAt l 2 2 := fun h8 =>
        (leAt_append (r := a :: r) (by omega)).symm.trans (by rw [hsplit])
      have hstored : h.feed1 uart b = ({ h with part := h.part ++ [b], count := h.count + 1 }, []) :=
        feed1_inside hr hfree hb (fun h8 => by rw [hle (by omega)]; exact hl.short) fun h8 => by rw [hle h8]; omega
      rw [feed_cons n _ hstored]
      refine (ih n { h with part := h.part ++ [b], count := h.count + 1 } hsplit (List.cons_ne_nil _ _) hr ?_
        (Nat.le_of_succ_le_succ hn)).trans rfl
      show ((h.part ++ [b]).length + (h.landed.map List.length).sum) + (a :: r).length ≤ 8192
      rw [List.length_append, List.length_singleton]
      rw [HostPort.inUse, List.length_cons] at hroom
      omega

/-- A whole packet received while the receiver hunts lands. -/
theorem receive_framed {l : List Byte} (hl : Framed l) (hp : h.part = []) (hr : h.refused = false) (hroom : h.inUse + l.length ≤ 8192) :
    h.receive uart l = { h with landed := h.landed ++ [l], count := 0 } := by
  unfold HostPort.receive
  obtain ⟨t, ht⟩ := hl.sync
  rw [feed_framed hl l _ h (by rw [hp]; rfl) (by rw [ht]; exact List.cons_ne_nil _ _) hr hroom (by rw [hp]; simp; nlinarith)]
  rw [← hp, ← hr]

end

/-! ## The outbound stream (R310, R313, R323, R331) -/

theorem takeBytes_empty (n : Nat) (h : HostPort) (ho : h.out = []) : HostPort.takeBytes n h = h := by
  cases n with
  | zero => rfl
  | succ n => rw [HostPort.takeBytes, ho]

section
variable {h : HostPort} {p : OutPkt} {r : List OutPkt}

theorem takeBytes_cons (n : Nat) (ho : h.out = p :: r) : HostPort.takeBytes (n + 1) h =
    HostPort.takeBytes n (if p.bytes.length ≤ h.taken + 1 then ({ h with taken := h.taken + 1 } : HostPort).takePacket
      else { h with taken := h.taken + 1 }) := by
  rw [HostPort.takeBytes, ho]

/-- Bytes short of the packet's end leave it in the stream. -/
theorem takeBytes_short (n : Nat) : ∀ h : HostPort, h.out = p :: r → h.taken + n < p.bytes.length →
    HostPort.takeBytes n h = { h with taken := h.taken + n } := by
  induction n with
  | zero => exact fun _ _ _ => rfl
  | succ n ih =>
    intro h ho hn
    rw [takeBytes_cons n ho, if_neg (by omega), ih { h with taken := h.taken + 1 } ho (by show h.taken + 1 + n < _; omega)]
    exact congrArg (fun k => { h with taken := k }) (Nat.add_right_comm h.taken 1 n)

theorem takePacket_cons (ho : h.out = p :: r) : h.takePacket = if p.isEvent then (h.took p r).tellLost else h.took p r := by
  have htook : (if p.isFinal then ({ h with out := r, taken := 0, rst := false, baud := p.baud.getD h.baud } : HostPort).closeOpen p.target
      else { h with out := r, taken := 0, rst := false, baud := p.baud.getD h.baud }) = h.took p r := by
    unfold HostPort.took HostPort.closeOpen
    cases p.isFinal <;> rfl
  rw [HostPort.takePacket, ho, ← htook]

/-- A packet taken, where no event was lost. -/
theorem takePacket_took (ho : h.out = p :: r) (hl : p.isEvent = false ∨ h.lost = 0) : h.takePacket = h.took p r := by
  rw [takePacket_cons ho]
  rcases hl with hl | hl
  · rw [hl, if_neg Bool.false_ne_true]
  · rw [HostPort.tellLost, if_pos (show (h.took p r).lost = 0 from hl), ite_self]

/-- The slot of an event that was taken takes EVT_LOST (R331). -/
theorem takePacket_tells (ho : h.out = p :: r) (he : p.isEvent = true) (hl : h.lost ≠ 0) (hn : (r.filter (·.isEvent)).length < 16) :
    h.takePacket = { h.took p r with
      lost := 0
      eseq := h.eseq + 1
      out := r ++ [{ bytes := packetBytes 0xE5 0 h.eseq 0x0F 0x0002
                       (leBytes 2 h.lost ++ leBytes 2 h.lostFirst.toNat ++ leBytes 2 h.lostLast.toNat),
                     isEvent := true, isFinal := false, target := 0x0F, baud := none }] } := by
  have hcount : ¬16 ≤ ({ h.took p r with lost := 0 } : HostPort).eventCount := Nat.not_le.2 hn
  rw [takePacket_cons ho, if_pos he, HostPort.tellLost, if_neg (show (h.took p r).lost ≠ 0 from hl), HostPort.postEvent, if_neg,
    if_neg hcount]
  · rfl
  · simp [HostPort.masks]

/-- The last byte takes the packet. -/
theorem takeBytes_whole (n : Nat) : ∀ h : HostPort, h.out = p :: r → h.taken + (n + 1) = p.bytes.length →
    HostPort.takeBytes (n + 1) h = h.takePacket := by
  induction n with
  | zero =>
    intro h ho hn
    rw [takeBytes_cons 0 ho, if_pos (Nat.le_of_eq hn.symm), HostPort.takeBytes, takePacket_cons (h := { h with taken := h.taken + 1 }) ho,
      takePacket_cons ho]
    rfl
  | succ n ih =>
    intro h ho hn
    rw [takeBytes_cons (n + 1) ho, if_neg (by omega), ih { h with taken := h.taken + 1 } ho (by show h.taken + 1 + (n + 1) = _; omega),
      takePacket_cons (h := { h with taken := h.taken + 1 }) ho, takePacket_cons ho]
    rfl

end

/-! ## Rows that change one host port -/

section
variable {s : State} {i : Instr} {q : HostNum} {g : State → HostPort → HostPort} {h : HostPort}

theorem hostBecomes_if {c : State → Bool} (e : exec i = run fun s => if c s then s.modHost q (g s) else s)
    (hr : s.raised = []) (hc : c s = true)
    (hg : g s (s.host q) = h) : HostBecomes i s q h :=
  exec_to e ((if_pos hc).trans (congrArg (fun x => { s with hosts := s.hosts.set q x }) hg)) hr rfl

theorem hostBecomes_out (e : exec i = run fun s => if s.dev.inReset then s else s.modHost q (g s)) (hr : s.raised = [])
    (hd : s.dev.inReset = false) (hg : g s (s.host q) = h) : HostBecomes i s q h :=
  exec_to e ((if_neg (by rw [hd]; exact Bool.false_ne_true)).trans (congrArg (fun x => { s with hosts := s.hosts.set q x }) hg)) hr rfl

/-- Two rows of one effect have one next state. -/
theorem exec_effect {j : Instr} {f g : State → State} (e : exec i = run f) (e' : exec j = run g) (h : f s = g s) : exec i s = exec j s := by
  rw [e, e', run, run, h]

theorem hostRuns_of (hd : s.dev.inReset = false) (ha : (s.host q).awake = true) : s.hostRuns q = true := by
  rw [State.hostRuns, hd, ha]
  rfl

/-! ## Chains that expire (R327, R390) -/

/-- What an IMAGE_LOAD chain without its last segment leaves of the flash: its slot invalid. -/
theorem chainLost_flash (u : State) (opcode : Half) :
    u.chainLost opcode = { u with flashState := if opcode = 0x0A00 then u.flashState.set u.loadSlot 2 else u.flashState } := by
  unfold State.chainLost
  split <;> rfl

end

end Sys2Proof.Machine

open Sys2Proof Sys2Proof.Machine

/-- Settles O35, by what the receiver and the stream do with each byte. -/
theorem transportsCarryTheirBytesAndPackets : Obligations.TransportsCarryTheirBytesAndPackets := by
  unfold Obligations.TransportsCarryTheirBytesAndPackets
  refine ⟨fun s hp hraised hd => ?spi, fun s hraised hd => ?bytes, fun s q hraised hruns => ?stream⟩
  case spi =>
    intro q h
    refine ⟨fun hx => hostBecomes_out rfl hraised hd (if_pos hx), fun hx => hostBecomes_out rfl hraised hd (if_pos hx),
      fun b n hx h2 h3 h5 => hostBecomes_out rfl hraised hd (if_pos ⟨hx, h2, h3, h5⟩),
      fun hp hr => hostBecomes_out rfl hraised hd (congrArg (fun x : HostPort => { x with spi := .idle }) (boundary_hunting hp hr)),
      fun hx => hostBecomes_out rfl hraised hd (congrArg (fun x : HostPort => { x with spi := .idle }) (boundary_cut hx)),
      fun n hx ha => ?read, fun flags seq target opcode payload hx hn hp hr => ?write⟩
    case read =>
      have hread : ∀ {g : HostPort}, HostPort.takeBytes n { h with spi := .read } = g → HostBecomes (.spiRead hp n) s q g := fun hg =>
        hostBecomes_out rfl hraised hd ((if_pos hx).trans ((if_pos ha).trans hg))
      refine ⟨fun ho => hread (takeBytes_empty n _ ho), fun p r ho hn => hread (takeBytes_short n _ ho hn), fun p r ho hn h0 hl => hread ?_⟩
      obtain ⟨m, rfl⟩ : ∃ m, n = m + 1 := ⟨n - 1, by omega⟩
      exact (takeBytes_whole m { h with spi := .read } ho hn).trans ((takePacket_took (h := { h with spi := .read }) ho hl).trans rfl)
    case write =>
      intro l
      refine ⟨fun ha hroom => hostBecomes_out rfl hraised hd ((if_pos hx).trans ((if_pos ha).trans ?_)),
        fun ha => hostBecomes_out rfl hraised hd ((if_pos hx).trans ((if_neg ?_).trans ?_))⟩
      · exact (receive_framed (h := { h with spi := .write }) (cmdBytes_framed _ _ _ _ hn) hp hr hroom).trans rfl
      · rw [show ({ h with spi := .write } : HostPort).awake = false from ha]
        exact Bool.false_ne_true
      · exact (lose_sync (h := { h with spi := .write }) hp).trans rfl
  case bytes =>
    intro u w
    have clocked : u.awake = true → s.pcrGet CLKCTL.XTAL_OK = 1 → (u.awake && s.pcrGet CLKCTL.XTAL_OK == 1) = true := fun ha hx => by
      rw [Bool.and_eq_true, beq_iff_eq]
      exact ⟨ha, hx⟩
    have uart : ∀ {b : Byte} {g : HostPort}, u.awake = true → s.pcrGet CLKCTL.XTAL_OK = 1 → u.feed1 true b = (g, []) →
        HostBecomes (.uartByteReceived b) s 2 g := fun ha hx hf =>
      hostBecomes_out rfl hraised hd ((if_pos (clocked ha hx)).trans (receive_one hf))
    have runs : w.awake = true → s.hostRuns 3 = true := fun ha => hostRuns_of (q := 3) hd ha
    have i2c : ∀ {b : Byte} {g : HostPort}, w.awake = true → w.i2c = some false → w.feed1 false b = (g, []) →
        HostBecomes (.i2cWriteByte b) s 3 g := fun ha hi hf =>
      hostBecomes_if (c := fun s => s.hostRuns 3 && (s.host 3).i2c == some false) rfl hraised
        (by rw [Bool.and_eq_true, beq_iff_eq]; exact ⟨runs ha, hi⟩) (receive_one hf)
    have reads : w.awake = true → w.i2c = some true → (s.hostRuns 3 && (s.host 3).i2c == some true) = true := fun ha hi => by
      rw [Bool.and_eq_true, beq_iff_eq]
      exact ⟨runs ha, hi⟩
    refine ⟨fun ha hx hr hroom => ⟨fun b flags seq target opcode payload hn hl => ?uartLast, fun b hb hp => ?uartInside,
        fun b hp hb => uart ha hx (feed1_junk hp hr hb)⟩, fun hx b => ?uartClock,
      fun hp hr => ⟨?gap, ?brk⟩, fun hx => ⟨?gapCut, ?brkCut⟩, fun ha p r ho hn => ?uartSent,
      fun ha hp hr => ⟨fun rd => ?i2cStart, ?i2cStop⟩,
      fun ha hx => ⟨fun rd => ?i2cRestart, ?i2cCut⟩,
      fun ha hi hr hroom => ⟨fun b flags seq target opcode payload hn hl => ?i2cLast, fun b hb hp => ?i2cInside⟩,
      fun ha hi => ⟨fun hf => ?i2cStatus, fun hf p r ho hn => ?i2cRead⟩⟩
    case uartLast =>
      obtain ⟨hb, hframe⟩ := framed_last (hl ▸ cmdBytes_framed flags seq target opcode hn)
      exact uart ha hx (feed1_lands hr hroom hb hframe)
    case uartInside => exact uart ha hx (feed1_stored hr hroom hb hp)
    case uartClock => exact hostBecomes_out rfl hraised hd (if_neg (by rw [hx, Bool.and_eq_true]; exact fun h => absurd h.2 (by decide)))
    case gap => exact hostBecomes_out rfl hraised hd (boundary_hunting hp hr)
    case brk => exact hostBecomes_out rfl hraised hd (boundary_hunting hp hr)
    case gapCut => exact hostBecomes_out rfl hraised hd (boundary_cut hx)
    case brkCut => exact hostBecomes_out rfl hraised hd (boundary_cut hx)
    case uartSent => exact hostBecomes_if rfl hraised (hostRuns_of hd ha) (takeBytes_short 1 u ho hn)
    case i2cStart =>
      exact hostBecomes_if rfl hraised (runs ha) (congrArg (fun x : HostPort => { x with i2c := some rd, i2cFirst := true })
        (boundary_hunting hp hr))
    case i2cStop => exact hostBecomes_if rfl hraised (runs ha) (congrArg (fun x : HostPort => { x with i2c := none })
      (boundary_hunting hp hr))
    case i2cRestart =>
      exact hostBecomes_if rfl hraised (runs ha)
        (congrArg (fun x : HostPort => { x with i2c := some rd, i2cFirst := true }) (boundary_cut hx))
    case i2cCut => exact hostBecomes_if rfl hraised (runs ha) (congrArg (fun x : HostPort => { x with i2c := none }) (boundary_cut hx))
    case i2cLast =>
      obtain ⟨hb, hframe⟩ := framed_last (hl ▸ cmdBytes_framed flags seq target opcode hn)
      exact i2c ha hi (feed1_lands hr hroom hb hframe)
    case i2cInside => exact i2c ha hi (feed1_stored hr hroom hb hp)
    case i2cStatus =>
      exact hostBecomes_if (c := fun s => s.hostRuns 3 && (s.host 3).i2c == some true) rfl hraised (reads ha hi) (if_pos hf)
    case i2cRead =>
      exact hostBecomes_if (c := fun s => s.hostRuns 3 && (s.host 3).i2c == some true) rfl hraised (reads ha hi)
        ((if_neg (by rw [hf]; exact Bool.false_ne_true)).trans (takeBytes_short 1 w ho hn))
  case stream =>
    intro h
    refine ⟨fun p r ho hl => hostBecomes_if rfl hraised hruns (takePacket_took ho hl),
      fun p r ho he hl hn => hostBecomes_if rfl hraised hruns (takePacket_tells ho he hl hn), fun p r hm => ?next,
      fun p r ho hn => ⟨fun hq => ?uart, fun hq hi hf => ?i2c⟩, fun t ch hc hx => ?expiry⟩
    case next =>
      refine hostBecomes_if (g := fun _ => HostPort.nextPacket) rfl hraised hruns ?_
      rw [HostPort.nextPacket, hm]
      rfl
    case uart =>
      subst hq
      exact exec_effect (f := fun s => if s.hostRuns 2 then s.modHost 2 (HostPort.takeBytes 1) else s)
        (g := fun s => if s.hostRuns 2 then s.modHost 2 HostPort.takePacket else s) rfl rfl
        ((if_pos hruns).trans ((s.modHost_congr 2 _ _ (takeBytes_whole 0 _ ho hn)).trans (if_pos hruns).symm))
    case i2c =>
      subst hq
      have hreads : (s.hostRuns 3 && (s.host 3).i2c == some true) = true := by
        rw [Bool.and_eq_true, beq_iff_eq]
        exact ⟨hruns, hi⟩
      have htakes : (if (s.host 3).i2cFirst then { s.host 3 with i2cFirst := false } else HostPort.takeBytes 1 (s.host 3)) =
        (s.host 3).takePacket :=
        (if_neg (by rw [hf]; exact Bool.false_ne_true)).trans (takeBytes_whole 0 _ ho hn)
      exact exec_effect (f := fun s => if s.hostRuns 3 && (s.host 3).i2c == some true then
          s.modHost 3 fun h => if h.i2cFirst then { h with i2cFirst := false } else h.takeBytes 1 else s)
        (g := fun s => if s.hostRuns 3 then s.modHost 3 HostPort.takePacket else s) rfl rfl
        ((if_pos hreads).trans ((s.modHost_congr 3 _ _ htakes).trans (if_pos hruns).symm))
    case expiry =>
      have htarget : ch.target = t := eq_of_beq (List.find?_some hc :)
      subst htarget
      refine exec_to rfl ?_ hraised rfl
      show (match (s.host q).chainOf ch.target with
        | some ch => _
        | none => s) = _
      rw [show (s.host q).chainOf ch.target = some ch from hc]
      refine (if_neg (by rw [hx]; exact Bool.false_ne_true)).trans ((chainLost_flash _ _).trans ?_)
      rfl
end

section
/-! PROOF. The checks of R322 in their order, and the packets that are held, repeated, ignored or in contention (R305, R319-R324,
R329, R333, R337, R480, R596). -/

namespace Sys2Proof.Machine

/-! ## The rows of the command reference (R344-R348) -/

/-- Check 8 of the row looks at no outstanding command. -/
def GateBlind (o : Op) : Prop := ∀ c d s, o.gate c (s.opened d) = o.gate c s

theorem gateBlind_reload : GateBlind opEngineReload := fun c d s => gateReload_opened s d c

theorem hostOp_gate {i : Instr} {o : Op} {h : HostCmd} (e : hostOp i = some (o, h)) : GateBlind o := by
  cases i
  case engineReload => cases e; exact gateBlind_reload
  all_goals cases e <;> exact fun _ _ _ => rfl

/-- Only a segment of IMAGE_LOAD leaves anything but its bytes in the chain (R390). -/
theorem hostOp_segment {i : Instr} {o : Op} {h : HostCmd} (e : hostOp i = some (o, h)) :
    o = opImageLoad ∨ ∀ c n s, o.onSegment c n s = s := by
  cases i
  case imageLoad => cases e; exact .inl rfl
  all_goals cases e <;> exact .inr fun _ _ _ => rfl

/-! ## Checks 2 to 6 (R322) -/

section
variable {s : State} {o : Op} {c : Cmd}

theorem checkEarly_elsewhere (ho : c.target.toNat ∉ o.targets) : s.checkEarly (some o) c = some St.BAD_PARAM := by
  unfold State.checkEarly
  split
  · rfl
  · exact if_pos (by simpa using ho)

section
variable (ht : c.target.toNat ∈ ownTargets) (ho : c.target.toNat ∈ o.targets)
include ht ho

theorem checkEarly_mode : s.checkEarly (some o) c =
    if !s.dev.full && !o.kindling then some St.BUSY
    else if s.dev.full && !o.full then some St.BAD_PARAM
    else if c.flags.toNat / 4 ≠ 0 then some St.BAD_PARAM
    else if !o.anyHost && !s.owns c.hp c.target.toNat then some St.NOT_OWNER
    else none :=
  (if_neg (by simpa using ht)).trans (if_neg (by simpa using ho))

variable (hm : (if s.dev.full then o.full else o.kindling) = true)
include hm

theorem checkEarly_offered : s.checkEarly (some o) c =
    if c.flags.toNat / 4 ≠ 0 then some St.BAD_PARAM
    else if !o.anyHost && !s.owns c.hp c.target.toNat then some St.NOT_OWNER
    else none := by
  have hmode : ¬(!s.dev.full && !o.kindling) = true ∧ ¬(s.dev.full && !o.full) = true := by
    cases hf : s.dev.full <;> rw [hf] at hm <;> simpa using hm
  rw [checkEarly_mode ht ho, if_neg hmode.1, if_neg hmode.2]

theorem checkEarly_flags (hf : c.flags.toNat < 4) : s.checkEarly (some o) c =
    if !o.anyHost && !s.owns c.hp c.target.toNat then some St.NOT_OWNER else none := by
  rw [checkEarly_offered ht ho hm, if_neg (by omega)]

end

theorem EarlyOk.passes {h : HostCmd} (k : EarlyOk s o h) (ht : h.target.toNat ∈ ownTargets) : s.checkEarly (some o) (o.cmd h) = none := by
  rw [checkEarly_flags (c := o.cmd h) ht k.target k.mode k.flags]
  refine if_neg ?_
  rcases k.owner with hx | hx
  · rw [hx]; simp
  · rw [show s.owns (o.cmd h).hp (o.cmd h).target.toNat = true from hx]; simp

/-! ## Check 8 and what follows (R322, R326, R327) -/

/-- The target of the command is held, or its row refuses it now (R175, R336, R338, R347). -/
def State.refuses (s : State) (o : Op) (c : Cmd) : Bool := s.targetHeld o c || o.gate c s

theorem refuses_opened (hg : GateBlind o) (d : Cmd) : (s.opened d).refuses o c = s.refuses o c := by
  rw [State.refuses, State.refuses, hg c d s, targetHeld_congr (s := s) (t := s.opened d) o c rfl rfl rfl rfl]

theorem targetFree_iff {h : HostCmd} : TargetFree s o h ↔ s.refuses o (o.cmd h) = false := by
  rw [TargetFree, State.refuses, Bool.or_eq_false_iff]

section
variable {x : Chain}

theorem decideOp_chainless (hc : (s.host c.hp).chainOf c.target = none) : s.decideOp o c false =
    if c.flags.getLsbD 1 then (s.dropChain c.hp c.target).respond c St.OK
    else if s.refuses o c then s.respond c St.BUSY
    else if c.flags.getLsbD 0 then s.segment o c [] else s.conclude o c [] := by
  unfold State.decideOp
  rw [hc]
  rfl

theorem decideOp_chain (hc : (s.host c.hp).chainOf c.target = some x) (hx : x.expired = false) (ho : x.opcode = c.opcode) :
    s.decideOp o c false =
      if c.flags.getLsbD 1 then (s.dropChain c.hp c.target).respond c St.OK
      else if s.refuses o c then s.respond c St.BUSY
      else if c.flags.getLsbD 0 then s.segment o c x.data else s.conclude o c x.data := by
  unfold State.decideOp
  rw [hc]
  simp only [Option.any_some, hx, ho, Bool.false_and, Bool.not_false, beq_self_eq_true, Bool.not_true, Bool.and_false, Bool.false_eq_true, if_false]
  rfl

theorem decideOp_otherChain (hc : (s.host c.hp).chainOf c.target = some x) (hx : x.expired = false) (ho : x.opcode ≠ c.opcode) :
    s.decideOp o c false = s.respond c St.BUSY := by
  unfold State.decideOp
  rw [hc]
  have hne : (x.opcode == c.opcode) = false := beq_eq_false_iff_ne.2 ho
  simp [hx, hne]

theorem decideOp_expired (hc : (s.host c.hp).chainOf c.target = some x) (hx : x.expired = true) (ho : x.opcode = c.opcode) :
    s.decideOp o c false = (s.modHost c.hp fun h => h.noChain c.target).respond c St.TIMEOUT := by
  unfold State.decideOp
  rw [hc]
  simp [hx, ho]

end

theorem chainOf_none {q : HostPort} {t : Byte} (h : ∀ x ∈ q.chains, x.target ≠ t) : q.chainOf t = none :=
  List.find?_eq_none.2 fun x hx => by simpa using h x hx

theorem dropChain_chainless {q : HostNum} {t : Byte} (h : (s.host q).chainOf t = none) : s.dropChain q t = s := by
  unfold State.dropChain
  rw [h]

theorem chainOf_opened (d : Cmd) (q : HostNum) (t : Byte) : ((s.opened d).host q).chainOf t = (s.host q).chainOf t := by
  unfold HostPort.chainOf
  rw [State.opened_host_chains]

end

/-! ## Check 9 and the wait for the PLL (R480, R596) -/

section
variable {s : State} {o : Op} {c : Cmd}

theorem conclude_misfits (hl : ¬(o.lens c.target.toNat c.payload.length = true ∧ c.payload.length ≤ o.bound)) :
    s.conclude o c [] = (s.dropChain c.hp c.target).respond c St.BAD_LENGTH := by
  refine if_pos ?_
  rw [not_and_or, Nat.not_le, Bool.not_eq_true, ← Bool.not_eq_true'] at hl
  exact hl.symm

theorem endChain_none {h : HostPort} {t : Byte} (hc : h.chainOf t = none) : h.endChain t = h := by
  have hne : ∀ x ∈ h.chains, (x.target != t || x.expired) = true := fun x hx => by
    have := List.find?_eq_none.1 hc x hx
    simp only [beq_iff_eq] at this
    rw [bne_iff_ne.2 this, Bool.true_or]
  unfold HostPort.endChain
  rw [List.filter_eq_self.2 hne]

theorem conclude_fits (hl : o.lens c.target.toNat c.payload.length = true ∧ c.payload.length ≤ o.bound)
    (hseg : ∀ u, o.onSegment c 0 u = u) (hp : (o.needsPll c && s.pllAwaited) = true) (hc : (s.host c.hp).chainOf c.target = none) :
    s.conclude o c [] = (s.pcrSet CLKCTL.PLL_EN 1).begin c .lock := by
  have hfits : ¬(o.bound < c.payload.length ∨ (!o.lens c.target.toNat c.payload.length) = true) := by
    rw [not_or, Nat.not_lt, hl.1]
    exact ⟨hl.2, Bool.false_ne_true⟩
  have hchains : (o.onSegment c 0 s).modHost c.hp (fun h => h.endChain c.target) = s := by
    rw [hseg]
    exact s.modHost_id c.hp _ (endChain_none hc)
  refine (if_neg hfits).trans ?_
  show (if (o.needsPll c && ((o.onSegment c 0 s).modHost c.hp fun h => h.endChain c.target).pllAwaited) = true then
    (((o.onSegment c 0 s).modHost c.hp fun h => h.endChain c.target).pcrSet CLKCTL.PLL_EN 1).begin c .lock else _) = _
  rw [hchains]
  exact if_pos hp

end

/-! ## Rows that answer at once -/

section
variable {s u : State} {i : Instr} {o : Op} {h : HostCmd} {f : State → State} {st : Nat}

/-- A command that arrived and is answered with a status. -/
theorem exec_ends (a : Arrives s o h) (e : exec i = run f) (hf : f s = (u.opened (o.cmd h)).respond (o.cmd h) st) (hr : u.raised = s.raised)
    (hm : (u.host h.hp).more = (s.host h.hp).more) (ho : (u.host h.hp).open_ = (s.host h.hp).open_) (hq : u.pending = s.pending) :
    exec i s = .next (u.answered (o.cmd h) st []) :=
  exec_flush e hf (respondPkts_flush (hr.trans a.quiet) (by rw [Op.cmd_hp, hm, a.stream])
    (fun x hx => (a.first x (by rw [Op.cmd_hp, ho] at hx; exact hx)).1) (by simp)) hq

/-- A command that fails one of checks 2 to 6. -/
theorem exec_early (e : hostOp i = some (o, h)) (a : Arrives s o h) (hc : s.checkEarly (some o) (o.cmd h) = some st) :
    exec i s = .next (s.answered (o.cmd h) st []) :=
  exec_ends a (hostOp_exec e) ((arrives_checks a).trans (by rw [hc])) rfl rfl rfl rfl

theorem arrives_decideOp (a : Arrives s o h) (hc : s.checkEarly (some o) (o.cmd h) = none) :
    s.decideLanded.hostRow o h = (s.opened (o.cmd h)).decideOp o (o.cmd h) false :=
  (arrives_checks a).trans (by rw [hc])

end

end Sys2Proof.Machine

open Sys2Proof Sys2Proof.Machine

/-- Settles O48, by the checks in their order. -/
theorem commandsAreJudgedInTheOrderOfTheChecks : Obligations.CommandsAreJudgedInTheOrderOfTheChecks := by
  unfold Obligations.CommandsAreJudgedInTheOrderOfTheChecks
  intro i o h s e a ends t mode
  have hown : t ∈ o.targets → t ∈ ownTargets := hostOp_targets e
  refine ⟨fun ho => exec_early e a (checkEarly_elsewhere ho), fun ho hf hk => exec_early e a ?kindling, fun ho hf hk => exec_early e a ?full,
    fun ho hm hf => exec_early e a ?flags, fun ho hm hf hh hw => exec_early e a ?owner, fun k hf hn => ?late⟩
  case kindling => exact (checkEarly_mode (c := o.cmd h) (hown ho) ho).trans (if_pos (by rw [hf, hk]; rfl))
  case full =>
    exact (checkEarly_mode (c := o.cmd h) (hown ho) ho).trans ((if_neg (by rw [hf]; simp)).trans (if_pos (by rw [hf, hk]; rfl)))
  case flags =>
    exact (checkEarly_offered (c := o.cmd h) (hown ho) ho hm).trans (if_pos (by show h.flags.toNat / 4 ≠ 0; omega))
  case owner =>
    exact (checkEarly_flags (c := o.cmd h) (hown ho) ho hm hf).trans (if_pos (by rw [hh, show s.owns (o.cmd h).hp (o.cmd h).target.toNat = false from hw]; rfl))
  case late =>
    let c := o.cmd h
    have hchain : ((s.opened c).host c.hp).chainOf c.target = none := (chainOf_opened ..).trans (chainOf_none hn)
    have hflags : c.flags = 0 := hf
    have hdecides : s.decideLanded.hostRow o h = if s.refuses o c then (s.opened c).respond c St.BUSY else (s.opened c).conclude o c [] := by
      rw [arrives_decideOp a (k.passes (hown k.target)), decideOp_chainless hchain, refuses_opened (hostOp_gate e), hflags]
      rfl
    refine ⟨fun hheld => ?held, fun hfree => ⟨fun hl => ?length, fun hl hp => ?pll⟩⟩
    case held =>
      rw [targetFree_iff, Bool.not_eq_false] at hheld
      exact exec_ends a (hostOp_exec e) (hdecides.trans (if_pos hheld)) rfl rfl rfl rfl
    case length =>
      have hgoes := hdecides.trans (if_neg (by rw [targetFree_iff.1 hfree]; exact Bool.false_ne_true))
      refine exec_ends a (hostOp_exec e) (hgoes.trans ((conclude_misfits hl).trans ?_)) rfl rfl rfl rfl
      rw [dropChain_chainless hchain]
    case pll =>
      have hgoes := hdecides.trans (if_neg (by rw [targetFree_iff.1 hfree]; exact Bool.false_ne_true))
      have hsegment : ∀ u, o.onSegment c 0 u = u := by
        rcases hostOp_segment e with rfl | hseg
        · have h15 : h.target.toNat = 15 := List.mem_singleton.1 k.target
          have hneeds : opImageLoad.needsPll c = false := by
            show (decide (h.target.toNat < 8) && !isClaim opImageLoad.opcode || false) = false
            rw [h15]
            rfl
          rw [hneeds, Bool.false_and] at hp
          cases hp
        · exact fun u => hseg c 0 u
      rw [hostOp_exec e]
      refine run_to (hgoes.trans ((conclude_fits (s := s.opened c) (c := c) hl hsegment hp hchain).trans ?_)) (State.flush_nil _ a.quiet) rfl
      rfl
end

section
/-! PROOF. Packets that are held, repeated, ignored or in contention (R319-R321, R323, R324, R329, R333, R337). -/

namespace Sys2Proof.Machine

section
variable {s : State} {o : Op} {c : Cmd} {h : HostCmd}

/-! ## Packets that land alone (R319, R321, R333) -/

theorem hostRow_stopped (hr : s.hostRuns h.hp = false) : s.hostRow o h = s := if_pos (by rw [hr]; rfl)

section
variable (hr : s.hostRuns h.hp = true)
include hr

theorem hostRow_tooLong (hl : 4092 < h.payload.length) : s.hostRow o h = s.modHost h.hp fun x => x.count1 HPERR.TRUNC :=
  (if_neg (by rw [hr]; decide)).trans (if_pos hl)

theorem hostRow_held (hl : h.payload.length ≤ 4092) (hx : (s.host h.hp).ready = false) :
    s.hostRow o h = s.modHost h.hp fun x => { x with landed := x.landed ++ [(o.cmd h).raw] } :=
  (if_neg (by rw [hr]; decide)).trans ((if_neg (Nat.not_lt.2 hl)).trans (if_pos (by rw [hx]; rfl)))

theorem hostRow_decided (hl : h.payload.length ≤ 4092) (hx : (s.host h.hp).ready = true) :
    s.hostRow o h = (s.decideCmd ⟨[], none⟩ (some o) (o.cmd h)).2 :=
  (if_neg (by rw [hr]; decide)).trans ((if_neg (Nat.not_lt.2 hl)).trans (if_neg (by rw [hx]; decide)))

end

/-! ## Packets that come again (R323, R324) -/

theorem decideCmd_again {k : Contest} {op : Option Op} (hy : ∃ y ∈ (s.host c.hp).open_, y.raw = c.raw) : s.decideCmd k op c = (k, s) := by
  refine if_pos (List.any_eq_true.2 ?_)
  obtain ⟨y, hm, he⟩ := hy
  exact ⟨y, hm, beq_iff_eq.2 he⟩

section
variable (hy : ∀ y ∈ (s.host c.hp).open_, y.raw ≠ c.raw)
include hy

theorem decideCmd_first {k : Contest} {op : Option Op} : s.decideCmd k op c =
    match (s.host c.hp).kept.find? (fun x => x.target = c.target && x.raw == c.raw) with
    | some x => (k, s.resend c x)
    | none => match s.checkEarly op c, op with
      | some st, _ => (k, (s.opened c).respond c st)
      | none, none => (k, s.opened c)
      | none, some o =>
        if k.conflict o c then (k, (s.opened c).respond c St.CONFLICT)
        else (k.add o c, (s.opened c).decideOp o c ((s.host c.hp).open_.any fun y => y.target == c.target)) := by
  refine if_neg ?_
  rw [List.any_eq_true]
  rintro ⟨y, hm, he⟩
  exact hy y hm (beq_iff_eq.1 he)

theorem decideCmd_kept {k : Contest} {op : Option Op} {x : Kept}
    (hk : (s.host c.hp).kept.find? (fun x => x.target = c.target && x.raw == c.raw) = some x) : s.decideCmd k op c = (k, s.resend c x) := by
  rw [decideCmd_first hy, hk]

/-- A packet that repeats no exchange and passes checks 2 to 6 meets check 7 (R337). -/
theorem decideCmd_fresh {k : Contest} (hk : ∀ y ∈ (s.host c.hp).kept, y.raw ≠ c.raw) (hc : s.checkEarly (some o) c = none) :
    s.decideCmd k (some o) c =
      if k.conflict o c then (k, (s.opened c).respond c St.CONFLICT)
      else (k.add o c, (s.opened c).decideOp o c ((s.host c.hp).open_.any fun y => y.target == c.target)) := by
  have hnone : (s.host c.hp).kept.find? (fun x => x.target = c.target && x.raw == c.raw) = none :=
    List.find?_eq_none.2 fun y hm => by simp [hk y hm]
  rw [decideCmd_first hy, hnone, hc]

end

/-- The packets of one response reach the stream of their host port. -/
theorem flush_response {u v : State} {q : HostNum} {pkts : List OutPkt} (hv : v.raised = []) (hu : u = { v with raised := [OutItem.response q pkts] })
    (hm : (v.host q).more = []) (hp : pkts ≠ []) :
    u.flush = v.modHost q fun h => { h with out := h.out ++ pkts.take 1, more := pkts.drop 1 } := by
  obtain ⟨p, r, rfl⟩ := List.exists_cons_of_ne_nil hp
  have hback : ({ v with raised := [] } : State) = v := by rw [← hv]
  subst hu
  unfold State.flush
  simp only [postResponses, postEvents, pendsFor_response]
  rw [hback]
  refine v.modHost_congr q _ _ ?_
  show (v.host q).postResponse (p :: r) false = _
  unfold HostPort.postResponse
  rw [hm]
  rfl

/-- The packets of a kept exchange reach the stream again, unchanged (R324). -/
theorem resend_flush {x : Kept} (hr : s.raised = []) (hm : (s.host c.hp).more = []) (hp : x.pkts ≠ []) :
    (s.resend c x).flush = s.modHost c.hp fun h => { h with
      open_ := h.open_ ++ [⟨c.target, c.raw, true⟩], out := h.out ++ x.pkts.take 1, more := x.pkts.drop 1 } := by
  let v := s.modHost c.hp fun h => { h with open_ := h.open_ ++ [⟨c.target, c.raw, true⟩] }
  have hraised : s.resend c x = { v with raised := [OutItem.response c.hp x.pkts] } := by
    show ({ v with raised := s.raised ++ [_] } : State) = _
    rw [hr]
    rfl
  have hmore : (v.host c.hp).more = [] := by
    rw [State.modHost_host]
    exact hm
  rw [flush_response (v := v) hr hraised hmore hp, State.modHost_modHost]

/-! ## Contention within a tick (R337) -/

/-- What a command contends with: a claim of its target by another host port, or another co-owner's command of the device. -/
def Contest.Clashes (k : Contest) (o : Op) (c : Cmd) : Prop :=
  if isClaim o.opcode then ∃ x ∈ k.claims, x.1 = c.target.toNat ∧ x.2 ≠ c.hp
  else c.target.toNat = 15 ∧ o.anyHost = false ∧ ∃ q, k.device = some q ∧ q ≠ c.hp

theorem conflict_iff {k : Contest} : k.conflict o c = true ↔ k.Clashes o c := by
  unfold Contest.conflict Contest.Clashes
  split
  · simp
  · split
    · rename_i hd
      simp only [Bool.and_eq_true, decide_eq_true_iff, Bool.not_eq_true'] at hd
      simp [hd, Option.any_eq_true]
    · rename_i hd
      simp only [Bool.and_eq_true, decide_eq_true_iff, Bool.not_eq_true'] at hd
      simp only [Bool.false_eq_true, false_iff]
      exact fun hx => hd ⟨hx.1, hx.2.1⟩

/-! ## The packets of a tick (R320, R321) -/

/-- A packet whose CRC fails is counted and answered; no command is outstanding for it. -/
theorem badCrc_flush (hr : s.raised = []) (hm : (s.host c.hp).more = []) : (s.badCrc c).flush = s.modHost c.hp fun h =>
    { h.counted HPERR.CRC 1 with out := h.out ++ [respPkt c St.BAD_CRC [] 0 false none], more := [] } := by
  let v := s.modHost c.hp fun h => h.count1 HPERR.CRC
  have hraised : s.badCrc c = { v with raised := [OutItem.response c.hp [respPkt c St.BAD_CRC [] 0 false none]] } := by
    show ({ v with raised := s.raised ++ [_] } : State) = _
    rw [hr]
    rfl
  have hmore : (v.host c.hp).more = [] := by
    rw [State.modHost_host]
    exact hm
  rw [flush_response (v := v) hr hraised hmore (List.cons_ne_nil _ _), State.modHost_modHost]
  rfl

/-- One packet alone waits to be decided. -/
theorem landedCmds_one {q : HostNum} {raw : List Byte} (hd : s.dev.inReset = false) (hx : (s.host q).ready = true)
    (ha : (s.host q).awake = true) (hl : (s.host q).landed = [raw]) (hn : ∀ p, p ≠ q → (s.host p).landed = []) :
    s.landedCmds = [cmdOf q raw] := by
  have hone : ∀ p, (if (s.host p).ready && (s.host p).awake then (s.host p).landed.map (cmdOf p) else []) = if p = q then [cmdOf q raw] else [] := by
    intro p
    by_cases hp : p = q
    · subst hp
      rw [hx, ha, hl, if_pos (show p = p from rfl)]
      rfl
    · rw [hn p hp, List.map_nil, ite_self, if_neg hp]
  unfold State.landedCmds
  rw [if_neg (by rw [hd]; exact Bool.false_ne_true)]
  simp only [hone]
  clear hone hn hl ha hx
  fin_cases q <;> rfl

/-- The one packet of a tick, with a CRC that fails. -/
theorem decideLanded_badCrc {q : HostNum} {raw : List Byte} (hl : s.landedCmds = [cmdOf q raw]) (hc : CrcKind.crcO.ok raw = false) :
    s.decideLanded = (s.modHost q fun h => { h with landed := [] }).badCrc (cmdOf q raw) := by
  have hraw : CrcKind.crcO.ok (cmdOf q raw).raw = false := hc
  have hclaim : isClaimCmd (cmdOf q raw) = false := by rw [isClaimCmd, hraw, Bool.false_and]
  unfold State.decideLanded
  simp only [hl, List.filter_cons, List.filter_nil, hclaim, Bool.not_false, Bool.false_eq_true, if_false, if_true, List.nil_append, List.foldl_cons,
    List.foldl_nil, decideRaw, hraw]
  rfl

end

end Sys2Proof.Machine

open Sys2Proof Sys2Proof.Machine

/-- Settles O49, by what becomes of each packet before its command is judged. -/
theorem packetsAreHeldRepeatedOrIgnored : Obligations.PacketsAreHeldRepeatedOrIgnored := by
  unfold Obligations.PacketsAreHeldRepeatedOrIgnored
  refine ⟨fun i o h s e hraised hl => ?alone, fun s hraised => ⟨fun hl => ?quiet, ?tick, fun q raw hd hx ha hl hm hn hc => ?crc⟩,
    fun s k o c hy hk hc => ?clash⟩
  case alone =>
    let c := o.cmd h
    have goes {v : State} (hv : s.hostRow o h = v) (hr : v.raised = []) (hp : v.pending = s.pending) : exec i s = .next v :=
      exec_to (hostOp_exec e) ((congrArg (State.hostRow o h) (decideLanded_quiet hl)).trans hv) hr hp
    have flushes {v t : State} (hv : s.hostRow o h = v) (ht : v.flush = t) (hp : t.pending = s.pending) : exec i s = .next t :=
      exec_flush (hostOp_exec e) ((congrArg (State.hostRow o h) (decideLanded_quiet hl)).trans hv) ht hp
    refine ⟨fun hr => goes (hostRow_stopped hr) hraised rfl, fun hr hn => goes (hostRow_tooLong hr hn) hraised rfl,
      fun hr hn hx => goes ((hostRow_held hr hn hx).trans ?_) hraised rfl,
      fun hr hn hx => ⟨fun hy => goes ((hostRow_decided hr hn hx).trans (by rw [decideCmd_again hy])) hraised rfl,
        fun hy hm => ⟨fun k hk hp => ?kept, fun hkept hbusy hearly => ?busy⟩⟩⟩
    · refine s.modHost_congr h.hp _ (fun x => { x with landed := [c.raw] }) ?_
      rw [hl h.hp]
      rfl
    case kept =>
      exact flushes ((hostRow_decided hr hn hx).trans (by rw [decideCmd_kept hy hk])) (resend_flush hraised hm hp) rfl
    case busy =>
      have hbusy : ((s.host c.hp).open_.any fun y => y.target == c.target) = true :=
        List.any_eq_true.2 (hbusy.imp fun y hy => ⟨hy.1, beq_iff_eq.2 hy.2⟩)
      have hnoclash : ¬(⟨[], none⟩ : Contest).conflict o c = true := by
        rw [conflict_iff, Contest.Clashes]
        split <;> simp
      have hdecided : s.hostRow o h = (s.opened c).respond c St.BUSY := by
        rw [hostRow_decided hr hn hx, decideCmd_fresh hy hkept (hearly.passes (hostOp_targets e hearly.target)), if_neg hnoclash, hbusy]
        rfl
      exact flushes hdecided (respondPkts_flush hraised hm hy (List.cons_ne_nil _ _)) rfl
  case quiet => exact exec_to rfl (decideLanded_quiet hl) hraised rfl
  case tick => exact leaves_of rfl rfl
  case crc =>
    let v := s.modHost q fun h => { h with landed := [] }
    have hmore : (v.host q).more = [] := by
      rw [State.modHost_host]
      exact hm
    refine exec_flush rfl (decideLanded_badCrc (landedCmds_one hd hx ha hl hn) hc) ((badCrc_flush (s := v) hraised hmore).trans ?_) rfl
    refine (s.modHost_modHost q ..).trans (congrArg (fun x => ({ s with hosts := s.hosts.set q x } : State)) ?_)
    rw [← hm]
    rfl
  case clash =>
    intro clash
    have hfresh := decideCmd_fresh (k := k) hy hk hc
    exact ⟨fun hx => hfresh.trans (if_pos (conflict_iff.2 hx)), fun hx => hfresh.trans (if_neg (mt conflict_iff.1 hx))⟩
end

section
/-! PROOF. Chains: their segments, aborts, expiry and last segment, and codes that are no command (R322, R326-R328, R390). -/

namespace Sys2Proof.Machine

/-! ## The rows of the command reference -/

theorem allOps_gate : ∀ o ∈ allOps, GateBlind o := by
  simp only [allOps, ops00, ops01, ops02, ops03, ops04, ops05, ops06, ops07, ops08, ops09, ops0A, ops0B, ops0F, List.forall_mem_append,
    List.forall_mem_cons, List.not_mem_nil, IsEmpty.forall_iff, implies_true, and_true, gateBlind_reload, true_and]
  and_intros
  all_goals exact fun _ _ _ => rfl

theorem allOps_targets : ∀ o ∈ allOps, ∀ t ∈ o.targets, t ∈ ownTargets := by decide

section
variable {op : Half} {o : Op}

theorem opOf_gate (h : opOf op = some o) : GateBlind o := allOps_gate o (List.mem_of_find?_eq_some h)

theorem opOf_targets (h : opOf op = some o) {t : Nat} (ht : t ∈ o.targets) : t ∈ ownTargets :=
  allOps_targets o (List.mem_of_find?_eq_some h) t ht

variable (ho : opOf op = some o) (hc : BitVec.ofNat 16 o.opcode = op)
include ho hc

theorem exec_segment (h : HostCmd) : exec (.chainSegment h op) = run fun s => s.decideLanded.hostRow o (segOf h) := by
  subst hc
  show run (fun s => s.decideLanded.hostPacket (opOf _) _ (segOf h)) = _
  rw [ho]
  rfl

theorem exec_abort (h : HostCmd) : exec (.chainAbort h op) = run fun s => s.decideLanded.hostRow o (abortOf h) := by
  subst hc
  show run (fun s => s.decideLanded.hostPacket (opOf _) _ (abortOf h)) = _
  rw [ho]
  rfl

end

theorem abortOf_flag (h : HostCmd) : (abortOf h).flags.getLsbD 1 = true := by
  show (h.flags ||| 2).getLsbD 1 = true
  rw [BitVec.getLsbD_or]
  exact Bool.or_true _

/-! ## What becomes of a chain (R326, R327, R390) -/

section
variable {s : State} {o : Op} {c : Cmd}

theorem unchained_opened (u : State) (d : Cmd) : (u.opened d).modHost d.hp (fun h => h.noChain d.target) = (u.unchained d.hp d.target).opened d := by
  unfold State.opened State.unchained
  rw [State.modHost_modHost, State.modHost_modHost]
  rfl

theorem unchained_more (u : State) (q : HostNum) (t : Byte) : ((u.unchained q t).host q).more = (u.host q).more := by
  rw [State.unchained, State.modHost_host]

theorem unchained_open (u : State) (q : HostNum) (t : Byte) : ((u.unchained q t).host q).open_ = (u.host q).open_ := by
  rw [State.unchained, State.modHost_host]

theorem chained_more (u : State) (q : HostNum) (t : Byte) (p : Half) (l : List Byte) :
    ((u.chained q t p l).host q).more = (u.host q).more := by
  rw [State.chained, State.modHost_host]

theorem chained_open (u : State) (q : HostNum) (t : Byte) (p : Half) (l : List Byte) :
    ((u.chained q t p l).host q).open_ = (u.host q).open_ := by
  rw [State.chained, State.modHost_host]

theorem chained_opened (u : State) (d : Cmd) (l : List Byte) :
    (u.opened d).putChain d.hp ⟨d.target, d.opcode, l, false⟩ = (u.chained d.hp d.target d.opcode l).opened d := by
  unfold State.opened State.putChain State.chained
  rw [State.modHost_modHost, State.modHost_modHost]
  rfl

/-- What an IMAGE_LOAD chain that is cut leaves of the flash. -/
theorem opened_chainLost (u : State) (d : Cmd) (p : Half) : (u.opened d).chainLost p = (u.chainLost p).opened d := by
  rw [chainLost_flash, chainLost_flash]
  rfl

theorem chainLost_other (u : State) {p : Half} (hp : p ≠ 0x0A00) : u.chainLost p = u := if_neg hp

theorem dropChain_opened {x : Chain} (hc : (s.host c.hp).chainOf c.target = some x) (hx : x.expired = false) :
    (s.opened c).dropChain c.hp c.target = ((s.unchained c.hp c.target).chainLost x.opcode).opened c := by
  have hchain := (chainOf_opened (s := s) c c.hp c.target).trans hc
  rw [← opened_chainLost, ← unchained_opened]
  unfold State.dropChain
  rw [hchain]
  exact if_neg (by rw [hx]; exact Bool.false_ne_true)

section
variable {data : List Byte}

theorem segment_empty (hp : c.payload = []) : s.segment o c data = s.respond c St.BAD_LENGTH := if_pos (by rw [hp]; rfl)

variable (hp : c.payload ≠ [])
include hp

theorem segment_long (hl : o.bound < data.length + c.payload.length) :
    s.segment o c data = (s.dropChain c.hp c.target).respond c St.BAD_LENGTH :=
  (if_neg (by simpa using hp)).trans (if_pos hl)

theorem segment_joins (hl : data.length + c.payload.length ≤ o.bound) (hs : ∀ u n, o.onSegment c n u = u) :
    s.segment o c data = (s.putChain c.hp ⟨c.target, c.opcode, data ++ c.payload, false⟩).segAck c := by
  refine (if_neg (by simpa using hp)).trans ((if_neg (Nat.not_lt.2 hl)).trans ?_)
  rw [hs]

end

/-- A segment's acknowledgement reaches the stream of its host port. -/
theorem segAck_flush (hr : s.raised = []) (hm : (s.host c.hp).more = []) (ho : ∀ x ∈ (s.host c.hp).open_, x.raw ≠ c.raw) :
    ((s.opened c).segAck c).flush = s.acked c := by
  let p := respPkt c St.OK [] 2 true none
  let v := (s.opened c).modHost c.hp fun h => { h with
    open_ := markAnswered c.raw h.open_, kept := { target := c.target, raw := c.raw, pkts := [p] } :: h.kept.filter (·.target ≠ c.target) }
  have hraised : (s.opened c).segAck c = { v with raised := [OutItem.response c.hp [p]] } := by
    show ({ v with raised := s.raised ++ [_] } : State) = _
    rw [hr]
    rfl
  have hmore : (v.host c.hp).more = [] := by
    rw [State.modHost_host, State.opened, State.modHost_host]
    exact hm
  rw [flush_response (v := v) hr hraised hmore (List.cons_ne_nil _ _), State.modHost_modHost, State.opened, State.modHost_modHost]
  refine s.modHost_congr c.hp _ _ ?_
  simp only [markAnswered_last c _ ho]
  exact congrArg (fun m => ({ s.host c.hp with
    more := m, out := (s.host c.hp).out ++ [p], open_ := (s.host c.hp).open_ ++ [⟨c.target, c.raw, true⟩]
    kept := { target := c.target, raw := c.raw, pkts := [p] } :: (s.host c.hp).kept.filter (·.target ≠ c.target) } : HostPort)) hm.symm

/-- The last segment: the chain is over and the command runs with the bytes of them all (R326). -/
theorem conclude_runs {data : List Byte} (hb : data.length + c.payload.length ≤ o.bound)
    (hl : o.lens c.target.toNat (data.length + c.payload.length) = true) (hs : ∀ u n, o.onSegment c n u = u)
    (hp : (o.needsPll c && s.pllAwaited) = false) :
    s.conclude o c data = o.body { c with payload := data ++ c.payload } (s.modHost c.hp fun h => h.endChain c.target) := by
  have hfits : ¬(o.bound < (data ++ c.payload).length ∨ (!o.lens c.target.toNat (data ++ c.payload).length) = true) := by
    rw [List.length_append, not_or, Nat.not_lt, hl]
    exact ⟨hb, Bool.false_ne_true⟩
  refine (if_neg hfits).trans ?_
  rw [hs]
  exact if_neg (by rw [show (s.modHost c.hp fun h => h.endChain c.target).pllAwaited = s.pllAwaited from rfl, hp]; exact Bool.false_ne_true)

end

/-! ## Codes that are no command (R322) -/

theorem opNone_status {s : State} {c : Cmd} :
    s.checkEarly none c = some (if c.target.toNat ∈ ownTargets then St.UNKNOWN_OPCODE else St.BAD_PARAM) := by
  unfold State.checkEarly
  by_cases ht : c.target.toNat ∈ ownTargets <;> simp [ht]

end Sys2Proof.Machine

open Sys2Proof Sys2Proof.Machine

/-- Settles O50, by what each packet of a chain leaves of it. -/
theorem chainsCarryTheirSegments : Obligations.ChainsCarryTheirSegments := by
  unfold Obligations.ChainsCarryTheirSegments
  refine ⟨fun h op o s ho hop => ⟨?segment, ?abort⟩, fun h s a k x hx he hi => ?image,
    fun i o h s e a k hf hfree hpll hs x hx he hxo hb hl => ?last, fun h op s hop hr hl hruns hready hlen hm => ?unknown⟩
  case segment =>
    intro c i a k hf hfree
    have hopen : c.flags.getLsbD 1 = false := by
      show (h.flags ||| 1).getLsbD 1 = false
      rw [BitVec.getLsbD_or, hf]
      rfl
    have hmore : c.flags.getLsbD 0 = true := by
      show (h.flags ||| 1).getLsbD 0 = true
      rw [BitVec.getLsbD_or]
      exact Bool.or_true _
    have hpass : s.checkEarly (some o) c = none := k.passes (opOf_targets ho k.target)
    have hgate : (s.opened c).refuses o c = false := (refuses_opened (opOf_gate ho) c).trans (targetFree_iff.1 hfree)
    have hlookup {x : Option Chain} (hx : (s.host h.hp).chainOf h.target = x) : ((s.opened c).host c.hp).chainOf c.target = x :=
      (chainOf_opened ..).trans hx
    have ends {u : State} {st : Nat} (hrow : (s.opened c).decideOp o c false = (u.opened c).respond c st) (hr : u.raised = s.raised)
        (hm : (u.host h.hp).more = (s.host h.hp).more) (hq : (u.host h.hp).open_ = (s.host h.hp).open_) (hp : u.pending = s.pending) :
        exec i s = .next (u.answered c st []) :=
      exec_ends (h := segOf h) a (exec_segment ho hop h) ((arrives_decideOp a hpass).trans hrow) hr hm hq hp
    have joins {l : List Byte} (hrow : (s.opened c).decideOp o c false = ((s.opened c).putChain c.hp ⟨c.target, c.opcode, l, false⟩).segAck c) :
        exec i s = .next ((s.chained h.hp h.target op l).acked c) := by
      have hcode : c.opcode = op := hop
      rw [chained_opened, hcode] at hrow
      refine exec_flush (exec_segment ho hop h) ((arrives_decideOp a hpass).trans hrow) (segAck_flush a.quiet ?_ ?_) rfl
      · exact (chained_more ..).trans a.stream
      · exact fun x hx => (a.first x (chained_open s .. ▸ hx)).1
    have fresh (hn : NoChain s h) : (s.opened c).decideOp o c false = (s.opened c).segment o c [] := by
      rw [decideOp_chainless (hlookup (chainOf_none hn)), hopen, hgate, hmore]
      rfl
    refine ⟨fun hn hp => ?_, fun hn hp hl => ?_, fun hn hp hl hs => ?_, fun x hx he => ?_, fun x hx he hxo => ?_⟩
    · exact ends ((fresh hn).trans (segment_empty hp)) rfl rfl rfl rfl
    · refine ends ((fresh hn).trans ((segment_long (c := c) hp ((Nat.zero_add _).symm ▸ hl)).trans ?_)) rfl rfl rfl rfl
      rw [dropChain_chainless (hlookup (chainOf_none hn))]
    · exact joins ((fresh hn).trans (segment_joins (c := c) hp ((Nat.zero_add _).symm ▸ hl) hs))
    · have goes (hxo : x.opcode = op) : (s.opened c).decideOp o c false = (s.opened c).segment o c x.data := by
        rw [decideOp_chain (hlookup hx) he (hxo.trans hop.symm), hopen, hgate, hmore]
        rfl
      refine ⟨fun hxo => ?_, fun hxo hp => ?_, fun hxo hp hl hi => ?_, fun hxo hp hl hs => ?_⟩
      · exact ends (decideOp_otherChain (hlookup hx) he fun hy => hxo (hy.trans hop)) rfl rfl rfl rfl
      · exact ends ((goes hxo).trans (segment_empty hp)) rfl rfl rfl rfl
      · refine ends ((goes hxo).trans ((segment_long (c := c) hp hl).trans ?_)) rfl (unchained_more ..) (unchained_open ..) rfl
        rw [dropChain_opened (c := c) hx he, chainLost_other _ (hxo ▸ hi)]
        rfl
      · exact joins ((goes hxo).trans (segment_joins (c := c) hp hl hs))
    · refine ends ((decideOp_expired (hlookup hx) he (hxo.trans hop.symm)).trans ?_) rfl (unchained_more ..) (unchained_open ..) rfl
      rw [unchained_opened]
      rfl
  case abort =>
    intro c i a k
    have habort : c.flags.getLsbD 1 = true := abortOf_flag h
    have hpass : s.checkEarly (some o) c = none := k.passes (opOf_targets ho k.target)
    have hlookup {x : Option Chain} (hx : (s.host h.hp).chainOf h.target = x) : ((s.opened c).host c.hp).chainOf c.target = x :=
      (chainOf_opened ..).trans hx
    have ends {u : State} {st : Nat} (hrow : (s.opened c).decideOp o c false = (u.opened c).respond c st) (hr : u.raised = s.raised)
        (hm : (u.host h.hp).more = (s.host h.hp).more) (hq : (u.host h.hp).open_ = (s.host h.hp).open_) (hp : u.pending = s.pending) :
        exec i s = .next (u.answered c st []) :=
      exec_ends (h := abortOf h) a (exec_abort ho hop h) ((arrives_decideOp a hpass).trans hrow) hr hm hq hp
    refine ⟨fun hn => ?_, fun x hx he => ⟨fun hxo => ?_, fun hxo hi => ?_⟩⟩
    · have hnone := hlookup (chainOf_none hn)
      refine ends ((decideOp_chainless hnone).trans ((if_pos habort).trans ?_)) rfl rfl rfl rfl
      rw [dropChain_chainless hnone]
    · exact ends (decideOp_otherChain (hlookup hx) he fun hy => hxo (hy.trans hop)) rfl rfl rfl rfl
    · refine ends ((decideOp_chain (hlookup hx) he (hxo.trans hop.symm)).trans ((if_pos habort).trans ?_)) rfl (unchained_more ..) (unchained_open ..) rfl
      rw [dropChain_opened (c := c) hx he, chainLost_other _ (hxo ▸ hi)]
      rfl
  case image =>
    let c := opImageLoad.cmd (abortOf h)
    have hop : opOf 0x0A00 = some opImageLoad := rfl
    have hlookup : ((s.opened c).host c.hp).chainOf c.target = some x := (chainOf_opened ..).trans hx
    have hrow : (s.opened c).decideOp opImageLoad c false =
        (({ s.unchained h.hp h.target with flashState := s.flashState.set s.loadSlot 2 } : State).opened c).respond c St.OK := by
      refine (decideOp_chain hlookup he hi).trans ((if_pos (abortOf_flag h)).trans ?_)
      rw [dropChain_opened (c := c) hx he, chainLost_flash, if_pos hi]
      rfl
    exact exec_ends (h := abortOf h) a (exec_abort hop rfl h) ((arrives_decideOp a (k.passes (opOf_targets hop k.target))).trans hrow) rfl
      (unchained_more ..) (unchained_open ..) rfl
  case last =>
    let c := o.cmd h
    have hlookup : ((s.opened c).host c.hp).chainOf c.target = some x := (chainOf_opened ..).trans hx
    have hflags : c.flags = 0 := hf
    refine leaves_of (hostOp_exec e) ((arrives_decideOp a (k.passes (hostOp_targets e k.target))).trans ((decideOp_chain hlookup he hxo).trans ?_))
    rw [refuses_opened (hostOp_gate e), targetFree_iff.1 hfree, hflags]
    exact conclude_runs (s := s.opened c) (c := c) hb hl hs hpll
  case unknown =>
    intro raw c hopen hkept
    have hlen' : ¬4092 < (segOf h).payload.length := Nat.not_lt.2 hlen
    have hruns' : ¬(!s.hostRuns (segOf h).hp) = true := by rw [show s.hostRuns (segOf h).hp = true from hruns]; decide
    have hready' : ¬(!(s.host (segOf h).hp).ready) = true := by rw [show (s.host (segOf h).hp).ready = true from hready]; decide
    have hnone : (s.host c.hp).kept.find? (fun x => x.target = c.target && x.raw == c.raw) = none :=
      List.find?_eq_none.2 fun y hy => by simp [show y.raw ≠ c.raw from hkept y hy]
    have hrow : s.decideLanded.hostPacket (opOf op) op (segOf h) =
        (s.opened c).respond c (if h.target.toNat ∈ ownTargets then St.UNKNOWN_OPCODE else St.BAD_PARAM) := by
      rw [decideLanded_quiet hl, hop]
      refine (if_neg hruns').trans ((if_neg hlen').trans ((if_neg hready').trans ?_))
      show (s.decideCmd ⟨[], none⟩ none c).2 = _
      rw [decideCmd_first hopen, hnone, opNone_status]
    refine ⟨fun ht => ?_, fun ht => ?_⟩
    · rw [if_pos ht] at hrow
      exact exec_flush rfl hrow (respondPkts_flush hr hm hopen (List.cons_ne_nil _ _)) rfl
    · rw [if_neg ht] at hrow
      exact exec_flush rfl hrow (respondPkts_flush hr hm hopen (List.cons_ne_nil _ _)) rfl
end

section
/-! PROOF. Timer channels: arm, stop, compare, capture, stopped sources and their make-up (R458-R463, R466, R472). -/

namespace Sys2Proof.Machine

section
variable {i : Instr} {f : State → State} {s : State} {ch : Channel} {t : Cells}

/-- A row that leaves a channel's registers at `t`. -/
theorem exec_chan (e : exec i = run f) (hf : f s = s.setChan ch t) (hr : s.raised = []) : ChanBecomes i s ch t :=
  exec_to e hf ((setChan_rest s ch t).2.1.trans hr) (setChan_rest s ch t).2.2

/-! ## The compare fires (R461, R472) -/

/-- A channel whose compare has just fired. -/
def Cells.fired (t : Cells) : Cells := tset (tset t TMR_STAT.ARMED 0) TMR_STAT.CMP 1

theorem fired_evt (t : Cells) : tget (t.fired) TMR_CTL.EVT = tget t TMR_CTL.EVT := by
  rw [Cells.fired, tget_tset_ne _ _ _ _ (by decide) (by decide), tget_tset_ne _ _ _ _ (by decide) (by decide)]

theorem fired_missed (t : Cells) : tget (t.fired) TMR_STAT.MISSED = tget t TMR_STAT.MISSED := by
  rw [Cells.fired, tget_tset_ne _ _ _ _ (by decide) (by decide), tget_tset_ne _ _ _ _ (by decide) (by decide)]

/-- TMR_EXPIRED reaches the owner of the channel's target with EVT = 1, and nobody else. -/
theorem tmrExpired_flush (s : State) (ch : Channel) (hr : s.raised = []) : (s.tmrExpired ch).flush =
    s.told (s.chanTold ch) (chanTarget ch) 0x0B80 [chanIndex ch, BitVec.ofNat 8 (4 * tget (s.chan ch) TMR_STAT.MISSED)] := by
  unfold State.tmrExpired State.chanTold
  by_cases hevt : tget (s.chan ch) TMR_CTL.EVT = 1
  · simp only [if_pos hevt]
    cases ch with
    | port p c => exact raiseOwner_flush p.val 0x0B80 _ hr
    | global c => exact raiseDev_flush 0x0B80 _ hr
  · simp only [if_neg hevt]
    exact State.flush_nil s hr

theorem chanTold_congr {u v : State} (howner : ∀ n, u.ownerOf n = v.ownerOf n) (hco : u.coOwners = v.coOwners)
    (hevt : tget (u.chan ch) TMR_CTL.EVT = tget (v.chan ch) TMR_CTL.EVT) : u.chanTold ch = v.chanTold ch := by
  unfold State.chanTold
  rw [hevt]
  cases ch with
  | port p c => simp only [howner]
  | global c => simp only [hco]

theorem setChan_ownerOf (s : State) (ch : Channel) (x : Cells) (n : Nat) : (s.setChan ch x).ownerOf n = s.ownerOf n := by cases ch <;> rfl

theorem setChan_coOwners (s : State) (ch : Channel) (x : Cells) : (s.setChan ch x).coOwners = s.coOwners := by cases ch <;> rfl

theorem exec_fires (e : exec i = run f) (hf : f s = (s.setChan ch t).tmrFire ch) (hr : s.raised = []) : ChanFires i s ch t := by
  have hfire : (s.setChan ch t).tmrFire ch = (s.setChan ch t.fired).tmrExpired ch := by
    rw [State.tmrFire, State.chan_setChan, State.setChan_setChan]
    rfl
  have htold : (s.setChan ch t.fired).chanTold ch = (s.setChan ch t).chanTold ch := by
    refine chanTold_congr (fun n => ?_) ?_ ?_
    · rw [setChan_ownerOf, setChan_ownerOf]
    · rw [setChan_coOwners, setChan_coOwners]
    · rw [State.chan_setChan, State.chan_setChan, fired_evt]
  refine exec_flush e (hf.trans hfire) ((tmrExpired_flush _ ch ((setChan_rest s ch _).2.1.trans hr)).trans ?_)
    ((told_pending ..).trans (setChan_rest s ch _).2.2)
  rw [State.chan_setChan, fired_missed, htold]
  rfl

/-- The compare is evaluated on a channel that is armed and has reached it, else nothing happens. -/
theorem tmrEval_reached (ha : tget t TMR_STAT.ARMED = 1) (hc : tget t TMR_CMPV.V ≤ tget t TMR_COUNT.V) :
    (s.setChan ch t).tmrEval ch = (s.setChan ch t).tmrFire ch := by
  unfold State.tmrEval
  rw [State.chan_setChan]
  exact if_pos ⟨ha, hc⟩

theorem tmrEval_waits (h : tget t TMR_STAT.ARMED = 0 ∨ tget t TMR_COUNT.V < tget t TMR_CMPV.V) :
    (s.setChan ch t).tmrEval ch = s.setChan ch t := by
  unfold State.tmrEval
  rw [State.chan_setChan]
  exact if_neg (by omega)

end

/-! ## Arming and writes of the compare (R460-R462) -/

/-- A channel that has just been armed. -/
def Cells.armed (t : Cells) : Cells :=
  tset (tset (tset (tset (tset t TMR_COUNT.V 0) TMR_PACC.V 0) TMR_STAT.CMP 0) TMR_STAT.MISSED 0) TMR_STAT.ARMED 1

theorem armed_armed (t : Cells) : tget t.armed TMR_STAT.ARMED = 1 := tget_tset _ TMR_STAT.ARMED 1 (by decide)

theorem armed_count (t : Cells) : tget t.armed TMR_COUNT.V = 0 := by
  rw [Cells.armed, tget_tset_ne _ _ _ _ (by decide) (by decide), tget_tset_ne _ _ _ _ (by decide) (by decide),
    tget_tset_ne _ _ _ _ (by decide) (by decide), tget_tset_ne _ _ _ _ (by decide) (by decide)]
  exact tget_tset _ TMR_COUNT.V 0 (by decide)

theorem armed_cmpv (t : Cells) : tget t.armed TMR_CMPV.V = tget t TMR_CMPV.V := by
  rw [Cells.armed, tget_tset_ne _ _ _ _ (by decide) (by decide), tget_tset_ne _ _ _ _ (by decide) (by decide),
    tget_tset_ne _ _ _ _ (by decide) (by decide), tget_tset_ne _ _ _ _ (by decide) (by decide),
    tget_tset_ne _ _ _ _ (by decide) (by decide)]

theorem tmrArm_setChan (s : State) (ch : Channel) : s.tmrArm ch = (s.setChan ch (s.chan ch).armed).tmrEval ch := rfl

theorem tget_put_cmpv (t : Cells) (w : Word) :
    tget (Cells.put .tmr t TMR_CMPV.reg w) TMR_CMPV.V = w.toNat := tget_put_v _ TMR_CMPV.V w rfl rfl

theorem tmrWrite_presc (s : State) (ch : Channel) (w : Word) :
    s.tmrWrite ch TMR_PRESC.reg w = s.setChan ch (Cells.put .tmr (s.chan ch) TMR_PRESC.reg w) :=
  (if_neg (by decide)).trans ((if_neg (by decide)).trans (if_pos rfl))

theorem tmrWrite_cmpv (s : State) (ch : Channel) (w : Word) :
    s.tmrWrite ch TMR_CMPV.reg w = (s.setChan ch (Cells.put .tmr (s.chan ch) TMR_CMPV.reg w)).tmrEval ch :=
  (if_neg (by decide)).trans ((if_neg (by decide)).trans ((if_neg (by decide)).trans (if_pos rfl)))

theorem overrun_count (t : Cells) : tget (if tget t TMR_STAT.CAPV = 1 then tset t TMR_STAT.OVR 1 else t)
    TMR_COUNT.V = tget t TMR_COUNT.V := by
  split
  · exact tget_tset_ne _ _ _ _ (by decide) (by decide)
  · rfl

/-! ## Time added to a channel that counts (R459) -/

/-- The 1/65536 source periods that bring a channel to its compare. -/
def Cells.need (t : Cells) : Nat := (tget t TMR_CMPV.V - tget t TMR_COUNT.V) * tmrPresc t

theorem tmrPresc_pos (t : Cells) : 0 < tmrPresc t := Nat.lt_of_lt_of_le (by decide) (Nat.le_max_left _ _)

/-- Whole source periods that reach the compare: the count stands at it, and what is left of the last period stays in TMR_PACC. -/
theorem tmrAdvance_reaches {s : State} {ch : Channel} {x : Nat} (ha : tget (s.chan ch) TMR_STAT.ARMED = 1)
    (hc : tget (s.chan ch) TMR_COUNT.V ≤ tget (s.chan ch) TMR_CMPV.V) (hn : (s.chan ch).need ≤ tget (s.chan ch) TMR_PACC.V + x)
    (hr : tget (s.chan ch) TMR_PACC.V + x - (s.chan ch).need < tmrPresc (s.chan ch)) :
    s.tmrAdvance ch x = (s.setChan ch (tset (tset (s.chan ch) TMR_COUNT.V (tget (s.chan ch) TMR_CMPV.V)) TMR_PACC.V
      (tget (s.chan ch) TMR_PACC.V + x - (s.chan ch).need))).tmrFire ch := by
  generalize htotal : tget (s.chan ch) TMR_PACC.V + x = total at hn hr ⊢
  let t := s.chan ch
  have hticks : min (tget t TMR_CMPV.V - tget t TMR_COUNT.V) (total / tmrPresc t) = tget t TMR_CMPV.V - tget t TMR_COUNT.V :=
    Nat.min_eq_left ((Nat.le_div_iff_mul_le (tmrPresc_pos t)).2 hn)
  refine (if_pos ha).trans ?_
  simp only [htotal, t, hticks, Nat.add_sub_cancel' hc]
  rw [show (tget (s.chan ch) TMR_CMPV.V - tget (s.chan ch) TMR_COUNT.V) * tmrPresc (s.chan ch) = (s.chan ch).need from rfl,
    Nat.mod_eq_of_lt hr]
  refine tmrEval_reached ?_ ?_
  · rw [tget_tset_ne _ _ _ _ (by decide) (by decide), tget_tset_ne _ _ _ _ (by decide) (by decide), ha]
  · rw [tget_tset_ne _ _ _ _ (by decide) (by decide), tget_tset_ne _ _ _ _ (by decide) (by decide),
      tget_tset_ne _ _ _ _ (by decide) (by decide),
      tget_tset _ _ _ (by decide)]
    exact (Nat.mod_eq_of_lt (tget_lt _ TMR_CMPV.V)).ge

/-- The whole source periods, in 1/65536 of one, that an amount of time takes. -/
theorem wholePeriods (pacc need : Nat) : let x := (need - pacc + 65535) / 65536 * 65536
    need ≤ pacc + x ∧ (x = 0 ∨ pacc + x < need + 65536) := by
  intro x
  omega

theorem wholePeriods_rest {pacc need presc : Nat} (h : 65536 ≤ presc) (hp : pacc < presc) :
    pacc + (need - pacc + 65535) / 65536 * 65536 - need < presc := by omega

/-! ## The make-up of a stop interval (R466) -/

section
variable {s : State} {ch : Channel} {e : Nat}

/-- The ticks that a stop interval of `e` slow-clock periods makes up. -/
def Cells.makeupTicks (t : Cells) (e : Nat) : Nat := (tget t TMR_PACC.V + e * tmrFactor (tget t TMR_CTL.SRC)) / tmrPresc t

/-- A channel whose source runs again, with TMR_PACC and TMR_MAKEUP made up. -/
def Cells.madeUp (t : Cells) (e : Nat) : Cells :=
  tset (tset (tset t TMR_STAT.SRCSTOP 0) TMR_PACC.V ((tget t TMR_PACC.V + e * tmrFactor (tget t TMR_CTL.SRC)) % tmrPresc t))
    TMR_MAKEUP.V (min 0xFFFFFFFF (t.makeupTicks e))

theorem tget_srcstop (t : Cells) (f : Fld) (hd : f.apart TMR_STAT.SRCSTOP) : tget (tset t TMR_STAT.SRCSTOP 0) f = tget t f :=
  tget_tset_ne _ _ _ _ (by decide) hd

theorem tmrMakeup_idle (h : tget (s.chan ch) TMR_STAT.ARMED = 0 ∨ s.chanFrozen ch = true) :
    s.tmrMakeup ch e = s.setChan ch (tset (s.chan ch) TMR_STAT.SRCSTOP 0) := by
  refine if_neg ?_
  rw [tget_srcstop _ _ (by decide)]
  rintro ⟨ha, hf⟩
  rcases h with h | h
  · omega
  · exact Bool.false_ne_true (hf.symm.trans h)

section
variable (ha : tget (s.chan ch) TMR_STAT.ARMED = 1) (hf : s.chanFrozen ch = false)
include ha hf

theorem tmrMakeup_armed : s.tmrMakeup ch e =
    let t := s.chan ch
    let made := tset (t.madeUp e) TMR_COUNT.V (min (tget t TMR_CMPV.V) (tget t TMR_COUNT.V + t.makeupTicks e))
    if tget t TMR_CMPV.V ≤ tget t TMR_COUNT.V + t.makeupTicks e then (s.setChan ch (tset made TMR_STAT.MISSED 1)).tmrFire ch
    else s.setChan ch made := by
  refine (if_pos ⟨(tget_srcstop _ _ (by decide)).trans ha, hf⟩).trans ?_
  simp only [tget_srcstop _ TMR_PACC.V (by decide), tget_srcstop _ TMR_CTL.SRC (by decide), tget_srcstop _ TMR_COUNT.V (by decide),
    tget_srcstop _ TMR_CMPV.V (by decide), tmrPresc_congr _ _ (tget_srcstop (s.chan ch) TMR_PRESC.V (by decide))]
  rfl

theorem tmrMakeup_counts (hc : tget (s.chan ch) TMR_COUNT.V + (s.chan ch).makeupTicks e < tget (s.chan ch) TMR_CMPV.V) :
    s.tmrMakeup ch e = s.setChan ch (tset ((s.chan ch).madeUp e) TMR_COUNT.V
    (tget (s.chan ch) TMR_COUNT.V + (s.chan ch).makeupTicks e)) := by
  refine (tmrMakeup_armed ha hf).trans ((if_neg (Nat.not_le.2 hc)).trans ?_)
  rw [Nat.min_eq_right hc.le]

theorem tmrMakeup_reaches (hc : tget (s.chan ch) TMR_CMPV.V ≤ tget (s.chan ch) TMR_COUNT.V + (s.chan ch).makeupTicks e) :
    s.tmrMakeup ch e =
      (s.setChan ch (tset (tset ((s.chan ch).madeUp e) TMR_COUNT.V (tget (s.chan ch) TMR_CMPV.V)) TMR_STAT.MISSED 1)).tmrFire ch := by
  refine (tmrMakeup_armed ha hf).trans ((if_pos hc).trans ?_)
  rw [Nat.min_eq_left hc]

end

end

end Sys2Proof.Machine

open Sys2Proof Sys2Proof.Machine

/-- Settles O36, by the compare's evaluation on the registers that each row leaves. -/
theorem timerChannelsCountCompareAndCapture : Obligations.TimerChannelsCountCompareAndCapture := by
  unfold Obligations.TimerChannelsCountCompareAndCapture
  intro s ch hraised t armed
  refine ⟨fun hon => ⟨fun h => ?arm, fun h => ?fire, ?stop, fun w => ?presc, fun w h => ?write, fun w ha hc => ?writeFires⟩,
    fun ha hstop hfreeze hcount hpacc => ?compare, fun rising hon hpll hlo hhi hedge => ?capture, ?read, exec_chan rfl rfl hraised,
    fun e hstop => ?makeup, fun w => exec_to rfl ?wake hraised rfl⟩
  case arm =>
    refine exec_chan rfl ((if_pos hon).trans ((tmrArm_setChan s ch).trans (tmrEval_waits (.inr ?_)))) hraised
    rwa [armed_count, armed_cmpv]
  case fire =>
    refine exec_fires rfl ((if_pos hon).trans ((tmrArm_setChan s ch).trans (tmrEval_reached (armed_armed _) ?_))) hraised
    rw [armed_count, armed_cmpv, h]
  case stop => exact exec_chan rfl (if_pos hon) hraised
  case presc => exact exec_chan rfl ((if_pos hon).trans (tmrWrite_presc s ch w)) hraised
  case write =>
    refine exec_chan rfl ((if_pos hon).trans ((tmrWrite_cmpv s ch w).trans (tmrEval_waits ?_))) hraised
    rw [tget_put_cmpv, tget_put_ne _ TMR_STAT.ARMED _ _ (by decide), tget_put_ne _ TMR_COUNT.V _ _ (by decide)]
    exact h
  case writeFires =>
    refine exec_fires rfl ((if_pos hon).trans ((tmrWrite_cmpv s ch w).trans (tmrEval_reached ?_ ?_))) hraised
    · rwa [tget_put_ne _ _ _ _ (by decide)]
    · rw [tget_put_cmpv, tget_put_ne _ TMR_COUNT.V _ _ (by decide)]
      exact hc
  case compare =>
    have hperiods := wholePeriods (tget t TMR_PACC.V) t.need
    refine ⟨(t.need - tget t TMR_PACC.V + 65535) / 65536, ?_⟩
    rw [Nat.mul_comm 65536]
    refine ⟨hperiods.1, ?_, exec_fires rfl ((if_pos ⟨ha, hstop, hfreeze⟩).trans
      (tmrAdvance_reaches ha hcount hperiods.1 (wholePeriods_rest (Nat.le_max_left _ _) hpacc))) hraised⟩
    have := hperiods.2
    show _ ∨ _ < t.need + _
    omega
  case capture =>
    have hedges : (if tget t TMR_CTL.CAPEDGE = 0 then rising else if tget t TMR_CTL.CAPEDGE = 1 then !rising else true) = true := by
      cases rising with
      | true =>
        have hne : tget t TMR_CTL.CAPEDGE ≠ 1 := hedge
        rw [if_neg hne, ite_self]
      | false =>
        have hne : tget t TMR_CTL.CAPEDGE ≠ 0 := hedge
        rw [if_neg hne]
        exact ite_self _
    have hwanted : (s.chanOn ch && s.pllLocked && decide (1 ≤ tget t TMR_CTL.CAPSEL) && decide (tget t TMR_CTL.CAPSEL ≤ 4) &&
        (if tget t TMR_CTL.CAPEDGE = 0 then rising else if tget t TMR_CTL.CAPEDGE = 1 then !rising else true)) = true := by
      rw [hon, hpll, decide_eq_true hlo, decide_eq_true hhi, hedges]
      rfl
    refine exec_chan rfl ((if_pos hwanted).trans ?_) hraised
    simp only [overrun_count]
    rfl
  case read => exact exec_chan rfl (congrArg Prod.snd (if_pos rfl)) hraised
  case makeup =>
    intro z total ticks made
    have hgoes : exec (.timerMakeup ch e) = run fun s => if tget (s.chan ch) TMR_STAT.SRCSTOP = 1 then s.tmrMakeup ch e else s := rfl
    refine ⟨fun h => ?idle, fun ha hfreeze => ⟨fun hc => ?counts, fun hc => ?fires⟩⟩
    case idle => exact exec_chan hgoes ((if_pos hstop).trans (tmrMakeup_idle h)) hraised
    case counts => exact exec_chan hgoes ((if_pos hstop).trans (tmrMakeup_counts ha hfreeze hc)) hraised
    case fires => exact exec_fires hgoes ((if_pos hstop).trans (tmrMakeup_reaches ha hfreeze hc)) hraised
  case wake =>
    have hlo : (s.aonSet WKCMP_HI.V w.toNat).aonGet WKCMP_LO.V = s.aonGet WKCMP_LO.V := Cells.get_set_ne _ _ _ _ _ (by decide) (by decide)
    simp only [hlo]
    rfl
end

section
/-! PROOF. Kiln's commands before Kiln works: what each is refused for, in order, and what it goes on as (R353, R384-R390, R507,
R509, R512, R513, R516, R517, R526-R528, R597). -/

namespace Sys2Proof.Machine

/-! ## Ash records and free values -/

theorem ashPut_free (s : State) (i : AshItem) (k : Nat) : ({ s with free := k } : State).ashPut i = { s.ashPut i with free := k } := by
  unfold State.ashPut
  split <;> rfl

theorem ash_free (s : State) (type source : Nat) (data : List Byte) (k : Nat) :
    ({ s with free := k } : State).ash type source data = { s.ash type source data with free := k } := by
  unfold State.ash
  rw [show ({ s with free := k } : State).ashFlags = s.ashFlags from rfl, show ({ s with free := k } : State).ashTime = s.ashTime from rfl]
  dsimp only
  split
  · exact ashPut_free ..
  · rw [ashPut_free s, ashPut_free (s.ashPut _)]

theorem ash_hosts (s : State) (type source : Nat) (data : List Byte) : (s.ash type source data).hosts = s.hosts := by rw [ash_frame]

theorem ash_raised (s : State) (type source : Nat) (data : List Byte) : (s.ash type source data).raised = s.raised := (ash_parts ..).1

theorem ash_pending (s : State) (type source : Nat) (data : List Byte) : (s.ash type source data).pending = s.pending := (ash_parts ..).2

/-! ## A slot command's order (R597) -/

section
variable {s : State} {n : Nat} {fits want : Bool}

theorem keyOrder_range (h : 63 < n ∨ fits = false) : s.keyOrder n fits want = some St.BAD_PARAM :=
  if_pos (h.imp_right fun h => by rw [h]; rfl)

section
variable (hf : fits = true)
include hf

theorem keyOrder_reserved (h : n ≤ 2) : s.keyOrder n fits want = some St.SECURITY_DENIED :=
  (if_neg (by rw [hf]; simp; omega)).trans (if_pos h)

variable (h3 : 3 ≤ n) (h63 : n ≤ 63)
include h3 h63

theorem keyOrder_user : s.keyOrder n fits want =
    if s.keyLock then some St.SECURITY_DENIED
    else if s.slotInRun n then some St.BUSY
    else if want && (s.keyAt n).isSome then some St.SECURITY_DENIED
    else none :=
  (if_neg (by rw [hf]; simp; omega)).trans (if_neg (by omega))

end

end

/-! ## Commands that take random bytes (R517) -/

theorem begins_of {i : Instr} {s : State} {o : Op} {h : HostCmd} {j : Job} (e : hostOp i = some (o, h))
    (hb : o.body (o.cmd h) (s.opened (o.cmd h)) = (s.opened (o.cmd h)).begin (o.cmd h) j)
    (hg : o.gate (o.cmd h) (s.opened (o.cmd h)) = o.gate (o.cmd h) s := by rfl)
    (hs : ∀ c s, o.onSegment c 0 s = s := by intros; rfl) : Begins i s o h s j := waiting_of e hb rfl rfl hg hs

theorem refused_of {i : Instr} {s : State} {o : Op} {h : HostCmd} {st : Nat} (e : hostOp i = some (o, h))
    (hb : o.body (o.cmd h) (s.opened (o.cmd h)) = (s.opened (o.cmd h)).respond (o.cmd h) st)
    (hg : o.gate (o.cmd h) (s.opened (o.cmd h)) = o.gate (o.cmd h) s := by rfl)
    (hs : ∀ c s, o.onSegment c 0 s = s := by intros; rfl) : RepliesAs i s o h s st [] := answered_of e (fun _ => hb) rfl rfl rfl hg hs

theorem takesRandom_of {i : Instr} {s : State} {o : Op} {h : HostCmd} {n : Nat} {u : List Byte → State} {payload : List Byte → List Byte}
    {f : State → State} (e : hostOp i = some (o, h))
    (hb : o.body (o.cmd h) (s.opened (o.cmd h)) = (s.opened (o.cmd h)).withRandom (o.cmd h) f)
    (hf : ∀ l, l = randomFrom s.free n → f (s.opened (o.cmd h)) =
      ((({ u l with free := s.free + n } : State).opened (o.cmd h))).respond (o.cmd h) St.OK (payload l))
    (hhosts : ∀ l, (u l).hosts = s.hosts) (hraised : ∀ l, (u l).raised = s.raised) (hpending : ∀ l, (u l).pending = s.pending)
    (hg : o.gate (o.cmd h) (s.opened (o.cmd h)) = o.gate (o.cmd h) s := by rfl)
    (hs : ∀ c s, o.onSegment c 0 s = s := by intros; rfl) : TakesRandom i s o h n u payload := by
  refine ⟨fun ht a => ⟨randomFrom s.free n, s.free + n, randomFrom_length .., ?_⟩, fun ht => ?_, fun h1 h3 => ?_⟩
  · exact exec_answered a e (hb.trans ((withRandom_delivers (s := s.opened (o.cmd h)) f ht).trans (hf _ rfl))) (hhosts _)
      (hraised _) (hpending _) hg hs
  · exact refused_of e (hb.trans (withRandom_failed f ht)) hg hs
  · exact begins_of e (hb.trans (withRandom_waits f h1 h3)) hg hs

/-! ## What each command is refused for, and what it goes on as -/

section
variable {s : State} {c : Cmd} {st : Nat}

theorem bodyKeyGen_refused (h : s.keyGenOrder c = some st) : bodyKeyGen c s = s.respond c st := by
  unfold bodyKeyGen
  rw [h]

theorem bodyKeyGen_goes (h : s.keyGenOrder c = none) : bodyKeyGen c s = s.begin c .kiln := by
  unfold bodyKeyGen
  rw [h]

theorem bodyKeyImport_refused (h : s.keyImportOrder c = some st) : bodyKeyImport c s = s.respond c st := by
  unfold bodyKeyImport
  rw [h]

theorem bodyKeyImport_goes (h : s.keyImportOrder c = none) : bodyKeyImport c s = s.begin c .kiln := by
  unfold bodyKeyImport
  rw [h]

/-- The slot's order of KEY_IMPORT. -/
def State.importSlotOrder (s : State) (c : Cmd) : Option Nat :=
  s.keyOrder (byteAt c.payload 0) (usageFits (byteAt c.payload 1) (leAt c.payload 2 2)) true

theorem keyImportOrder_slot (h : s.importSlotOrder c = some st) : s.keyImportOrder c = some st := by
  rw [State.importSlotOrder] at h
  rw [State.keyImportOrder, h]

section
variable (h : s.importSlotOrder c = none)
include h

theorem keyImportOrder_shape (hw : State.wrapShape c = some st) : s.keyImportOrder c = some st := by
  rw [State.importSlotOrder] at h
  rw [State.keyImportOrder, h, hw]

theorem keyImportOrder_kek (hw : State.wrapShape c = none) :
    s.keyImportOrder c = if byteAt c.payload 1 ≠ 5 ∧ s.wrapKey (wrappedOf c) = none then some St.SECURITY_DENIED else none := by
  rw [State.importSlotOrder] at h
  rw [State.keyImportOrder, h, hw]
  simp only [Option.isNone_iff_eq_none]

end

theorem bodyKeyDelete_refused (h : s.keyOrder (byteAt c.payload 0) true false = some st) : bodyKeyDelete c s = s.respond c st := by
  unfold bodyKeyDelete
  simp only [h]

section
variable (h : s.keyOrder (byteAt c.payload 0) true false = none)
include h

theorem bodyKeyDelete_empty (hk : s.keyAt (byteAt c.payload 0) = none) : bodyKeyDelete c s = s.respond c St.OK := by
  unfold bodyKeyDelete
  simp only [h, hk]
  rfl

theorem bodyKeyDelete_goes (hk : (s.keyAt (byteAt c.payload 0)).isSome = true) : bodyKeyDelete c s = s.begin c .kiln := by
  obtain ⟨k, hk⟩ := Option.isSome_iff_exists.1 hk
  unfold bodyKeyDelete
  simp only [h, hk]
  rfl

end

section
variable {n w : Nat} (hn : byteAt c.payload 0 = n) (hw : byteAt c.payload 1 = w) (h1 : n ≤ 63) (h2 : w ≤ 63)
include hn hw h1 h2

/-- KEY_EXPORT, its slots in range, looks at the slot's key, at key lock and at the wrapping key. -/
theorem keyExport_denied (h : n ≤ 2 ∨ s.keyAt n = none ∨ (∃ k, s.keyAt n = some k ∧ nbit k.usage 6 = false) ∨
    s.keyLock = true ∨ s.keyFor w [1, 2] 5 = none) : s.keyExport c = s.respond c St.SECURITY_DENIED := by
  refine (if_neg (by omega)).trans ?_
  rw [hn, hw]
  cases hk : (s.keyAt n).filter fun k => 3 ≤ n && nbit k.usage 6 with
  | none => rfl
  | some k =>
    obtain ⟨hk, hfits⟩ := Option.filter_eq_some_iff.1 hk
    simp only [Bool.and_eq_true, decide_eq_true_iff] at hfits
    have hlocked : s.keyLock = true ∨ s.keyFor w [1, 2] 5 = none := by
      rcases h with h | h | ⟨x, hx, hu⟩ | h
      · omega
      · rw [hk] at h; cases h
      · rw [hk] at hx; cases hx; rw [hu] at hfits; exact absurd hfits.2 Bool.false_ne_true
      · exact h
    by_cases hl : s.keyLock = true
    · exact if_pos hl
    · refine (if_neg hl).trans ?_
      rw [hlocked.resolve_left hl]

/-- The head of a wrapped key (R511). -/
def wrapHead (w : Nat) (k : KeySlot) : List Byte := [1, 0] ++ leBytes 1 w ++ leBytes 1 k.type ++ leBytes 2 k.usage ++ leBytes 2 (keyLen k.type)

/-- A key wrapped under a wrapping key with an IV (R511). -/
def wrapped (w : Nat) (k kek : KeySlot) (iv : List Byte) : List Byte :=
  wrapHead w k ++ iv ++ padTo (keyLen k.type) (Config.gcmSeal kek.key iv (wrapHead w k) k.key).1 ++
    padTo 16 (Config.gcmSeal kek.key iv (wrapHead w k) k.key).2

theorem keyExport_wraps {k kek : KeySlot} (h3 : 3 ≤ n) (hk : s.keyAt n = some k) (hu : nbit k.usage 6 = true) (hl : s.keyLock = false)
    (hkek : s.keyFor w [1, 2] 5 = some kek) : s.keyExport c = s.withRandom c fun s =>
      ((s.drawBytes 12).2.keyChange n 3 k.type k.usage w c.hp).respond c St.OK (wrapped w k kek (s.drawBytes 12).1) := by
  have hfits : (s.keyAt n).filter (fun k => decide (3 ≤ n) && nbit k.usage 6) = some k :=
    Option.filter_eq_some_iff.2 ⟨hk, by rw [decide_eq_true h3, hu]; rfl⟩
  refine (if_neg (by omega)).trans ?_
  rw [hn, hw, hfits]
  refine (if_neg (by rw [hl]; exact Bool.false_ne_true)).trans ?_
  rw [hkek]
  rfl

end

theorem keyChange_opened (s : State) (c : Cmd) (slot op type usage wrap k : Nat) (q : HostNum) :
    ({ s.opened c with free := k } : State).keyChange slot op type usage wrap q =
    ({ s.keyChange slot op type usage wrap q with free := k } : State).opened c := by
  unfold State.keyChange
  rw [ash_free, respond_opened_ash]
  rfl

/-- KILN_CHALLENGE for XPDR_UNLOCK takes that purpose's nonce (R527). -/
theorem bodyKilnChallenge_unlock (h : byteAt c.payload 0 = 1) : bodyKilnChallenge c s = s.withRandom c fun s =>
    ({ (s.drawBytes 16).2 with kiln := { s.kiln with nonceX := some ((s.drawBytes 16).1, s.seconds) } } :
    State).respond c St.OK (s.drawBytes 16).1 := by
  unfold bodyKilnChallenge
  simp only [h]
  rfl

/-- KILN_CHALLENGE for DEBUG_UNLOCK takes that purpose's nonce (R527). -/
theorem bodyKilnChallenge_debug (h : byteAt c.payload 0 = 2) : bodyKilnChallenge c s = s.withRandom c fun s =>
    ({ (s.drawBytes 16).2 with kiln := { s.kiln with nonceD := some ((s.drawBytes 16).1, s.seconds) } } :
    State).respond c St.OK (s.drawBytes 16).1 := by
  unfold bodyKilnChallenge
  simp only [h]
  rfl

/-- IMAGE_LOAD's segment goes into the slot before Kiln verifies (R390). -/
theorem imageLoad_begins (s : State) (h : HostCmd) : Begins (.imageLoad h) s opImageLoad h (s.loadBytes 0 h.payload) .kiln := fun a =>
  accepted_waits rfl a rfl (fun _ => ⟨rfl, rfl⟩) rfl a.1.quiet rfl

/-! ## DEBUG_UNLOCK before Kiln verifies (R527, R528) -/

/-- The device with DEBUG_UNLOCK's nonce spent. -/
def State.spent (s : State) : State := { s with kiln := { s.kiln with nonceD := none } }

theorem debugLocked_spent : ({ s with kiln := { s.kiln with nonceD := none } } : State).debugLocked = s.debugLocked := rfl

/-- A DEBUG record of an attempt that Kiln does not verify, with a free key slot. -/
def State.debugRefused (s : State) (level result : Nat) : State :=
  ({ s.spent with free := s.free + 1 } : State).debugRecord level result (Config.freeNat s.free % 256)

section
variable (hb : 1 ≤ byteAt c.payload 0) (hb2 : byteAt c.payload 0 ≤ 2)
include hb hb2

theorem bodyDebugUnlock_locked (hl : s.debugLocked = true) :
    bodyDebugUnlock c s = (s.debugRefused (byteAt c.payload 0) 2).respond c St.LOCKED_OUT :=
  (if_neg (by omega)).trans (if_pos hl)

theorem bodyDebugUnlock_stale (hl : s.debugLocked = false) (hn : s.liveNonce s.kiln.nonceD = none) :
    bodyDebugUnlock c s = (s.debugRefused (byteAt c.payload 0) 1).respond c St.AUTH_FAIL := by
  refine (if_neg (by omega)).trans ((if_neg (by rw [debugLocked_spent, hl]; exact Bool.false_ne_true)).trans ?_)
  rw [hn]
  rfl

theorem bodyDebugUnlock_counts {l : List Byte} (hl : s.debugLocked = false) (hn : s.liveNonce s.kiln.nonceD = some l) :
    bodyDebugUnlock c s =
      (s.spent.setDbgFails (min 255 (s.kiln.dbgFails + 1))).begin { c with payload := c.payload ++ l } .kiln := by
  refine (if_neg (by omega)).trans ((if_neg (by rw [debugLocked_spent, hl]; exact Bool.false_ne_true)).trans ?_)
  rw [hn]
  rfl

end

theorem debugRefused_opened (level result : Nat) : (s.opened c).debugRefused level result = (s.debugRefused level result).opened c := by
  unfold State.debugRefused State.debugRecord
  rw [← respond_opened_ash]
  rfl

end

end Sys2Proof.Machine

open Sys2Proof Sys2Proof.Machine

/-- Settles O40, by the meaning of each command and what it finds in Kiln. -/
theorem kilnCommandsAreJudgedBeforeKilnWorks : Obligations.KilnCommandsAreJudgedBeforeKilnWorks := by
  unfold Obligations.KilnCommandsAreJudgedBeforeKilnWorks
  refine ⟨fun s h => ?_, fun s n fits want => ⟨keyOrder_range, keyOrder_reserved,
    fun hf h3 h63 => ⟨fun hl => ?lock, fun hl hr => ?run, fun hl hr => ?slot⟩⟩⟩
  case lock => rw [keyOrder_user hf h3 h63, if_pos hl]
  case run => rw [keyOrder_user hf h3 h63, hl, hr]; rfl
  case slot => rw [keyOrder_user hf h3 h63, hl, hr]; rfl
  intro b n
  refine ⟨fun hn => ?_, fun h1 h2 => ?_, ⟨fun st ho => ?_, fun ho => ?_⟩,
    ⟨fun st ho => ?_, fun ho st hs => ?_, fun ho hs hk => ?_, fun ho hs hk => ?_⟩,
    ⟨fun st ho => ?_, fun ho hk => ?_, fun ho hk => ?_⟩, fun hb => ?_, fun h0 h1 hk => ?_, fun h3 h0 h1 k w hk hu hl hw => ?_,
    fun hn => ?_, fun h1 h2 => ?_, fun hb => ?_, fun hb => ?_, fun hb => ?_, fun hb => ?_, fun hb hk => ?_, fun hb hk => ?_, fun hb => ?_,
    fun h1 h2 => ⟨fun hl a => ?_, fun hl hn a => ?_, fun hl l hn => ?_⟩, ?_, fun hb => ?_, fun hb hn hs => ?_, fun hb hn hs => ?_⟩
  · exact refused_of rfl (if_pos hn)
  · exact begins_of rfl (if_neg (by show ¬(n 4 2 < 1 ∨ 4096 < n 4 2); omega))
  · exact refused_of rfl (bodyKeyGen_refused ho)
  · exact begins_of rfl (bodyKeyGen_goes ho)
  · exact refused_of rfl (bodyKeyImport_refused (keyImportOrder_slot ho))
  · exact refused_of rfl (bodyKeyImport_refused (keyImportOrder_shape ho hs))
  · exact refused_of rfl (bodyKeyImport_refused ((keyImportOrder_kek (s := s.opened (opKeyImport.cmd h))
      (c := opKeyImport.cmd h) ho hs).trans (if_pos hk)))
  · exact begins_of rfl (bodyKeyImport_goes ((keyImportOrder_kek (s := s.opened (opKeyImport.cmd h))
      (c := opKeyImport.cmd h) ho hs).trans (if_neg hk)))
  · exact refused_of rfl (bodyKeyDelete_refused ho)
  · exact refused_of rfl (bodyKeyDelete_empty ho hk)
  · exact begins_of rfl (bodyKeyDelete_goes ho hk)
  · exact refused_of rfl (if_pos hb)
  · exact refused_of rfl (keyExport_denied rfl rfl h0 h1 hk)
  · refine takesRandom_of rfl (keyExport_wraps (s := s.opened (opKeyExport.cmd h)) (c := opKeyExport.cmd h) rfl rfl h0 h1 h3 hk hu hl hw) ?_
      (fun l => ash_hosts ..) (fun l => ash_raised ..) (fun l => ash_pending ..)
    rintro l rfl
    exact congrArg (fun u => State.respond u (opKeyExport.cmd h) St.OK (wrapped (b 1) k w (randomFrom s.free 12)))
      (keyChange_opened ..)
  · exact refused_of rfl (if_pos hn)
  · exact takesRandom_of rfl (if_neg (by show ¬(n 0 2 < 1 ∨ 4092 < n 0 2); omega)) (fun l hl => hl ▸ rfl) (fun _ => rfl)
      (fun _ => rfl) (fun _ => rfl)
  · exact refused_of rfl (if_pos hb)
  · exact takesRandom_of rfl (bodyKilnChallenge_unlock (s := s.opened (opKilnChallenge.cmd h)) hb) (fun l hl => hl ▸ rfl)
      (fun _ => rfl) (fun _ => rfl) (fun _ => rfl)
  · exact takesRandom_of rfl (bodyKilnChallenge_debug (s := s.opened (opKilnChallenge.cmd h)) hb) (fun l hl => hl ▸ rfl)
      (fun _ => rfl) (fun _ => rfl) (fun _ => rfl)
  · exact refused_of rfl (if_pos hb)
  · exact refused_of rfl ((if_neg (Nat.not_lt.2 hb)).trans (if_pos (Option.isNone_iff_eq_none.2 hk)))
  · exact begins_of rfl ((if_neg (Nat.not_lt.2 hb)).trans (if_neg (by rw [Bool.not_eq_true, Option.isNone_eq_false_iff]; exact hk)))
  · exact refused_of rfl (if_pos hb)
  · exact ⟨_, _, Nat.mod_lt _ (by decide), exec_answered a rfl
      ((bodyDebugUnlock_locked (s := s.opened (opDebugUnlock.cmd h)) h1 h2 hl).trans
      (by rw [debugRefused_opened]; rfl)) (ash_hosts ..) (ash_raised ..) (ash_pending ..)⟩
  · exact ⟨_, _, Nat.mod_lt _ (by decide), exec_answered a rfl
      ((bodyDebugUnlock_stale (s := s.opened (opDebugUnlock.cmd h)) h1 h2 hl hn).trans
      (by rw [debugRefused_opened]; rfl)) (ash_hosts ..) (ash_raised ..) (ash_pending ..)⟩
  · exact runs_of rfl (bodyDebugUnlock_counts (s := s.opened (opDebugUnlock.cmd h)) h1 h2 hl hn)
  · exact imageLoad_begins s h
  · exact refused_of rfl (if_pos hb)
  · exact refused_of rfl ((if_neg (by show ¬(1 < b 0 ∨ n 1 2 ≠ 0xD0D0); omega)).trans (if_pos hs))
  · exact begins_of rfl ((if_neg (by show ¬(1 < b 0 ∨ n 1 2 ≠ 0xD0D0); omega)).trans (if_neg (not_not.2 hs)))
end

section
/-! PROOF. What Kiln's operations leave when they end (R353, R385-R390, R507, R509, R514, R517, R521, R524, R526, R528-R530). -/

namespace Sys2Proof.Machine

/-! ## The result of an operation, by its command (R514, R517) -/

section
variable {s : State} {c : Cmd}

/-- Kiln is well, the TRNG has not failed, and the command is not one of port T's. -/
def State.kilnWorks (s : State) (c : Cmd) : Prop := s.kilnGet KWSTAT.STATE = 1 ∧ s.kilnGet KWSTAT.TRNG = 1 ∧ c.target ≠ 8

theorem kilnDone_failed (h : s.kilnGet KWSTAT.STATE = 2 ∨ (needsRandom c.opcode.toNat = true ∧ s.kilnGet KWSTAT.TRNG = 3)) :
    s.kilnDone c = s.respond c St.INTERNAL_ERROR := if_pos h

section
variable (w : s.kilnWorks c)
include w

theorem State.kilnWorks.sound : ¬(s.kilnGet KWSTAT.STATE = 2 ∨ (needsRandom c.opcode.toNat = true ∧ s.kilnGet KWSTAT.TRNG = 3)) := by
  obtain ⟨hs, ht, -⟩ := w
  omega

theorem State.kilnWorks.elsewhere : ¬c.target = 8 := w.2.2

theorem kilnDone_getLog (h : c.opcode = 0x0004) : s.kilnDone c = s.getLog c := by
  rw [State.kilnDone, if_neg w.sound, if_neg w.elsewhere, h]; rfl

theorem kilnDone_keyGen (h : c.opcode = 0x0901) : s.kilnDone c = s.keyGenDone c := by
  rw [State.kilnDone, if_neg w.sound, if_neg w.elsewhere, h]; rfl

theorem kilnDone_keyImport (h : c.opcode = 0x0902) : s.kilnDone c = s.keyImportDone c := by
  rw [State.kilnDone, if_neg w.sound, if_neg w.elsewhere, h]; rfl

theorem kilnDone_keyExport (h : c.opcode = 0x0903) : s.kilnDone c = s.keyExport c := by
  rw [State.kilnDone, if_neg w.sound, if_neg w.elsewhere, h]; rfl

theorem kilnDone_keyDelete (h : c.opcode = 0x0904) : s.kilnDone c = s.keyDeleteDone c := by
  rw [State.kilnDone, if_neg w.sound, if_neg w.elsewhere, h]; rfl

theorem kilnDone_random (h : c.opcode = 0x0905) : s.kilnDone c = bodyKilnRandom c s := by
  rw [State.kilnDone, if_neg w.sound, if_neg w.elsewhere, h]; rfl

theorem kilnDone_sign (h : c.opcode = 0x0906) : s.kilnDone c = s.kilnSignDone c := by
  rw [State.kilnDone, if_neg w.sound, if_neg w.elsewhere, h]; rfl

theorem kilnDone_challenge (h : c.opcode = 0x0907) : s.kilnDone c = bodyKilnChallenge c s := by
  rw [State.kilnDone, if_neg w.sound, if_neg w.elsewhere, h]; rfl

theorem kilnDone_debugUnlock (h : c.opcode = 0x0908) : s.kilnDone c = s.debugUnlockDone c := by
  rw [State.kilnDone, if_neg w.sound, if_neg w.elsewhere, h]; rfl

theorem kilnDone_imageLoad (h : c.opcode = 0x0A00) : s.kilnDone c = s.imageLoadDone c := by
  rw [State.kilnDone, if_neg w.sound, if_neg w.elsewhere, h]; rfl

theorem kilnDone_imageActivate (h : c.opcode = 0x0A02) : s.kilnDone c = s.imageActivateDone c := by
  rw [State.kilnDone, if_neg w.sound, if_neg w.elsewhere, h]; rfl

theorem kilnDone_dbRun (h : c.opcode = 0x0500) : s.kilnDone c = bodyDbRun c s := by
  rw [State.kilnDone, if_neg w.sound, if_neg w.elsewhere, h]; rfl

theorem kilnDone_dbCal (h : c.opcode = 0x0501) : s.kilnDone c = bodyDbCal c s := by
  rw [State.kilnDone, if_neg w.sound, if_neg w.elsewhere, h]; rfl

end

/-! ## What each operation leaves -/

theorem keyGenDone_generates (h : s.keyGenOrder c = none) : s.keyGenDone c =
    let key := randomFrom s.free (keyLen (byteAt c.payload 1))
    ((({ s with free := s.free + keyLen (byteAt c.payload 1) + 1 } : State).putSlot (byteAt c.payload 0)
      (some ⟨byteAt c.payload 1, leAt c.payload 2 2, key⟩)).keyChange (byteAt c.payload 0) 0 (byteAt c.payload 1) (leAt c.payload 2 2)
        (Config.freeNat (s.free + keyLen (byteAt c.payload 1)) % 256) c.hp).respond c St.OK
      (if byteAt c.payload 1 = 4 then padTo 64 (Config.p256Public key) else []) := by
  unfold State.keyGenDone
  rw [h]
  rfl

theorem keyImportDone_fails {st : Nat} (h : s.keyImportOrder c = none) (hk : s.unwrapKey c = .error st) :
    s.keyImportDone c = s.respond c st := by
  unfold State.keyImportDone
  rw [h, hk]

theorem keyImportDone_writes {key : List Byte} (h : s.keyImportOrder c = none) (hk : s.unwrapKey c = .ok key)
    (h5 : byteAt c.payload 1 ≠ 5) :
    s.keyImportDone c = ((s.putSlot (byteAt c.payload 0) (some ⟨byteAt c.payload 1, leAt c.payload 2 2, key⟩)).keyChange
      (byteAt c.payload 0) 1 (byteAt c.payload 1) (leAt c.payload 2 2) (byteAt (wrappedOf c) 2) c.hp).respond c St.OK := by
  unfold State.keyImportDone
  rw [h, hk]
  simp only [if_neg h5]

theorem wrappedOf_byte (n : Nat) : byteAt (wrappedOf c) n = byteAt c.payload (4 + n) := by
  unfold byteAt wrappedOf
  rw [List.getD_eq_getElem?_getD, List.getD_eq_getElem?_getD, List.getElem?_drop]

theorem keyDeleteDone_empties {key : KeySlot} (h : s.keyOrder (byteAt c.payload 0) true false = none)
    (hk : s.keyAt (byteAt c.payload 0) = some key) : s.keyDeleteDone c =
      ((({ s with free := s.free + 1 } : State).putSlot (byteAt c.payload 0) none).keyChange (byteAt c.payload 0) 2 key.type key.usage
        (Config.freeNat s.free % 256) c.hp).respond c St.OK := by
  unfold State.keyDeleteDone
  simp only [h, hk]
  rfl

section
variable {key : KeySlot} (hk : s.keyFor (byteAt c.payload 0) [3, 4] 3 = some key)
include hk

theorem kilnSignDone_hmac (h3 : key.type = 3) : s.kilnSignDone c =
    s.respond c St.OK (padTo 32 (Config.hmacSha256 key.key ((c.payload.drop 4).take 32)) ++ List.replicate 32 0) := by
  unfold State.kilnSignDone
  rw [show s.signKey c = some key from hk]
  exact if_pos h3

theorem kilnSignDone_signature (h3 : key.type ≠ 3) : s.kilnSignDone c = ({ s with free := s.free + 32 } : State).respond c St.OK
    (padTo 64 (Config.ecdsaSign key.key (if byteAt c.payload 0 = 0 then Config.sha256
    ([0x48, 0x4F, 0x53, 0x54] ++ (c.payload.drop 4).take 32)
      else (c.payload.drop 4).take 32) (randomFrom s.free 32))) := by
  unfold State.kilnSignDone
  rw [show s.signKey c = some key from hk]
  exact if_neg h3

end

/-- The first key, of those that may grant the level, whose signature AUTH is (R528, R529). -/
def State.debugKey (s : State) (c : Cmd) : Option (Nat × List Byte) :=
  (s.debugSlots (byteAt c.payload 0)).find? fun k =>
    Config.ecdsaVerify k.2 (Config.sha256 (debugText (byteAt c.payload 0) (c.payload.drop 68))) ((c.payload.drop 4).take 64)

theorem debugUnlockDone_opens {k : Nat × List Byte} (h : s.debugKey c = some k) : s.debugUnlockDone c =
    ((((s.setDbgFails 0).kilnSet KWSTAT.DEBUG (max (byteAt c.payload 0) (s.kilnGet KWSTAT.DEBUG))).relock).debugRecord
      (byteAt c.payload 0) 0 k.1).respond c St.OK := by
  have hlevel : (s.setDbgFails 0).kilnGet KWSTAT.DEBUG = s.kilnGet KWSTAT.DEBUG := Cells.get_set_ne _ _ _ _ _ (by decide) (by decide)
  rw [← hlevel]
  show (match s.debugKey c with | some k => _ | none => _) = _
  rw [h]

theorem debugUnlockDone_fails (h : s.debugKey c = none) : s.debugUnlockDone c =
    (({ s with kiln := { s.kiln with dbgLast := s.seconds }, free := s.free + 1 } : State).debugRecord (byteAt c.payload 0) 1
      (Config.freeNat s.free % 256)).respond c (if 8 ≤ s.kiln.dbgFails then St.LOCKED_OUT else St.AUTH_FAIL) := by
  show (match s.debugKey c with | some k => _ | none => _) = _
  rw [h]
  rfl

/-! ## The image that was loaded (R390, R521) -/

theorem loadSlot_lt (s : State) : s.loadSlot < 2 := by
  unfold State.loadSlot
  split <;> decide

theorem slotState_set {l : List Nat} {n v : Nat} (hn : n < l.length) : (l.set n v).getD n 0 = v := by
  rw [List.getD_eq_getElem?_getD, List.getElem?_set_self hn]
  rfl

theorem judgeSlot_accepted {n : Nat} (h : s.imageCheck n = none) : s.judgeSlot n = { s with flashState := s.flashState.set n 1 } := by
  unfold State.judgeSlot
  simp only [h]

section
variable (hl : s.flashState.length = 2)
include hl

theorem imageLoadDone_good (h : s.imageCheck s.loadSlot = none) : s.imageLoadDone c =
    ({ s with flashState := s.flashState.set s.loadSlot 1 } : State).respond c St.OK
    (leBytes 1 s.loadSlot ++ leBytes 4 (s.imageNum s.loadSlot 8 4)) := by
  have hvalid : ({ s with flashState := s.flashState.set s.loadSlot 1 } : State).slotState s.loadSlot = 1 :=
    slotState_set (v := 1) (hl.symm ▸ loadSlot_lt s)
  unfold State.imageLoadDone
  simp only [judgeSlot_accepted h]
  exact if_pos hvalid

theorem imageLoadDone_bad {k : Nat} (h : s.imageCheck s.loadSlot = some k) : s.imageLoadDone c =
    (({ s with flashState := s.flashState.set s.loadSlot 2 } : State).ash 0x0010 0x10
      (leBytes 1 0 ++ leBytes 1 s.loadSlot ++ leBytes 1 k ++ leBytes 4
      (s.imageNum s.loadSlot 8 4) ++ leBytes 4 0)).respond c St.IMAGE_INVALID := by
  let u : State := { s with flashState := s.flashState.set s.loadSlot 2 }
  let v := u.ash 0x0010 0x10 (leBytes 1 0 ++ leBytes 1 s.loadSlot ++ leBytes 1 k ++ leBytes 4 (s.imageNum s.loadSlot 8 4) ++ leBytes 4 0)
  have hjudged : s.judgeSlot s.loadSlot = v := judgeSlot_rejected h
  have hinvalid : v.slotState s.loadSlot = 2 := by
    have hflash : v.flashState = u.flashState := by simp only [v]; rw [ash_frame]
    rw [State.slotState, hflash]
    exact slotState_set (v := 2) (hl.symm ▸ loadSlot_lt s)
  unfold State.imageLoadDone
  simp only [hjudged]
  exact if_neg (by rw [hinvalid]; decide)

end

end

/-! ## The row (R514) -/

section
variable {s : State} {r : Running} {op : Half}

theorem kilnOperationDone_idle (h : s.kilnGet KWSTAT.STATE = 0 ∨ s.kilnGet KWSTAT.HARVEST = 1 ∨ s.findJob s.kilnEnds = none) :
    (if s.kilnGet KWSTAT.STATE = 0 ∨ s.kilnGet KWSTAT.HARVEST = 1 then s
      else match s.findJob s.kilnEnds with
        | some r => { s with running := dropFirst s.kilnEnds s.running }.kilnDone r.cmd
        | none => s) = s := by
  by_cases hbusy : s.kilnGet KWSTAT.STATE = 0 ∨ s.kilnGet KWSTAT.HARVEST = 1
  · exact if_pos hbusy
  · have hnone : s.findJob s.kilnEnds = none := by tauto
    rw [if_neg hbusy, hnone]

/-- The row ends the first command that Kiln can end. -/
theorem kilnOperationDone_leaves {u : State} (hr : s.findJob s.kilnEnds = some r) (hs : s.kilnGet KWSTAT.STATE ≠ 0)
    (hh : s.kilnGet KWSTAT.HARVEST = 0)
    (hu : ({ s with running := dropFirst s.kilnEnds s.running } : State).kilnDone r.cmd = u) : Leaves .kilnOperationDone s u := by
  refine leaves_of rfl ((if_neg (by omega)).trans ?_)
  rw [hr]
  exact hu

theorem KilnEnds.works (k : KilnEnds s r op) : ({ s with running := dropFirst s.kilnEnds s.running } : State).kilnWorks r.cmd := by
  obtain ⟨-, -, ht, hs, -, hd⟩ := k
  exact ⟨hs, hd, ht⟩

theorem KilnEnds.opcode (k : KilnEnds s r op) : r.cmd.opcode = op := k.2.1

theorem KilnEnds.leaves {u : State} (k : KilnEnds s r op)
    (hu : ({ s with running := dropFirst s.kilnEnds s.running } : State).kilnDone r.cmd = u) : Leaves .kilnOperationDone s u := by
  obtain ⟨hr, -, -, hs, hh, -⟩ := k
  exact kilnOperationDone_leaves hr (by omega) hh hu

end

end Sys2Proof.Machine

open Sys2Proof Sys2Proof.Machine

/-- Settles O41, by the result of each operation. -/
theorem kilnOperationsEndWithTheirResults : Obligations.KilnOperationsEndWithTheirResults := by
  unfold Obligations.KilnOperationsEndWithTheirResults
  refine fun s => ⟨fun hraised h => exec_to rfl (kilnOperationDone_idle h) hraised rfl, fun r hr hh hf => ?failed, fun r => ?_⟩
  case failed =>
    refine kilnOperationDone_leaves hr (by omega) hh (kilnDone_failed (hf.imp_right fun h => h.2))
  intro c b n t ends
  refine ⟨fun k => k.leaves (kilnDone_getLog k.works k.opcode), fun k ho => ?keyGen, fun k ho key hk h5 => ?keyImport,
    fun k ho st hk => ?unwrap,
    fun k ho key hk => ?keyDelete, fun k => k.leaves (kilnDone_keyExport k.works k.opcode),
    fun k => k.leaves (kilnDone_random k.works k.opcode),
    fun k => k.leaves (kilnDone_challenge k.works k.opcode), fun k => k.leaves (kilnDone_dbRun k.works k.opcode),
    fun k => k.leaves (kilnDone_dbCal k.works k.opcode), fun k key hk => ⟨fun h3 => ?hmac, fun h3 => ?signature⟩,
    fun k => ⟨fun x hx => ?opens, fun hx => ?locked⟩, fun k hl => ⟨fun hi => ?good, fun i hi => ?bad⟩, fun k => ?activate⟩
  case keyGen =>
    exact ⟨_, _, _, randomFrom_length .., Nat.mod_lt _ (by decide),
      k.leaves ((kilnDone_keyGen k.works k.opcode).trans (keyGenDone_generates (s := t) ho))⟩
  case keyImport =>
    refine k.leaves ((kilnDone_keyImport k.works k.opcode).trans ((keyImportDone_writes (s := t) ho hk h5).trans ?_))
    rw [wrappedOf_byte]
  case unwrap => exact k.leaves ((kilnDone_keyImport k.works k.opcode).trans (keyImportDone_fails (s := t) ho hk))
  case keyDelete =>
    exact ⟨_, _, Nat.mod_lt _ (by decide), k.leaves ((kilnDone_keyDelete k.works k.opcode).trans (keyDeleteDone_empties (s := t) ho hk))⟩
  case hmac => exact k.leaves ((kilnDone_sign k.works k.opcode).trans (kilnSignDone_hmac (s := t) hk h3))
  case signature =>
    exact ⟨_, _, randomFrom_length .., k.leaves ((kilnDone_sign k.works k.opcode).trans (kilnSignDone_signature (s := t) hk h3))⟩
  case opens => exact k.leaves ((kilnDone_debugUnlock k.works k.opcode).trans (debugUnlockDone_opens (s := t) hx))
  case locked =>
    exact ⟨_, _, Nat.mod_lt _ (by decide), k.leaves ((kilnDone_debugUnlock k.works k.opcode).trans (debugUnlockDone_fails (s := t) hx))⟩
  case good => exact k.leaves ((kilnDone_imageLoad k.works k.opcode).trans (imageLoadDone_good (s := t) hl hi))
  case bad => exact k.leaves ((kilnDone_imageLoad k.works k.opcode).trans (imageLoadDone_bad (s := t) hl hi))
  case activate => exact k.leaves (kilnDone_imageActivate k.works k.opcode)
end

section
/-! PROOF. Kiln's alarms: the TRNG's tests, nonces, tamper, glitches, the temperature, the self-test and the image verdict (R498,
R500, R505, R516-R518, R521, R527, R530-R532). -/

namespace Sys2Proof.Machine

/-! ## Key lock (R247, R530-R532) -/

section
variable {s : State}

theorem NoRuns.congr {t : State} (h : NoRuns s) (e : t.ports = s.ports) : NoRuns t := by
  unfold NoRuns State.port at *
  rwa [e]

theorem lockEndsRuns_noRuns (h : NoRuns s) : s.lockEndsRuns = s := by
  unfold State.lockEndsRuns
  generalize allPorts = l
  induction l with
  | nil => rfl
  | cons p l ih =>
    rw [List.foldl_cons, h p]
    exact ih

/-- With no run in progress nothing but KEYLOCK follows the sources of key lock. -/
theorem relock_noRuns (h : NoRuns s) : s.relock = s.lockSync := by
  unfold State.relock
  dsimp only
  split
  · exact lockEndsRuns_noRuns fun p => h p
  · rfl

theorem lockSync_on (h : (s.kiln.lockTamper || s.kiln.lockHot || s.kiln.lockGlitch) = true) : s.lockSync = s.kilnSet KWSTAT.KEYLOCK 1 := by
  unfold State.lockSync
  rw [h]
  rfl

theorem relock_on (hn : NoRuns s) (h : (s.kiln.lockTamper || s.kiln.lockHot || s.kiln.lockGlitch) = true) :
    s.relock = s.kilnSet KWSTAT.KEYLOCK 1 := (relock_noRuns hn).trans (lockSync_on h)

/-! ## Tamper (R531) -/

theorem exec_tamper {i : Instr} {f : State → State} {u : State} {input response slots power : Nat} (e : exec i = run f)
    (hf : f s = u.tamperReport input response slots power) (hr : u.raised = []) (hp : u.pending = s.pending) :
    exec i s = .next (u.tamperTold input response slots power) :=
  exec_toldDev e hf ((ash_raised ..).trans hr) ((ash_pending ..).trans hp)

/-- A tamper input that Kiln answers with no run in progress: TAMP1 zeroises the user slots, key lock comes on, the input is reported. -/
theorem tamperRespond_locks {input power : Nat} (hn : NoRuns s) : s.tamperRespond input power =
    (({ s with kiln := { s.kiln with lockTamper := true, slots := if input = 1 then [] else s.kiln.slots } } :
    State).kilnSet KWSTAT.KEYLOCK 1).tamperReport
      input (if input = 1 then 3 else 2) (if input = 1 then s.kiln.slots.length else 0) power := by
  have hslots : (if input = 1 then { s with kiln := { s.kiln with slots := [] } } else s) =
      ({ s with kiln := { s.kiln with slots := if input = 1 then [] else s.kiln.slots } } : State) := by split <;> rfl
  unfold State.tamperRespond
  simp only [hslots]
  exact congrArg (fun u => State.tamperReport u _ _ _ _) (relock_on hn rfl)

/-- A tamper input's level and latch are set. -/
def State.tampSet (s : State) (i : Fin 2) : State := (s.aonSet ⟨TAMPSTAT.reg, i.val, 1⟩ 1).aonSet ⟨TAMPSTAT.reg, 2 + i.val, 1⟩ 1

/-- What TAMPSTAT has no part in. -/
theorem tampSet_rest (i : Fin 2) : (s.tampSet i).raised = s.raised ∧ (s.tampSet i).pending = s.pending ∧ (s.tampSet i).ports = s.ports ∧
    (s.tampSet i).kiln = s.kiln := ⟨rfl, rfl, rfl, rfl⟩

/-- A row that answers a tamper input with no run in progress. -/
theorem exec_tamperResponds {i : Instr} {f : State → State} {u : State} {input power : Nat} (e : exec i = run f)
    (hf : f s = u.tamperRespond input power) (hr : u.raised = []) (hp : u.pending = s.pending) (hn : NoRuns u) : exec i s = .next
      ((({ u with kiln := { u.kiln with lockTamper := true, slots := if input = 1 then [] else u.kiln.slots } } : State).kilnSet
        KWSTAT.KEYLOCK 1).tamperTold input (if input = 1 then 3 else 2) (if input = 1 then u.kiln.slots.length else 0) power) :=
  exec_tamper e (hf.trans (tamperRespond_locks hn)) hr hp

section
variable (hr : s.raised = []) (hv : s.dev.vsysOk = true) {i : Fin 2}
include hr hv

theorem tamperInput_served (hs : s.kilnServes = true) (hn : NoRuns s) : exec (.tamperInput i true) s = .next
    ((({ s.tampSet i with kiln := { s.kiln with lockTamper := true, slots := if i = 1 then [] else s.kiln.slots } } : State).kilnSet
      KWSTAT.KEYLOCK 1).tamperTold i.val (if i = 1 then 3 else 2) (if i = 1 then s.kiln.slots.length else 0) s.dev.power.code) := by
  obtain ⟨hraised, hpending, hports, hkiln⟩ := tampSet_rest (s := s) i
  have hi : i = 1 ↔ i.val = 1 := Fin.ext_iff
  simp only [hi, ← hkiln]
  exact exec_tamperResponds rfl ((if_neg (by rw [hv]; decide)).trans ((if_neg Bool.false_ne_true).trans (if_pos hs)))
    (hraised.trans hr) hpending
    (hn.congr hports)

theorem tamperInput_waits (hs : s.kilnServes = false) : exec (.tamperInput i true) s = .next { s.tampSet i with kiln := { s.kiln with
    deferred := s.kiln.deferred.filter (·.1 ≠ i.val) ++ [(i.val, s.dev.power.code)] } } := by
  refine exec_to rfl ((if_neg (by rw [hv]; decide)).trans ((if_neg Bool.false_ne_true).trans
    (if_neg (?_ : ¬(s.tampSet i).kilnServes = true)))) hr rfl
  rw [show (s.tampSet i).kilnServes = false from hs]
  exact Bool.false_ne_true

end

theorem tamperDeferred_none (h : s.kiln.deferred = []) : s.tamperDeferred = s := by
  unfold State.tamperDeferred
  rw [h, List.foldl_nil, ← h]

/-! ## Glitches (R531) -/

/-- The device with a glitch's time taken down. -/
def State.glitched (s : State) : State := { s with kiln := { s.kiln with glitchTimes := s.seconds :: s.kiln.glitchTimes.take 14 } }

theorem glitch_eq (s : State) (input : Nat) : s.glitch input =
    let w := s.glitched.endJob jobAbandons St.INTERNAL_ERROR
    let v := if 3 ≤ w.glitches then ({ w with kiln := { w.kiln with lockGlitch := true } } : State).relock else w
    v.tamperReport input (if 3 ≤ w.glitches then 2 else 1) 0 v.dev.power.code := rfl

section
variable {w : State} {input : Nat} (hk : w.kiln = s.glitched.kiln) (hd : w.dev = s.dev)
include hk hd

theorem glitches_kept : w.glitches = s.glitched.glitches := by
  unfold State.glitches State.seconds
  rw [hk, hd]
  rfl

variable (hw : s.glitched.endJob jobAbandons St.INTERNAL_ERROR = w)
include hw

theorem glitch_early (ht : ¬3 ≤ s.glitched.glitches) : s.glitch input = w.tamperReport input 1 0 s.dev.power.code := by
  rw [glitch_eq]
  simp only [hw, glitches_kept hk hd, if_neg ht, hd]

/-- The third glitch within 10 s locks the keys. -/
theorem glitch_third (ht : 3 ≤ s.glitched.glitches) (hn : NoRuns w) : s.glitch input =
    (({ w with kiln := { w.kiln with lockGlitch := true } } : State).kilnSet KWSTAT.KEYLOCK 1).tamperReport input 2 0 s.dev.power.code := by
  have hlock : ({ w with kiln := { w.kiln with lockGlitch := true } } : State).relock =
      ({ w with kiln := { w.kiln with lockGlitch := true } } : State).kilnSet KWSTAT.KEYLOCK 1 := relock_on hn (Bool.or_true _)
  rw [glitch_eq]
  simp only [hw, glitches_kept hk hd, if_pos ht, hlock]
  exact congrArg (fun d : Device => State.tamperReport _ _ _ _ d.power.code) hd

end

/-! ## The TRNG's tests, nonces and the temperature (R516, R517, R527, R531) -/

/-- A failed health test: the source restarts, or is marked as failed at the third failure, and is logged. -/
theorem trngFail_logged : s.trngFail =
    (({ s with kiln := { s.kiln with trngFails := s.kiln.trngFails + 1 }, free := s.free + 2 } : State).kilnSet
    KWSTAT.TRNG (if 3 ≤ s.kiln.trngFails + 1 then 3 else 2)).ash 0x0002 0x10
      (leBytes 1 (Config.freeNat s.free % 256) ++ leBytes 4 (Config.freeNat (s.free + 1) % 2 ^ 32)) := rfl

theorem exec_trngFail {i : Instr} {f : State → State} (e : exec i = run f) (hf : f s = s.trngFail) (hr : s.raised = []) :
    ∃ block detail k, block < 256 ∧ detail < 2 ^ 32 ∧ exec i s = .next
      ((({ s with kiln := { s.kiln with trngFails := s.kiln.trngFails + 1 }, free := k } : State).kilnSet KWSTAT.TRNG
        (if 3 ≤ s.kiln.trngFails + 1 then 3 else 2)).ash 0x0002 0x10 (leBytes 1 block ++ leBytes 4 detail)) :=
  ⟨_, _, _, Nat.mod_lt _ (by decide), Nat.mod_lt _ (by decide), exec_to e (hf.trans trngFail_logged)
  ((ash_raised ..).trans hr) (ash_pending ..)⟩

theorem liveNonce_isNone (l : List Byte) (t : Nat) : (s.liveNonce (some (l, t))).isNone = true ↔ ¬s.seconds < t + 300 := by
  unfold State.liveNonce
  by_cases h : s.seconds < t + 300 <;> simp [h]

theorem tempRange_moves {out : Bool} (h : ¬s.kiln.lockHot = out) :
    (if s.kiln.lockHot = out then s else
      let v := ({ s with kiln := { s.kiln with lockHot := out } } : State).relock
      if out then v.tamperReport 4 2 0 v.dev.power.code else v) =
    if out then ({ s with kiln := { s.kiln with lockHot := out } } : State).relock.tamperReport 4 2 0
      ({ s with kiln := { s.kiln with lockHot := out } } : State).relock.dev.power.code
    else ({ s with kiln := { s.kiln with lockHot := out } } : State).relock := if_neg h

/-! ## The verdict on the firmware image (R521) -/

theorem slotState_ash (u : State) (n type source : Nat) (data : List Byte) : (u.ash type source data).slotState n = u.slotState n := by
  rw [ash_frame]
  rfl

theorem firmwareVerdict_judges (hk : s.kindling = true) (hi : s.dev.imgStat = 3) (hs : s.kilnGet KWSTAT.STATE = 1) {v : State}
    (hv : s.judgeSlot s.kiln.active = v) :
    (if !s.kindling ∨ s.dev.imgStat ≠ 3 ∨ s.kilnGet KWSTAT.STATE ≠ 1 then s
      else
        let v := s.judgeSlot s.kiln.active
        if v.slotState v.kiln.active ≠ 1 then v.devReady 0 2
        else if v.dev.boot0 ∨ !Config.lifecycleDone then v.devReady 0 0
        else (v.modDev fun d => { d with imgStat := 0 }).pcrSet CLKCTL.PLL_EN 1) =
    if v.slotState v.kiln.active ≠ 1 then v.devReady 0 2
    else if v.dev.boot0 ∨ !Config.lifecycleDone then v.devReady 0 0
    else (v.modDev fun d => { d with imgStat := 0 }).pcrSet CLKCTL.PLL_EN 1 := by
  rw [if_neg (by rw [hk, hi, hs]; decide), hv]

end

end Sys2Proof.Machine

open Sys2Proof Sys2Proof.Machine

/-- Settles O42, by what each alarm leaves in Kiln. -/
theorem kilnAlarmsLockKeysAndAreReported : Obligations.KilnAlarmsLockKeysAndAreReported := by
  unfold Obligations.KilnAlarmsLockKeysAndAreReported
  intro s hraised
  refine ⟨?trng, fun l t => ⟨fun h => ?unlock, fun h => ?debug⟩,
    fun i => ⟨fun hv on => exec_to rfl (if_pos (by rw [hv]; rfl)) hraised rfl, fun hv => ?level, fun hv => ?tamper⟩,
    fun hs => exec_to rfl (if_neg (by rw [hs]; exact Bool.false_ne_true)) hraised rfl, fun hs => leaves_of rfl (if_pos hs),
    fun x power hd hs hn => ?deferred,
    fun clock => ?glitch, exec_to rfl (if_pos rfl) hraised rfl, fun hh hn => ?hot, fun hh hn => ?cool,
    fun hs pass => exec_to rfl (if_pos hs) hraised rfl,
    fun hs hd => ?passed, fun hs hk => ?failed, fun hs hk hi => ?told, fun h => exec_to rfl (if_pos ?_) hraised rfl,
    fun hk hi hs ha => ?verdict⟩
  case trng =>
    intro fails failed starts
    exact ⟨fun h => exec_to rfl (if_pos h) hraised rfl, fun h => exec_trngFail rfl (if_pos h) hraised,
      fun h pass => exec_to rfl (if_neg h) hraised rfl,
      fun h => exec_trngFail rfl (if_pos h) hraised, fun h => exec_to rfl (if_neg h) hraised rfl⟩
  case unlock =>
    refine exec_to (f := fun s => if (s.liveNonce s.kiln.nonceX).isNone then { s with kiln := { s.kiln with nonceX := none } } else s) rfl ?_ ?_ ?_
    · simp only [h, liveNonce_isNone, ite_not]
    · split <;> exact hraised
    · split <;> rfl
  case debug =>
    refine exec_to (f := fun s => if (s.liveNonce s.kiln.nonceD).isNone then { s with kiln := { s.kiln with nonceD := none } } else s) rfl ?_ ?_ ?_
    · simp only [h, liveNonce_isNone, ite_not]
    · split <;> exact hraised
    · split <;> rfl
  case level => exact exec_to rfl ((if_neg (by rw [hv]; decide)).trans (if_pos rfl)) hraised rfl
  case tamper =>
    intro u
    exact ⟨fun hs hn => tamperInput_served hraised hv hs hn, fun hs => tamperInput_waits hraised hv hs⟩
  case deferred =>
    let u : State := { s with kiln := { s.kiln with deferred := [] } }
    have hone : s.tamperDeferred = u.tamperRespond x power := by
      unfold State.tamperDeferred
      rw [hd]
      rfl
    exact exec_tamperResponds (u := u) rfl ((if_pos hs).trans hone) hraised rfl (fun p => hn p)
  case glitch =>
    intro input u third
    have hcount : third = (3 ≤ s.glitched.glitches) := rfl
    refine ⟨fun hj ht => ?_, fun hj ht hn => ?_, fun r hj ht => ?_⟩
    · exact exec_tamper rfl (glitch_early rfl rfl (endJob_nil _ _ _ _ hj) ht) hraised rfl
    · exact exec_tamper rfl (glitch_third rfl rfl (endJob_nil _ _ _ _ hj) ht (fun p => hn p)) hraised rfl
    · exact leaves_of rfl (glitch_early (w := ({ u with running := dropFirst jobAbandons s.running } :
        State).respond r.cmd St.INTERNAL_ERROR) rfl rfl
        (endJob_of _ _ _ _ r hj) ht)
  case hot =>
    have hlock : ({ s with kiln := { s.kiln with lockHot := true } } : State).relock =
        ({ s with kiln := { s.kiln with lockHot := true } } : State).kilnSet KWSTAT.KEYLOCK 1 :=
      relock_on (fun p => hn p) (by rw [Bool.or_right_comm]; exact Bool.or_true _)
    exact exec_tamper rfl ((tempRange_moves (by rw [hh]; decide)).trans
      ((if_pos rfl).trans (congrArg (fun v => State.tamperReport v 4 2 0 v.dev.power.code) hlock))) hraised rfl
  case cool =>
    have hlock : ({ s with kiln := { s.kiln with lockHot := false } } : State).relock = _ := relock_noRuns fun p => hn p
    have hsync : ({ s with kiln := { s.kiln with lockHot := false } } : State).lockSync =
        ({ s with kiln := { s.kiln with lockHot := false } } : State).kilnSet KWSTAT.KEYLOCK
          (bit (s.kiln.lockTamper || s.kiln.lockGlitch || s.kilnGet KWSTAT.DEBUG == 2)) := by
      unfold State.lockSync
      simp only [Bool.or_false]
      rfl
    exact exec_to rfl ((tempRange_moves (by rw [hh]; decide)).trans ((if_neg Bool.false_ne_true).trans (hlock.trans hsync))) hraised rfl
  case passed => exact exec_to rfl ((if_neg (not_not.2 hs)).trans ((if_pos rfl).trans (tamperDeferred_none hd))) hraised rfl
  case failed => exact exec_to rfl ((if_neg (not_not.2 hs)).trans
    ((if_neg Bool.false_ne_true).trans (if_neg (fun h => hk.elim (fun hk => Bool.false_ne_true (hk.symm.trans h.1))
    fun hk => hk h.2)))) hraised rfl
  case told => exact exec_ready rfl ((if_neg (not_not.2 hs)).trans ((if_neg Bool.false_ne_true).trans (if_pos ⟨hk, hi⟩))) hraised rfl
  case verdict =>
    refine ⟨fun k hc => ?_, fun hc => ?_⟩
    · have hinvalid : ∀ v : State, s.judgeSlot s.kiln.active = v → v.slotState v.kiln.active ≠ 1 := by
        rintro v rfl
        have hset : ({ s with flashState := s.flashState.set s.kiln.active 2 } :
          State).slotState s.kiln.active = 2 := slotState_set (v := 2) ha
        rw [judgeSlot_rejected hc, ash_active, slotState_ash, hset]
        decide
      exact exec_ready rfl ((firmwareVerdict_judges hk hi hs (judgeSlot_rejected hc)).trans (if_pos (hinvalid _ (judgeSlot_rejected hc))))
        ((ash_raised ..).trans hraised) (ash_pending ..)
    · intro u
      have hvalid : ¬u.slotState u.kiln.active ≠ 1 := not_not.2 (slotState_set (v := 1) ha)
      have hgoes := (firmwareVerdict_judges hk hi hs (judgeSlot_accepted hc)).trans (if_neg hvalid)
      refine ⟨fun hb => exec_ready rfl (hgoes.trans (if_pos (hb.imp_right fun h => ?_))) hraised rfl,
        fun hb hl => exec_to rfl (hgoes.trans (if_neg ?_)) hraised rfl⟩
      · rw [h]; rfl
      · rw [show u.dev.boot0 = false from hb, hl]; decide
  · rcases h with h | h | h
    · exact .inl (by rw [h]; rfl)
    · exact .inr (.inl h)
    · exact .inr (.inr h)
end

section
/-! PROOF. Resets: what each clears and keeps, and what causes one (R251, R252, R268, R271, R352, R492-R495, R502, R555, R556). -/

namespace Sys2Proof.Machine

/-! ## Changes of port T and of Kiln's registers alone -/

/-- Nothing but port T's state beside its records and Kiln's registers differs. -/
def TChanged (s t : State) : Prop :=
  t = { s with xpdr := t.xpdr, kiln := { s.kiln with regs := t.kiln.regs } } ∧ t.xpdr.recs = s.xpdr.recs

section
variable {s t u : State}

theorem TChanged.refl (s : State) : TChanged s s := ⟨rfl, rfl⟩

theorem TChanged.trans (h1 : TChanged s t) (h2 : TChanged t u) : TChanged s u := by
  refine ⟨?_, h2.2.trans h1.2⟩
  have ht := h1.1
  have hu := h2.1
  generalize u.xpdr = x at *
  generalize u.kiln.regs = r at *
  rw [hu, ht]

theorem TChanged.ite {c : Prop} [Decidable c] (h1 : TChanged s t) (h2 : TChanged s u) : TChanged s (if c then t else u) := by
  split
  · exact h1
  · exact h2

theorem TChanged.xset (h : TChanged s t) (f : Fld) (v : Nat) : TChanged s (t.xset f v) := h.trans ⟨rfl, rfl⟩

theorem TChanged.kilnSet (h : TChanged s t) (f : Fld) (v : Nat) : TChanged s (t.kilnSet f v) := h.trans ⟨rfl, rfl⟩

theorem TChanged.modX (h : TChanged s t) (f : Xpdr → Xpdr) (hf : ∀ x, (f x).recs = x.recs) : TChanged s (t.modX f) := h.trans ⟨rfl, hf _⟩

theorem TChanged.tFresh (h : TChanged s t) : TChanged s t.tFresh := h.trans ⟨rfl, rfl⟩

theorem sessionOver_changed (s : State) : TChanged s s.sessionOver := by
  obtain ⟨r, c, h⟩ := sessionOver_frame s
  rw [h]
  exact ⟨rfl, rfl⟩

theorem tFieldGone_changed (s : State) : TChanged s s.tFieldGone := by
  unfold State.tFieldGone
  dsimp only
  rw [sessionOver_eq]
  have h := (((((sessionOver_changed s).xset XSTAT.FIELD 0).xset XSTAT.SUPPLY 0).xset XSTAT.H 0).xset XEOSTAT.ARMED 0).xset XEOSTAT.CHARGING 0
  refine TChanged.trans (t := if _ then _ else _) ?_ ⟨rfl, rfl⟩
  exact TChanged.ite (h.kilnSet _ _) h

theorem tSessionEnd_changed (s : State) : TChanged s s.tSessionEnd := by
  by_cases h : s.vsysBack
  · rw [sessionEnd_battery s h]
    exact (((sessionOver_changed s).xset _ _).kilnSet _ _).tFresh
  · rw [sessionEnd_harvest s h]
    exact sessionOver_changed s

theorem TChanged.tHarvest (h : TChanged s t) : TChanged s t.tHarvest := h.trans ⟨rfl, rfl⟩

theorem Cleared.tChanged (c : Cleared s) (h : TChanged s t) : Cleared t := by
  obtain ⟨h, -⟩ := h
  generalize t.xpdr = x at h
  generalize t.kiln.regs = r at h
  subst h
  exact ⟨c.host, c.blocks, c.memories, c.calibration, c.ports, c.kiln, c.device⟩

theorem NvmKept.tChanged {s t u : State} (k : NvmKept s t) (h : TChanged t u) : NvmKept s u := by
  obtain ⟨h, hr⟩ := h
  generalize hx : u.xpdr = x at h hr
  generalize u.kiln.regs = r at h
  subst h
  exact ⟨k.flash, k.keys, k.log, hr.trans k.records⟩

end

/-! ## What a SYS reset clears (R494, R502) -/

section
variable (s : State)

theorem cleared_cleared : Cleared s.cleared where
  host := ⟨rfl, rfl, rfl, rfl⟩
  blocks := ⟨rfl, rfl, rfl, rfl⟩
  memories := ⟨rfl, rfl, rfl⟩
  calibration := ⟨rfl, rfl, rfl, rfl, rfl⟩
  ports := fun p => by
    simp only [State.port, State.cleared, vget_ofFn]
    exact ⟨rfl, rfl, rfl, rfl, rfl, rfl, rfl⟩
  kiln := ⟨rfl, rfl, rfl, rfl, rfl, rfl⟩
  device := ⟨rfl, rfl, rfl, rfl, rfl⟩

variable {s} in
theorem Cleared.congr {a : Cells} {l : List Nat} {d : List (Nat × Nat)} {n m : Nat} {g : List Nat} {v w : Bool} {k : Nat}
    (h : Cleared s) : Cleared { s with
    aon := a, kiln := { s.kiln with deferred := d }, pending := s.pending, free := k
    dev := { s.dev with resetCauses := l, timebase := n, wkcmp := m, gpioFunc := g, vsysOk := v, vioOk := w } } :=
  ⟨h.host, h.blocks, h.memories, h.calibration, h.ports, h.kiln, h.device⟩

theorem sysReset_eq (c : Nat) : s.sysReset c = { s.cleared with
    dev := { s.cleared.dev with resetCauses := c :: s.cleared.dev.resetCauses }
    aon := Cells.set .aon (Cells.set .aon s.cleared.aon RSTCAUSE.LAST ((causeOrder.find? (c :: s.cleared.dev.resetCauses).contains).getD c))
      RSTCAUSE.FLAGS (s.cleared.aonGet RSTCAUSE.FLAGS ||| 2 ^ c) } := rfl

theorem sysReset_cleared (c : Nat) : Cleared (s.sysReset c) := by
  rw [sysReset_eq]
  exact (cleared_cleared s).congr

theorem aonLost_cleared : Cleared s.aonLost := (cleared_cleared s).congr

end

/-- What a SYS reset leaves of port T (R268, R502). -/
theorem tSysReset_frame (s : State) : ∃ r c, s.tSysReset =
    { s with xpdr := { s.xpdr with deferred := [], regs := r, cfg := c, cfgNext := false } } := by
  unfold State.tSysReset State.loadCfg
  dsimp only [State.modX, State.xset]
  exact ⟨_, _, rfl⟩

theorem tSysReset_regs (s : State) : s.tSysReset.xpdr.regs =
    Cells.put .xpdr (Cells.set .xpdr (Cells.set .xpdr s.xpdr.regs XSTAT.RECFAULT 0) XEOSTAT.FIRED 0) XDB.reg
    (resetWord .xpdr XDB.reg) := rfl

/-! ## What a SYS reset keeps (R495, R502) -/

section
variable {s : State} (h : NoKilnWork s)
include h

theorem cutCommit_quiet : s.cutCommit = s := by
  have hnone : (s.findJob fun r => r.job == .kiln && r.cmd.target == 8 && r.cmd.opcode != 0x0607) = none :=
    List.find?_eq_none.2 fun r hr => by simp [h r hr]
  unfold State.cutCommit
  rw [hnone]

theorem cutKiln_quiet : s.cutKiln = s := by
  have hnone : (s.running.filter fun r => r.job == .kiln && r.cmd.target == 15) = [] :=
    List.filter_eq_nil_iff.2 fun r hr => by simp [h r hr]
  unfold State.cutKiln
  rw [hnone]
  rfl

theorem cut_quiet : s.cutCommit.cutKiln = s := by rw [cutCommit_quiet h, cutKiln_quiet h]

theorem cleared_kept : NvmKept s s.cleared := by
  obtain ⟨r, c, e⟩ := tSysReset_frame s
  unfold State.cleared
  rw [cut_quiet h, e]
  exact ⟨⟨rfl, rfl⟩, ⟨rfl, rfl, rfl, rfl⟩, ⟨rfl, rfl, rfl⟩, rfl⟩

theorem cleared_xpdr : s.cleared.xpdr = s.tSysReset.xpdr := by
  unfold State.cleared
  rw [cut_quiet h]

/-- T's registers after a SYS reset, but for XDB. -/
theorem cleared_xget {f : Fld} (hf : f.off ≠ XDB.reg) : s.cleared.xget f = ((s.xset XSTAT.RECFAULT 0).xset XEOSTAT.FIRED 0).xget f := by
  unfold State.xget
  rw [cleared_xpdr h, tSysReset_regs]
  unfold Cells.get
  rw [Cells.word_put_ne _ _ _ _ _ hf]
  rfl

theorem cleared_t : s.cleared.xpdr.st = s.xpdr.st ∧ s.cleared.xpdr.deferred = [] := by
  obtain ⟨r, c, e⟩ := tSysReset_frame s
  rw [cleared_xpdr h, e]
  exact ⟨rfl, rfl⟩

theorem cleared_dev : s.cleared.dev.timebase = s.dev.timebase ∧ s.cleared.dev.wkcmp = s.dev.wkcmp ∧ s.cleared.dev.gpioIn = s.dev.gpioIn ∧
    s.cleared.dev.resetCauses = if s.dev.inReset then s.dev.resetCauses else [] := by
  obtain ⟨r, c, e⟩ := tSysReset_frame s
  unfold State.cleared
  rw [cut_quiet h, e]
  exact ⟨rfl, rfl, rfl, rfl⟩

theorem cleared_grate (p : PortNum) : (s.cleared.port p).grate.kept = (s.port p).grate.kept := by
  obtain ⟨r, c, e⟩ := tSysReset_frame s
  unfold State.cleared
  rw [cut_quiet h, e]
  simp only [State.port, vget_ofFn]

theorem cleared_aon : s.cleared.aon = s.aon := by
  obtain ⟨r, c, e⟩ := tSysReset_frame s
  unfold State.cleared
  rw [cut_quiet h, e]

end

/-! ## A SYS reset and its cause (R493) -/

section
variable {s : State} {c : Nat}

theorem sysReset_kept (h : NoKilnWork s) : NvmKept s (s.sysReset c) := by
  have k := cleared_kept h
  rw [sysReset_eq]
  exact ⟨k.flash, k.keys, k.log, k.records⟩

theorem sysReset_aon (h : NoKilnWork s) : (s.sysReset c).aon =
    Cells.set .aon (Cells.set .aon s.aon RSTCAUSE.LAST ((causeOrder.find? (c :: s.cleared.dev.resetCauses).contains).getD c)) RSTCAUSE.FLAGS
      (s.aonGet RSTCAUSE.FLAGS ||| 2 ^ c) := by
  rw [sysReset_eq]
  simp only [State.aonGet, cleared_aon h]

theorem sysReset_flags (h : NoKilnWork s) (hc : c ≤ 5) : (s.sysReset c).aonGet RSTCAUSE.FLAGS = s.aonGet RSTCAUSE.FLAGS ||| 2 ^ c := by
  have hsmall : s.aonGet RSTCAUSE.FLAGS ||| 2 ^ c < 2 ^ 6 :=
    Nat.or_lt_two_pow (Cells.get_lt .aon s.aon RSTCAUSE.FLAGS) (Nat.pow_lt_pow_right (by decide) (by omega))
  rw [State.aonGet, sysReset_aon h, Cells.get_set _ _ _ _ (by decide)]
  exact Nat.mod_eq_of_lt hsmall

theorem sysReset_last (h : NoKilnWork s) {d : Nat} (hd : causeOrder.find? (c :: s.cleared.dev.resetCauses).contains = some d) :
    (s.sysReset c).aonGet RSTCAUSE.LAST = d := by
  have hsmall : d < 2 ^ 3 := by
    have hall : ∀ d ∈ causeOrder, d < 2 ^ 3 := by decide
    exact hall d (List.mem_of_find?_eq_some hd)
  rw [State.aonGet, sysReset_aon h, Cells.get_set_ne _ _ _ _ _ (by decide) (by decide), Cells.get_set _ _ _ _ (by decide), hd]
  exact Nat.mod_eq_of_lt hsmall

theorem sysReset_word (h : NoKilnWork s) {o : Nat} (ho : o ≠ RSTCAUSE.reg) :
    Cells.word .aon (s.sysReset c).aon o = Cells.word .aon s.aon o := by
  rw [sysReset_aon h, Cells.word_set_ne _ _ _ _ _ ho, Cells.word_set_ne _ _ _ _ _ ho]

/-- What a SYS reset leaves of port T's registers, but for XDB (R268, R502). -/
theorem sysReset_xget (h : NoKilnWork s) {f : Fld} (hf : f.off ≠ XDB.reg) :
    (s.sysReset c).xget f = ((s.xset XSTAT.RECFAULT 0).xset XEOSTAT.FIRED 0).xget f := by
  rw [sysReset_eq]
  exact cleared_xget h hf

/-- What the cause of a reset has no part in. -/
theorem sysReset_rest : (s.sysReset c).xpdr = s.cleared.xpdr ∧ (s.sysReset c).ports = s.cleared.ports ∧
    (s.sysReset c).dev = { s.cleared.dev with resetCauses := c :: s.cleared.dev.resetCauses } := by
  rw [sysReset_eq]
  exact ⟨rfl, rfl, rfl⟩

/-- A reset alone has its own cause as the first. -/
theorem firstCause_alone (hc : c ≤ 5) : causeOrder.find? [c].contains = some c := by
  interval_cases c <;> rfl

end

/-! ## Rows that reset the device -/

section
variable {i : Instr} {f : State → State} {s v : State}

theorem exec_reset (e : exec i = run f) (hf : f s = v) (hr : v.raised = []) : exec i s = .next { v with pending := s.pending } := by
  rw [e]
  unfold run
  rw [hf, State.flush_nil v hr]

theorem Cleared.pended (h : Cleared v) (l : List Instr) : Cleared { v with pending := l } :=
  ⟨h.host, h.blocks, h.memories, h.calibration, h.ports, h.kiln, h.device⟩

theorem NvmKept.pended (h : NvmKept s v) (l : List Instr) : NvmKept s { v with pending := l } := ⟨h.flash, h.keys, h.log, h.records⟩

theorem Cleared.supplied (h : Cleared v) (a b : Bool) : Cleared (v.modDev fun d => { d with vsysOk := a, vioOk := b }) :=
  ⟨h.host, h.blocks, h.memories, h.calibration, h.ports, h.kiln, h.device⟩

theorem NvmKept.onDev (h : NvmKept s v) (g : Device → Device) : NvmKept s (v.modDev g) := ⟨h.flash, h.keys, h.log, h.records⟩

theorem aonLost_raised (s : State) : s.aonLost.raised = [] := rfl

/-- The domains that lose their state with VSYS (R502). -/
theorem aonLost_reset (s : State) : s.aonLost.aon = [] ∧ s.aonLost.dev.timebase = 0 ∧ s.aonLost.dev.wkcmp = 2 ^ 64 - 1 ∧
    s.aonLost.dev.resetCauses = [0] ∧ s.aonLost.kiln.deferred = [] := ⟨rfl, rfl, rfl, rfl, rfl⟩

/-- A device in SLEEP or OFF. -/
theorem asleep_iff (s : State) : (s.dev.power == .sleep || s.dev.power == .off) = true ↔ s.dev.power = .sleep ∨ s.dev.power = .off := by
  rw [Bool.or_eq_true, beq_iff_eq, beq_iff_eq]

/-- A pulse on RST_N of 100 ns to 1 us resets the device or does not (R492). -/
theorem rstN_between {w : Nat} (hv : s.dev.vsysOk = true) (h1 : 100 ≤ w) (h2 : w < 1000) :
    (if !s.dev.vsysOk ∨ w < 100 then s else if 1000 ≤ w then s.sysReset 1
      else if Config.freeBool s.free then ({ s with free := s.free + 1 } : State).sysReset 1 else { s with free := s.free + 1 }) =
    if Config.freeBool s.free then ({ s with free := s.free + 1 } : State).sysReset 1 else { s with free := s.free + 1 } := by
  rw [if_neg (by rw [hv]; simp; omega), if_neg (by omega)]

theorem aonLost_kept (h : NoKilnWork s) : NvmKept s s.aonLost := by
  have k := cleared_kept h
  exact ⟨k.flash, k.keys, k.log, k.records⟩

end

/-! ## VSYS goes (R251, R252, R555) -/

section
variable {s t : State}

theorem TChanged.rest (h : TChanged s t) : t.aon = s.aon ∧ t.dev = s.dev ∧ t.raised = s.raised := by
  obtain ⟨h, -⟩ := h
  generalize t.xpdr = x at h
  generalize t.kiln.regs = r at h
  subst h
  exact ⟨rfl, rfl, rfl⟩

/-- D0 without its state, and no supply but the field's. -/
def State.unpowered (s : State) : State := s.aonLost.modDev fun d => { d with vsysOk := false, vioOk := false }

/-- A device whose field supplies T and Kiln: T goes on in harvest mode. -/
def State.goesOn (s : State) : State := if s.xget XSTAT.SUPPLY = 1 then (if s.tSession then s.tSessionEnd else s).tHarvest.tFresh else s

theorem unpowered_cleared (s : State) : Cleared s.unpowered := (aonLost_cleared s).supplied false false

theorem unpowered_kept (h : NoKilnWork s) : NvmKept s s.unpowered := (aonLost_kept h).onDev _

theorem unpowered_rest (s : State) : s.unpowered.aon = [] ∧ s.unpowered.dev.timebase = 0 ∧ s.unpowered.dev.vsysOk = false ∧
    s.unpowered.dev.vioOk = false ∧ s.unpowered.raised = [] := ⟨rfl, rfl, rfl, rfl, rfl⟩

theorem unpowered_xget (h : NoKilnWork s) {f : Fld} (hf : f.off ≠ XDB.reg) :
    s.unpowered.xget f = ((s.xset XSTAT.RECFAULT 0).xset XEOSTAT.FIRED 0).xget f := cleared_xget h hf

theorem unpowered_supply (h : NoKilnWork s) : s.unpowered.xget XSTAT.SUPPLY = s.xget XSTAT.SUPPLY ∧
    s.unpowered.xget XSTAT.FIELD = s.xget XSTAT.FIELD := by
  rw [unpowered_xget h (by decide), unpowered_xget h (by decide)]
  simp (disch := decide) only [xget_xset_ne, and_self]

theorem goesOn_changed (s : State) : TChanged s s.goesOn :=
  TChanged.ite (TChanged.ite (tSessionEnd_changed s) (TChanged.refl s)).tHarvest.tFresh (TChanged.refl s)

theorem harvest_xget (s : State) : s.tHarvest.tFresh.xget XSTAT.SUPPLY = 2 ∧ s.tHarvest.tFresh.xget XSTAT.FIELD = s.xget XSTAT.FIELD := by
  have hregs : s.tHarvest.tFresh.xpdr.regs = (s.xset XSTAT.SUPPLY 2).xpdr.regs := rfl
  unfold State.xget
  rw [hregs]
  exact ⟨xget_xset s XSTAT.SUPPLY 2 (by decide), xget_xset_ne s XSTAT.FIELD XSTAT.SUPPLY 2 (by decide) (by decide)⟩

theorem sessionOver_field (s : State) : s.sessionOver.xget XSTAT.FIELD = s.xget XSTAT.FIELD := by
  unfold State.xget
  rw [sessionOver_regs, Cells.get_set_ne _ _ _ _ _ (by decide) (by decide), Cells.get_set_ne _ _ _ _ _ (by decide) (by decide)]

theorem goesOn_xget (hv : s.dev.vsysOk = false) : s.goesOn.xget XSTAT.SUPPLY =
    (if s.xget XSTAT.SUPPLY = 1 then 2 else s.xget XSTAT.SUPPLY) ∧
    s.goesOn.xget XSTAT.FIELD = s.xget XSTAT.FIELD := by
  have hend : s.tSessionEnd.xget XSTAT.FIELD = s.xget XSTAT.FIELD := by
    rw [sessionEnd_harvest s fun h => Bool.false_ne_true (hv.symm.trans h.2.1), sessionOver_field]
  unfold State.goesOn
  by_cases hs : s.xget XSTAT.SUPPLY = 1
  · rw [if_pos hs, if_pos hs]
    obtain ⟨h1, h2⟩ := harvest_xget (if s.tSession = true then s.tSessionEnd else s)
    refine ⟨h1, h2.trans ?_⟩
    split
    · exact hend
    · rfl
  · rw [if_neg hs, if_neg hs]
    exact ⟨rfl, rfl⟩

/-- What is left of the device when its field does not feed it. -/
theorem tFieldGone_left (s : State) : s.tFieldGone.xpdr.st = .off ∧ s.tFieldGone.xget XSTAT.FIELD = 0 ∧ s.tFieldGone.xget XSTAT.SUPPLY = 0 ∧
    s.tFieldGone.xget XSTAT.SESSION = 0 ∧ s.tFieldGone.xget XEOSTAT.ARMED = 0 := by
  obtain ⟨k, h⟩ := tFieldGone_eq s
  obtain ⟨hfield, hsupply, hsession, -, -, harmed, -⟩ := unfielded_gone s
  simp only [tFieldGone_xget, hfield, hsupply, hsession, harmed, and_true]
  rw [h]

/-- What VSYS leaves when it goes, the supply of T and Kiln aside. -/
theorem answers_unpowered {i : Instr} {f : State → State} {P : State → Prop} (e : exec i = run f) (hf : f s = t)
    (ht : TChanged s.unpowered t)
    (hP : P { t with pending := s.pending }) : Answers i s fun v => Cleared v ∧ (NoKilnWork s → NvmKept s v) ∧ v.aon = [] ∧
    v.dev.timebase = 0 ∧
      v.dev.vsysOk = false ∧ v.dev.vioOk = false ∧ P v := by
  obtain ⟨haon, hdev, hraised⟩ := ht.rest
  obtain ⟨hlost, htime, hvsys, hvio, hquiet⟩ := unpowered_rest s
  exact ⟨_, exec_reset e hf (hraised.trans hquiet), ((unpowered_cleared s).tChanged ht).pended _,
    fun h => ((unpowered_kept h).tChanged ht).pended _,
    haon.trans hlost, (congrArg Device.timebase hdev).trans htime, (congrArg Device.vsysOk hdev).trans hvsys,
    (congrArg Device.vioOk hdev).trans hvio, hP⟩

end

end Sys2Proof.Machine

open Sys2Proof Sys2Proof.Machine

/-- Settles O44, by what each reset clears and keeps. -/
theorem resetsClearWhatTheyMustAndKeepTheRest : Obligations.ResetsClearWhatTheyMustAndKeepTheRest := by
  unfold Obligations.ResetsClearWhatTheyMustAndKeepTheRest
  refine ⟨fun s c hc => ⟨sysReset_cleared s c, fun h => ?sys⟩, fun s hr => ?rows⟩
  case sys =>
    obtain ⟨htime, hwkcmp, hgpio, hcauses⟩ := cleared_dev h
    obtain ⟨hst, hdeferred⟩ := cleared_t h
    obtain ⟨hxpdr, hports, hdev⟩ := sysReset_rest (s := s) (c := c)
    have hsession := sysReset_xget (c := c) h (f := XSTAT.SESSION) (by decide)
    have hfired := sysReset_xget (c := c) h (f := XEOSTAT.FIRED) (by decide)
    have hfault := sysReset_xget (c := c) h (f := XSTAT.RECFAULT) (by decide)
    simp (disch := decide) only [xget_xset, xget_xset_ne, Nat.zero_mod] at hsession hfired hfault
    refine ⟨sysReset_kept h, (congrArg Xpdr.st hxpdr).trans hst, (congrArg Xpdr.deferred hxpdr).trans hdeferred, hsession, hfired, hfault,
      (congrArg Device.timebase hdev).trans htime, (congrArg Device.wkcmp hdev).trans hwkcmp,
      (congrArg Device.gpioIn hdev).trans hgpio, fun p => ?_,
      fun o ho => sysReset_word h ho, sysReset_flags h hc, fun hin => sysReset_last h ?_,
      fun hin => ⟨(congrArg Device.resetCauses hdev).trans ?_,
        fun d hd => sysReset_last h ?_⟩⟩
    · rw [← cleared_grate h p]
      exact congrArg (fun v : Vector Port 8 => (v.get p).grate.kept) hports
    · rw [hcauses, if_neg (by rw [hin]; exact Bool.false_ne_true)]
      exact firstCause_alone hc
    · rw [hcauses, if_pos hin]
    · rw [hcauses, if_pos hin]
      exact hd
  case rows =>
    refine ⟨?por, fun b => ⟨fun hv hs => ?brown, fun h => ?quiet⟩, fun hv w => ⟨fun hw => ?pulse, fun hw => ?glitch,
      fun h1 h2 => ?perhaps⟩, fun hv w => ?gone, fun hin => ?kick,
      fun hin k hk => ?badKick, fun hin => ⟨fun k => exec_to rfl (if_pos hin) hr rfl, exec_to rfl (if_pos hin) hr rfl⟩,
      fun hin => exec_to rfl (if_neg (by rw [hin]; exact Bool.false_ne_true)) hr rfl,
      ⟨fun h => ?expiry, fun h => ?notCounting⟩, fun h => ?fire, fun h => ?notAsked,
      fun hv => exec_to rfl (if_pos (by rw [hv]; rfl)) hr rfl, fun hv => ?removed,
      ⟨fun h => ⟨exec_to rfl (if_pos h) hr rfl, exec_to rfl (if_pos h) hr rfl⟩, fun h => ⟨exec_to rfl (if_neg h) hr rfl,
      exec_to rfl (if_neg h) hr rfl⟩⟩⟩
    case por =>
      have hkept := fun h => ((aonLost_kept (s := s) h).onDev fun d => { d with vsysOk := true }).tChanged
        (u := State.modX _ fun x => { x with vsysLow := false }) ⟨rfl, rfl⟩
      have hclear := ((aonLost_cleared s).supplied true s.aonLost.dev.vioOk).tChanged
        (t := State.modX _ fun x => { x with vsysLow := false }) ⟨rfl, rfl⟩
      obtain ⟨haon, htime, hwkcmp, hcauses, hdeferred⟩ := aonLost_reset s
      exact ⟨_, exec_reset rfl rfl (aonLost_raised s), hclear.pended _, fun h => (hkept h).pended _, haon, htime, hwkcmp,
        hcauses, rfl, hdeferred, rfl⟩
    case brown =>
      have hseen := if_congr (asleep_iff s) (x := b.toNat % 2) rfl (rfl : b.toNat = b.toNat)
      refine leaves_of rfl ((if_neg ?_).trans (congrArg (fun n => (s.sysReset 2).aonSet RSTCAUSE.BOR n) hseen))
      rw [hseen, hv]
      simpa using hs
    case quiet =>
      have hseen := if_congr (asleep_iff s) (x := b.toNat % 2) rfl (rfl : b.toNat = b.toNat)
      refine exec_to rfl (if_pos ?_) hr rfl
      rw [hseen]
      exact h.imp_left fun h => by rw [h]; rfl
    case pulse => exact leaves_of rfl ((if_neg (by rw [hv]; simp; omega)).trans (if_pos hw))
    case glitch => exact exec_to rfl (if_pos (.inr hw)) hr rfl
    case perhaps =>
      refine ⟨s.free + 1, ?_⟩
      have hgoes := rstN_between hv h1 h2
      cases hb : Config.freeBool s.free
      · exact .inl (exec_to rfl (hgoes.trans (if_neg (by rw [hb]; exact Bool.false_ne_true))) hr rfl)
      · exact .inr (leaves_of rfl (hgoes.trans (if_pos hb)))
    case gone => exact exec_to rfl (if_pos (.inl (by rw [hv]; rfl))) hr rfl
    case kick => exact exec_to rfl ((if_neg (by rw [hin]; exact Bool.false_ne_true)).trans (if_pos rfl)) hr rfl
    case badKick => exact leaves_of rfl ((if_neg (by rw [hin]; exact Bool.false_ne_true)).trans (if_neg hk))
    case expiry => exact leaves_of rfl (if_pos (by simpa using h))
    case notCounting => exact exec_to rfl (if_neg (by simpa using h)) hr rfl
    case fire => exact leaves_of rfl (if_pos (by simpa using h))
    case notAsked => exact exec_to rfl (if_neg (by simpa using h)) hr rfl
    case removed =>
      intro fed
      let u : State := { s.unpowered with kiln := { s.unpowered.kiln with regs := s.kiln.regs } }
      have hu : TChanged s.unpowered u := ⟨rfl, rfl⟩
      have hfed : (s.xget XSTAT.FIELD == 1 && s.xget XSTAT.SUPPLY != 0 && decide (15 ≤ s.xget XSTAT.H))
        = true ↔ fed := by simp [fed, and_assoc]
      by_cases h : fed
      · obtain ⟨hsupply, hfield⟩ := goesOn_xget (s := u) rfl
        refine answers_unpowered rfl ((if_neg (by rw [hv]; decide)).trans (if_pos (hfed.2 h))) (hu.trans (goesOn_changed u))
          ⟨fun hk _ => ⟨hsupply.trans ?_, hfield.trans (unpowered_supply hk).2 |>.trans h.1⟩, fun _ hn => absurd h hn⟩
        rw [show u.xget XSTAT.SUPPLY = s.xget XSTAT.SUPPLY from (unpowered_supply hk).1]
      · refine answers_unpowered rfl ((if_neg (by rw [hv]; decide)).trans (if_neg (mt hfed.1 h))) (tFieldGone_changed _)
          ⟨fun _ hf => absurd hf h, fun _ _ => tFieldGone_left s.unpowered⟩
end

section
/-! PROOF. Power states: banking, SLEEP, OFF and DOZE, wake events and the wake compare (R470, R477-R485). -/

namespace Sys2Proof.Machine

/-! ## The clocks stop (R465, R480, R481) -/

/-- A port with no timer channels. -/
def Port.untimed (q : Port) : Port := { q with tmr := Vector.replicate 4 [] }

theorem setChan_untimed (s : State) (ch : Channel) (x : Cells) (p : PortNum) : ((s.setChan ch x).port p).untimed = (s.port p).untimed := by
  cases ch with
  | global c => rfl
  | port q c =>
    by_cases h : p = q
    · subst h; simp [State.setChan, Port.untimed]
    · simp [State.setChan, h]

theorem stopSources_port (s : State) (sel : Nat → Bool) (p : PortNum) :
    (s.stopSources sel).port p = { s.port p with tmr := ((s.stopSources sel).port p).tmr } :=
  congrArg (fun q : Port => { q with tmr := ((s.stopSources sel).port p).tmr })
    (stopSources_keeps (fun t => (t.port p).untimed) (fun t ch x => setChan_untimed t ch x p) s sel)

/-- What the clocks have no part in. -/
theorem stopSources_rest (s : State) (sel : Nat → Bool) : let t := s.stopSources sel
    t.dev = s.dev ∧ t.hosts = s.hosts ∧ t.pcr = s.pcr ∧ t.aon = s.aon ∧ t.kiln = s.kiln ∧ t.xpdr = s.xpdr ∧ t.sram = s.sram ∧
      t.table = s.table ∧ t.raised = s.raised ∧ t.pending = s.pending := by
  refine ⟨stopSources_keeps State.dev ?_ s sel, stopSources_keeps State.hosts ?_ s sel, stopSources_keeps State.pcr ?_ s sel,
    stopSources_keeps State.aon ?_ s sel, stopSources_keeps State.kiln ?_ s sel, stopSources_keeps State.xpdr ?_ s sel,
    stopSources_keeps State.sram ?_ s sel, stopSources_keeps State.table ?_ s sel, stopSources_keeps State.raised ?_ s sel,
    stopSources_keeps State.pending ?_ s sel⟩
  all_goals exact fun t ch x => by cases ch <;> rfl

section
variable {s : State}

/-- The device with its PLL off. -/
def State.pllOff (s : State) : State := ((s.pcrSet CLKCTL.HSRC 0).pcrSet CLKCTL.PLL_LOCK 0).pcrSet CLKCTL.PLL_EN 0

/-- The device with its PLL off and every source stopped. -/
def State.sourcesOff (s : State) : State := s.pllOff.stopSources fun n => true || srcPll n

theorem clocksOff_all (s : State) : s.clocksOff true = (s.sourcesOff.pcrSet CLKCTL.XTAL_EN 0).pcrSet CLKCTL.XTAL_OK 0 := rfl

/-- The crystal off too, the state entered, and no host port's receiver awake (R480, R481). -/
def State.banked (s : State) (p : Power) : State :=
  { s with
    pcr := Cells.set .pcr (Cells.set .pcr s.pcr CLKCTL.XTAL_EN 0) CLKCTL.XTAL_OK 0
    dev := { s.dev with power := p, entry := none, banking := false }
    hosts := s.hosts.map fun x => { x with awake := false } }

theorem foldl_banked (s : State) (p : Power) : allHosts.foldl (fun (t : State) h => t.modHost h fun x => { x with awake := false })
    (((s.pcrSet CLKCTL.XTAL_EN 0).pcrSet CLKCTL.XTAL_OK 0).modDev fun d =>
      { d with power := p, entry := none, banking := false }) = s.banked p := by
  unfold State.banked
  dsimp only [State.pcrSet, State.modDev]
  exact modHost_all _ _

theorem banked_clocks (p : Power) : let t := s.sourcesOff.banked p
    t.pcrGet CLKCTL.HSRC = 0 ∧ t.pcrGet CLKCTL.PLL_LOCK = 0 ∧ t.pcrGet CLKCTL.PLL_EN = 0 ∧ t.pcrGet CLKCTL.XTAL_EN = 0 ∧
    t.pcrGet CLKCTL.XTAL_OK = 0 := by
  have hpcr : s.sourcesOff.pcr = Cells.set .pcr (Cells.set .pcr (Cells.set .pcr s.pcr CLKCTL.HSRC 0) CLKCTL.PLL_LOCK 0) CLKCTL.PLL_EN 0 :=
    (stopSources_rest s.pllOff _).2.2.1
  simp only [State.pcrGet, State.banked, hpcr]
  simp (disch := decide) only [Cells.get_set, Cells.get_set_ne, Nat.zero_mod, and_self]

/-- What the end of banking keeps. -/
theorem banked_rest (p : Power) : let t := s.sourcesOff.banked p
    t.dev = { s.dev with power := p, entry := none, banking := false } ∧ t.hosts = s.hosts.map (fun x => { x with awake := false }) ∧
      t.aon = s.aon ∧ t.kiln = s.kiln ∧ t.xpdr = s.xpdr ∧ t.sram = s.sram ∧ t.table = s.table ∧
      t.raised = s.raised ∧ t.pending = s.pending ∧ ∀ q, t.port q = { s.port q with tmr := (t.port q).tmr } := by
  obtain ⟨hdev, hhosts, -, haon, hkiln, hxpdr, hsram, htable, hraised, hpending⟩ := stopSources_rest s.pllOff fun n => true || srcPll n
  have hport := stopSources_port s.pllOff fun n => true || srcPll n
  unfold State.sourcesOff
  generalize s.pllOff.stopSources (fun n => true || srcPll n) = w at *
  dsimp only [State.banked, State.port, State.pllOff, State.pcrSet] at *
  exact ⟨congrArg (fun d : Device => { d with power := p, entry := none, banking := false }) hdev,
    congrArg (Vector.map _) hhosts, haon, hkiln,
    hxpdr, hsram, htable, hraised, hpending, hport⟩

end

/-! ## Wake (R480, R482-R485) -/

theorem wake_woken (s : State) (n : Nat) : s.wake n = s.woken n := by
  unfold State.wake State.woken
  dsimp only [State.aonSet, State.modDev, State.pcrSet]
  exact modHost_all _ _

end Sys2Proof.Machine

open Sys2Proof Sys2Proof.Machine

/-- Settles O46, by what each row of the power states leaves. -/
theorem powerStatesAreEnteredBankedAndLeft : Obligations.PowerStatesAreEnteredBankedAndLeft := by
  unfold Obligations.PowerStatesAreEnteredBankedAndLeft
  intro s hr
  refine ⟨fun he => exec_to rfl ?noEntry hr rfl, fun st he => ⟨fun h => exec_to rfl ?waiting hr rfl,
    fun hb hc => ⟨fun hst => leaves_of rfl ?banks, fun hst => leaves_of rfl ?doze⟩⟩,
    fun hb => exec_to rfl (if_pos (by rw [hb]; rfl)) hr rfl, fun hb => ?done,
    fun b => ⟨fun h => exec_to rfl (if_pos (h.imp_left fun h => by rw [h]; rfl)) hr rfl, fun hb hf => ?abandoned⟩,
    ⟨fun h => exec_to rfl (if_neg (by simpa using h)) hr rfl, fun h => exec_toldDev rfl (if_pos (by simpa using h)) hr rfl⟩,
    fun b => ⟨fun hf ha => ?wakes, fun h => ?asleep, fun hf ho hv => ?cold, fun h => ?off⟩,
    ⟨fun h => ?due, fun h => ?early⟩⟩
  case noEntry =>
    rw [he]
  case waiting =>
    rw [he]
    exact if_pos (h.imp_right fun h => by rw [h]; rfl)
  case banks =>
    rw [he]
    exact (if_neg (by rw [hb, hc]; decide)).trans (if_neg hst)
  case doze =>
    rw [he]
    exact (if_neg (by rw [hb, hc]; decide)).trans (if_pos hst)
  case done =>
    let p : Power := if s.dev.entry = some 4 then .off else .sleep
    obtain ⟨hdev, hhosts, haon, hkiln, hxpdr, hsram, htable, hraised, hpending, hport⟩ := banked_rest (s := s) p
    obtain ⟨h1, h2, h3, h4, h5⟩ := banked_clocks (s := s) p
    exact ⟨_, exec_to rfl ((if_neg (by rw [hb]; decide)).trans (foldl_banked s.sourcesOff p)) (hraised.trans hr) hpending,
      hdev, hhosts, h1, h2, h3, h4, h5, haon,
      hkiln, hxpdr, hsram, htable, hport⟩
  case abandoned => exact exec_toldDev rfl (if_neg (by rw [hb]; simpa using hf)) hr rfl
  case wakes => exact exec_to rfl ((if_pos ⟨hf, ha⟩).trans (wake_woken s _)) hr rfl
  case asleep => exact exec_to rfl (if_neg fun hx => h.elim hx.1 fun h => h hx.2) hr rfl
  case cold => exact leaves_of rfl (if_pos ⟨hf, ho, hv⟩)
  case off => 
    refine exec_to rfl (if_neg fun ⟨hf, ho, hv⟩ => ?_) hr rfl
    rcases h with h | h | h
    · exact hf h
    · exact h ho
    · exact Bool.false_ne_true (h.symm.trans hv)
  case due => exact exec_to rfl ((if_pos h.1).trans (if_pos h.2)) hr rfl
  case early =>
    refine exec_to rfl ?_ hr rfl
    by_cases hv : s.dev.vsysOk = true
    · exact (if_pos hv).trans (if_neg fun hx => h ⟨hv, hx⟩)
    · exact if_neg hv
end

section
/-! PROOF. Ember's probes and repeats, EMBER_CONFIG, the JTAG halt and the GPIO pins (R385, R459, R467, R489-R491, R559, R560). -/

namespace Sys2Proof.Machine

/-! ## Bits -/

theorem nbit_testBit (n i : Nat) : nbit n i = n.testBit i := by
  rw [nbit, Nat.shiftRight_eq_div_pow, Nat.testBit_eq_decide_div_mod_eq]
  rfl

/-- The number whose bit `i` is 1 where `f i` holds. -/
def bitMask (f : Nat → Bool) (n : Nat) : Nat := ((List.range n).map fun i => if f i then 2 ^ i else 0).sum

theorem bitMask_succ (f : Nat → Bool) (n : Nat) : bitMask f (n + 1) = bitMask f n + if f n then 2 ^ n else 0 := by
  simp [bitMask, List.range_succ]

theorem bitMask_lt (f : Nat → Bool) (n : Nat) : bitMask f n < 2 ^ n := by
  induction n with
  | zero => exact Nat.zero_lt_one
  | succ n ih =>
    rw [bitMask_succ, Nat.pow_succ]
    split <;> omega

theorem bitMask_testBit (f : Nat → Bool) (n i : Nat) : (bitMask f n).testBit i = (decide (i < n) && f i) := by
  induction n with
  | zero => simp [bitMask]
  | succ n ih =>
    have hor : bitMask f (n + 1) = bitMask f n ||| if f n then 2 ^ n else 0 := by
      rw [bitMask_succ]
      split
      · have h := Nat.two_pow_add_eq_or_of_lt (bitMask_lt f n) 1
        rw [Nat.mul_one] at h
        rw [Nat.add_comm, h, Nat.or_comm]
      · rw [Nat.or_zero, Nat.add_zero]
    rw [hor, Nat.testBit_or, ih]
    by_cases hi : i = n
    · subst hi
      cases f i <;> simp
    · have hlt : i < n + 1 ↔ i < n := by omega
      have hbit : (if f n then 2 ^ n else 0 : Nat).testBit i = false := by
        split
        · rw [Nat.testBit_two_pow]; simpa using Ne.symm hi
        · exact Nat.zero_testBit i
      rw [hbit, Bool.or_false, decide_eq_decide.2 hlt]

theorem toPort_val (p : PortNum) : toPort p.val = p := Fin.ext (Nat.mod_eq_of_lt p.isLt)

/-! ## Ember (R489-R491) -/

section
variable {s : State} {p : PortNum} {amp phase : Int}

theorem emberOn_iff : s.emberOn p = true ↔ EmberOn s p := by
  unfold State.emberOn EmberOn
  simp [and_assoc, or_assoc]

theorem emberExceeds_iff {b : Int × Int} : s.emberExceeds b amp phase = true ↔ Exceeds s b amp phase := by
  unfold State.emberExceeds Exceeds
  simp

theorem probed_get {f : Fld} (hd : f.apart EMBSTAT.PROBES) :
    s.emberProbed.aonGet f = s.aonGet f := Cells.get_set_ne _ _ _ _ _ (by decide) hd

/-- A probe counted changes nothing that Ember compares. -/
theorem probed_exceeds {b : Int × Int} : s.emberProbed.emberExceeds b amp phase = true ↔ Exceeds s b amp phase := by
  rw [← emberExceeds_iff]
  unfold State.emberExceeds
  rw [probed_get (by decide), probed_get (by decide)]

section
variable (h : EmberOn s p)
include h

theorem emberProbe_first (hb : s.emberBase p = none) (hr : s.raised = []) : exec (.emberProbe p amp phase) s = .next
    { s.probed with dev := { s.dev with embBase := assocPut p.val (amp, phase) s.dev.embBase } } := by
  refine exec_to rfl ((if_neg (by rw [emberOn_iff.2 h]; decide)).trans ?_) hr rfl
  show (match s.emberBase p with | none => _ | some b => _) = _
  rw [hb]
  rfl

section
variable {b : Int × Int} (hb : s.emberBase p = some b)
include hb

theorem emberProbe_near (hx : ¬Exceeds s b amp phase) (hr : s.raised = []) : exec (.emberProbe p amp phase) s = .next
    { s.probed with dev := { s.dev with
      embBase := assocPut p.val (b.1 + (amp - b.1) / 8, b.2 + phaseDiff phase b.2 / 8) s.dev.embBase } } := by
  refine exec_to rfl ((if_neg (by rw [emberOn_iff.2 h]; decide)).trans ?_) hr rfl
  show (match s.emberBase p with | none => _ | some b => _) = _
  rw [hb]
  exact if_neg (by rw [probed_exceeds]; exact hx)

theorem emberProbe_far (hx : Exceeds s b amp phase) (hr : s.raised = []) : exec (.emberProbe p amp phase) s = .next
    { s.probed with dev := { s.dev with embRepeat := p.val :: s.dev.embRepeat.filter (· ≠ p.val) } } := by
  refine exec_to rfl ((if_neg (by rw [emberOn_iff.2 h]; decide)).trans ?_) hr rfl
  show (match s.emberBase p with | none => _ | some b => _) = _
  rw [hb]
  exact if_pos (by rw [probed_exceeds]; exact hx)

end

end

/-- The device with a repeat taken up. -/
def State.reprobed (s : State) (p : PortNum) : State :=
  { s.probed with dev := { s.dev with embRepeat := s.dev.embRepeat.filter (· ≠ p.val) } }

theorem repeats_on (h : EmberOn s p) (hm : p.val ∈ s.dev.embRepeat) : ¬(!s.emberOn p || !s.dev.embRepeat.contains p.val) = true := by
  rw [emberOn_iff.2 h, List.contains_iff_mem.2 hm]
  decide

theorem repeats_off (h : ¬EmberOn s p ∨ p.val ∉ s.dev.embRepeat) : (!s.emberOn p || !s.dev.embRepeat.contains p.val) = true := by
  rw [Bool.or_eq_true, Bool.not_eq_true', Bool.not_eq_true', Bool.eq_false_iff, Bool.eq_false_iff, Ne, Ne, emberOn_iff,
    List.contains_iff_mem]
  exact h

section
variable {b : Int × Int} (h : EmberOn s p) (hm : p.val ∈ s.dev.embRepeat) (hb : s.emberBase p = some b)
include h hm hb

/-- A repeat beyond a threshold sets TRIG and wakes the device (R491). -/
theorem emberRepeat_confirms (hx : Exceeds s b amp phase) : ∃ g : State → State,
    exec (.emberRepeatProbe p amp phase) = run g ∧ g s =
      if s.dev.power = .off then ((s.reprobed p).aonSet EMBSTAT.TRIG (s.aonGet EMBSTAT.TRIG ||| 2 ^ p.val)).offWake 64
      else ((s.reprobed p).aonSet EMBSTAT.TRIG (s.aonGet EMBSTAT.TRIG ||| 2 ^ p.val)).wake 64 := by
  have htrig : (s.reprobed p).aonGet EMBSTAT.TRIG = s.aonGet EMBSTAT.TRIG := probed_get (by decide)
  refine ⟨_, rfl, (if_neg (repeats_on h hm)).trans ?_⟩
  show (match s.emberBase p with | none => _ | some b => _) = _
  rw [hb, ← htrig]
  exact if_pos (probed_exceeds.2 hx)

/-- A repeat within the thresholds counts as unconfirmed (R491). -/
theorem emberRepeat_unconfirmed (hx : ¬Exceeds s b amp phase) (hr : s.raised = []) : exec (.emberRepeatProbe p amp phase) s = .next
    ((s.reprobed p).aonSet EMBSTAT.UNCONF (min 255 (s.aonGet EMBSTAT.UNCONF + 1))) := by
  have hcount : (s.reprobed p).aonGet EMBSTAT.UNCONF = s.aonGet EMBSTAT.UNCONF := probed_get (by decide)
  refine exec_to rfl ((if_neg (repeats_on h hm)).trans ?_) hr rfl
  show (match s.emberBase p with | none => _ | some b => _) = _
  rw [hb, ← hcount]
  exact if_neg (mt probed_exceeds.1 hx)

end

end

/-! ## EMBER_CONFIG (R385) -/

/-- The fields of EMBER_CONFIG out of range. -/
theorem emberFields_iff (l : List Byte) :
    (leAt l 2 2 < 8 ∨ 2000 < leAt l 2 2 ∨ (List.range 8).any (fun i => 63 < byteAt l (4 + i)) = true ∨
    (byteAt l 12 = 0 ∧ byteAt l 13 = 0)) ↔
    (leAt l 2 2 < 8 ∨ 2000 < leAt l 2 2 ∨ (∃ i < 8, 63 < byteAt l (4 + i)) ∨ (byteAt l 12 = 0 ∧ byteAt l 13 = 0)) := by
  simp only [List.any_eq_true, List.mem_range, decide_eq_true_iff]

/-! ## Pins (R459, R559) -/

section
variable {s : State} {pin : Fin 24} {level : Bool}

/-- The pins with the level of one changed. -/
def pinsWith (w : BitVec 24) (pin : Fin 24) (level : Bool) : BitVec 24 :=
  if level then w ||| BitVec.ofNat 24 (2 ^ pin.val) else w &&& ~~~BitVec.ofNat 24 (2 ^ pin.val)

theorem pinsWith_get (w : BitVec 24) (i : Fin 24) : (pinsWith w pin level).getLsbD i.val = if i = pin then level else w.getLsbD i.val := by
  have hone : (BitVec.ofNat 24 (2 ^ pin.val)).getLsbD i.val = decide (pin.val = i.val) := by
    rw [BitVec.getLsbD_ofNat, Nat.testBit_two_pow, decide_eq_true i.isLt, Bool.true_and]
  have hpin : i = pin ↔ pin.val = i.val := Fin.ext_iff.trans eq_comm
  unfold pinsWith
  simp only [hpin]
  cases level with
  | true =>
    rw [if_pos rfl, BitVec.getLsbD_or, hone]
    by_cases hi : pin.val = i.val <;> simp [hi]
  | false =>
    rw [if_neg Bool.false_ne_true, BitVec.getLsbD_and, BitVec.getLsbD_not, hone, decide_eq_true i.isLt, Bool.true_and]
    by_cases hi : pin.val = i.val <;> simp [hi]

/-- The device with the level of a pin changed. -/
def State.pinned (s : State) (pin : Fin 24) (level : Bool) : State :=
  { s with dev := { s.dev with gpioIn := pinsWith s.dev.gpioIn pin level } }

theorem pinned_chan (ch : Channel) : (s.pinned pin level).chan ch = s.chan ch := by cases ch <;> rfl

/-- A pin that changes its level: a TIN counts it, an input of FUNC 0 tells of it. -/
theorem pinChange_goes (h : s.dev.gpioIn.getLsbD pin.val ≠ level) : ∃ g : State → State, exec (.gpioPinChange pin level) = run g ∧ g s =
    if s.gpioFn pin.val = 1 ∧ pin.val < 4 ∧ level = true ∧ s.pllLocked = true then (s.pinned pin level).tinEdge pin.val
    else if s.gpioFn pin.val = 0 ∧ (!s.dev.gpioDir.getLsbD pin.val) = true ∧ s.dev.full = true ∧ s.hostOn = true then
      (s.pinned pin level).raiseDev 0x0B81 (leBytes 1 pin.val ++ leBytes 1 (bit level))
    else s.pinned pin level := ⟨_, rfl, if_neg h⟩

/-- A rising edge that no channel selects counts nothing. -/
theorem tinEdge_unselected {k : Nat} (h : ∀ ch, tget (s.chan ch) TMR_CTL.SRC ≠ 4 + k) : s.tinEdge k = s :=
  List.foldl_fixed' (fun ch => if_neg fun hx => h ch hx.1) _

end

end Sys2Proof.Machine

open Sys2Proof Sys2Proof.Machine

/-- Settles O47, by what Ember's probes, its configuration, the debug halt and the pins leave. -/
theorem emberDetectsTagsAndPinsAreFollowed : Obligations.EmberDetectsTagsAndPinsAreFollowed := by
  unfold Obligations.EmberDetectsTagsAndPinsAreFollowed
  intro s hr
  refine ⟨fun p amp phase => ⟨fun h => ⟨exec_to rfl (if_pos ?off) hr rfl,
    exec_to rfl (if_pos (repeats_off (.inl h))) hr rfl⟩, fun h => ⟨fun hb => emberProbe_first h hb hr,
    fun b hb => ⟨fun hx => emberProbe_near h hb hx hr, fun hx => emberProbe_far h hb hx hr,
    fun hm => ⟨fun hx ho => ?wakes, fun hx ho => ?cold,
      fun hx => emberRepeat_unconfirmed h hm hb hx hr⟩⟩, fun hm => exec_to rfl (if_pos (repeats_off (.inr hm))) hr rfl⟩⟩,
    fun h => ?config, fun hd => exec_to rfl (if_neg fun hx => hx.2 hd) hr rfl, fun hd => exec_to rfl (if_pos ⟨rfl, hd⟩) hr rfl,
    exec_to rfl (if_neg fun hx => Bool.false_ne_true hx.1) hr rfl,
    fun pin level => ⟨fun h => exec_to rfl (if_pos h) hr rfl, fun h => ?edge⟩⟩
  case off => rw [Bool.eq_false_iff.2 (mt emberOn_iff.1 h)]; rfl
  case wakes =>
    obtain ⟨g, e, hg⟩ := emberRepeat_confirms h hm hb hx
    exact exec_to e (hg.trans ((if_neg ho).trans (wake_woken _ 64))) hr rfl
  case cold =>
    obtain ⟨g, e, hg⟩ := emberRepeat_confirms h hm hb hx
    exact leaves_of e (hg.trans (if_pos ho))
  case config =>
    let c := opEmberConfig.cmd h
    refine ⟨fun hbad => refused_of rfl (if_pos ((emberFields_iff _).2 hbad)), fun hgood => ?_⟩
    let f := fun i => nbit (byteAt h.payload 0) i && (s.port (toPort i)).svc.svc != .isolated
    refine ⟨bitMask f 8, fun i => ?_, bitMask_lt f 8, runs_of rfl (if_neg (mt (emberFields_iff _).1 hgood))⟩
    rw [nbit_testBit, bitMask_testBit, decide_eq_true i.isLt, Bool.true_and]
    show (nbit _ _ && (s.port (toPort i.val)).svc.svc != .isolated) = _
    rw [toPort_val]
  case edge =>
    refine ⟨pinsWith s.dev.gpioIn pin level, pinsWith_get _, ?_⟩
    intro u tin tells
    obtain ⟨g, e, hg⟩ := pinChange_goes h
    have hu : u.raised = [] := hr
    have htells : (s.gpioFn pin.val = 0 ∧ (!s.dev.gpioDir.getLsbD pin.val) = true ∧ s.dev.full = true ∧ s.hostOn = true) ↔ tells := by
      rw [Bool.not_eq_true']
      rfl
    refine ⟨fun ht => exec_toldDev e (hg.trans ((if_neg fun hx => ?_).trans (if_pos (htells.2 ht)))) hu rfl,
      fun ht => leaves_of e (hg.trans (if_pos ht)),
      fun ht hno => exec_to e (hg.trans ((if_pos ht).trans (tinEdge_unselected fun ch => ?_))) hu rfl,
      fun hn hi => exec_to e (hg.trans ((if_neg hi).trans (if_neg (mt htells.1 hn)))) hu rfl⟩
    · exact absurd (hx.1.symm.trans ht.1) (by decide)
    · rw [pinned_chan]
      exact hno ch
end
